-- ==== Sys2Proof/Word.lean ====
section
/-! DEFINITION. The word of the register space (00_scope R4) and the plainest arithmetic over it. -/

namespace Sys2Proof

/-- A 32-bit register word (R4). -/
abbrev Word := BitVec 32

/-- A byte of a message, a telegram or a journal entry. -/
abbrev Byte := BitVec 8

end Sys2Proof
end

