-- ==== Sys2Proof/Args.lean ====
section
/-! DEFINITION. Operand types of the commands: KCP request headers and bodies (16_kcp), route candidates
(08_connections), images, one-time programmable memory and flash contents (17_boot), calibration records (11).
Values that only the outside can supply (light, temperatures, whether a signature verifies) are operands. -/

namespace Sys2Proof

/-- An EVENT body (R208). `len` is its length in bytes, `rsvd` tells that a reserved bit is set, `instant` is the
instant name as one 64-bit number (R183). -/
structure EvReq where
  kind : Nat
  group : Bool
  spread : Bool
  rsvd : Bool
  count : Nat
  instant : Nat
  defer : Nat
  deadline : Nat
  gid : Nat
  members : Nat
  len : Nat
  descs : List Nat
  deriving DecidableEq, Repr

/-- A calibration record (R273): its 32-bit sequence number, the outcome of its signature, the device identity it is bound to, its tables as (register
address, mask, value), the loops marked SUSPECT and the bits of `CAL.INSUSP` set, the CRPD readings in 0.01 dBm, the stated wavelength
in 0.1 nm, the Pinwheel map at the end of C4 by sensor, in 2⁻⁸ °C, and the losses measured in C7 by
plane × 512 + output port, in 0.01 dB. -/
structure CalRec where
  seq : Nat
  imported : Bool
  ok : Bool
  devid : Nat
  fields : List (Nat × Nat × Nat)
  marks : List Nat
  insusp : List Nat
  crpd : Int × Int
  wave : Nat
  pins : List (Nat × Int)
  c7 : List (Nat × Nat)
  deriving DecidableEq, Repr

/-- What a safety channel's own receivers read at a state message that it sends (R282, R289, R298): the sender, the eight output pins (bits
3:0 the high sides, 7:4 the low sides), and whether TPA and TPB read high. -/
structure Reads where
  chan : Nat
  pins : Nat
  tpa : Bool
  tpb : Bool
  deriving DecidableEq, Repr

/-! Measurements of a calibration run (R255 to R259). -/

/-- A quantity measured twice per attempt (R259). The second and the third attempt count only where no earlier one agrees. -/
structure Tries (α : Type) where
  one : α × α
  two : α × α
  three : α × α
  deriving DecidableEq, Repr

/-- C2 of one sensor (R255): sums over 64 samples of the offset of each range in raw units and of the dark level in corrected units. -/
structure SensMeas where
  sens : Nat
  ofs0 : Tries Int
  ofs1 : Tries Int
  dark : Tries Int
  deriving DecidableEq, Repr

/-- Gains of one tap (R255, R257): per range the tap's raw reading and its reference in the same sample window, the converter result
of the plane's CRPD for an input tap, the input-tap value in 10 pW for an output tap. -/
structure TapMeas where
  tap : Nat
  g0 : Tries (Int × Int)
  g1 : Tries (Int × Int)
  deriving DecidableEq, Repr

/-- C4 and C5 of one element (R256, R257): what the fit of the cos² transfer gives for φ_S and φ_P in 10⁻⁴ rad and for KPI, ε0 as a
loss in 0.01 dB, the normalised dump level of full swing (Q1.15), the phase shifts of hold codes 25 and 50 on both segments in 10⁻⁴ rad,
and the feed-forward gains of its four neighbours. -/
structure ElemMeas where
  elem : Nat
  phiS : Tries Int
  phiP : Tries Int
  kpi : Tries Int
  low : Tries Int
  swing : Tries Int
  shifts : List (Tries Int)
  gains : List (Tries Int)
  deriving DecidableEq, Repr

/-- C6 of one VOA (R257): each table point and the code of greatest loss, as (heater code, loss in 0.01 dB). -/
structure VoaMeas where
  voa : Nat
  points : List (Tries (Int × Int))
  block : Tries (Int × Int)
  deriving DecidableEq, Repr

/-- C7 of one path (R258): output port and plane, input-tap and output-tap value in 10 pW, and the loss tap to tap in 0.01 dB. -/
structure PathMeas where
  out : Nat
  plane : Nat
  inp : Nat
  outp : Nat
  loss : Tries Int
  deriving DecidableEq, Repr

/-- What a run that reaches C8 has measured. -/
structure CalMeas where
  sens : List SensMeas
  inTaps : List TapMeas
  elems : List ElemMeas
  voas : List VoaMeas
  outTaps : List TapMeas
  paths : List PathMeas
  deriving DecidableEq, Repr

/-- A stored map (R235). -/
structure PlanMap where
  partialMap : Bool
  descs : List Nat
  deriving DecidableEq, Repr

/-- A host key of the KEYS section (R365): slot, rights and the key itself (as one number). -/
structure HostKey where
  slot : Nat
  rights : Nat
  key : Nat
  deriving DecidableEq, Repr

/-- What an image holds, section by section (R391). `failItem` is the item of R392 that its content fails, 0 when all
hold; `base` and `plan` are (register address, value), overlays (mode code, fields as (address, mask, value)). `calWave` is the stated
wavelength of the CAL_IN source in 0.1 nm (R252), `kickShift` the nominal phase shift that its kick tables were built for, in 10⁻⁴ rad
(R257). -/
structure Image where
  imgSeq : Nat
  total : Nat
  svn : Nat
  raiseSvn : Bool
  holdOk : Bool
  holdKey : Nat
  uikSlot : Nat
  failItem : Nat
  fwVer : Nat
  fwSvn : Nat
  base : List (Nat × Nat)
  overlays : List (Nat × List (Nat × Nat × Nat))
  maps : List (Nat × PlanMap)
  plan : List (Nat × Nat)
  calib : Option CalRec
  safety : List (Nat × Nat)
  safetyCrc : Nat
  keys : List HostKey
  calDemand : Bool
  calWave : Nat
  kickShift : Nat
  revokeUik : List Nat
  revokeBfk : List Nat
  digest : Nat
  deriving DecidableEq, Repr

/-- One-time programmable memory (R393). Of R251 it holds `crpdResp`, the responsivities of the CRPDs as (plane, wavelength in 0.1 nm,
value), `injLoss`, the losses from a CRPD to the injection points as (plane × 512 + port, 0.01 dB), and `fixloss`; of R409 `pinTrim`, the trims of the Pinwheel sensors as (sensor, n0, slope in 2⁻²⁴ °C per count). -/
structure Otp where
  devid : Nat
  grade : Nat
  step : Nat
  uikProg : Nat
  uikRev : Nat
  bfkRev : Nat
  imgSvn : Nat
  fwSvn : Nat
  jtagLock : Bool
  macA : Nat
  macB : Nat
  chcal : List (Nat × Nat)
  fixloss : List (Nat × Nat)
  crpdResp : List (Nat × Nat × Nat)
  injLoss : List (Nat × Nat)
  cert : List Nat
  pinTrim : List (Nat × Nat × Int)
  deriving DecidableEq, Repr

/-- One copy of the slot directory (R390): write count, state (0 EMPTY, 1 VALID, 2 ACTIVE, 3 PENDING, 4 INVALID) and IMGSEQ of each slot,
trial count; `ok` tells that its CRC-32C is valid. -/
structure SlotDir where
  count : Nat
  stA : Nat
  stB : Nat
  seqA : Nat
  seqB : Nat
  trial : Nat
  ok : Bool
  deriving DecidableEq, Repr

/-- The boot flash (R389, R390): what each slot holds, the two copies of the directory and the two calibration regions. `capable` is what
its SFDP reports (R388). -/
structure Flash where
  capable : Bool
  slotA : Option Image
  slotB : Option Image
  dir0 : SlotDir
  dir1 : SlotDir
  cr0 : Option CalRec
  cr1 : Option CalRec
  deriving DecidableEq, Repr

/-- One path choice of a solution: output port, and the centre row in each plane (R191). -/
structure Choice where
  out : Nat
  rowX : Nat
  rowY : Nat
  deriving DecidableEq, Repr

/-- A solution Tangram has found (R192): the paths of the named connections, and the moved bystanders, each with the
index of the named connection whose unit it lies in (R219). -/
structure Cand where
  named : List Choice
  moved : List (Nat × Choice)
  deriving DecidableEq, Repr

/-- A received frame as the receive checks see it (14_network R331 to R338): FCS good (an uncorrectable codeword makes it
bad), codewords not correctable and codewords corrected, length with FCS, EtherType, destination MAC address, VID of a single 802.1Q tag, two or more tags, MAC control opcode and pause time; `ask`, an ARP request or Neighbor
Solicitation for the address `ip`; `udp`, unfragmented UDP to the address `ip`, its destination port and the KCP session field; of a PTP
frame its messageType and domainNumber, and whether it is well-formed. `v6` tells an IPv6 address. -/
structure RxFrame where
  fcsOk : Bool
  uncorr : Nat
  corr : Nat
  len : Nat
  etype : Nat
  dst : Nat
  vid : Option Nat
  manyTags : Bool
  opcode : Nat
  quanta : Nat
  ask : Bool
  v6 : Bool
  ip : Nat
  udp : Bool
  dport : Nat
  session : Nat
  ptpType : Nat
  ptpDom : Nat
  ptpOk : Bool
  deriving DecidableEq, Repr

/-- A signature over the bytes before it (R375): its 132 bytes as one number, and whether it verifies against the key it is checked with. -/
structure GSig where
  ok : Bool
  bits : Nat
  deriving DecidableEq, Repr

/-- The body of a KCP request (R364); `unknown` stands for a TYPE that the table does not name. -/
inductive Req where
  | close
  | read (count mode : Nat) (addrs : List Nat)
  | write (items : List (Nat × Nat × Nat))
  | event (e : EvReq) (arrival : Nat)
  | cancel (session sseq : Nat)
  | query (key session num : Nat)
  | mode (op arg rsvd : Nat)
  | groupCommit (gid members instant : Nat) (sig : GSig)
  | groupAbort (gid : Nat)
  | attest (nonce : Nat)
  | jread (jseq count : Nat)
  | snapshot (op instant : Nat)
  | updBegin (total : Nat)
  | updData (offset len digest : Nat) (differs : Bool)
  | updFinish (content : Option Image)
  | updActivate (how : Nat)
  | updAbandon
  | unknown (type : Nat)
  deriving DecidableEq, Repr

/-- TYPE of a request (R364). -/
def Req.type : Req → Nat
  | .close => 0x02
  | .read .. => 0x03
  | .write .. => 0x04
  | .event .. => 0x05
  | .cancel .. => 0x06
  | .query .. => 0x07
  | .mode .. => 0x08
  | .groupCommit .. => 0x09
  | .groupAbort .. => 0x0A
  | .attest .. => 0x0B
  | .jread .. => 0x0C
  | .snapshot .. => 0x0D
  | .updBegin .. => 0x0E
  | .updData .. => 0x0E
  | .updFinish .. => 0x0E
  | .updActivate .. => 0x0E
  | .updAbandon => 0x0E
  | .unknown t => t

/-- The right a request needs (R364); CLOSE needs none. -/
def Req.right : Req → Option Nat
  | .close => none
  | .read .. => some 0
  | .write .. => some 1
  | .event .. => some 2
  | .cancel .. => some 2
  | .query .. => some 0
  | .mode .. => some 3
  | .groupCommit .. => some 4
  | .groupAbort .. => some 4
  | .attest .. => some 5
  | .jread .. => some 0
  | .snapshot .. => some 7
  | .updBegin .. => some 6
  | .updData .. => some 6
  | .updFinish .. => some 6
  | .updActivate .. => some 6
  | .updAbandon => some 6
  | .unknown _ => none

/-- The two ends of a KCP exchange (R362): IPv6 or IPv4, the module's address and UDP port, the other end's address and UDP port. -/
structure Peer where
  v6 : Bool
  own : Nat
  oport : Nat
  far : Nat
  fport : Nat
  deriving DecidableEq, Repr

/-- What a KCP request brings beside its body (R363): the port it arrived on, the MID it names, its session and SEQ, a
reserved header bit set, its TAG verifies under the session key (R365), whether each MRAM copy verifies an entry
written for it, at the second writing at the latest (R379); its VER and LEN fields, where it came from and the address it was sent to
(R362), and the request it is where no row of the command table is one: an unknown TYPE (R364), or a MODE body with an unknown OP or a
reserved byte not 0 (R372). -/
structure Hdr where
  port : Nat
  mid : Nat
  session : Nat
  seq : Nat
  rsvd : Bool
  tagOk : Bool
  verA : Bool
  verB : Bool
  ver : Nat
  len : Nat
  peer : Peer
  odd : Option Req
  deriving DecidableEq, Repr

end Sys2Proof
end

