-- ==== Sys2Proof/Syntax.lean ====
section
/-! DEFINITION. The commands of the VG5120: one constructor per row of spec/opcode_table.json. -/

namespace Sys2Proof

/-- A command: a step of the part, with what the outside brings to it (Args.lean). -/
inductive Instr where
  /-- PORST_N_ASSERT (R19). Asserting PORST_N puts the module in RESET, clears every drive to hardware clear code 0 and discards overlays and runtime values. -/
  | porstNAssert
  /-- PORST_N_RELEASE (R397). Releasing PORST_N with supplies in limits latches MID and starts LOAD: OTP read, flash set-up, slot choice and image verification. -/
  | porstNRelease (mid : Nat) (supplies : Bool) (otp : Option Otp) (flash : Option Flash)
  /-- PWR_INTERNAL_RESET (R467). A PWR internal reset holds RESET for 10-20 µs, then moves to LOAD once every supply is within its limits. -/
  | pwrInternalReset (supplies : Bool)
  /-- LOAD_COMPLETE (R397). The end of loading enters DARK with cause 0x03 once a slot has verified, or LOCKOUT with cause 0x13 when neither slot verifies. -/
  | loadComplete (ms : Nat)
  /-- DARK_CHECK (R54). After parking has settled, the output taps are checked to be at least 45 dB below the brightest input to confirm the fabric dark. -/
  | darkCheck
  /-- DARK_RELEASE (R19). Once calibration is valid, the start-up tests have passed and both channels have released, DARK is left for the mode that R15 gives, PARK is cleared and the loops close. -/
  | darkRelease
  /-- CAL_RUN_START (R23). When a calibration run is due, the module enters CALIBRATE from DARK and starts the phases C1 to C8. -/
  | calRunStart
  /-- CAL_RUN_END (R262). A calibration run ends as valid, no light, abandoned, bank lost or record failed, and the mode returns to DARK or MAINTAIN. -/
  | calRunEnd (outcome : Nat) (meas : CalMeas) (failed : List Nat)
  /-- CAL_LIGHT_WATCH (R23). Once per second in DARK without a valid record, the CAL has the CRPDs converted and reports CAL_IN light in CAL.SRC. -/
  | calLightWatch (rawX rawY : Int)
  /-- SET_RESTING (R372). A KCP MODE request records RUN or ECO as the resting mode. -/
  | setResting (h : Hdr) (arg : Nat)
  /-- ENTER_MAINTAIN (R372). A KCP MODE request turns on the MAINTAIN condition when both maintenance grants are held. -/
  | enterMaintain (h : Hdr)
  /-- LEAVE_MAINTAIN (R372). A KCP MODE request leaves MAINTAIN for DARK once both grants are released, and is answered only then. -/
  | leaveMaintain (h : Hdr)
  /-- RECALIBRATE (R372). A KCP MODE request enters CALIBRATE for a full run from MAINTAIN, or from DARK while no valid record is in force. -/
  | recalibrate (h : Hdr)
  /-- MP_WATCHDOG_EXPIRY (R24). The PWR watchdog detects an MP crash, sets DEGRADED in hardware, holds ALERT_N and restarts PI02. -/
  | mpWatchdogExpiry
  /-- SLEW_TICK (R63). Every 125 ns each element's slew limiter moves its heater output one step towards the command, or changes range inside the overlap. -/
  | slewTick (bank : Nat)
  /-- KICK_WAVEFORM_END (R62). At the end of the 64-sample waveform, the ramp accumulator is loaded with H0 and the hold current holds. -/
  | kickWaveformEnd (elem : Nat)
  /-- RAMP_START (R69). At T0 + 2 µs the hold ramp starts running down and the loop owns both actuators. -/
  | rampStart (elem : Nat)
  /-- HANDOVER_END (R69). The hold ramp reaches zero: ΔH is forced to 0, the segment is released and HO is cleared. -/
  | handoverEnd (elem : Nat)
  /-- ELEM_CLR_N_ASSERT (R73). The filtered ELEM_CLR_N going low drives every element to its clear code within 250 ns and puts the loops in model hold. -/
  | elemClrNAssert
  /-- ELEM_CLR_N_RELEASE (R75). Releasing ELEM_CLR_N lets each element slew at RSTEP from its clear code to its model value. -/
  | elemClrNRelease
  /-- BANK_SELF_PARK (R79). A bank restarted from cold parks its own elements at their clear codes in the first tick after its ECFG table is restored. -/
  | bankSelfPark
  /-- READBACK_VISIT (R82). Every 250 ns a bank's read-back round checks one element's latches and heater resistance. -/
  | readbackVisit (bank latched vh : Nat)
  /-- DRIVE_FREEZE (R85). After 64 µs without a command from its loop, an element's drive is frozen and FRZ is set. -/
  | driveFreeze (elem : Nat)
  /-- SENSOR_SAMPLE (R93). At a sensor's sample boundary the decimator latches a raw value, which is corrected, flagged and offered to the CE, PORT and Garnet. -/
  | sensorSample (sensor : Nat) (bits : Option Nat) (clip : Bool)
  /-- COMPARATOR_CROSSING (R108). A channel B output-tap comparator crossing its threshold reaches Jasper, which trips SLP or fails dark verification. -/
  | comparatorCrossing (comp : Nat)
  /-- COMPARATOR_SELF_TEST (R108). Once per second a comparator is fed a test current 1 dB above its threshold for 1 µs. -/
  | comparatorSelfTest (comp : Nat) (passed : Bool)
  /-- LOOP_UPDATE (R126). An engine updates one loop from its sample: error, compensator, learning, feed-forward, state transitions and drive command. -/
  | loopUpdate (loop engine : Nat) (residueOk : Bool)
  /-- LOOP_ENTRY_REWRITE (R140). The MP rewrites an uncorrectable loop entry, and the loop resumes in MODEL_HOLD with cause 5. -/
  | loopEntryRewrite (loop : Nat)
  /-- CLUSTER_FAIL (R137). Missing heartbeats, a supply fault or all engines retired fail a cluster; survivors share its loops and rates are shed if needed. -/
  | clusterFail (cluster : Nat)
  /-- CLUSTER_OWNERSHIP_RETURN (R139). A re-qualified cluster takes back its home loops at the next 16 µs period, and DEGRADED may end. -/
  | clusterOwnershipReturn (cluster : Nat)
  /-- SETPT_MEASUREMENT (R151). A set-point input completes a PWM period, PFM gate or analogue conversion and updates its value and LOS counters. -/
  | setptMeasurement (input a b : Nat)
  /-- SETPT_LOS_TIMEOUT (R152). LOST ms without any measurement asserts the set-point input's LOS. -/
  | setptLosTimeout (input : Nat)
  /-- DOMAIN_ESTIMATE (R170). The MP writes a domain offset estimate, and the TBU applies lock and unlock transitions. -/
  | domainEstimate (dom : Nat) (offset : Int) (cls : Nat)
  /-- DOMAIN_FADJ_WRITE (R167). The MP writes a domain rate offset, which takes effect at the next 8 ns tick. -/
  | domainFadjWrite (dom : Nat) (value : Int)
  /-- DOMAIN_PHADJ_WRITE (R167). The MP loads a residual phase, which the counter slews out at 100 ppm. -/
  | domainPhadjWrite (dom : Nat) (value : Int)
  /-- DOMAIN_STEP_GO (R167). A write of STEP_GO requests a domain step, which is refused outside UNLOCKED. -/
  | domainStepGo (dom sec ns : Nat)
  /-- DOMAIN_STEP_APPLY (R167). A pending domain step is applied at a 125 ns tick once no event of the domain is ARMED. -/
  | domainStepApply (dom : Nat)
  /-- DOMAIN_HOLDOVER_ENTRY (R170). Missing Sync, Announce, PPS or MP estimates, or a clockClass above the limit, move a LOCKED domain to HOLDOVER. -/
  | domainHoldoverEntry (dom cause : Nat)
  /-- HOLDOVER_EXPIRY (R170). When HOLDOVER_T expires the domain becomes UNLOCKED and its unarmed events fail. -/
  | holdoverExpiry (dom : Nat)
  /-- PTP_SYNC_RX (R176). The servo takes a received Sync with its stamp t2. -/
  | ptpSyncRx (port seq : Nat) (logInterval : Int) (twoStep : Bool) (t1 corr : Int)
  /-- PTP_FOLLOW_UP_RX (R176). A Follow_Up supplies t1 and the correction for the two-step Sync and completes an estimate. -/
  | ptpFollowUpRx (port seq : Nat) (t1 corr : Int)
  /-- PTP_DELAY_RESP_RX (R176). A Delay_Resp supplies t4 for the mean path delay and sets the Delay_Req rate. -/
  | ptpDelayRespRx (port seq : Nat) (logInterval t4 corr : Int)
  /-- PTP_ANNOUNCE_RX (R174). An Announce feeds the alternate BMCA that chooses the time transmitter. -/
  | ptpAnnounceRx (port cls vector : Nat) (qualified : Bool)
  /-- DELAY_REQ_TX (R177). A Delay_Req is sent from queue 65,535 with its departure time inserted one-step. -/
  | delayReqTx (dom port : Nat)
  /-- PPS_IN_PULSE (R178). A PPS_IN rising edge is stamped in the domain counter and accepted or rejected as a stray. -/
  | ppsInPulse (input : Nat)
  /-- PPS_OUT_EDGE (R179). PPS_OUT rises at each whole second of domain time plus OFS and falls after WIDTH. -/
  | ppsOutEdge
  /-- EVENT (R213). A KCP EVENT request is validated, journaled and acknowledged with its ASEQ, or rejected. -/
  | submitEvent (h : Hdr) (e : EvReq) (arrival : Nat)
  /-- SOLVE_COMPLETE (R198). Tangram finishes solving an event, and Marionette places its waves on slots or the event fails. -/
  | solveComplete (cands : List Cand) (exhausted : Bool) (tenths : Nat)
  /-- WAVE_ARM (R222). 24 µs before its T0 a wave is armed: the budget is checked and retarget records and kick entries are handed over. -/
  | waveArm (aseq : Nat)
  /-- WAVE_START (R223). At T0 the kicks start, the retargeted loops enter MODEL_HOLD with cause 2 and unmovable elements are left out. -/
  | waveStart
  /-- EVENT_DONE (R217). Once every bank has reported its last wave and every element has moved, the event is DONE, journaled and its completion queued. -/
  | eventDone (aseq : Nat)
  /-- EVENT_DEADLINE_EXPIRY (R227). An event that can no longer meet its deadline becomes EXPIRED with DEADLINE. -/
  | eventDeadlineExpiry (aseq : Nat)
  /-- CANCEL (R229). A KCP CANCEL cancels a pending event of the same session, unless it is armed, final or a group member. -/
  | cancelEvent (h : Hdr) (session sseq : Nat)
  /-- QUERY (R466). A KCP QUERY returns an event's state and, once committed, its completion. -/
  | queryEvent (h : Hdr) (key session num : Nat)
  /-- GROUP_COMMIT (R231). A GROUP_COMMIT before the cutoff places a held group event's waves and triggers the echo. -/
  | groupCommit (h : Hdr) (gid members instant : Nat) (sig : GSig)
  /-- GROUP_ABORT (R231). A GROUP_ABORT before any commit fails the group event; after a commit it is only counted. -/
  | groupAbort (h : Hdr) (gid : Nat)
  /-- COMMIT_ECHO (R376). A COMMIT_ECHO received from another member is checked against the host key and commits the event before the cutoff. -/
  | commitEcho (port gid members instant : Nat) (sig : GSig)
  /-- GROUP_COMMIT_CUTOFF (R231). Reaching T0 - 60 µs without a commit fails the held group event with GROUP_ABORT. -/
  | groupCommitCutoff (aseq : Nat)
  /-- REPAIR_SOLVE (R200). An element becoming unavailable starts a repair solve, whose waves re-route the affected connections or leave them UNROUTED. -/
  | repairSolve (cands : List Cand) (tenths : Nat)
  /-- REOPTIMISATION (R202). Background re-optimisation submits a session-0 event that moves a connection off SUSPECT elements or routes an UNROUTED one. -/
  | reoptimisation (out : Nat)
  /-- PATH_QUALITY_REFRESH (R204). Every 10 ms the RS refreshes the REE, crosstalk and insertion-loss figures of each path. -/
  | pathQualityRefresh
  /-- RULE_FIRE (R236). In a 1 µs PLAN tick a rule whose trigger holds fires its action, claims ports and goes to FIRED. -/
  | ruleFire (rule : Nat)
  /-- TRIG_EDGE (R459). A filtered edge on a TRIG pin is presented to the rules. -/
  | trigEdge (pin : Nat) (rising : Bool)
  /-- RULE_HOLDOFF_EXPIRY (R240). A non-oneshot rule returns from HOLDOFF to ARMED after HOLDOFF ms. -/
  | ruleHoldoffExpiry (rule : Nat)
  /-- REARM (R240). A write of PLAN.RCTL.REARM returns a FIRED rule to ARMED and releases its claim. -/
  | rearmRule (rule : Nat)
  /-- RELEASE (R243). A write of PLAN.RCTL.RELEASE releases a rule's claim only. -/
  | releaseClaim (rule : Nat)
  /-- RULE_ENABLE (R240). A write of PLAN.RCTL.EN puts the rule in ARMED or OFF. -/
  | ruleEnable (rule : Nat) (on : Bool)
  /-- SCHEDULE_START (R247). RUN = 1 or a rule of action 2 starts a cyclic schedule at the next aligned air frame. -/
  | scheduleStart (sched : Nat)
  /-- SCHEDULE_STOP (R248). RUN = 0, a rule of action 3 or a mode without plans stops a schedule's step submissions. -/
  | scheduleStop (sched : Nat)
  /-- SCHEDULE_STEP_SUBMIT (R247). PLAN submits a schedule step's APPLY_MAP event its lead before the step's instant. -/
  | scheduleStepSubmit (sched : Nat)
  /-- BG_B1_MODEL (R267). Background step B1 refits an actuator's UMOD and TCO from averaged commands. -/
  | bgB1Model (loop sum : Nat)
  /-- BG_B2_CURVATURE (R267). Background step B2 offsets the hold in a CAL window and refits KPI, ε0 and LSPAN. -/
  | bgB2Curvature (elem kpi low swing : Nat) (umod dark : Option Nat)
  /-- BG_B3_INPUT_TAP (R267). Background step B3 injects CAL_IN into an unconnected input and refits its input-tap gains. -/
  | bgB3InputTap (input : Nat) (rawX rawY : Int) (taps : List (Int × Int))
  /-- CORRECTION_IN_FORCE (R271). A ready correction is written at the first boundary of its touched domains. -/
  | correctionInForce (loop : Nat)
  /-- CORRECTION_GRADUAL_START (R272). With no boundary within 50 ms, a correction starts a 5 ms gradual ramp. -/
  | correctionGradualStart (loop : Nat)
  /-- CAL_RECORD_WRITE (R276). Every PERIOD hours, or on entry to MAINTAIN, background corrections are written as a new signed record. -/
  | calRecordWrite (ok : Bool)
  /-- GUARD_CONTACT_CHANGE (R286). A guard contact pin changes level and each channel's debounce filter starts. -/
  | guardContactChange (input pin : Nat) (level : Bool)
  /-- GUARD_FILTER_EXPIRY (R287). After DEB of steady level a guard pin takes its filtered level and the input state changes, possibly raising a demand. -/
  | guardFilterExpiry (chan input pin : Nat)
  /-- GARNET_CYCLE (R280). Garnet's 1 ms evaluation cycle acts on demands, switch commands and forced-dark lines. -/
  | garnetCycle
  /-- JASPER_CYCLE (R280). Jasper's 125 µs evaluation cycle acts on demands, switch commands and forced-dark lines. -/
  | jasperCycle
  /-- XLINK_PERIODIC_MSG (R282). A PERIODIC cross-link state message from the other channel is received and compared. -/
  | xlinkPeriodicMsg (sender : Reads)
  /-- XLINK_CHANGE_MSG (R282). A CHANGE cross-link message carrying a changed state is received, and trips and lockout causes are adopted. -/
  | xlinkChangeMsg (sender : Reads)
  /-- CROSS_CHECK_FAULT (R283). 20 ms of disagreement or silence, or a message rate outside 98-102, raises a demand on every output and a lockout cause. -/
  | crossCheckFault (chan item : Nat)
  /-- TPA_PULSE (R289). Garnet drives TPA low for 500 µs at the start of each 20 ms cycle. -/
  | tpaPulse
  /-- TPB_PULSE (R289). Jasper drives a TPB pulse 10 ms after each observed TPA falling edge. -/
  | tpbPulse
  /-- TPA_LOSS (R289). With no TPA pulse seen for 40 ms, Jasper runs TPB on its own cycle and sets TP_FAULT. -/
  | tpaLoss
  /-- TEST_PULSE_CHECK (R290). 400 µs after a pulse starts, each channel checks the contacts for shorts and confirms faults. -/
  | testPulseCheck (pulse : Nat) (levels : List Bool)
  /-- STARTUP_OPEN_TEST_RESTORE (R293). The start-up open test ends by restoring TPA and TPB and recording pass or failure per input. -/
  | startupOpenTestRestore (levels : List Bool)
  /-- DISCREPANCY_TICK (R295). Each channel's 1 ms tick counts contact disagreement and trips the input to LOCKED past DISC_T. -/
  | discrepancyTick (chan : Nat)
  /-- SO_READBACK_FAULT (R298). An output pin level that differs from its expected level for 2 ms is an output fault and a lockout cause. -/
  | soReadbackFault (chan output : Nat)
  /-- OUTPUT_TEST_START (R299). Once per second a channel opens one switch of an energised output to test it. -/
  | outputTestStart (chan output : Nat)
  /-- OUTPUT_TEST_PASS (R299). The tested pin reaches its expected level and the switch is re-closed at once. -/
  | outputTestPass (chan : Nat)
  /-- OUTPUT_TEST_TIMEOUT (R299). At 300 µs without the expected level the test fails as an output fault. -/
  | outputTestTimeout (chan : Nat)
  /-- VSAFE_FAULT (R301). VSAFE outside 19.2-30 V for 1 ms is a demand on every output. -/
  | vsafeFault (chan : Nat)
  /-- VSAFE_RECOVER (R301). VSAFE back in range for 100 ms ends the VSAFE demand. -/
  | vsafeRecover (chan : Nat)
  /-- SRST_N_PRESS_START (R302). The filtered falling edge of SRST_N starts each channel's timing of a press. -/
  | srstNPressStart (chan : Nat)
  /-- SRST_N_PRESS_RELEASE (R302). At release each channel accepts a press of 100 ms to 5 s or rejects it. -/
  | srstNPressRelease (chan ms : Nat)
  /-- DELIBERATE_RESET (R319). A press accepted by both channels within 20 ms releases SLP latches and guard SDPs and may move SAFE_STOP or LOCKOUT to DARK. -/
  | deliberateReset
  /-- MAINT_N_CHANGE (R304). A filtered change of MAINT_N grants or withdraws maintenance, and MAINT_N going high while granted raises a demand and SAFE_STOP. -/
  | maintNChange (chan : Nat) (level : Bool)
  /-- DARK_VERIFY (R310). From 2 ms after a block, each channel verifies that a port held dark is dark, or holds DARKVER. -/
  | darkVerify (chan port : Nat) (dark : Bool)
  /-- LOCKOUT_CAUSE_CLEAR (R318). A lockout cause whose gone-when condition has held for 1 s is released. -/
  | lockoutCauseClear (chan cause : Nat)
  /-- TELEGRAM_COPY_RX (R324). Each channel checks a telegram copy from a SAFETY ring, adds its demands and accepts a matching pair. -/
  | telegramCopyRx (chan port : Nat) (bytes : List Nat)
  /-- TELEGRAM_PARTNER_TIMEOUT (R324). A valid copy without a partner within 5 ms is counted in TEL_SINGLE. -/
  | telegramPartnerTimeout (chan : Nat)
  /-- TELEGRAM_WATCHDOG_EXPIRY (R326). TWD without an accepted pair raises the latched watchdog demand. -/
  | telegramWatchdogExpiry (chan : Nat)
  /-- STATUS_TELEGRAM_TX (R327). Every TXCYC ms Garnet sends its status telegram on both ports. -/
  | statusTelegramTx
  /-- LINK_UP (R331). A port comes up and loads its latency constants into the TBU. -/
  | linkUp (port rxlat txlat : Nat)
  /-- LINK_DOWN (R331). A port loses block lock or reports a fault and goes down. -/
  | linkDown (port : Nat) (hiBer lfault rfault : Bool)
  /-- PORT_FAIL (R332). A port down for more than 1 s, or with an uncorrectable memory error, is failed and sets DEGRADED. -/
  | portFail (port : Nat) (memErr : Bool)
  /-- PORT_RESTORED (R332). A port up for 1 s without error ends its DEGRADED condition. -/
  | portRestored (port : Nat)
  /-- FRAME_RX (R334). A received frame is checked, classified into a ring, policed if KCP, and delivered or discarded. -/
  | frameRx (port : Nat) (f : RxFrame)
  /-- PAUSE_FRAME (R339). A received PAUSE loads, reloads or stops the port's pause timer, or is ignored. -/
  | pauseFrame (port quanta : Nat)
  /-- PAUSE_EXPIRY (R339). The pause timer runs out and the port may start frames again. -/
  | pauseExpiry (port : Nat)
  /-- SAFETY_BUFFER_TIMEOUT (R337). A SAFETY ring buffer is returned 10 ms after delivery if both channels have not taken it. -/
  | safetyBufferTimeout (port : Nat)
  /-- FRAME_ENQUEUE (R346). A frame is enqueued under the cell limits or tail-dropped. -/
  | frameEnqueue (queue port len tag : Nat)
  /-- SHAPER_REFILL (R348). Every 65.536 µs a queue's token bucket is refilled up to its burst. -/
  | shaperRefill (queue : Nat)
  /-- EGRESS_SELECT (R351). When the MAC can start a frame, the scheduler picks one by class priority, DRR, shaper and gate, and starts it. -/
  | egressSelect (port : Nat)
  /-- FRAME_TX_COMPLETE (R333). A frame finishes leaving the MAC and the port is free for the next one. -/
  | frameTxComplete (port : Nat)
  /-- GATE_ENTRY_CHANGE (R352). The gate control list moves to its next entry or a new cycle. -/
  | gateEntryChange (port : Nat)
  /-- QUEUE_SAMPLER_VISIT (R358). A sampler reads a queue's QSTAT and writes a queue-sample record. -/
  | queueSamplerVisit (k queue : Nat)
  /-- TELEMETRY_HOLD_EXPIRY (R359). An open telemetry frame held for HOLD µs is closed and enqueued. -/
  | telemetryHoldExpiry (queue : Nat)
  /-- OPEN (R365). A KCP OPEN authenticates a key slot, derives the session key and opens or resumes a session. -/
  | openSession (h : Hdr) (slot : Nat) (resume planobs : Bool) (openId : Nat) (sigOk : Bool) (key modNonce : Nat)
  /-- CLOSE (R367). A KCP CLOSE closes the session, whose completions are held. -/
  | closeSession (h : Hdr)
  /-- SESSION_IDLE_TIMEOUT (R367). IDLE_T seconds without a valid request close a session. -/
  | sessionIdleTimeout (session : Nat)
  /-- REORDER_TIMEOUT (R368). A request held 2 ms in the reorder window is discarded and counted in GAPDROP. -/
  | reorderTimeout (session seq : Nat)
  /-- READ (R370). A KCP READ returns a list or block of register words, journaled if any word is RC. -/
  | readWords (h : Hdr) (count mode : Nat) (addrs : List Nat)
  /-- WRITE (R371). A KCP WRITE validates all items, journals them and applies them in one step. -/
  | writeWords (h : Hdr) (items : List (Nat × Nat × Nat))
  /-- ATTEST (R377). A KCP ATTEST returns the signed identity, image, calibration and journal state with the nonce. -/
  | attest (h : Hdr) (nonce : Nat)
  /-- JREAD (R381). A KCP JREAD returns committed journal entries from a JSEQ. -/
  | jread (h : Hdr) (jseq count : Nat)
  /-- JOURNAL_COPY_SELF_CHECK (R379). 60 s after a retirement the MP self-checks the retired copy and starts its resynchronisation if it passes. -/
  | journalCopySelfCheck (copy : Nat) (passed : Bool)
  /-- JOURNAL_RESYNC_DONE (R379). A resynchronised copy matches the survivor and DEGRADED ends. -/
  | journalResyncDone (copy : Nat)
  /-- PWR_FAIL_ASSERT (R382). Filtered PWR_FAIL_N stops KCP reading and arming, finishes the write in progress and commits POWERFAIL. -/
  | pwrFailAssert
  /-- PWR_FAIL_RELEASE (R382). PWR_FAIL_N high for 1 ms without a reset resumes journaling with a second POWERFAIL entry. -/
  | pwrFailRelease
  /-- JOURNAL_RECOVERY (R383). Recovery merges the copies, replays from the checkpoint, resolves events, writes RECOVERY and resumes sessions. -/
  | journalRecovery (badA badB : List Nat) (ms : Nat)
  /-- UPDATE_BEGIN (R399). UPDATE BEGIN requests the UPDATE condition, erases the inactive slot and sets the update owner. -/
  | updateBegin (h : Hdr) (total : Nat)
  /-- UPDATE_DATA (R399). UPDATE DATA programs and reads back a piece of the new image. -/
  | updateData (h : Hdr) (offset len digest : Nat) (differs : Bool)
  /-- UPDATE_FINISH (R399). UPDATE FINISH verifies the slot, makes it VALID or INVALID and ends the UPDATE condition. -/
  | updateFinish (h : Hdr) (content : Option Image)
  /-- UPDATE_ACTIVATE (R399). UPDATE ACTIVATE marks the new slot PENDING, to load next, now by reset or by hold-through restart. -/
  | updateActivate (h : Hdr) (how : Nat)
  /-- UPDATE_ABANDON (R399). UPDATE ABANDON marks the slot INVALID and ends UPDATE. -/
  | updateAbandon (h : Hdr)
  /-- HOLD_THROUGH_RESTART (R401). The MP and PI07 restart onto the hold-loadable sections of the new image while drives are held. -/
  | holdThroughRestart (badA badB : List Nat) (ms : Nat)
  /-- ISLAND_SUPPLY_FAULT (R405). An island switch opens on undervoltage or overcurrent and the island is FAILED. -/
  | islandSupplyFault (island : Nat)
  /-- ISLAND_RESTART_ATTEMPT (R405). 1 s after a supply failure the MP or PWR tries to restart the island, up to three times. -/
  | islandRestartAttempt (island : Nat) (ok : Bool)
  /-- ISLAND_BACK_IN_SERVICE (R406). A switched-on island completes its start-up and is RESTARTED. -/
  | islandBackInService (island engines : Nat)
  /-- THERMAL_ROUND_PUBLISH (R409). Each 4 ms round publishes 256 readings and updates bands, WARN, broken sensors, sheds, latches and automatic restarts. -/
  | thermalRoundPublish (counts : List Nat)
  /-- ISLAND_RESTART_WRITE (R418). A write of PWR.ISL.RESTART restarts a shed island that meets the restart conditions. -/
  | islandRestartWrite (island : Nat)
  /-- AUTO_SUSPEND_EXPIRY (R419). For PI02 and PI05, 10 minutes after the third shed the suspension ends and AUTO_SUSP clears. -/
  | autoSuspendExpiry (island : Nat)
  /-- SCRUB_ACCESS (R413). The scrubber reads and corrects one SRAM word as it paces through its interval. -/
  | scrubAccess (addr flips : Nat)
  /-- PCV_CONVERSION (R421). The PCV completes one sequence entry's conversion and publishes the corrected result. -/
  | pcvConversion (entry : Nat) (raw : Int)
  /-- REFX_CHECK (R421). Every 100 ms REFX is converted and checked against 2.500 V ± 1 %. -/
  | refxCheck (raw : Int)
  /-- REF_OK_SET (R423). 5 ms after REFBUF_EN is set, REF_OK sets. -/
  | refOkSet
  /-- STATUS_CLEAR (R427). A W1C write to a fault STATUS register clears sticky bits, and a simultaneous set wins. -/
  | statusClear (blk mask : Nat)
  /-- FIRST_INFO_CLEAR (R429). Writing 1 to FIRST_INFO.VALID frees first-error capture for the next occurrence. -/
  | firstInfoClear (blk : Nat)
  /-- INJECT_ARM (R431). Writing INJECT.ARM in MAINTAIN arms one error injection into the selected checker. -/
  | injectArm (blk sel mask : Nat)
  /-- SNAP_PIN (R433). A filtered rising edge on SNAP triggers a snapshot. -/
  | snapPin
  /-- SNAPSHOT_SCHEDULED_TRIGGER (R434). A scheduled snapshot instant arrives and fires, or is dropped if its domain is unusable. -/
  | snapshotScheduledTrigger
  /-- SNAPSHOT_TRIGGER (R436). A KCP SNAPSHOT TRIGGER latches a snapshot unless one is HELD. -/
  | snapshotTrigger (h : Hdr)
  /-- SNAPSHOT_SCHEDULE (R436). A KCP SNAPSHOT SCHEDULE sets a pending trigger at a named instant. -/
  | snapshotSchedule (h : Hdr) (instant : Nat)
  /-- SNAPSHOT_CANCEL_SCHEDULE (R436). A KCP SNAPSHOT CANCEL SCHEDULE drops the pending scheduled trigger. -/
  | snapshotCancelSchedule (h : Hdr)
  /-- SNAPSHOT_RELEASE (R434). A KCP SNAPSHOT RELEASE, or a write of SNP.CTRL.RELEASE, frees the HELD snapshot. -/
  | snapshotRelease (h : Hdr)
  /-- SNAPSHOT_EXPORT (R436). A KCP SNAPSHOT EXPORT, or a write of SNP.CTRL.EXPORT, sends the buffer as record frames. -/
  | snapshotExport (h : Hdr)
  /-- SNAPSHOT_EXPORT_END (R434). A finished export releases the snapshot when AUTOREL is set. -/
  | snapshotExportEnd
  /-- MID_STRAP_CHANGE (R444). A change of the MID straps after latching sets STRAP_CHG and is otherwise ignored. -/
  | midStrapChange (mid : Nat)
  /-- DEFERRAL_LIMIT_EXPIRY (R226). An event whose wave delay reaches its deferral limit fails with NO_GUARD_WINDOW, BUDGET or PORT_BUSY, or ends under R224 if a wave has started. -/
  | deferralLimitExpiry (aseq : Nat)
  /-- EPOCH_REACHED (R180). Domain time reaches the epoch E, so AF.AFVALID becomes 1 and the domain stops counting as UNLOCKED for scheduling and gate fallback. -/
  | epochReached (dom : Nat)
  /-- SRST_N_ACCEPT_TIMEOUT (R302). A press accepted by one channel without the other's acceptance within 20 ms is rejected and sets SAF.STATUS.SRST_REJ. -/
  | srstNAcceptTimeout (chan : Nat)
  /-- SAFETY_CHANNEL_CLOCK_LOSS (R279). A safety channel that loses its own oscillator stops driving its output switches, which open within 1.5 ms. -/
  | safetyChannelClockLoss (chan : Nat)
  /-- ISLAND_REQUALIFY_RESTART (R139). The MP switches a failed cluster island, or one with a retired engine, off and on again to re-qualify its engines. -/
  | islandRequalifyRestart (island : Nat)
  /-- POLICER_REFILL (R356). At the start of each sweep period, each enabled KCP ingress policer is refilled by its rate, up to its burst. -/
  | policerRefill (k : Nat)
  deriving DecidableEq, Repr

end Sys2Proof
end

