-- ==== Sys2Proof/Decode.lean ====
section
/-! DEFINITION. The commands as words. spec/opcode_table.json gives no row any bits: a command of this block is no word that it
fetches, so no word spells one. -/

namespace Sys2Proof

/-- The command that a word of the table spells: none, since no row has bits. -/
def decodeTableWord (_nbits _w : Nat) : Option Instr := none

end Sys2Proof
end

