-- ==== Sys2Proof/Config.lean ====
section
/-! DEFINITION. What the spec leaves open: free values, as constants with no body. Nothing can evaluate them; a claim
that holds of them holds whatever they are. -/

namespace Sys2Proof.Config

/-- Whether a dark level that is no whole number is rounded up (04_sensing_light R98 gives 2^((t − tcal)/10) with no rounding rule): DARK
code of the sensor, signed distance in 2⁻⁸ °C. Free: log entry 14. -/
opaque darkUp : Nat → Int → Bool

/-- Residual extinction error, crosstalk and insertion loss of a path from its inputs (11_calibration R263 to R266
give real-valued formulas with no rounding rule): which figure, plane, output port, refresh count. Free: log entry
15. -/
opaque quality : Nat → Nat → Nat → Nat → Nat

/-- Whether a REFX reading that is no whole number of microvolts is rounded up (18_power R421 states no rounding): corrected result.
Free: log entry 16. -/
opaque refxUp : Int → Bool

/-- The bit of EGS.CNTHALF of an egress counter, by its address (15_egress R361 names the register and not the bits).
Free: log entry 17. -/
opaque egsHalfBit : Nat → Nat

/-- The kick class of a move of an element for which no record gives KPI (03_element_drive R65), by the change of U².
Free: log entry 18. -/
opaque openClass : Nat → Nat

/-- Whether the transmission code that brings a plane's light to a goal is rounded up (05 R131 computes it from insertion loss and input
power in dB, with no rounding rule): input power, goal, loss in 0.01 dB. Free: log entry 19. -/
opaque openUp : Nat → Nat → Nat → Bool

/-- Quotient by a divisor of 0 in the loop arithmetic (R121, R122, R145, R146, R161 divide by values that a floor of 0
leaves at 0): the dividend. Free: log entry 20. -/
opaque zeroQuot : Int → Int

/-- Power of a calibration reference photodiode in 0.01 dBm, from a converter result (11_calibration R251 keeps its
responsivity in OTP and states no formula): plane, responsivity, corrected result. Free: log entry 21. -/
opaque crpdPower : Nat → Nat → Int → Int

/-- Signature of the module's attestation key over bytes, as one number of 132 bytes (17_boot R402: the key never leaves the
CL). Free: log entry 22. -/
opaque signature : List Nat → Nat

/-- The module's ephemeral public key for an OPEN, as one number of 133 bytes, by its nonce (16_kcp R365). Free: log entry 22. -/
opaque modulePub : Nat → Nat

end Sys2Proof.Config
end

