-- ==== Sys2Proof/Machine/Flags.lean ====
section
/-! DEFINITION. The flag computations and the plain arithmetic every family shares: two's complement, saturation,
rounding shifts, bit tests, byte order, and the CRC-32C of journal and log entries. Exact Int arithmetic is used
and narrowed once at the end. -/

namespace Sys2Proof.Machine

/-- The signed value of the low `w` bits of `n`. -/
def toS (w n : Nat) : Int :=
  let m := n % 2 ^ w
  if m < 2 ^ (w - 1) then (m : Int) else (m : Int) - (2 ^ w : Nat)

/-- The `w`-bit two's complement pattern of `x`. -/
def ofS (w : Nat) (x : Int) : Nat := (x % ((2 ^ w : Nat) : Int)).toNat

/-- Clamp to the signed `w`-bit range. -/
def satS (w : Nat) (x : Int) : Int :=
  max (-((2 ^ (w - 1) : Nat) : Int)) (min (((2 ^ (w - 1) : Nat) : Int) - 1) x)

/-- Clamp to 0 .. `hi`. -/
def clampN (hi : Nat) (x : Int) : Nat := min hi x.toNat

/-- Clamp to `lo` .. `hi`. -/
def clampI (lo hi x : Int) : Int := max lo (min hi x)

/-- Arithmetic right shift (rounds towards minus infinity). -/
def sra (x : Int) (k : Nat) : Int := x / ((2 ^ k : Nat) : Int)

/-- Right shift with half added first. -/
def sraR (x : Int) (k : Nat) : Int := if k = 0 then x else sra (x + ((2 ^ (k - 1) : Nat) : Int)) k

/-- Bit `i` of `n`. -/
def bitN (n i : Nat) : Bool := n / 2 ^ i % 2 == 1

/-- Bits `lo + w - 1 .. lo` of `n`. -/
def bitsN (n lo w : Nat) : Nat := n / 2 ^ lo % 2 ^ w

/-- A Bool as a field value. -/
def b2n (b : Bool) : Nat := if b then 1 else 0

/-- Add one, stopping at the greatest `w`-bit value. -/
def incSat (w n : Nat) : Nat := if n + 1 < 2 ^ w then n + 1 else 2 ^ w - 1

/-- Bytes, most significant first (R4: KCP messages are big-endian). -/
def beBytes : Nat → Nat → List Nat
  | 0, _ => []
  | k + 1, n => (n / 256 ^ k % 256) :: beBytes k n

/-- The value of bytes, most significant first. -/
def ofBe (l : List Nat) : Nat := l.foldl (fun a b => a * 256 + b % 256) 0

/-- Bytes, least significant first: a register word as it lies in the register space (R4). -/
def leBytes : Nat → Nat → List Nat
  | 0, _ => []
  | k + 1, n => (n % 256) :: leBytes k (n / 256)

/-- The value of bytes, least significant first. -/
def ofLe (l : List Nat) : Nat := l.foldr (fun b a => b % 256 + a * 256) 0

/-- One bit of the reflected CRC-32C step. -/
def crcBit (c : Nat) : Nat := if c % 2 = 1 then Nat.xor (c / 2) 0x82F63B78 else c / 2

/-- CRC-32C (Castagnoli), one byte. -/
def crcByte (c b : Nat) : Nat :=
  let x := Nat.xor c (b % 256)
  crcBit (crcBit (crcBit (crcBit (crcBit (crcBit (crcBit (crcBit x)))))))

/-- CRC-32C over bytes, as journal entries (R378), log entries (R417) and records carry it. -/
def crc32c (l : List Nat) : Nat := Nat.xor (l.foldl crcByte 0xFFFFFFFF) 0xFFFFFFFF

/-- The greatest number from `lo` to `hi` − 1 that satisfies `p`, which holds up to some number. -/
def lastOk (p : Nat → Bool) : Nat → Nat → Nat → Nat
  | 0, lo, _ => lo
  | n + 1, lo, hi => if hi ≤ lo + 1 then lo else if p ((lo + hi) / 2) then lastOk p n ((lo + hi) / 2) hi else lastOk p n lo ((lo + hi) / 2)

/-- The first `n` numbers from `a`. -/
def span (a : Nat) : Nat → List Nat
  | 0 => []
  | n + 1 => a :: span (a + 1) n

/-- Element `i` of a list, or a default. -/
def nthD {α : Type} (d : α) : List α → Nat → α
  | [], _ => d
  | x :: _, 0 => x
  | _ :: t, i + 1 => nthD d t i

/-- Replace element `i`. -/
def setNth {α : Type} (v : α) : List α → Nat → List α
  | [], _ => []
  | _ :: t, 0 => v :: t
  | x :: t, i + 1 => x :: setNth v t i

end Sys2Proof.Machine
end

