-- ==== Sys2Proof/Machine/Operands.lean ====
section
/-! DEFINITION. Operand forms of the commands: element, loop and sensor numbering, banks and power islands, block
regions, connection descriptors, instant names and pattern periods. -/

namespace Sys2Proof.Machine

/-! Numbering (02_switching_fabric R36 to R41, 04_sensing_light R89). -/

/-- Number of elements and of loops. -/
def nElem : Nat := 34816
def nLoop : Nat := 35840

/-- Compact element index (R40). -/
def elemIx (plane stage row pos : Nat) : Nat := plane * 17408 + stage * 1024 + row * 4 + pos

/-- Plane, stage, row and position of a compact index. -/
def elemPlane (e : Nat) : Nat := e / 17408
def elemStage (e : Nat) : Nat := e % 17408 / 1024
def elemRow (e : Nat) : Nat := e % 1024 / 4
def elemPos (e : Nat) : Nat := e % 4

/-- Compact index of a 16-bit element ID, none for STAGE above 16 (R39). -/
def elemOfId (id : Nat) : Option Nat :=
  if bitsN id 10 5 ≤ 16 then some (elemIx (bitsN id 15 1) (bitsN id 10 5) (bitsN id 2 8) (bitsN id 0 2)) else none

/-- Bank of an element (R41). -/
def bankOf (e : Nat) : Nat := elemRow e / 16

/-- Bank-local index of an element: PLANE × 1,088 + STAGE × 64 + (ROW − 16k) × 4 + POS (03_element_drive). -/
def localIx (e : Nat) : Nat := elemPlane e * 1088 + elemStage e * 64 + elemRow e % 16 * 4 + elemPos e

/-- Compact index of local index `i` of bank `k`. -/
def elemOfLocal (k i : Nat) : Nat := elemIx (i / 1088) (i % 1088 / 64) (16 * k + i % 64 / 4) (i % 4)

/-- Loop of the VOA of plane `p`, output port `n` (R35). -/
def voaLoop (p n : Nat) : Nat := 34816 + p * 512 + n

/-- A loop is a VOA loop. -/
def isVoa (n : Nat) : Bool := decide (34816 ≤ n)

/-- Power island of an actuator: PI(12+k) for an element, PI28 or PI29 for a VOA (R109). -/
def actIsland (n : Nat) : Nat :=
  if n < 34816 then 12 + bankOf n else if (n - 34816) % 512 < 256 then 28 else 29

/-- Power island of a sensor: the bank of an element, the port bank of a tap. -/
def sensIsland (s : Nat) : Nat :=
  if s < 34816 then 12 + bankOf s else if (s - 34816) % 512 < 256 then 28 else 29

/-- The route from input line to a centre row and on to an output (R37, R191): row and input/output of each stage.
Stage `s` of 0 to 7 leaves by the output that bit 7 − s of CROW names; stage `s` of 9 to 16 is entered by the input
that bit s − 9 of CROW names. -/
def rotr (l m : Nat) : Nat := l / 2 ^ m * 2 ^ m + l % 2 ^ m / 2 + l % 2 * 2 ^ (m - 1)
def rotl (l m : Nat) : Nat := l / 2 ^ m * 2 ^ m + l * 2 % 2 ^ m + l % 2 ^ m / 2 ^ (m - 1)

/-- The link from output line `l` of stage `s` to the input line of stage `s + 1` (R37). -/
def link (s l : Nat) : Nat := if s ≤ 7 then rotr l (9 - s) else rotl l (s - 6)

/-- Forward half: (row, input, output) of stages 0 to 7 and the input line of stage 8. -/
def fwdPath (crow : Nat) : Nat → Nat → Nat → List (Nat × Nat × Nat) × Nat
  | 0, _, l => ([], l)
  | k + 1, s, l =>
    let o := bitsN crow (7 - s) 1
    let r := fwdPath crow k (s + 1) (link s (2 * (l / 2) + o))
    ((l / 2, l % 2, o) :: r.1, r.2)

/-- Backward half: (row, input, output) of stages 16 down to 9, given the output line of the stage; the result is in
stage order and carries the output line of stage 8. -/
def bwdPath (crow : Nat) : Nat → Nat → Nat → List (Nat × Nat × Nat) → List (Nat × Nat × Nat) × Nat
  | 0, _, l, acc => (acc, l)
  | k + 1, s, l, acc =>
    let i := bitsN crow (s - 9) 1
    bwdPath crow k (s - 1) (rotr (2 * (l / 2) + i) (s - 7)) ((l / 2, i, l % 2) :: acc)

/-- (row, input, output) of the path in each of the 17 stages. -/
def pathNodes (inp out crow : Nat) : List (Nat × Nat × Nat) :=
  let f := fwdPath crow 8 0 inp
  let b := bwdPath crow 8 16 out []
  f.1 ++ (f.2 / 2, f.2 % 2, b.2 % 2) :: b.1

/-- Element states PARK, S and T (R45). -/
def stPark : Nat := 0
def stS : Nat := 1
def stT : Nat := 2

/-- The two elements a path uses in one node and their states: the splitter of the input it arrives on and the
combiner of the output it leaves by; S in BAR, T in CROSS (R36, R38, R46). -/
def nodeElems (plane stage : Nat) (n : Nat × Nat × Nat) : List (Nat × Nat) :=
  let st := if n.2.1 = n.2.2 then stS else stT
  [(elemIx plane stage n.1 n.2.1, st), (elemIx plane stage n.1 (2 + n.2.2), st)]

/-- Elements from stage `s` on. -/
def pathElemsFrom (plane : Nat) : Nat → List (Nat × Nat × Nat) → List (Nat × Nat)
  | _, [] => []
  | s, n :: t => nodeElems plane s n ++ pathElemsFrom plane (s + 1) t

/-- The 34 (element, state) pairs of a path in one plane (R38, R191). -/
def pathElems (plane inp out crow : Nat) : List (Nat × Nat) := pathElemsFrom plane 0 (pathNodes inp out crow)

/-! Connection descriptors (08_connections R187). -/

def dValid (d : Nat) : Bool := bitN d 31
def dClass (d : Nat) : Nat := bitsN d 29 2
def dDom (d : Nat) : Nat := bitsN d 26 3
def dIn (d : Nat) : Nat := bitsN d 9 9
def dOut (d : Nat) : Nat := bitsN d 0 9
/-- CLASS = 3 or a reserved bit set is malformed. -/
def dBad (d : Nat) : Bool := dClass d == 3 || bitsN d 18 8 != 0
/-- Descriptor of a connection. -/
def mkDesc (cls dom inp out : Nat) : Nat := 2 ^ 31 + cls * 2 ^ 29 + dom * 2 ^ 26 + inp * 2 ^ 9 + out

/-! Instant names (07_time_domains R183): the 8 bytes as one 64-bit number, byte 0 most significant. -/

def inDom (i : Nat) : Nat := bitsN i 61 3
def inKind (i : Nat) : Nat := bitsN i 60 1
def inNext (i : Nat) : Bool := bitN i 59
def inHfn (i : Nat) : Nat := bitsN i 40 16
def inAfn (i : Nat) : Nat := bitsN i 30 10
def inPidx (i : Nat) : Nat := bitsN i 25 5
def inWidx (i : Nat) : Nat := bitsN i 16 5
def inOfs (i : Nat) : Nat := bitsN i 0 24
/-- A reserved bit is set: byte 0 bits 2:0, bit 0 of bytes 3–4, and for KIND = WINDOW byte 5 bits 7:5, bytes 6–7. -/
def inRsvd (i : Nat) : Bool :=
  bitsN i 56 3 != 0 || bitsN i 24 1 != 0 || (inKind i == 0 && (bitsN i 21 3 != 0 || bitsN i 0 16 != 0))

/-- Pattern period in ns of a PERIOD code (R180). -/
def patNs (code : Nat) : Nat := nthD 10000000 [500000, 625000, 1000000, 1250000, 2000000, 2500000, 5000000, 10000000] code

/-! Block regions (20_register_summary R438). -/

inductive Blk where
  | glb | pwr | cl | jnl | tbu | neta | netb | egs | rs | ce | eda (k : Nat) | esa | port | cal | thm | pcv | saf | plan
  | snp
  deriving DecidableEq, Repr

/-- Base of a block's fault set (R426). -/
def Blk.base : Blk → Nat
  | .glb => 0x0000000 | .pwr => 0x0100080 | .cl => 0x0200000 | .jnl => 0x0300000 | .tbu => 0x0400000
  | .neta => 0x0500000 | .netb => 0x0508000 | .egs => 0x0600000 | .rs => 0x0700000 | .ce => 0x0800000
  | .eda k => 0x2000000 + 0x100000 * k | .esa => 0x3000000 | .port => 0x3800000 | .cal => 0x4000000
  | .thm => 0x4100000 | .pcv => 0x4200000 | .saf => 0x4300000 | .plan => 0x4400000 | .snp => 0x4500000

/-- Bit of a block in SNP.FCLASS and GLB.ALERT_MASK (19_faults R436). SNP has no bit. -/
def Blk.maskBit : Blk → Option Nat
  | .glb => some 0 | .pwr => some 1 | .cl => some 2 | .jnl => some 3 | .tbu => some 4 | .neta => some 5 | .netb => some 6
  | .egs => some 7 | .rs => some 8 | .ce => some 9 | .eda _ => some 10 | .esa => some 11 | .port => some 12
  | .cal => some 13 | .thm => some 14 | .pcv => some 15 | .saf => some 16 | .plan => some 17 | .snp => none

/-- NI block of a network port. -/
def niBlk (p : Nat) : Blk := if p = 0 then .neta else .netb

/-- Every block instance that owns a fault set. -/
def allBlks : List Blk :=
  [.glb, .pwr, .cl, .jnl, .tbu, .neta, .netb, .egs, .rs, .ce] ++ (span 0 16).map Blk.eda ++
  [.esa, .port, .cal, .thm, .pcv, .saf, .plan, .snp]

/-- An address lies in a block region (R438). -/
def inRegion (a : Nat) : Bool :=
  let r (b n : Nat) : Bool := decide (b ≤ a) && decide (a < b + n)
  r 0x0 0x500000 || r 0x500000 0x10000 || r 0x600000 0x200000 || r 0x800000 0x3800000 || r 0x4000000 0x600000 ||
  r 0x4800000 0x200000

/-- The power islands that hold the register at an address: it is readable while one of them is on (R438, R440). CE
control lies on the four cluster islands; the per-loop and per-sensor arrays on the island of the actuator or
sensor; FFTAB with its element. -/
def addrIslands (a : Nat) : List Nat :=
  if a < 0x400000 then [1]
  else if a < 0x500000 then [6]
  else if a < 0x700000 then [5]
  else if a < 0x800000 then [7]
  else if a < 0x900000 then [8, 9, 10, 11]
  else if a < 0x1000000 then [8, 9, 10, 11]
  else if a < 0x1800000 then [actIsland ((a - 0x1000000) / 64)]
  else if a < 0x2000000 then [actIsland ((a - 0x1800000) / 128)]
  else if a < 0x3000000 then [12 + (a - 0x2000000) / 0x100000]
  else if a < 0x3100000 then span 12 18
  else if a < 0x3200000 then [sensIsland ((a - 0x3100000) / 16)]
  else if a < 0x3800000 then [sensIsland ((a - 0x3200000) / 8)]
  else if a < 0x3810000 then [28, 29]
  else if a < 0x4000000 then [actIsland (34816 + (a - 0x3810000) / 64)]
  else if a < 0x4300000 then [0]
  else if a < 0x4400000 then [1]
  else if a < 0x4500000 then [7]
  else if a < 0x4800000 then [1]
  else [0]

end Sys2Proof.Machine
end

