-- ==== Sys2Proof/Machine/Regs.lean ====
section
/-! DEFINITION. The register map: one definition per field of the register tables of the spec (files 01 to 20),
named BLOCK_REGISTER_FIELD, with its address, array strides, place, access code (00_scope R6) and reset value.
An array over a plane, bank or port is indexed in the order of its strides. 16-bit arrays (kick samples, VCAL points,
learning bins) have one field for even and one for odd indices. -/

namespace Sys2Proof.Machine

/-- Access codes of 00_scope R6. -/
inductive Acc where
  | ro | rw | rwc | rwr | w1c | w1s | rc
  deriving DecidableEq, Repr

/-- One field of the register space: address of its first instance, (stride, count) of each array index, lowest bit,
width, access code and reset value. -/
structure Fld where
  base : Nat
  dims : List (Nat × Nat)
  lo : Nat
  width : Nat
  acc : Acc
  rst : Nat
  deriving DecidableEq, Repr

end Sys2Proof.Machine

namespace Sys2Proof.Machine.R

/-! 01_architecture_and_modes, table of R26. -/

def PWR_MODE_OVL_BUSY : Fld := ⟨0x0100010, [], 31, 1, .ro, 0x0⟩
def PWR_MODE_C_LOCKOUT : Fld := ⟨0x0100010, [], 30, 1, .ro, 0x0⟩
def PWR_MODE_C_STOP : Fld := ⟨0x0100010, [], 29, 1, .ro, 0x0⟩
def PWR_MODE_C_SHED : Fld := ⟨0x0100010, [], 28, 1, .ro, 0x0⟩
def PWR_MODE_C_MAINT : Fld := ⟨0x0100010, [], 27, 1, .ro, 0x0⟩
def PWR_MODE_C_DEG : Fld := ⟨0x0100010, [], 26, 1, .ro, 0x0⟩
def PWR_MODE_C_UPD : Fld := ⟨0x0100010, [], 25, 1, .ro, 0x0⟩
def PWR_MODE_CAUSE : Fld := ⟨0x0100010, [], 16, 8, .ro, 0x1⟩
def PWR_MODE_RESTING : Fld := ⟨0x0100010, [], 12, 4, .ro, 0x4⟩
def PWR_MODE_PREV : Fld := ⟨0x0100010, [], 8, 4, .ro, 0x0⟩
def PWR_MODE_CUR : Fld := ⟨0x0100010, [], 0, 4, .ro, 0x0⟩
/-! 03_element_drive, table of R67. -/

def EDA_KTAB_SAMPLE_E : Fld := ⟨0x2010000, [(0x100000, 16), (0x100, 64), (0x4, 32)], 0, 10, .rwc, 0x0⟩
def EDA_KTAB_SAMPLE_O : Fld := ⟨0x2010000, [(0x100000, 16), (0x100, 64), (0x4, 32)], 16, 10, .rwc, 0x0⟩
def EDA_KTAB_VALID : Fld := ⟨0x2010080, [(0x100000, 16), (0x100, 64)], 31, 1, .rwc, 0x0⟩
def EDA_KTAB_CHARGE : Fld := ⟨0x2010080, [(0x100000, 16), (0x100, 64)], 10, 17, .rwc, 0x0⟩
def EDA_KTAB_HOLD0 : Fld := ⟨0x2010080, [(0x100000, 16), (0x100, 64)], 0, 10, .rwc, 0x0⟩
/-! 03_element_drive, table of R83. -/

def EDA_RB_STATE : Fld := ⟨0x2040000, [(0x100000, 16), (0x8, 2176)], 30, 2, .ro, 0x0⟩
def EDA_RB_HRANGE : Fld := ⟨0x2040000, [(0x100000, 16), (0x8, 2176)], 29, 1, .ro, 0x0⟩
def EDA_RB_SEG : Fld := ⟨0x2040000, [(0x100000, 16), (0x8, 2176)], 28, 1, .ro, 0x0⟩
def EDA_RB_HOLD : Fld := ⟨0x2040000, [(0x100000, 16), (0x8, 2176)], 16, 10, .ro, 0x0⟩
def EDA_RB_HCODE : Fld := ⟨0x2040000, [(0x100000, 16), (0x8, 2176)], 0, 16, .ro, 0x0⟩
def EDA_RB_FRZ : Fld := ⟨0x2040004, [(0x100000, 16), (0x8, 2176)], 31, 1, .ro, 0x0⟩
def EDA_RB_HO : Fld := ⟨0x2040004, [(0x100000, 16), (0x8, 2176)], 30, 1, .ro, 0x0⟩
def EDA_RB_CLR : Fld := ⟨0x2040004, [(0x100000, 16), (0x8, 2176)], 29, 1, .ro, 0x1⟩
def EDA_RB_FAIL : Fld := ⟨0x2040004, [(0x100000, 16), (0x8, 2176)], 28, 1, .ro, 0x0⟩
def EDA_RB_MISM : Fld := ⟨0x2040004, [(0x100000, 16), (0x8, 2176)], 27, 1, .ro, 0x0⟩
def EDA_RB_HRES : Fld := ⟨0x2040004, [(0x100000, 16), (0x8, 2176)], 26, 1, .ro, 0x0⟩
def EDA_RB_COMP : Fld := ⟨0x2040004, [(0x100000, 16), (0x8, 2176)], 25, 1, .ro, 0x0⟩
def EDA_RB_VH : Fld := ⟨0x2040004, [(0x100000, 16), (0x8, 2176)], 12, 12, .ro, 0x0⟩
def EDA_RB_RNDNO : Fld := ⟨0x2040004, [(0x100000, 16), (0x8, 2176)], 0, 12, .ro, 0x0⟩
/-! 03_element_drive, table of R87. -/

def EDA_STATUS_ELEM_FAIL : Fld := ⟨0x2000000, [(0x100000, 16)], 7, 1, .w1c, 0x0⟩
def EDA_STATUS_KTAB : Fld := ⟨0x2000000, [(0x100000, 16)], 6, 1, .w1c, 0x0⟩
def EDA_STATUS_SPACING : Fld := ⟨0x2000000, [(0x100000, 16)], 5, 1, .w1c, 0x0⟩
def EDA_STATUS_BUDGET : Fld := ⟨0x2000000, [(0x100000, 16)], 4, 1, .w1c, 0x0⟩
def EDA_STATUS_HOLD_CLAMP : Fld := ⟨0x2000000, [(0x100000, 16)], 3, 1, .w1c, 0x0⟩
def EDA_STATUS_COMP : Fld := ⟨0x2000000, [(0x100000, 16)], 2, 1, .w1c, 0x0⟩
def EDA_STATUS_HRES : Fld := ⟨0x2000000, [(0x100000, 16)], 1, 1, .w1c, 0x0⟩
def EDA_STATUS_MISM : Fld := ⟨0x2000000, [(0x100000, 16)], 0, 1, .w1c, 0x0⟩
def EDA_SLEW_RSTEP : Fld := ⟨0x2000100, [(0x100000, 16)], 16, 16, .rwr, 0x100⟩
def EDA_SLEW_HSTEP : Fld := ⟨0x2000100, [(0x100000, 16)], 0, 16, .rwr, 0x800⟩
def EDA_HO_TIME_B3 : Fld := ⟨0x2000104, [(0x100000, 16)], 24, 8, .rwr, 0xC⟩
def EDA_HO_TIME_B2 : Fld := ⟨0x2000104, [(0x100000, 16)], 16, 8, .rwr, 0x10⟩
def EDA_HO_TIME_B1 : Fld := ⟨0x2000104, [(0x100000, 16)], 8, 8, .rwr, 0x18⟩
def EDA_HO_TIME_B0 : Fld := ⟨0x2000104, [(0x100000, 16)], 0, 8, .rwr, 0x28⟩
def EDA_RANGE_THR_UP : Fld := ⟨0x2000108, [(0x100000, 16)], 16, 16, .rwc, 0xF230⟩
def EDA_RANGE_THR_DN : Fld := ⟨0x2000108, [(0x100000, 16)], 0, 16, .rwc, 0xE290⟩
def EDA_VPIN_CFG_HMAX : Fld := ⟨0x200010C, [(0x100000, 16)], 24, 8, .rwc, 0xB4⟩
def EDA_VPIN_CFG_QMAX : Fld := ⟨0x200010C, [(0x100000, 16)], 0, 16, .rwc, 0x1F4⟩
def EDA_CLR_PARK : Fld := ⟨0x2000110, [(0x100000, 16)], 4, 1, .rw, 0x0⟩
def EDA_CLR_PIN : Fld := ⟨0x2000110, [(0x100000, 16)], 3, 1, .ro, 0x0⟩
def EDA_CLR_SB : Fld := ⟨0x2000110, [(0x100000, 16)], 2, 1, .ro, 0x0⟩
def EDA_CLR_SA : Fld := ⟨0x2000110, [(0x100000, 16)], 1, 1, .ro, 0x0⟩
def EDA_CLR_COLD : Fld := ⟨0x2000110, [(0x100000, 16)], 0, 1, .ro, 0x1⟩
def EDA_LASTWAVE_WAVE : Fld := ⟨0x2000114, [(0x100000, 16)], 16, 16, .ro, 0x0⟩
def EDA_LASTWAVE_COUNT : Fld := ⟨0x2000114, [(0x100000, 16)], 0, 14, .ro, 0x0⟩
def EDA_ECFG_KSCALE : Fld := ⟨0x2020000, [(0x100000, 16), (0x4, 2176)], 24, 8, .rw, 0x80⟩
def EDA_ECFG_PCODE : Fld := ⟨0x2020000, [(0x100000, 16), (0x4, 2176)], 0, 17, .rw, 0x0⟩
/-! 04_sensing_light, table of R100. -/

def ESA_CORR_GAIN0 : Fld := ⟨0x3100000, [(0x10, 36864)], 0, 24, .rw, 0x0⟩
def ESA_CORR_GAIN1 : Fld := ⟨0x3100004, [(0x10, 36864)], 0, 24, .rw, 0x0⟩
def ESA_CORR_OFS1 : Fld := ⟨0x3100008, [(0x10, 36864)], 16, 16, .rw, 0x0⟩
def ESA_CORR_OFS0 : Fld := ⟨0x3100008, [(0x10, 36864)], 0, 16, .rw, 0x0⟩
def ESA_CORR_TCAL : Fld := ⟨0x310000C, [(0x10, 36864)], 16, 8, .rw, 0x0⟩
def ESA_CORR_DARK0 : Fld := ⟨0x310000C, [(0x10, 36864)], 0, 16, .rw, 0x0⟩
/-! 04_sensing_light, table of R101. -/

def ESA_SAMPLE_VALUE : Fld := ⟨0x3200000, [(0x8, 36864)], 0, 32, .ro, 0x0⟩
def ESA_SAMPLE_VALID : Fld := ⟨0x3200004, [(0x8, 36864)], 31, 1, .ro, 0x0⟩
def ESA_SAMPLE_SAT : Fld := ⟨0x3200004, [(0x8, 36864)], 30, 1, .ro, 0x0⟩
def ESA_SAMPLE_RCHG : Fld := ⟨0x3200004, [(0x8, 36864)], 29, 1, .ro, 0x0⟩
def ESA_SAMPLE_FILL : Fld := ⟨0x3200004, [(0x8, 36864)], 28, 1, .ro, 0x0⟩
def ESA_SAMPLE_MOVE : Fld := ⟨0x3200004, [(0x8, 36864)], 27, 1, .ro, 0x0⟩
def ESA_SAMPLE_UNDER : Fld := ⟨0x3200004, [(0x8, 36864)], 26, 1, .ro, 0x0⟩
def ESA_SAMPLE_GRANGE : Fld := ⟨0x3200004, [(0x8, 36864)], 25, 1, .ro, 0x0⟩
def ESA_SAMPLE_SEQ : Fld := ⟨0x3200004, [(0x8, 36864)], 0, 16, .ro, 0x0⟩
/-! 04_sensing_light, table of R102. -/

def ESA_STATUS_CORR_PAR : Fld := ⟨0x3000000, [], 3, 1, .w1c, 0x0⟩
def ESA_STATUS_NO_SAMPLE : Fld := ⟨0x3000000, [], 2, 1, .w1c, 0x0⟩
def ESA_STATUS_CLIP : Fld := ⟨0x3000000, [], 1, 1, .w1c, 0x0⟩
def ESA_STATUS_SAT : Fld := ⟨0x3000000, [], 0, 1, .w1c, 0x0⟩
def ESA_TAPCFG_IN_OSR : Fld := ⟨0x3000100, [], 0, 2, .rwr, 0x2⟩
/-! 04_sensing_light, table of R106. -/

def PORT_LOS_IN_EN : Fld := ⟨0x3801000, [(0x4, 512)], 31, 1, .rwr, 0x1⟩
def PORT_LOS_IN_ASSERT_N : Fld := ⟨0x3801000, [(0x4, 512)], 27, 4, .rwr, 0x2⟩
def PORT_LOS_IN_CLEAR_N : Fld := ⟨0x3801000, [(0x4, 512)], 16, 8, .rwr, 0x7D⟩
def PORT_LOS_IN_CLR : Fld := ⟨0x3801000, [(0x4, 512)], 8, 8, .rwr, 0x84⟩
def PORT_LOS_IN_SET : Fld := ⟨0x3801000, [(0x4, 512)], 0, 8, .rwr, 0x78⟩
def PORT_LOS_OUT_EN : Fld := ⟨0x3801800, [(0x4, 512)], 31, 1, .rwr, 0x1⟩
def PORT_LOS_OUT_ASSERT_N : Fld := ⟨0x3801800, [(0x4, 512)], 27, 4, .rwr, 0x2⟩
def PORT_LOS_OUT_CLEAR_N : Fld := ⟨0x3801800, [(0x4, 512)], 16, 8, .rwr, 0x7D⟩
def PORT_LOS_OUT_CLR : Fld := ⟨0x3801800, [(0x4, 512)], 8, 8, .rwr, 0x84⟩
def PORT_LOS_OUT_SET : Fld := ⟨0x3801800, [(0x4, 512)], 0, 8, .rwr, 0x78⟩
def PORT_STATUS_TOT_OVER : Fld := ⟨0x3800000, [], 1, 1, .w1c, 0x0⟩
def PORT_STATUS_IN_OVER : Fld := ⟨0x3800000, [], 0, 1, .w1c, 0x0⟩
/-! 05_loop_engine, table of R117. -/

def LT_LOOP_STATE : Fld := ⟨0x1000000, [(0x40, 35840)], 30, 2, .ro, 0x0⟩
def LT_LOOP_LAW : Fld := ⟨0x1000000, [(0x40, 35840)], 28, 2, .rw, 0x0⟩
def LT_LOOP_NBQ : Fld := ⟨0x1000000, [(0x40, 35840)], 26, 2, .rw, 0x0⟩
def LT_LOOP_RATE : Fld := ⟨0x1000000, [(0x40, 35840)], 24, 2, .ro, 0x0⟩
def LT_LOOP_PHASE : Fld := ⟨0x1000000, [(0x40, 35840)], 21, 3, .ro, 0x0⟩
def LT_LOOP_TSTATE : Fld := ⟨0x1000000, [(0x40, 35840)], 19, 2, .rw, 0x0⟩
def LT_LOOP_EXT : Fld := ⟨0x1000000, [(0x40, 35840)], 18, 1, .rw, 0x0⟩
def LT_LOOP_DITH_EN : Fld := ⟨0x1000000, [(0x40, 35840)], 17, 1, .rw, 0x0⟩
def LT_LOOP_RC_EN : Fld := ⟨0x1000000, [(0x40, 35840)], 16, 1, .rw, 0x0⟩
def LT_LOOP_FF_EN : Fld := ⟨0x1000000, [(0x40, 35840)], 15, 1, .rw, 0x0⟩
def LT_LOOP_PL_EN : Fld := ⟨0x1000000, [(0x40, 35840)], 14, 1, .rw, 0x0⟩
def LT_LOOP_HCAUSE : Fld := ⟨0x1000000, [(0x40, 35840)], 11, 3, .ro, 0x0⟩
def LT_LOOP_CSET : Fld := ⟨0x1000000, [(0x40, 35840)], 0, 8, .rw, 0x0⟩
def LT_LOOP_TARGET : Fld := ⟨0x1000004, [(0x40, 35840)], 0, 32, .rw, 0x0⟩
def LT_LOOP_TREF : Fld := ⟨0x1000008, [(0x40, 35840)], 24, 8, .rw, 0x0⟩
def LT_LOOP_PLCNT : Fld := ⟨0x1000008, [(0x40, 35840)], 17, 7, .ro, 0x0⟩
def LT_LOOP_UMOD : Fld := ⟨0x1000008, [(0x40, 35840)], 0, 17, .rw, 0x0⟩
def LT_LOOP_TCO : Fld := ⟨0x100000C, [(0x40, 35840)], 16, 16, .rw, 0x0⟩
def LT_LOOP_REFS : Fld := ⟨0x100000C, [(0x40, 35840)], 0, 16, .rw, 0x0⟩
def LT_LOOP_DAMP : Fld := ⟨0x1000010, [(0x40, 35840)], 24, 8, .rw, 0x0⟩
def LT_LOOP_DSEQ : Fld := ⟨0x1000010, [(0x40, 35840)], 16, 8, .rw, 0x0⟩
def LT_LOOP_DLAG : Fld := ⟨0x1000010, [(0x40, 35840)], 13, 3, .rw, 0x0⟩
def LT_LOOP_DSH : Fld := ⟨0x1000010, [(0x40, 35840)], 10, 3, .rw, 0x0⟩
def LT_LOOP_YAVG : Fld := ⟨0x1000014, [(0x40, 35840)], 0, 32, .ro, 0x0⟩
def LT_LOOP_DEMOD : Fld := ⟨0x1000018, [(0x40, 35840)], 0, 32, .ro, 0x0⟩
def LT_LOOP_DH : Fld := ⟨0x100001C, [(0x40, 35840)], 24, 8, .ro, 0x0⟩
def LT_LOOP_NBAD : Fld := ⟨0x100001C, [(0x40, 35840)], 20, 4, .ro, 0x0⟩
def LT_LOOP_NGOOD : Fld := ⟨0x100001C, [(0x40, 35840)], 17, 3, .ro, 0x0⟩
def LT_LOOP_UCMD : Fld := ⟨0x100001C, [(0x40, 35840)], 0, 17, .ro, 0x0⟩
def LT_LOOP_S : Fld := ⟨0x1000020, [(0x40, 35840), (0x4, 8)], 0, 32, .ro, 0x0⟩
/-! 05_loop_engine, table of R119. -/

def CE_CSET_B : Fld := ⟨0x0810000, [(0x80, 256), (0x4, 4)], 0, 32, .rwc, 0x0⟩
def CE_CSET_A : Fld := ⟨0x0810010, [(0x80, 256), (0x4, 3)], 0, 32, .rwc, 0x0⟩
def CE_CSET_BQ : Fld := ⟨0x0810000, [(0x80, 256), (0x14, 4), (0x4, 5)], 0, 32, .rwc, 0x0⟩
def CE_CSET_KPH : Fld := ⟨0x0810050, [(0x80, 256)], 16, 16, .rwc, 0x0⟩
def CE_CSET_GOUT : Fld := ⟨0x0810050, [(0x80, 256)], 0, 16, .rwc, 0x0⟩
def CE_CSET_RGOUT : Fld := ⟨0x0810054, [(0x80, 256)], 0, 32, .rwc, 0x0⟩
def CE_CSET_KB : Fld := ⟨0x0810058, [(0x80, 256)], 0, 16, .rwc, 0x0⟩
def CE_CSET_WIN : Fld := ⟨0x081005C, [(0x80, 256)], 0, 17, .rwc, 0x0⟩
def CE_CSET_KREF : Fld := ⟨0x0810060, [(0x80, 256)], 0, 16, .rwc, 0x0⟩
def CE_CSET_YFLOOR : Fld := ⟨0x0810064, [(0x80, 256)], 0, 32, .rwc, 0x0⟩
/-! 05_loop_engine, table of R141. -/

def CE_STATUS_FROZEN : Fld := ⟨0x0800000, [], 5, 1, .w1c, 0x0⟩
def CE_STATUS_ECC_DED : Fld := ⟨0x0800000, [], 4, 1, .w1c, 0x0⟩
def CE_STATUS_SHED : Fld := ⟨0x0800000, [], 3, 1, .w1c, 0x0⟩
def CE_STATUS_CLUSTER_FAIL : Fld := ⟨0x0800000, [], 2, 1, .w1c, 0x0⟩
def CE_STATUS_ENG_RETIRED : Fld := ⟨0x0800000, [], 1, 1, .w1c, 0x0⟩
def CE_STATUS_RESIDUE : Fld := ⟨0x0800000, [], 0, 1, .w1c, 0x0⟩
def CE_RATECFG_VOA : Fld := ⟨0x0800100, [], 8, 2, .rwr, 0x2⟩
def CE_RATECFG_DARK : Fld := ⟨0x0800100, [], 4, 2, .rwr, 0x0⟩
def CE_RATECFG_LIT : Fld := ⟨0x0800100, [], 0, 2, .rwr, 0x0⟩
def CE_SUPV_NGOODMIN : Fld := ⟨0x0800104, [], 8, 3, .rwr, 0x4⟩
def CE_SUPV_NBADMAX : Fld := ⟨0x0800104, [], 0, 4, .rwr, 0x8⟩
def CE_CSBAND_STRIDE : Fld := ⟨0x0800108, [], 0, 6, .rwr, 0x0⟩
def CE_CLSTAT_LIVE : Fld := ⟨0x0800110, [], 0, 32, .ro, 0x0⟩
def CE_LOADSTAT_CAP : Fld := ⟨0x0800120, [(0x4, 4)], 16, 16, .ro, 0x0⟩
def CE_LOADSTAT_PEAK : Fld := ⟨0x0800120, [(0x4, 4)], 0, 16, .ro, 0x0⟩
/-! 06_competing_loops_and_learning, table of R143. -/

def PORT_VCAL_P_E : Fld := ⟨0x3810000, [(0x40, 1024), (0x4, 9)], 0, 16, .rw, 0x0⟩
def PORT_VCAL_P_O : Fld := ⟨0x3810000, [(0x40, 1024), (0x4, 8)], 16, 16, .rw, 0x0⟩
def PORT_VCAL_BCODE : Fld := ⟨0x3810020, [(0x40, 1024)], 16, 16, .rw, 0x0⟩
/-! 06_competing_loops_and_learning, table of R148. -/

def LT_VOA_EQSRC : Fld := ⟨0x1000010, [(0x40, 35840)], 30, 2, .rw, 0x0⟩
def LT_VOA_SPSEL : Fld := ⟨0x1000010, [(0x40, 35840)], 27, 3, .rw, 0x0⟩
def LT_VOA_SLPCLS : Fld := ⟨0x1000010, [(0x40, 35840)], 24, 3, .rw, 0x0⟩
def LT_VOA_PB_EN : Fld := ⟨0x1000010, [(0x40, 35840)], 23, 1, .rw, 0x0⟩
def LT_VOA_WIN : Fld := ⟨0x1000010, [(0x40, 35840)], 21, 2, .ro, 0x0⟩
def LT_VOA_PBSH : Fld := ⟨0x1000010, [(0x40, 35840)], 16, 4, .rw, 0x0⟩
def LT_VOA_EQV : Fld := ⟨0x1000010, [(0x40, 35840)], 0, 16, .rw, 0x0⟩
def LT_VOA_RAMP : Fld := ⟨0x1000014, [(0x40, 35840)], 0, 32, .ro, 0x0⟩
def LT_VOA_RSH : Fld := ⟨0x1000018, [(0x40, 35840)], 28, 4, .rw, 0x0⟩
def LT_VOA_PBHYS : Fld := ⟨0x1000018, [(0x40, 35840)], 20, 8, .rw, 0x0⟩
def LT_VOA_PBP : Fld := ⟨0x1000018, [(0x40, 35840)], 16, 2, .ro, 0x0⟩
def LT_VOA_TAU : Fld := ⟨0x1000018, [(0x40, 35840)], 0, 16, .ro, 0x0⟩
/-! 06_competing_loops_and_learning, table of R154. -/

def PORT_SETPT_MODE : Fld := ⟨0x3803000, [(0x10, 8)], 30, 2, .rwr, 0x0⟩
def PORT_SETPT_GATE : Fld := ⟨0x3803000, [(0x10, 8)], 28, 2, .rwr, 0x0⟩
def PORT_SETPT_LOSACT : Fld := ⟨0x3803000, [(0x10, 8)], 27, 1, .rwr, 0x0⟩
def PORT_SETPT_LOST : Fld := ⟨0x3803000, [(0x10, 8)], 16, 8, .rwr, 0x14⟩
def PORT_SETPT_LOSN : Fld := ⟨0x3803000, [(0x10, 8)], 12, 4, .rwr, 0x3⟩
def PORT_SETPT_CLRN : Fld := ⟨0x3803000, [(0x10, 8)], 0, 8, .rwr, 0x8⟩
def PORT_SETPT_PHI : Fld := ⟨0x3803004, [(0x10, 8)], 16, 16, .rwr, 0xFA0⟩
def PORT_SETPT_PLO : Fld := ⟨0x3803004, [(0x10, 8)], 0, 16, .rwr, 0x0⟩
def PORT_SETPT_FB : Fld := ⟨0x3803008, [(0x10, 8)], 16, 16, .rwr, 0x0⟩
def PORT_SETPT_FHI : Fld := ⟨0x3803008, [(0x10, 8)], 8, 8, .rwr, 0x64⟩
def PORT_SETPT_FLO : Fld := ⟨0x3803008, [(0x10, 8)], 0, 8, .rwr, 0x1⟩
def PORT_SETPT_LOS : Fld := ⟨0x380300C, [(0x10, 8)], 31, 1, .ro, 0x0⟩
def PORT_SETPT_VALID : Fld := ⟨0x380300C, [(0x10, 8)], 30, 1, .ro, 0x0⟩
def PORT_SETPT_V : Fld := ⟨0x380300C, [(0x10, 8)], 0, 16, .ro, 0x0⟩
/-! 06_competing_loops_and_learning, table of R159. -/

def CE_RCCTL_LEARN_EN : Fld := ⟨0x0800130, [], 1, 1, .rwr, 0x1⟩
def CE_RCCTL_PLAY_EN : Fld := ⟨0x0800130, [], 0, 1, .rwr, 0x1⟩
def CE_RCGEN_EN : Fld := ⟨0x0800140, [(0x4, 8)], 31, 1, .rwc, 0x0⟩
def CE_RCGEN_DOMAIN : Fld := ⟨0x0800140, [(0x4, 8)], 28, 3, .rwc, 0x0⟩
def CE_RCGEN_SRC : Fld := ⟨0x0800140, [(0x4, 8)], 26, 2, .rwc, 0x0⟩
def CE_RCGEN_MULT : Fld := ⟨0x0800140, [(0x4, 8)], 23, 3, .rwc, 0x0⟩
def CE_RCGEN_SCHED : Fld := ⟨0x0800140, [(0x4, 8)], 8, 8, .rwc, 0x0⟩
/-! 06_competing_loops_and_learning, table of R160. -/

def CE_FFTAB_NB1 : Fld := ⟨0x0900000, [(0x10, 34816)], 16, 16, .rw, 0xFFFF⟩
def CE_FFTAB_NB0 : Fld := ⟨0x0900000, [(0x10, 34816)], 0, 16, .rw, 0xFFFF⟩
def CE_FFTAB_NB3 : Fld := ⟨0x0900004, [(0x10, 34816)], 16, 16, .rw, 0xFFFF⟩
def CE_FFTAB_NB2 : Fld := ⟨0x0900004, [(0x10, 34816)], 0, 16, .rw, 0xFFFF⟩
def CE_FFTAB_G3 : Fld := ⟨0x0900008, [(0x10, 34816)], 24, 8, .rw, 0x0⟩
def CE_FFTAB_G2 : Fld := ⟨0x0900008, [(0x10, 34816)], 16, 8, .rw, 0x0⟩
def CE_FFTAB_G1 : Fld := ⟨0x0900008, [(0x10, 34816)], 8, 8, .rw, 0x0⟩
def CE_FFTAB_G0 : Fld := ⟨0x0900008, [(0x10, 34816)], 0, 8, .rw, 0x0⟩
def CE_FFTAB_FFS : Fld := ⟨0x090000C, [(0x10, 34816)], 0, 32, .ro, 0x0⟩
/-! 06_competing_loops_and_learning, table of R164. -/

def CE_CSET_RCGEN : Fld := ⟨0x0810068, [(0x80, 256)], 29, 3, .rwc, 0x0⟩
def CE_CSET_LEAD : Fld := ⟨0x0810068, [(0x80, 256)], 26, 3, .rwc, 0x0⟩
def CE_CSET_FSH : Fld := ⟨0x0810068, [(0x80, 256)], 22, 4, .rwc, 0xC⟩
def CE_CSET_KL : Fld := ⟨0x0810068, [(0x80, 256)], 0, 16, .rwc, 0x0⟩
def CE_CSET_LRG : Fld := ⟨0x081006C, [(0x80, 256)], 16, 16, .rwc, 0x1000⟩
def CE_CSET_FFSH : Fld := ⟨0x081006C, [(0x80, 256)], 0, 4, .rwc, 0x5⟩
def CE_CSET_LMIN : Fld := ⟨0x0810070, [(0x80, 256)], 16, 16, .rwc, 0x0⟩
def CE_CSET_LMAX : Fld := ⟨0x0810070, [(0x80, 256)], 0, 16, .rwc, 0x7FFF⟩
def CE_CSET_PLUP : Fld := ⟨0x0810074, [(0x80, 256)], 24, 8, .rwc, 0x2⟩
def CE_CSET_PLTRIP : Fld := ⟨0x0810074, [(0x80, 256)], 16, 8, .rwc, 0x40⟩
def CE_CSET_PLREL : Fld := ⟨0x0810074, [(0x80, 256)], 8, 8, .rwc, 0x10⟩
def CE_CSET_OVTOL : Fld := ⟨0x0810078, [(0x80, 256)], 16, 16, .rwc, 0x2000⟩
/-! 07_time_domains_and_air_frames, table of R185. -/

def TBU_STATUS_TS_LOST : Fld := ⟨0x0400000, [], 6, 1, .w1c, 0x0⟩
def TBU_STATUS_STEP_REFUSED : Fld := ⟨0x0400000, [], 5, 1, .w1c, 0x0⟩
def TBU_STATUS_STEPPED : Fld := ⟨0x0400000, [], 4, 1, .w1c, 0x0⟩
def TBU_STATUS_PPS_STRAY : Fld := ⟨0x0400000, [], 3, 1, .w1c, 0x0⟩
def TBU_STATUS_NODOM : Fld := ⟨0x0400000, [], 2, 1, .w1c, 0x0⟩
def TBU_STATUS_HOLDOVER : Fld := ⟨0x0400000, [], 1, 1, .w1c, 0x0⟩
def TBU_STATUS_UNLOCK : Fld := ⟨0x0400000, [], 0, 1, .w1c, 0x0⟩
def TBU_RXLAT : Fld := ⟨0x0400100, [(0x8, 2)], 0, 24, .ro, 0x0⟩
def TBU_TXLAT : Fld := ⟨0x0400104, [(0x8, 2)], 0, 24, .ro, 0x0⟩
def TBU_PPSOUT_EN : Fld := ⟨0x0400200, [], 31, 1, .rwc, 0x0⟩
def TBU_PPSOUT_SQUELCH : Fld := ⟨0x0400200, [], 30, 1, .rwc, 0x1⟩
def TBU_PPSOUT_DOMAIN : Fld := ⟨0x0400200, [], 27, 3, .rwc, 0x0⟩
def TBU_PPSOUT_WIDTH : Fld := ⟨0x0400200, [], 0, 20, .rwc, 0x64⟩
def TBU_PPSOUT_OFS : Fld := ⟨0x0400204, [], 0, 32, .rwc, 0x0⟩
def TBU_NODOM : Fld := ⟨0x0400210, [], 0, 32, .rc, 0x0⟩
def TBU_DOM_CFG_EN : Fld := ⟨0x0401000, [(0x400, 8)], 31, 1, .rwc, 0x0⟩
def TBU_DOM_CFG_PORTS : Fld := ⟨0x0401000, [(0x400, 8)], 29, 2, .rwc, 0x3⟩
def TBU_DOM_CFG_PERIOD : Fld := ⟨0x0401000, [(0x400, 8)], 26, 3, .rwc, 0x0⟩
def TBU_DOM_CFG_MCAST : Fld := ⟨0x0401000, [(0x400, 8)], 25, 1, .rwc, 0x0⟩
def TBU_DOM_CFG_PTPDOM : Fld := ⟨0x0401000, [(0x400, 8)], 16, 8, .rwc, 0x18⟩
def TBU_DOM_CFG_CLASS_MAX : Fld := ⟨0x0401000, [(0x400, 8)], 8, 8, .rwc, 0x87⟩
def TBU_DOM_CFG_LOCK_THR : Fld := ⟨0x0401000, [(0x400, 8)], 0, 8, .rwc, 0x64⟩
def TBU_DOM_HOLD_HOLDOVER_T : Fld := ⟨0x0401004, [(0x400, 8)], 0, 16, .rwr, 0x3E8⟩
def TBU_DOM_STATE_STATE : Fld := ⟨0x0401008, [(0x400, 8)], 30, 2, .ro, 0x0⟩
def TBU_DOM_STATE_TTPORT : Fld := ⟨0x0401008, [(0x400, 8)], 29, 1, .ro, 0x0⟩
def TBU_DOM_STATE_TTVALID : Fld := ⟨0x0401008, [(0x400, 8)], 28, 1, .ro, 0x0⟩
def TBU_DOM_STATE_TTCLASS : Fld := ⟨0x0401008, [(0x400, 8)], 20, 8, .ro, 0xFF⟩
def TBU_DOM_STATE_HO_MS : Fld := ⟨0x0401008, [(0x400, 8)], 0, 16, .ro, 0x0⟩
def TBU_DOM_EST : Fld := ⟨0x040100C, [(0x400, 8)], 0, 32, .rw, 0x0⟩
def TBU_DOM_TIME_SEC_HI : Fld := ⟨0x0401010, [(0x400, 8)], 0, 16, .ro, 0x0⟩
def TBU_DOM_TIME_SEC_LO : Fld := ⟨0x0401014, [(0x400, 8)], 0, 32, .ro, 0x0⟩
def TBU_DOM_TIME_NS : Fld := ⟨0x0401018, [(0x400, 8)], 0, 30, .ro, 0x0⟩
def TBU_DOM_TIME_FRAC : Fld := ⟨0x040101C, [(0x400, 8)], 0, 16, .ro, 0x0⟩
def TBU_DOM_AF : Fld := ⟨0x0401020, [(0x400, 8)], 0, 32, .ro, 0x0⟩
def TBU_DOM_FADJ : Fld := ⟨0x0401024, [(0x400, 8)], 0, 32, .rw, 0x0⟩
def TBU_DOM_PHADJ : Fld := ⟨0x0401028, [(0x400, 8)], 0, 32, .rw, 0x0⟩
def TBU_DOM_STEP_GO : Fld := ⟨0x0401030, [(0x400, 8)], 31, 1, .w1s, 0x0⟩
def TBU_DOM_STEP_SEC_HI : Fld := ⟨0x0401030, [(0x400, 8)], 0, 16, .rw, 0x0⟩
def TBU_DOM_STEP_SEC_LO : Fld := ⟨0x0401034, [(0x400, 8)], 0, 32, .rw, 0x0⟩
def TBU_DOM_STEP_NS : Fld := ⟨0x0401038, [(0x400, 8)], 0, 30, .rw, 0x0⟩
def TBU_DOM_EPOCH_SEC_HI : Fld := ⟨0x0401040, [(0x400, 8)], 0, 16, .rwc, 0x0⟩
def TBU_DOM_EPOCH_SEC_LO : Fld := ⟨0x0401044, [(0x400, 8)], 0, 32, .rwc, 0x0⟩
def TBU_DOM_EPOCH_NS : Fld := ⟨0x0401048, [(0x400, 8)], 0, 30, .rwc, 0x0⟩
def TBU_DOM_ASYM : Fld := ⟨0x0401050, [(0x400, 8), (0x4, 2)], 0, 32, .rwr, 0x0⟩
def TBU_DOM_PRIO_LPRIO_B : Fld := ⟨0x0401058, [(0x400, 8)], 8, 8, .rwc, 0x80⟩
def TBU_DOM_PRIO_LPRIO_A : Fld := ⟨0x0401058, [(0x400, 8)], 0, 8, .rwc, 0x80⟩
def TBU_DOM_PPSCFG_PPSMODE : Fld := ⟨0x0401060, [(0x400, 8)], 30, 2, .rwc, 0x0⟩
def TBU_DOM_PPSCFG_PPSDLY : Fld := ⟨0x0401060, [(0x400, 8)], 0, 24, .rwc, 0x0⟩
def TBU_DOM_PPSERR : Fld := ⟨0x0401064, [(0x400, 8)], 0, 32, .ro, 0x0⟩
def TBU_DOM_SYNC_RX : Fld := ⟨0x0401070, [(0x400, 8)], 0, 32, .rc, 0x0⟩
def TBU_DOM_DRESP_RX : Fld := ⟨0x0401074, [(0x400, 8)], 0, 32, .rc, 0x0⟩
def TBU_DOM_DREQ_TX : Fld := ⟨0x0401078, [(0x400, 8)], 0, 32, .rc, 0x0⟩
def TBU_DOM_ANN_RX : Fld := ⟨0x040107C, [(0x400, 8)], 0, 32, .rc, 0x0⟩
def TBU_DOM_PTP_BAD : Fld := ⟨0x0401080, [(0x400, 8)], 0, 32, .rc, 0x0⟩
def TBU_DOM_GW_EN : Fld := ⟨0x0401100, [(0x400, 8), (0x8, 32)], 31, 1, .rwc, 0x0⟩
def TBU_DOM_GW_CLASS : Fld := ⟨0x0401100, [(0x400, 8), (0x8, 32)], 29, 2, .rwc, 0x0⟩
def TBU_DOM_GW_OFS : Fld := ⟨0x0401100, [(0x400, 8), (0x8, 32)], 0, 24, .rwc, 0x0⟩
def TBU_DOM_GW_LEN : Fld := ⟨0x0401104, [(0x400, 8), (0x8, 32)], 0, 24, .rwc, 0x0⟩
/-! 08_connections_and_route_solving, table of R206. -/

def RS_STATUS_STORE_ECC : Fld := ⟨0x0700000, [], 6, 1, .w1c, 0x0⟩
def RS_STATUS_SOLVE_LATE : Fld := ⟨0x0700000, [], 5, 1, .w1c, 0x0⟩
def RS_STATUS_REPAIR_WAIT : Fld := ⟨0x0700000, [], 4, 1, .w1c, 0x0⟩
def RS_STATUS_REPAIR : Fld := ⟨0x0700000, [], 3, 1, .w1c, 0x0⟩
def RS_STATUS_UNROUTED : Fld := ⟨0x0700000, [], 2, 1, .w1c, 0x0⟩
def RS_STATUS_DEFERRED : Fld := ⟨0x0700000, [], 1, 1, .w1c, 0x0⟩
def RS_STATUS_PINNED_BLOCK : Fld := ⟨0x0700000, [], 0, 1, .w1c, 0x0⟩
def RS_CTRL_REOPT_EN : Fld := ⟨0x0700100, [], 31, 1, .rwr, 0x0⟩
def RS_CTRL_REOPT_GAP : Fld := ⟨0x0700100, [], 0, 8, .rwr, 0xA⟩
def RS_SOLVE_LAST : Fld := ⟨0x0700104, [], 0, 16, .ro, 0x0⟩
def RS_SOLVE_MAX : Fld := ⟨0x0700108, [], 0, 16, .rc, 0x0⟩
def RS_CONN_DESC : Fld := ⟨0x0710000, [(0x8, 512)], 0, 32, .ro, 0x0⟩
def RS_CONN_REPAIR_WAIT : Fld := ⟨0x0710004, [(0x8, 512)], 31, 1, .ro, 0x0⟩
def RS_CONN_UNROUTED : Fld := ⟨0x0710004, [(0x8, 512)], 30, 1, .ro, 0x0⟩
def RS_CONN_SUSP : Fld := ⟨0x0710004, [(0x8, 512)], 29, 1, .ro, 0x0⟩
def RS_CONN_FRZ : Fld := ⟨0x0710004, [(0x8, 512)], 28, 1, .ro, 0x0⟩
def RS_CONN_MOVES : Fld := ⟨0x0710004, [(0x8, 512)], 0, 16, .ro, 0x0⟩
def RS_PATH_VALID : Fld := ⟨0x0720000, [(0x20, 512), (0x10, 2)], 31, 1, .ro, 0x0⟩
def RS_PATH_CROW : Fld := ⟨0x0720000, [(0x20, 512), (0x10, 2)], 0, 8, .ro, 0x0⟩
def RS_PATH_IL : Fld := ⟨0x0720004, [(0x20, 512), (0x10, 2)], 16, 16, .ro, 0x0⟩
def RS_PATH_XT : Fld := ⟨0x0720004, [(0x20, 512), (0x10, 2)], 0, 16, .ro, 0x0⟩
def RS_PATH_REE : Fld := ⟨0x0720008, [(0x20, 512), (0x10, 2)], 16, 16, .ro, 0x0⟩
def RS_PATH_AGE : Fld := ⟨0x0720008, [(0x20, 512), (0x10, 2)], 0, 16, .ro, 0xFFFF⟩
def RS_PATH_UPD : Fld := ⟨0x072000C, [(0x20, 512), (0x10, 2)], 0, 16, .ro, 0x0⟩
def RS_EFAIL : Fld := ⟨0x0730000, [(0x4, 1088)], 0, 32, .ro, 0x0⟩
def RS_ESUSP : Fld := ⟨0x0731100, [(0x4, 1088)], 0, 32, .ro, 0x0⟩
/-! 09_events, table of R234. -/

def RS_EVSTATUS_LATE_ABORT : Fld := ⟨0x0780000, [], 6, 1, .w1c, 0x0⟩
def RS_EVSTATUS_PARTIAL : Fld := ⟨0x0780000, [], 5, 1, .w1c, 0x0⟩
def RS_EVSTATUS_TABLE_FULL : Fld := ⟨0x0780000, [], 4, 1, .w1c, 0x0⟩
def RS_EVSTATUS_CONTENTION : Fld := ⟨0x0780000, [], 3, 1, .w1c, 0x0⟩
def RS_EVSTATUS_EXPIRED : Fld := ⟨0x0780000, [], 2, 1, .w1c, 0x0⟩
def RS_EVSTATUS_LATE : Fld := ⟨0x0780000, [], 1, 1, .w1c, 0x0⟩
def RS_EVSTATUS_ORDER_WAIT : Fld := ⟨0x0780000, [], 0, 1, .w1c, 0x0⟩
def RS_EVCOUNT_PEAK : Fld := ⟨0x0780004, [], 16, 11, .rc, 0x0⟩
def RS_EVCOUNT_PENDING : Fld := ⟨0x0780004, [], 0, 11, .ro, 0x0⟩
def RS_WAVENO_WAVE : Fld := ⟨0x0780008, [], 0, 32, .ro, 0x0⟩
def RS_EVTAB_STATE : Fld := ⟨0x0790000, [(0x10, 1024)], 28, 4, .ro, 0x0⟩
def RS_EVTAB_LATE : Fld := ⟨0x0790000, [(0x10, 1024)], 27, 1, .ro, 0x0⟩
def RS_EVTAB_DEFERRED : Fld := ⟨0x0790000, [(0x10, 1024)], 26, 1, .ro, 0x0⟩
def RS_EVTAB_PARTIAL : Fld := ⟨0x0790000, [(0x10, 1024)], 25, 1, .ro, 0x0⟩
def RS_EVTAB_GROUP : Fld := ⟨0x0790000, [(0x10, 1024)], 24, 1, .ro, 0x0⟩
def RS_EVTAB_REASON : Fld := ⟨0x0790000, [(0x10, 1024)], 16, 8, .ro, 0x0⟩
def RS_EVTAB_SESSION : Fld := ⟨0x0790000, [(0x10, 1024)], 0, 5, .ro, 0x0⟩
def RS_EVTAB_SSEQ : Fld := ⟨0x0790004, [(0x10, 1024)], 0, 32, .ro, 0x0⟩
def RS_EVTAB_ASEQ : Fld := ⟨0x0790008, [(0x10, 1024)], 0, 32, .ro, 0x0⟩
def RS_EVTAB_WAVES : Fld := ⟨0x079000C, [(0x10, 1024)], 24, 8, .ro, 0x0⟩
def RS_EVTAB_NCONN : Fld := ⟨0x079000C, [(0x10, 1024)], 0, 10, .ro, 0x0⟩
/-! 10_stored_plans, table of R250. -/

def PLAN_STATUS_SCHED_STOP : Fld := ⟨0x4400000, [], 4, 1, .w1c, 0x0⟩
def PLAN_STATUS_OVERRIDE : Fld := ⟨0x4400000, [], 3, 1, .w1c, 0x0⟩
def PLAN_STATUS_MISSED : Fld := ⟨0x4400000, [], 2, 1, .w1c, 0x0⟩
def PLAN_STATUS_REJECTED : Fld := ⟨0x4400000, [], 1, 1, .w1c, 0x0⟩
def PLAN_STATUS_FIRED : Fld := ⟨0x4400000, [], 0, 1, .w1c, 0x0⟩
def PLAN_MAPINFO_VALID : Fld := ⟨0x4400100, [(0x4, 64)], 31, 1, .ro, 0x0⟩
def PLAN_MAPINFO_PARTIAL : Fld := ⟨0x4400100, [(0x4, 64)], 30, 1, .ro, 0x0⟩
def PLAN_MAPINFO_COUNT : Fld := ⟨0x4400100, [(0x4, 64)], 0, 10, .ro, 0x0⟩
def PLAN_RULE_TTYPE : Fld := ⟨0x4401000, [(0x20, 64)], 29, 3, .rwc, 0x0⟩
def PLAN_RULE_ACTION : Fld := ⟨0x4401000, [(0x20, 64)], 27, 2, .rwc, 0x0⟩
def PLAN_RULE_ONESHOT : Fld := ⟨0x4401000, [(0x20, 64)], 26, 1, .rwc, 0x0⟩
def PLAN_RULE_CLAIM : Fld := ⟨0x4401000, [(0x20, 64)], 25, 1, .rwc, 0x0⟩
def PLAN_RULE_SPREAD : Fld := ⟨0x4401000, [(0x20, 64)], 24, 1, .rwc, 0x0⟩
def PLAN_RULE_MODES : Fld := ⟨0x4401000, [(0x20, 64)], 18, 6, .rwc, 0x0⟩
def PLAN_RULE_WSEL : Fld := ⟨0x4401000, [(0x20, 64)], 17, 1, .rwc, 0x0⟩
def PLAN_RULE_WIDX : Fld := ⟨0x4401000, [(0x20, 64)], 12, 5, .rwc, 0x0⟩
def PLAN_RULE_DOMAIN : Fld := ⟨0x4401000, [(0x20, 64)], 9, 3, .rwc, 0x0⟩
def PLAN_RULE_ARG : Fld := ⟨0x4401000, [(0x20, 64)], 0, 6, .rwc, 0x0⟩
def PLAN_RULE_FIRST : Fld := ⟨0x4401004, [(0x20, 64)], 23, 9, .rwc, 0x0⟩
def PLAN_RULE_LAST : Fld := ⟨0x4401004, [(0x20, 64)], 14, 9, .rwc, 0x0⟩
def PLAN_RULE_NMIN : Fld := ⟨0x4401004, [(0x20, 64)], 5, 9, .rwc, 0x0⟩
def PLAN_RULE_EDGE : Fld := ⟨0x4401004, [(0x20, 64)], 3, 2, .rwc, 0x0⟩
def PLAN_RULE_PIN : Fld := ⟨0x4401004, [(0x20, 64)], 0, 3, .rwc, 0x0⟩
def PLAN_RULE_INSTANT : Fld := ⟨0x4401008, [(0x20, 64), (0x4, 2)], 0, 32, .rwc, 0x0⟩
def PLAN_RULE_AFMOD : Fld := ⟨0x4401010, [(0x20, 64)], 21, 11, .rwc, 0x1⟩
def PLAN_RULE_LEAD : Fld := ⟨0x4401010, [(0x20, 64)], 0, 20, .rwc, 0x0⟩
def PLAN_RULE_DEFER : Fld := ⟨0x4401014, [(0x20, 64)], 16, 16, .rwc, 0x0⟩
def PLAN_RULE_DEADLINE : Fld := ⟨0x4401014, [(0x20, 64)], 0, 16, .rwc, 0x0⟩
def PLAN_RULE_HOLDOFF : Fld := ⟨0x4401018, [(0x20, 64)], 16, 16, .rwc, 0x0⟩
def PLAN_RCTL_EN : Fld := ⟨0x4402000, [(0x4, 64)], 31, 1, .rwr, 0x0⟩
def PLAN_RCTL_REARM : Fld := ⟨0x4402000, [(0x4, 64)], 30, 1, .w1s, 0x0⟩
def PLAN_RCTL_RELEASE : Fld := ⟨0x4402000, [(0x4, 64)], 29, 1, .w1s, 0x0⟩
def PLAN_RCTL_CLAIMED : Fld := ⟨0x4402000, [(0x4, 64)], 28, 1, .ro, 0x0⟩
def PLAN_RCTL_STATE : Fld := ⟨0x4402000, [(0x4, 64)], 26, 2, .ro, 0x0⟩
def PLAN_RCTL_FIRES : Fld := ⟨0x4402000, [(0x4, 64)], 0, 24, .ro, 0x0⟩
def PLAN_SCHED_DOMAIN : Fld := ⟨0x4403000, [(0x80, 8)], 29, 3, .rwc, 0x0⟩
def PLAN_SCHED_WIDX : Fld := ⟨0x4403000, [(0x80, 8)], 24, 5, .rwc, 0x0⟩
def PLAN_SCHED_NSTEPS : Fld := ⟨0x4403000, [(0x80, 8)], 20, 4, .rwc, 0x0⟩
def PLAN_SCHED_STOP_ON_FAIL : Fld := ⟨0x4403000, [(0x80, 8)], 19, 1, .rwc, 0x0⟩
def PLAN_SCHED_ALIGN : Fld := ⟨0x4403000, [(0x80, 8)], 8, 11, .rwc, 0x1⟩
def PLAN_SCHED_MAP : Fld := ⟨0x4403004, [(0x80, 8), (0x4, 16)], 8, 6, .rwc, 0x0⟩
def PLAN_SCHED_LEN : Fld := ⟨0x4403004, [(0x80, 8), (0x4, 16)], 0, 8, .rwc, 0x0⟩
def PLAN_SCTL_RUN : Fld := ⟨0x4404000, [(0x4, 8)], 31, 1, .rwr, 0x0⟩
def PLAN_SCTL_STEP : Fld := ⟨0x4404000, [(0x4, 8)], 24, 4, .ro, 0x0⟩
def PLAN_SCTL_CYCLES : Fld := ⟨0x4404000, [(0x4, 8)], 0, 24, .ro, 0x0⟩
/-! 11_calibration, table of R277. -/

def CAL_STATUS_QUALITY_LOW : Fld := ⟨0x4000000, [], 6, 1, .w1c, 0x0⟩
def CAL_STATUS_RECORD_FAIL : Fld := ⟨0x4000000, [], 5, 1, .w1c, 0x0⟩
def CAL_STATUS_GRADUAL : Fld := ⟨0x4000000, [], 4, 1, .w1c, 0x0⟩
def CAL_STATUS_NO_CAL_WINDOW : Fld := ⟨0x4000000, [], 3, 1, .w1c, 0x0⟩
def CAL_STATUS_STEP_ABORT : Fld := ⟨0x4000000, [], 2, 1, .w1c, 0x0⟩
def CAL_STATUS_SUSPECT_NEW : Fld := ⟨0x4000000, [], 1, 1, .w1c, 0x0⟩
def CAL_STATUS_NO_LIGHT : Fld := ⟨0x4000000, [], 0, 1, .w1c, 0x0⟩
def CAL_RUN_PHASE : Fld := ⟨0x4000100, [], 28, 4, .ro, 0x0⟩
def CAL_RUN_RESULT : Fld := ⟨0x4000100, [], 24, 4, .ro, 0x0⟩
def CAL_RUN_PROGRESS : Fld := ⟨0x4000100, [], 0, 16, .ro, 0x0⟩
def CAL_SRC_VALID : Fld := ⟨0x4000104, [(0x4, 2)], 31, 1, .ro, 0x0⟩
def CAL_SRC_PWR : Fld := ⟨0x4000104, [(0x4, 2)], 0, 16, .ro, 0x0⟩
def CAL_BGCFG_EN : Fld := ⟨0x4000110, [], 31, 1, .rwr, 0x1⟩
def CAL_BGCFG_SRC_EN : Fld := ⟨0x4000110, [], 30, 1, .rwr, 0x0⟩
def CAL_BGINT_B3 : Fld := ⟨0x4000114, [], 24, 8, .rwr, 0xA⟩
def CAL_BGINT_B2 : Fld := ⟨0x4000114, [], 16, 8, .rwr, 0x14⟩
def CAL_BGINT_B1 : Fld := ⟨0x4000114, [], 8, 8, .rwr, 0x1E⟩
def CAL_BGINT_B0 : Fld := ⟨0x4000114, [], 0, 8, .rwr, 0x3C⟩
def CAL_RECCFG_PERIOD : Fld := ⟨0x4000118, [], 0, 8, .rwr, 0x4⟩
def CAL_RECORD_VALID : Fld := ⟨0x400011C, [], 31, 1, .ro, 0x0⟩
def CAL_RECORD_IMPORTED : Fld := ⟨0x400011C, [], 30, 1, .ro, 0x0⟩
def CAL_RECORD_REGION : Fld := ⟨0x400011C, [], 29, 1, .ro, 0x0⟩
def CAL_RECORD_DIRTY : Fld := ⟨0x400011C, [], 28, 1, .ro, 0x0⟩
def CAL_RECORD_SEQ : Fld := ⟨0x400011C, [], 0, 24, .ro, 0x0⟩
def CAL_NSUSP : Fld := ⟨0x4000120, [], 16, 16, .ro, 0x0⟩
def CAL_NFAIL : Fld := ⟨0x4000120, [], 0, 16, .ro, 0x0⟩
def CAL_ABORTED : Fld := ⟨0x4000124, [], 16, 16, .rc, 0x0⟩
def CAL_GRADUAL : Fld := ⟨0x4000124, [], 0, 16, .rc, 0x0⟩
def CAL_STEPS : Fld := ⟨0x4000128, [], 0, 32, .rc, 0x0⟩
def CAL_EREC_TREF : Fld := ⟨0x4800000, [(0x10, 34816)], 24, 8, .ro, 0x0⟩
def CAL_EREC_UMOD_S : Fld := ⟨0x4800000, [(0x10, 34816)], 0, 17, .ro, 0x0⟩
def CAL_EREC_TCO : Fld := ⟨0x4800004, [(0x10, 34816)], 16, 16, .ro, 0x0⟩
def CAL_EREC_KPI : Fld := ⟨0x4800004, [(0x10, 34816)], 0, 16, .ro, 0x0⟩
def CAL_EREC_UMOD_T : Fld := ⟨0x4800008, [(0x10, 34816)], 0, 17, .ro, 0x0⟩
def CAL_EREC_EPS0 : Fld := ⟨0x480000C, [(0x10, 34816)], 24, 8, .ro, 0x0⟩
def CAL_EREC_LSPAN : Fld := ⟨0x480000C, [(0x10, 34816)], 8, 16, .ro, 0x0⟩
def CAL_EREC_SUSPECT : Fld := ⟨0x480000C, [(0x10, 34816)], 3, 1, .ro, 0x0⟩
def CAL_EREC_QUAL : Fld := ⟨0x480000C, [(0x10, 34816)], 2, 1, .ro, 0x0⟩
def CAL_EREC_ATTEMPTS : Fld := ⟨0x480000C, [(0x10, 34816)], 0, 2, .ro, 0x0⟩
def CAL_FIXLOSS_OUT : Fld := ⟨0x4900000, [(0x4, 512)], 16, 16, .ro, 0x0⟩
def CAL_FIXLOSS_IN : Fld := ⟨0x4900000, [(0x4, 512)], 0, 16, .ro, 0x0⟩
/-! 12_safety_channels_and_io, table of R305. -/

def SAF_STATUS_CFG_MISMATCH : Fld := ⟨0x4300000, [], 9, 1, .w1c, 0x0⟩
def SAF_STATUS_START_FAIL : Fld := ⟨0x4300000, [], 8, 1, .w1c, 0x0⟩
def SAF_STATUS_VSAFE : Fld := ⟨0x4300000, [], 7, 1, .w1c, 0x0⟩
def SAF_STATUS_SRST_REJ : Fld := ⟨0x4300000, [], 6, 1, .w1c, 0x0⟩
def SAF_STATUS_SO_FAULT : Fld := ⟨0x4300000, [], 5, 1, .w1c, 0x0⟩
def SAF_STATUS_TP_FAULT : Fld := ⟨0x4300000, [], 4, 1, .w1c, 0x0⟩
def SAF_STATUS_XSHORT : Fld := ⟨0x4300000, [], 3, 1, .w1c, 0x0⟩
def SAF_STATUS_DISC_LOCK : Fld := ⟨0x4300000, [], 2, 1, .w1c, 0x0⟩
def SAF_STATUS_DISC_WARN : Fld := ⟨0x4300000, [], 1, 1, .w1c, 0x0⟩
def SAF_STATUS_XCHK : Fld := ⟨0x4300000, [], 0, 1, .w1c, 0x0⟩
def SAF_GI_EN : Fld := ⟨0x4300100, [(0x4, 8)], 31, 1, .ro, 0x0⟩
def SAF_GI_STA : Fld := ⟨0x4300100, [(0x4, 8)], 29, 2, .ro, 0x0⟩
def SAF_GI_STB : Fld := ⟨0x4300100, [(0x4, 8)], 27, 2, .ro, 0x0⟩
def SAF_GI_HOLD : Fld := ⟨0x4300100, [(0x4, 8)], 26, 1, .ro, 0x0⟩
def SAF_GI_AA : Fld := ⟨0x4300100, [(0x4, 8)], 25, 1, .ro, 0x0⟩
def SAF_GI_BA : Fld := ⟨0x4300100, [(0x4, 8)], 24, 1, .ro, 0x0⟩
def SAF_GI_AB : Fld := ⟨0x4300100, [(0x4, 8)], 23, 1, .ro, 0x0⟩
def SAF_GI_BB : Fld := ⟨0x4300100, [(0x4, 8)], 22, 1, .ro, 0x0⟩
def SAF_GI_SUSP : Fld := ⟨0x4300100, [(0x4, 8)], 21, 1, .ro, 0x0⟩
def SAF_GI_DCNTA : Fld := ⟨0x4300100, [(0x4, 8)], 10, 9, .ro, 0x0⟩
def SAF_GI_DCNTB : Fld := ⟨0x4300100, [(0x4, 8)], 0, 9, .ro, 0x0⟩
def SAF_GICFG_EN : Fld := ⟨0x4300180, [(0x4, 8)], 31, 1, .ro, 0x0⟩
def SAF_GICFG_STM : Fld := ⟨0x4300180, [(0x4, 8)], 30, 1, .ro, 0x0⟩
def SAF_GICFG_DEB : Fld := ⟨0x4300180, [(0x4, 8)], 27, 3, .ro, 0x3⟩
def SAF_GICFG_DISC_T : Fld := ⟨0x4300180, [(0x4, 8)], 0, 9, .ro, 0x64⟩
def SAF_SO_ON : Fld := ⟨0x4300200, [(0x4, 4)], 31, 1, .ro, 0x0⟩
def SAF_SO_HCMD : Fld := ⟨0x4300200, [(0x4, 4)], 30, 1, .ro, 0x0⟩
def SAF_SO_LCMD : Fld := ⟨0x4300200, [(0x4, 4)], 29, 1, .ro, 0x0⟩
def SAF_SO_HA : Fld := ⟨0x4300200, [(0x4, 4)], 28, 1, .ro, 0x0⟩
def SAF_SO_LA : Fld := ⟨0x4300200, [(0x4, 4)], 27, 1, .ro, 0x0⟩
def SAF_SO_HB : Fld := ⟨0x4300200, [(0x4, 4)], 26, 1, .ro, 0x0⟩
def SAF_SO_LB : Fld := ⟨0x4300200, [(0x4, 4)], 25, 1, .ro, 0x0⟩
def SAF_SO_FAULT : Fld := ⟨0x4300200, [(0x4, 4)], 24, 1, .ro, 0x0⟩
def SAF_SO_LASTTEST : Fld := ⟨0x4300200, [(0x4, 4)], 22, 2, .ro, 0x0⟩
def SAF_XLINK_OK : Fld := ⟨0x4300300, [], 31, 1, .ro, 0x0⟩
def SAF_XLINK_ITEM : Fld := ⟨0x4300300, [], 0, 8, .ro, 0x0⟩
def SAF_SPBCRC_A : Fld := ⟨0x4300304, [], 0, 32, .ro, 0x0⟩
def SAF_SPBCRC_B : Fld := ⟨0x4300308, [], 0, 32, .ro, 0x0⟩
def SAF_PINS_VSAFE_OK : Fld := ⟨0x4300310, [], 9, 1, .ro, 0x0⟩
def SAF_PINS_TPB : Fld := ⟨0x4300310, [], 8, 1, .ro, 0x0⟩
def SAF_PINS_TPA : Fld := ⟨0x4300310, [], 7, 1, .ro, 0x0⟩
def SAF_PINS_MGRANT_B : Fld := ⟨0x4300310, [], 6, 1, .ro, 0x0⟩
def SAF_PINS_MGRANT_A : Fld := ⟨0x4300310, [], 5, 1, .ro, 0x0⟩
def SAF_PINS_MAINT_B : Fld := ⟨0x4300310, [], 4, 1, .ro, 0x0⟩
def SAF_PINS_MAINT_A : Fld := ⟨0x4300310, [], 3, 1, .ro, 0x0⟩
def SAF_PINS_SRST_B : Fld := ⟨0x4300310, [], 2, 1, .ro, 0x0⟩
def SAF_PINS_SRST_A : Fld := ⟨0x4300310, [], 1, 1, .ro, 0x0⟩
def SAF_PINS_START_OK : Fld := ⟨0x4300310, [], 0, 1, .ro, 0x0⟩
/-! 13_safety_functions_and_telegrams, table of R328. -/

def SAF_SOCFG_GI : Fld := ⟨0x4300220, [(0x4, 4)], 24, 8, .ro, 0x0⟩
def SAF_SOCFG_STOP : Fld := ⟨0x4300220, [(0x4, 4)], 23, 1, .ro, 0x0⟩
def SAF_SOCFG_PERMIT : Fld := ⟨0x4300220, [(0x4, 4)], 22, 1, .ro, 0x0⟩
def SAF_SOCFG_TELWD : Fld := ⟨0x4300220, [(0x4, 4)], 21, 1, .ro, 0x0⟩
def SAF_SOCFG_SLP : Fld := ⟨0x4300220, [(0x4, 4)], 20, 1, .ro, 0x0⟩
def SAF_SOCFG_SDP : Fld := ⟨0x4300220, [(0x4, 4)], 19, 1, .ro, 0x0⟩
def SAF_SOCFG_MAINT : Fld := ⟨0x4300220, [(0x4, 4)], 18, 1, .ro, 0x0⟩
def SAF_GIMAP_FN : Fld := ⟨0x4300400, [(0x4, 8)], 31, 1, .ro, 0x0⟩
def SAF_GIMAP_MBYP : Fld := ⟨0x4300400, [(0x4, 8)], 30, 1, .ro, 0x0⟩
def SAF_GIMAP_OCONN : Fld := ⟨0x4300400, [(0x4, 8)], 0, 16, .ro, 0x0⟩
def SAF_TELCFG_EN : Fld := ⟨0x4300500, [], 31, 1, .ro, 0x0⟩
def SAF_TELCFG_WDFN : Fld := ⟨0x4300500, [], 30, 1, .ro, 0x0⟩
def SAF_TELCFG_TWD : Fld := ⟨0x4300500, [], 16, 10, .ro, 0x28⟩
def SAF_TELCFG_ETYPE : Fld := ⟨0x4300500, [], 0, 16, .ro, 0x88B5⟩
def SAF_TELCFG_SRCID : Fld := ⟨0x4300504, [], 16, 16, .ro, 0x0⟩
def SAF_TELCFG_STID : Fld := ⟨0x4300504, [], 0, 16, .ro, 0x0⟩
def SAF_TELCFG_TXCYC : Fld := ⟨0x4300508, [], 0, 8, .ro, 0xA⟩
def SAF_TELSTAT_WD : Fld := ⟨0x4300510, [], 31, 1, .ro, 0x0⟩
def SAF_TELSTAT_WDB : Fld := ⟨0x4300510, [], 30, 1, .ro, 0x0⟩
def SAF_TELSTAT_STOP : Fld := ⟨0x4300510, [], 29, 1, .ro, 0x0⟩
def SAF_TELSTAT_RESYNC : Fld := ⟨0x4300510, [], 28, 1, .ro, 0x1⟩
def SAF_TELSTAT_PERMIT : Fld := ⟨0x4300510, [], 16, 4, .ro, 0x0⟩
def SAF_TELSTAT_AGE : Fld := ⟨0x4300510, [], 0, 16, .ro, 0xFFFF⟩
def SAF_TELSTAT_LAST : Fld := ⟨0x4300514, [], 0, 32, .ro, 0x0⟩
def SAF_LOCK_B : Fld := ⟨0x4300520, [], 8, 8, .ro, 0x0⟩
def SAF_LOCK_A : Fld := ⟨0x4300520, [], 0, 8, .ro, 0x0⟩
def SAF_SLPCFG_EN : Fld := ⟨0x4301000, [(0x4, 512)], 31, 1, .ro, 0x0⟩
def SAF_SLPCFG_RESTR : Fld := ⟨0x4301000, [(0x4, 512)], 30, 1, .ro, 0x0⟩
def SAF_SLPCFG_PLIM : Fld := ⟨0x4301000, [(0x4, 512)], 0, 7, .ro, 0x0⟩
def SAF_CNT_TEL_PAIR : Fld := ⟨0x4300700, [], 0, 32, .rc, 0x0⟩
def SAF_CNT_TEL_SINGLE : Fld := ⟨0x4300704, [], 0, 32, .rc, 0x0⟩
def SAF_CNT_TEL_MISMATCH : Fld := ⟨0x4300708, [], 0, 32, .rc, 0x0⟩
def SAF_CNT_TEL_BAD : Fld := ⟨0x430070C, [], 0, 32, .rc, 0x0⟩
def SAF_CNT_TEL_REPLAY : Fld := ⟨0x4300710, [], 0, 32, .rc, 0x0⟩
def SAF_CNT_TEL_WD : Fld := ⟨0x4300714, [], 0, 32, .rc, 0x0⟩
def SAF_CNT_SLP_TRIP_B : Fld := ⟨0x4300718, [], 16, 16, .rc, 0x0⟩
def SAF_CNT_SLP_TRIP_A : Fld := ⟨0x4300718, [], 0, 16, .rc, 0x0⟩
def SAF_CNT_SOS : Fld := ⟨0x430071C, [], 16, 16, .rc, 0x0⟩
def SAF_CNT_SDP : Fld := ⟨0x430071C, [], 0, 16, .rc, 0x0⟩
def SAF_CNT_TEST_PASS : Fld := ⟨0x4300720, [], 16, 16, .rc, 0x0⟩
def SAF_CNT_TEST_ABAND : Fld := ⟨0x4300720, [], 0, 16, .rc, 0x0⟩
/-! 14_network_ports, table of R342. -/

def NI_STATUS_CNT_HALF : Fld := ⟨0x0500000, [(0x8000, 2)], 6, 1, .w1c, 0x0⟩
def NI_STATUS_PORT_FAIL : Fld := ⟨0x0500000, [(0x8000, 2)], 5, 1, .w1c, 0x0⟩
def NI_STATUS_LINK_LOST : Fld := ⟨0x0500000, [(0x8000, 2)], 4, 1, .w1c, 0x0⟩
def NI_STATUS_FEC_UNCORR : Fld := ⟨0x0500000, [(0x8000, 2)], 3, 1, .w1c, 0x0⟩
def NI_STATUS_PAUSE_CLIP : Fld := ⟨0x0500000, [(0x8000, 2)], 2, 1, .w1c, 0x0⟩
def NI_STATUS_NOBUF : Fld := ⟨0x0500000, [(0x8000, 2)], 1, 1, .w1c, 0x0⟩
def NI_STATUS_MEM_ECC : Fld := ⟨0x0500000, [(0x8000, 2)], 0, 1, .w1c, 0x0⟩
def NI_CFG_EN : Fld := ⟨0x0500100, [(0x8000, 2)], 31, 1, .rwc, 0x0⟩
def NI_CFG_MODE : Fld := ⟨0x0500100, [(0x8000, 2)], 29, 2, .rwc, 0x0⟩
def NI_CFG_PAUSE_HONOUR : Fld := ⟨0x0500100, [(0x8000, 2)], 28, 1, .rwr, 0x1⟩
def NI_CFG_RXPOL : Fld := ⟨0x0500100, [(0x8000, 2)], 24, 4, .rwc, 0x0⟩
def NI_CFG_TXPOL : Fld := ⟨0x0500100, [(0x8000, 2)], 20, 4, .rwc, 0x0⟩
def NI_CFG_PAUSE_CAP : Fld := ⟨0x0500100, [(0x8000, 2)], 0, 16, .rwr, 0x0⟩
def NI_CLASSCFG_VID : Fld := ⟨0x0500104, [(0x8000, 2)], 16, 12, .rwr, 0x0⟩
def NI_CLASSCFG_KCP_PORT : Fld := ⟨0x0500104, [(0x8000, 2)], 0, 16, .rwr, 0x1E40⟩
def NI_LINK_UP : Fld := ⟨0x0500108, [(0x8000, 2)], 31, 1, .ro, 0x0⟩
def NI_LINK_HI_BER : Fld := ⟨0x0500108, [(0x8000, 2)], 30, 1, .ro, 0x0⟩
def NI_LINK_LFAULT : Fld := ⟨0x0500108, [(0x8000, 2)], 29, 1, .ro, 0x0⟩
def NI_LINK_RFAULT : Fld := ⟨0x0500108, [(0x8000, 2)], 28, 1, .ro, 0x0⟩
def NI_LINK_PAUSED : Fld := ⟨0x0500108, [(0x8000, 2)], 27, 1, .ro, 0x0⟩
def NI_LINK_PREM : Fld := ⟨0x0500108, [(0x8000, 2)], 0, 16, .ro, 0x0⟩
def NI_MACADDR_ADDR_LO : Fld := ⟨0x0500110, [(0x8000, 2)], 0, 32, .ro, 0x0⟩
def NI_MACADDR_ADDR_HI : Fld := ⟨0x0500114, [(0x8000, 2)], 0, 16, .ro, 0x0⟩
def NI_CNTHALF_HALF : Fld := ⟨0x0500180, [(0x8000, 2)], 0, 32, .w1c, 0x0⟩
def NI_RING_LOW : Fld := ⟨0x0500200, [(0x8000, 2), (0x4, 4)], 16, 13, .rc, 0x0⟩
def NI_RING_FREE : Fld := ⟨0x0500200, [(0x8000, 2), (0x4, 4)], 0, 13, .ro, 0x0⟩
/-! 15_egress_queues_and_gates, table of R361. -/

def EGS_STATUS_CNT_HALF : Fld := ⟨0x0600000, [], 6, 1, .w1c, 0x0⟩
def EGS_STATUS_LINK_DROP : Fld := ⟨0x0600000, [], 5, 1, .w1c, 0x0⟩
def EGS_STATUS_POL_DROP : Fld := ⟨0x0600000, [], 4, 1, .w1c, 0x0⟩
def EGS_STATUS_GATE_FALLBACK : Fld := ⟨0x0600000, [], 3, 1, .w1c, 0x0⟩
def EGS_STATUS_GATE_OVERSIZE : Fld := ⟨0x0600000, [], 2, 1, .w1c, 0x0⟩
def EGS_STATUS_TAIL_DROP : Fld := ⟨0x0600000, [], 1, 1, .w1c, 0x0⟩
def EGS_STATUS_MEM_ECC : Fld := ⟨0x0600000, [], 0, 1, .w1c, 0x0⟩
def EGS_SRCCFG_PCV_DSH : Fld := ⟨0x0600100, [], 12, 4, .rwr, 0x0⟩
def EGS_SRCCFG_THM_DSH : Fld := ⟨0x0600100, [], 8, 4, .rwr, 0x0⟩
def EGS_SRCCFG_TAP_DSH : Fld := ⟨0x0600100, [], 4, 4, .rwr, 0xA⟩
def EGS_SRCCFG_LOOP_DSH : Fld := ⟨0x0600100, [], 0, 4, .rwr, 0xC⟩
def EGS_GCTL_EN : Fld := ⟨0x0600200, [(0x4, 2)], 31, 1, .rwc, 0x0⟩
def EGS_GCTL_DOMAIN : Fld := ⟨0x0600200, [(0x4, 2)], 28, 3, .rwc, 0x0⟩
def EGS_GCTL_CYC : Fld := ⟨0x0600200, [(0x4, 2)], 25, 3, .rwc, 0x0⟩
def EGS_GCTL_NENT : Fld := ⟨0x0600200, [(0x4, 2)], 16, 8, .rwc, 0x0⟩
def EGS_GCTL_FBGATES : Fld := ⟨0x0600200, [(0x4, 2)], 8, 8, .rwc, 0xFF⟩
def EGS_GCTL_GB : Fld := ⟨0x0600200, [(0x4, 2)], 0, 8, .rwc, 0x0⟩
def EGS_GCL_INTERVAL : Fld := ⟨0x0610000, [(0x400, 2), (0x4, 256)], 8, 24, .rwc, 0x0⟩
def EGS_GCL_GATES : Fld := ⟨0x0610000, [(0x400, 2), (0x4, 256)], 0, 8, .rwc, 0x0⟩
def EGS_TC_TX : Fld := ⟨0x0600300, [(0x40, 2), (0x4, 8)], 0, 32, .ro, 0x0⟩
def EGS_GATE_OVERSIZE : Fld := ⟨0x0600320, [(0x40, 2)], 0, 32, .ro, 0x0⟩
def EGS_LINK_DROP : Fld := ⟨0x0600324, [(0x40, 2)], 0, 32, .ro, 0x0⟩
def EGS_TAIL_DROP : Fld := ⟨0x0600380, [], 0, 32, .ro, 0x0⟩
def EGS_POL_DROP : Fld := ⟨0x0600400, [(0x4, 32)], 0, 32, .ro, 0x0⟩
def EGS_POL_EN : Fld := ⟨0x0620000, [(0x8, 32)], 31, 1, .rwc, 0x0⟩
def EGS_POL_RATE : Fld := ⟨0x0620000, [(0x8, 32)], 0, 24, .rwc, 0x0⟩
def EGS_POL_BURST : Fld := ⟨0x0620004, [(0x8, 32)], 0, 15, .rwc, 0x0⟩
def EGS_DEST_EN : Fld := ⟨0x0630000, [(0x40, 16)], 31, 1, .rwc, 0x0⟩
def EGS_DEST_IPV6 : Fld := ⟨0x0630000, [(0x40, 16)], 30, 1, .rwc, 0x0⟩
def EGS_DEST_TAG : Fld := ⟨0x0630000, [(0x40, 16)], 29, 1, .rwc, 0x0⟩
def EGS_DEST_DOMAIN : Fld := ⟨0x0630000, [(0x40, 16)], 26, 3, .rwc, 0x0⟩
def EGS_DEST_MAXLEN : Fld := ⟨0x0630000, [(0x40, 16)], 12, 14, .rwc, 0x5EE⟩
def EGS_DEST_VID : Fld := ⟨0x0630000, [(0x40, 16)], 0, 12, .rwc, 0x0⟩
def EGS_DEST_HOLD : Fld := ⟨0x0630004, [(0x40, 16)], 16, 16, .rwc, 0x3E8⟩
def EGS_DEST_MAC_LO : Fld := ⟨0x0630008, [(0x40, 16)], 0, 32, .rwc, 0x0⟩
def EGS_DEST_MAC_HI : Fld := ⟨0x063000C, [(0x40, 16)], 0, 16, .rwc, 0x0⟩
def EGS_DEST_DPORT : Fld := ⟨0x0630010, [(0x40, 16)], 16, 16, .rwc, 0x0⟩
def EGS_DEST_SPORT : Fld := ⟨0x0630010, [(0x40, 16)], 0, 16, .rwc, 0x0⟩
def EGS_DEST_IPADDR : Fld := ⟨0x0630020, [(0x40, 16), (0x4, 4)], 0, 32, .rwc, 0x0⟩
def EGS_SAMP_FIRST : Fld := ⟨0x0631000, [(0x8, 16)], 16, 16, .rwr, 0x0⟩
def EGS_SAMP_LAST : Fld := ⟨0x0631000, [(0x8, 16)], 0, 16, .rwr, 0x0⟩
def EGS_SAMP_EN : Fld := ⟨0x0631004, [(0x8, 16)], 31, 1, .rwr, 0x0⟩
def EGS_SAMP_PERIOD : Fld := ⟨0x0631004, [(0x8, 16)], 16, 15, .rwr, 0x0⟩
def EGS_SAMP_TQ : Fld := ⟨0x0631004, [(0x8, 16)], 0, 16, .rwr, 0x0⟩
def EGS_QSTAT_MAXDELAY : Fld := ⟨0x0640000, [(0x4, 65536)], 16, 16, .rc, 0x0⟩
def EGS_QSTAT_DEPTH : Fld := ⟨0x0640000, [(0x4, 65536)], 0, 16, .ro, 0x0⟩
def EGS_QCFG_EN : Fld := ⟨0x0680000, [(0x8, 65536)], 31, 1, .rwr, 0x0⟩
def EGS_QCFG_TC : Fld := ⟨0x0680000, [(0x8, 65536)], 28, 3, .rwc, 0x0⟩
def EGS_QCFG_PORT : Fld := ⟨0x0680000, [(0x8, 65536)], 26, 2, .rwc, 0x0⟩
def EGS_QCFG_SHAPE : Fld := ⟨0x0680000, [(0x8, 65536)], 25, 1, .rwr, 0x0⟩
def EGS_QCFG_RATE : Fld := ⟨0x0680000, [(0x8, 65536)], 0, 24, .rwr, 0x0⟩
def EGS_QCFG_BURST : Fld := ⟨0x0680004, [(0x8, 65536)], 17, 15, .rwr, 0x90⟩
def EGS_QCFG_DEST : Fld := ⟨0x0680004, [(0x8, 65536)], 13, 4, .rwc, 0x0⟩
def EGS_QCFG_QSH : Fld := ⟨0x0680004, [(0x8, 65536)], 10, 3, .rwc, 0x3⟩
def EGS_QCFG_LIMIT : Fld := ⟨0x0680004, [(0x8, 65536)], 0, 10, .rwc, 0x10⟩
/-! 16_kcp_and_journal, table of R362. -/

def NI_IP_V4ADDR : Fld := ⟨0x0500300, [(0x8000, 2)], 0, 32, .rwc, 0x0⟩
def NI_IP_V4PLEN : Fld := ⟨0x0500304, [(0x8000, 2)], 0, 8, .rwc, 0x18⟩
def NI_IP_GRPADDR : Fld := ⟨0x0500308, [(0x8000, 2)], 0, 32, .rwc, 0x0⟩
def NI_IP_V6ADDR0 : Fld := ⟨0x0500310, [(0x8000, 2), (0x4, 4)], 0, 32, .rwc, 0x0⟩
def NI_IP_V6ADDR1 : Fld := ⟨0x0500320, [(0x8000, 2), (0x4, 4)], 0, 32, .rwc, 0x0⟩
/-! 16_kcp_and_journal, table of R387. -/

def JNL_STATUS_GAP : Fld := ⟨0x0300000, [], 6, 1, .w1c, 0x0⟩
def JNL_STATUS_RECOVERED : Fld := ⟨0x0300000, [], 5, 1, .w1c, 0x0⟩
def JNL_STATUS_PWRFAIL : Fld := ⟨0x0300000, [], 4, 1, .w1c, 0x0⟩
def JNL_STATUS_CRC_REPAIR : Fld := ⟨0x0300000, [], 3, 1, .w1c, 0x0⟩
def JNL_STATUS_SIGFAIL : Fld := ⟨0x0300000, [], 2, 1, .w1c, 0x0⟩
def JNL_STATUS_COPY_FAIL_B : Fld := ⟨0x0300000, [], 1, 1, .w1c, 0x0⟩
def JNL_STATUS_COPY_FAIL_A : Fld := ⟨0x0300000, [], 0, 1, .w1c, 0x0⟩
def JNL_COPY_STATE : Fld := ⟨0x0300100, [(0x4, 2)], 30, 2, .ro, 0x0⟩
def JNL_COPY_CHECKS : Fld := ⟨0x0300100, [(0x4, 2)], 28, 2, .ro, 0x0⟩
def JNL_COPY_PROGRESS : Fld := ⟨0x0300100, [(0x4, 2)], 0, 16, .ro, 0x0⟩
def JNL_JSEQ_LO : Fld := ⟨0x0300110, [], 0, 32, .ro, 0x0⟩
def JNL_JSEQ_HI : Fld := ⟨0x0300114, [], 0, 32, .ro, 0x0⟩
def JNL_ASEQ : Fld := ⟨0x0300118, [], 0, 32, .ro, 0x0⟩
def JNL_CKPT : Fld := ⟨0x0300120, [], 0, 32, .ro, 0x0⟩
def JNL_RECOV_CAUSE : Fld := ⟨0x0300128, [], 24, 8, .ro, 0x0⟩
def JNL_RECOV_MS : Fld := ⟨0x0300128, [], 16, 8, .ro, 0x0⟩
def JNL_RECOV_DONE : Fld := ⟨0x0300128, [], 8, 8, .ro, 0x0⟩
def JNL_RECOV_FAILED : Fld := ⟨0x0300128, [], 0, 8, .ro, 0x0⟩
def JNL_CFG_EXP_EN : Fld := ⟨0x0300130, [], 31, 1, .rwr, 0x0⟩
def JNL_CFG_IDLE_T : Fld := ⟨0x0300130, [], 16, 12, .rwr, 0x12C⟩
def JNL_CFG_EXPQ : Fld := ⟨0x0300130, [], 0, 16, .rwc, 0x9560⟩
def JNL_SESS_OPEN : Fld := ⟨0x0300200, [(0x10, 32)], 31, 1, .ro, 0x0⟩
def JNL_SESS_PLANOBS : Fld := ⟨0x0300200, [(0x10, 32)], 30, 1, .ro, 0x0⟩
def JNL_SESS_KEYSLOT : Fld := ⟨0x0300200, [(0x10, 32)], 8, 5, .ro, 0x0⟩
def JNL_SESS_RIGHTS : Fld := ⟨0x0300200, [(0x10, 32)], 0, 8, .ro, 0x0⟩
def JNL_SESS_NEXT : Fld := ⟨0x0300204, [(0x10, 32)], 0, 32, .ro, 0x1⟩
def JNL_SESS_CSEQ : Fld := ⟨0x0300208, [(0x10, 32)], 0, 32, .ro, 0x0⟩
def JNL_SESS_CQ : Fld := ⟨0x030020C, [(0x10, 32)], 16, 16, .rwc, 0x9520⟩
def JNL_SESS_NQ : Fld := ⟨0x030020C, [(0x10, 32)], 0, 16, .rwc, 0x9521⟩
def JNL_SCNT_SIGFAIL : Fld := ⟨0x0300400, [(0x8, 32)], 16, 16, .rc, 0x0⟩
def JNL_SCNT_GAPDROP : Fld := ⟨0x0300400, [(0x8, 32)], 0, 16, .rc, 0x0⟩
def JNL_SCNT_STALE : Fld := ⟨0x0300404, [(0x8, 32)], 16, 16, .rc, 0x0⟩
def JNL_SCNT_DUPS : Fld := ⟨0x0300404, [(0x8, 32)], 0, 16, .rc, 0x0⟩
def JNL_HKEY_VALID : Fld := ⟨0x0300600, [(0x4, 31)], 31, 1, .ro, 0x0⟩
def JNL_HKEY_RIGHTS : Fld := ⟨0x0300600, [(0x4, 31)], 0, 8, .ro, 0x0⟩
/-! 17_boot_images_and_security, table of R403. -/

def CL_STATUS_OTP_ECC : Fld := ⟨0x0200000, [], 4, 1, .w1c, 0x0⟩
def CL_STATUS_HOLD_FAIL : Fld := ⟨0x0200000, [], 3, 1, .w1c, 0x0⟩
def CL_STATUS_UPD_FAIL : Fld := ⟨0x0200000, [], 2, 1, .w1c, 0x0⟩
def CL_STATUS_SLOT_FAIL : Fld := ⟨0x0200000, [], 1, 1, .w1c, 0x0⟩
def CL_STATUS_FALLBACK : Fld := ⟨0x0200000, [], 0, 1, .w1c, 0x0⟩
def CL_BOOT_SLOT : Fld := ⟨0x0200100, [], 31, 1, .ro, 0x0⟩
def CL_BOOT_STATE_A : Fld := ⟨0x0200100, [], 28, 3, .ro, 0x0⟩
def CL_BOOT_STATE_B : Fld := ⟨0x0200100, [], 25, 3, .ro, 0x0⟩
def CL_BOOT_FAILITEM : Fld := ⟨0x0200100, [], 20, 5, .ro, 0x0⟩
def CL_BOOT_SVN : Fld := ⟨0x0200100, [], 14, 6, .ro, 0x0⟩
def CL_BOOT_OTPSVN : Fld := ⟨0x0200100, [], 8, 6, .ro, 0x0⟩
def CL_BOOT_LOADMS : Fld := ⟨0x0200100, [], 0, 8, .ro, 0x0⟩
def CL_IMGSEQ_LO : Fld := ⟨0x0200104, [], 0, 32, .ro, 0x0⟩
def CL_IMGSEQ_HI : Fld := ⟨0x0200108, [], 0, 32, .ro, 0x0⟩
def CL_DEVID : Fld := ⟨0x0200110, [(0x4, 4)], 0, 32, .ro, 0x0⟩
def CL_KEYS_BFK_REV : Fld := ⟨0x0200120, [], 30, 2, .ro, 0x0⟩
def CL_KEYS_UIK_REV : Fld := ⟨0x0200120, [], 12, 4, .ro, 0x0⟩
def CL_KEYS_UIK_PROG : Fld := ⟨0x0200120, [], 8, 4, .ro, 0x0⟩
def CL_KEYS_JTAG_LOCK : Fld := ⟨0x0200120, [], 0, 1, .ro, 0x0⟩
def CL_UPD_OWNED : Fld := ⟨0x0200124, [], 31, 1, .ro, 0x0⟩
def CL_UPD_SESSION : Fld := ⟨0x0200124, [], 24, 5, .ro, 0x0⟩
def CL_UPD_KIB : Fld := ⟨0x0200124, [], 0, 24, .ro, 0x0⟩
def CL_CERT : Fld := ⟨0x0201000, [(0x4, 768)], 0, 32, .ro, 0x0⟩
/-! 18_power_thermal_housekeeping, table of R425. -/

def PWR_STATUS_WDOG : Fld := ⟨0x0100080, [], 6, 1, .w1c, 0x0⟩
def PWR_STATUS_AUTO_SUSP : Fld := ⟨0x0100080, [], 5, 1, .w1c, 0x0⟩
def PWR_STATUS_RESTART_FAIL : Fld := ⟨0x0100080, [], 4, 1, .w1c, 0x0⟩
def PWR_STATUS_RESTART : Fld := ⟨0x0100080, [], 3, 1, .w1c, 0x0⟩
def PWR_STATUS_LATCH : Fld := ⟨0x0100080, [], 2, 1, .w1c, 0x0⟩
def PWR_STATUS_SHED : Fld := ⟨0x0100080, [], 1, 1, .w1c, 0x0⟩
def PWR_STATUS_ISL_FAIL : Fld := ⟨0x0100080, [], 0, 1, .w1c, 0x0⟩
def PWR_ISL_STATE : Fld := ⟨0x0100200, [(0x4, 30)], 29, 3, .ro, 0x0⟩
def PWR_ISL_AUTO : Fld := ⟨0x0100200, [(0x4, 30)], 28, 1, .rwc, 0x0⟩
def PWR_ISL_RESTART : Fld := ⟨0x0100200, [(0x4, 30)], 27, 1, .w1s, 0x0⟩
def PWR_ISL_AUTO_SUSP : Fld := ⟨0x0100200, [(0x4, 30)], 26, 1, .ro, 0x0⟩
def PWR_ISL_SHEDS : Fld := ⟨0x0100200, [(0x4, 30)], 16, 8, .ro, 0x0⟩
def PWR_ISL_FAILS : Fld := ⟨0x0100200, [(0x4, 30)], 8, 8, .ro, 0x0⟩
def THM_STATUS_BAND : Fld := ⟨0x4100000, [], 4, 1, .w1c, 0x0⟩
def THM_STATUS_BROKEN : Fld := ⟨0x4100000, [], 3, 1, .w1c, 0x0⟩
def THM_STATUS_LATCH : Fld := ⟨0x4100000, [], 2, 1, .w1c, 0x0⟩
def THM_STATUS_SHED : Fld := ⟨0x4100000, [], 1, 1, .w1c, 0x0⟩
def THM_STATUS_WARN : Fld := ⟨0x4100000, [], 0, 1, .w1c, 0x0⟩
def THM_SCRUBINT_B3 : Fld := ⟨0x4100100, [], 24, 8, .rwr, 0x8⟩
def THM_SCRUBINT_B2 : Fld := ⟨0x4100100, [], 16, 8, .rwr, 0x10⟩
def THM_SCRUBINT_B1 : Fld := ⟨0x4100100, [], 8, 8, .rwr, 0x20⟩
def THM_SCRUBINT_B0 : Fld := ⟨0x4100100, [], 0, 8, .rwr, 0x40⟩
def THM_ROUND : Fld := ⟨0x4100104, [], 0, 32, .ro, 0x0⟩
def THM_LOGSEQ : Fld := ⟨0x4100108, [], 0, 32, .ro, 0x0⟩
def THM_ISL_BAND : Fld := ⟨0x4100200, [(0x4, 30)], 30, 2, .ro, 0x0⟩
def THM_ISL_WARN : Fld := ⟨0x4100200, [(0x4, 30)], 29, 1, .ro, 0x0⟩
def THM_ISL_ALLBROKEN : Fld := ⟨0x4100200, [(0x4, 30)], 28, 1, .ro, 0x0⟩
def THM_ISL_HOTSENS : Fld := ⟨0x4100200, [(0x4, 30)], 16, 8, .ro, 0x0⟩
def THM_ISL_HOT : Fld := ⟨0x4100200, [(0x4, 30)], 0, 16, .ro, 0x0⟩
def THM_TEMP_VALID : Fld := ⟨0x4102000, [(0x4, 256)], 31, 1, .ro, 0x0⟩
def THM_TEMP_BROKEN : Fld := ⟨0x4102000, [(0x4, 256)], 30, 1, .ro, 0x0⟩
def THM_TEMP_RND : Fld := ⟨0x4102000, [(0x4, 256)], 16, 14, .ro, 0x0⟩
def THM_TEMP_TEMP : Fld := ⟨0x4102000, [(0x4, 256)], 0, 16, .ro, 0x0⟩
def THM_LOG_LSEQ : Fld := ⟨0x4110000, [(0x20, 1024)], 0, 32, .ro, 0x0⟩
def THM_LOG_BOOT : Fld := ⟨0x4110004, [(0x20, 1024)], 16, 16, .ro, 0x0⟩
def THM_LOG_KIND : Fld := ⟨0x4110004, [(0x20, 1024)], 8, 8, .ro, 0x0⟩
def THM_LOG_ISLAND : Fld := ⟨0x4110004, [(0x20, 1024)], 0, 8, .ro, 0x0⟩
def THM_LOG_SENSOR : Fld := ⟨0x4110008, [(0x20, 1024)], 24, 8, .ro, 0x0⟩
def THM_LOG_TEMP : Fld := ⟨0x4110008, [(0x20, 1024)], 0, 16, .ro, 0x0⟩
def THM_LOG_TIME_LO : Fld := ⟨0x411000C, [(0x20, 1024)], 0, 32, .ro, 0x0⟩
def THM_LOG_TIME_HI : Fld := ⟨0x4110010, [(0x20, 1024)], 0, 32, .ro, 0x0⟩
def THM_LOG_JSEQ_LO : Fld := ⟨0x4110014, [(0x20, 1024)], 0, 32, .ro, 0x0⟩
def THM_LOG_JSEQ_HI : Fld := ⟨0x4110018, [(0x20, 1024)], 0, 32, .ro, 0x0⟩
def THM_LOG_CRC : Fld := ⟨0x411001C, [(0x20, 1024)], 0, 32, .ro, 0x0⟩
def PCV_STATUS_SUSPENDED : Fld := ⟨0x4200000, [], 3, 1, .w1c, 0x0⟩
def PCV_STATUS_REF_UNSETTLED : Fld := ⟨0x4200000, [], 2, 1, .w1c, 0x0⟩
def PCV_STATUS_REFX_BAD : Fld := ⟨0x4200000, [], 1, 1, .w1c, 0x0⟩
def PCV_STATUS_OVR : Fld := ⟨0x4200000, [], 0, 1, .w1c, 0x0⟩
def PCV_CTRL_REFBUF_EN : Fld := ⟨0x4200100, [], 31, 1, .rw, 0x0⟩
def PCV_CTRL_RUN : Fld := ⟨0x4200100, [], 30, 1, .rw, 0x0⟩
def PCV_CTRL_REF_OK : Fld := ⟨0x4200100, [], 29, 1, .ro, 0x0⟩
def PCV_REFX_VALID : Fld := ⟨0x4200180, [], 31, 1, .ro, 0x0⟩
def PCV_REFX_UV : Fld := ⟨0x4200180, [], 0, 22, .ro, 0x0⟩
def PCV_SEQ_EN : Fld := ⟨0x4200200, [(0x4, 32)], 31, 1, .rwc, 0x0⟩
def PCV_SEQ_RATE : Fld := ⟨0x4200200, [(0x4, 32)], 8, 3, .rwc, 0x0⟩
def PCV_SEQ_CH : Fld := ⟨0x4200200, [(0x4, 32)], 0, 6, .rwc, 0x0⟩
def PCV_RESULT_VALID : Fld := ⟨0x4200300, [(0x4, 32)], 31, 1, .ro, 0x0⟩
def PCV_RESULT_REF_UNSETTLED : Fld := ⟨0x4200300, [(0x4, 32)], 30, 1, .ro, 0x0⟩
def PCV_RESULT_OVR : Fld := ⟨0x4200300, [(0x4, 32)], 29, 1, .ro, 0x0⟩
def PCV_RESULT_CNT : Fld := ⟨0x4200300, [(0x4, 32)], 24, 5, .ro, 0x0⟩
def PCV_RESULT_VALUE : Fld := ⟨0x4200300, [(0x4, 32)], 0, 24, .ro, 0x0⟩
def PCV_CHCAL_GAIN : Fld := ⟨0x4200400, [(0x8, 64)], 0, 24, .ro, 0x400000⟩
def PCV_CHCAL_OFS : Fld := ⟨0x4200404, [(0x8, 64)], 0, 24, .ro, 0x0⟩
/-! 19_faults_and_snapshots, table of R436. -/

def SNP_STATUS_BUF_PAR : Fld := ⟨0x4500000, [], 2, 1, .w1c, 0x0⟩
def SNP_STATUS_SCHED_DROP : Fld := ⟨0x4500000, [], 1, 1, .w1c, 0x0⟩
def SNP_STATUS_MISSED : Fld := ⟨0x4500000, [], 0, 1, .w1c, 0x0⟩
def SNP_CTRL_RELEASE : Fld := ⟨0x4500100, [], 31, 1, .w1s, 0x0⟩
def SNP_CTRL_EXPORT : Fld := ⟨0x4500100, [], 30, 1, .w1s, 0x0⟩
def SNP_CTRL_AUTOREL : Fld := ⟨0x4500100, [], 29, 1, .rwr, 0x1⟩
def SNP_CTRL_SRC_EN : Fld := ⟨0x4500100, [], 24, 5, .rwr, 0x1F⟩
def SNP_CTRL_EXPQ : Fld := ⟨0x4500100, [], 0, 16, .rwc, 0x9561⟩
def SNP_FCLASS : Fld := ⟨0x4500104, [], 0, 18, .rwr, 0x0⟩
def SNP_SCHED : Fld := ⟨0x4500108, [(0x4, 2)], 0, 32, .ro, 0x0⟩
def SNP_STATE_STATE : Fld := ⟨0x4500110, [], 30, 2, .ro, 0x0⟩
def SNP_STATE_SCHED_ARMED : Fld := ⟨0x4500110, [], 29, 1, .ro, 0x0⟩
def SNP_STATE_MISSED : Fld := ⟨0x4500110, [], 0, 16, .ro, 0x0⟩
def SNP_SNAPSEQ : Fld := ⟨0x4500114, [], 0, 32, .ro, 0x0⟩
/-! 20_register_summary, table of R443. -/

def GLB_STATUS_LOCK_WR : Fld := ⟨0x0000000, [], 2, 1, .w1c, 0x0⟩
def GLB_STATUS_STRAP_CHG : Fld := ⟨0x0000000, [], 1, 1, .w1c, 0x0⟩
def GLB_STATUS_PARITY : Fld := ⟨0x0000000, [], 0, 1, .w1c, 0x0⟩
def GLB_ID_PART : Fld := ⟨0x0000100, [], 16, 16, .ro, 0x5120⟩
def GLB_ID_GRADE : Fld := ⟨0x0000100, [], 12, 4, .ro, 0x0⟩
def GLB_ID_STEP : Fld := ⟨0x0000100, [], 8, 4, .ro, 0x0⟩
def GLB_FWVER_MAJOR : Fld := ⟨0x0000104, [], 24, 8, .ro, 0x0⟩
def GLB_FWVER_MINOR : Fld := ⟨0x0000104, [], 16, 8, .ro, 0x0⟩
def GLB_FWVER_BUILD : Fld := ⟨0x0000104, [], 0, 16, .ro, 0x0⟩
def GLB_MID_MID : Fld := ⟨0x0000108, [], 0, 6, .ro, 0x0⟩
def GLB_TIME_LO : Fld := ⟨0x0000110, [], 0, 32, .ro, 0x0⟩
def GLB_TIME_HI : Fld := ⟨0x0000114, [], 0, 32, .ro, 0x0⟩
def GLB_BOOT : Fld := ⟨0x0000118, [], 0, 16, .ro, 0x0⟩
def GLB_ALERT_MASK : Fld := ⟨0x0000120, [], 0, 18, .rw, 0x0⟩
def GLB_ALERT_ASSERTED : Fld := ⟨0x0000124, [], 31, 1, .ro, 0x1⟩
def GLB_ALERT_HW_HOLD : Fld := ⟨0x0000124, [], 30, 1, .ro, 0x1⟩
def GLB_SCRATCH : Fld := ⟨0x0000130, [], 0, 32, .rwr, 0x0⟩
/-! 19_faults_and_snapshots, table of R426. -/

def GLB_IRQ_EN : Fld := ⟨0x0000004, [], 0, 32, .rwr, 0x0⟩
def GLB_FIRST_ADDR : Fld := ⟨0x0000008, [], 0, 32, .ro, 0x0⟩
def GLB_FIRST_INFO_MASTER : Fld := ⟨0x000000C, [], 24, 8, .ro, 0x0⟩
def GLB_FIRST_INFO_ACCESS : Fld := ⟨0x000000C, [], 21, 3, .ro, 0x0⟩
def GLB_FIRST_INFO_BIT : Fld := ⟨0x000000C, [], 16, 5, .ro, 0x0⟩
def GLB_FIRST_INFO_VALID : Fld := ⟨0x000000C, [], 15, 1, .w1c, 0x0⟩
def GLB_FIRST_INFO_INJ : Fld := ⟨0x000000C, [], 14, 1, .ro, 0x0⟩
def GLB_FIRST_INFO_CHECK : Fld := ⟨0x000000C, [], 11, 3, .ro, 0x0⟩
def GLB_FIRST_INFO_SYNDROME : Fld := ⟨0x000000C, [], 0, 11, .ro, 0x0⟩
def GLB_FIRST_TIME : Fld := ⟨0x0000010, [], 0, 32, .ro, 0x0⟩
def GLB_ERR_COUNT : Fld := ⟨0x0000014, [], 0, 32, .ro, 0x0⟩
def GLB_INJECT_ARM : Fld := ⟨0x0000018, [], 31, 1, .w1s, 0x0⟩
def GLB_INJECT_SEL : Fld := ⟨0x0000018, [], 24, 3, .rwr, 0x0⟩
def GLB_INJECT_MASK : Fld := ⟨0x0000018, [], 0, 16, .rwr, 0x0⟩
def PWR_IRQ_EN : Fld := ⟨0x0100084, [], 0, 32, .rwr, 0x0⟩
def PWR_FIRST_ADDR : Fld := ⟨0x0100088, [], 0, 32, .ro, 0x0⟩
def PWR_FIRST_INFO_MASTER : Fld := ⟨0x010008C, [], 24, 8, .ro, 0x0⟩
def PWR_FIRST_INFO_ACCESS : Fld := ⟨0x010008C, [], 21, 3, .ro, 0x0⟩
def PWR_FIRST_INFO_BIT : Fld := ⟨0x010008C, [], 16, 5, .ro, 0x0⟩
def PWR_FIRST_INFO_VALID : Fld := ⟨0x010008C, [], 15, 1, .w1c, 0x0⟩
def PWR_FIRST_INFO_INJ : Fld := ⟨0x010008C, [], 14, 1, .ro, 0x0⟩
def PWR_FIRST_INFO_CHECK : Fld := ⟨0x010008C, [], 11, 3, .ro, 0x0⟩
def PWR_FIRST_INFO_SYNDROME : Fld := ⟨0x010008C, [], 0, 11, .ro, 0x0⟩
def PWR_FIRST_TIME : Fld := ⟨0x0100090, [], 0, 32, .ro, 0x0⟩
def PWR_ERR_COUNT : Fld := ⟨0x0100094, [], 0, 32, .ro, 0x0⟩
def PWR_INJECT_ARM : Fld := ⟨0x0100098, [], 31, 1, .w1s, 0x0⟩
def PWR_INJECT_SEL : Fld := ⟨0x0100098, [], 24, 3, .rwr, 0x0⟩
def PWR_INJECT_MASK : Fld := ⟨0x0100098, [], 0, 16, .rwr, 0x0⟩
def CL_IRQ_EN : Fld := ⟨0x0200004, [], 0, 32, .rwr, 0x0⟩
def CL_FIRST_ADDR : Fld := ⟨0x0200008, [], 0, 32, .ro, 0x0⟩
def CL_FIRST_INFO_MASTER : Fld := ⟨0x020000C, [], 24, 8, .ro, 0x0⟩
def CL_FIRST_INFO_ACCESS : Fld := ⟨0x020000C, [], 21, 3, .ro, 0x0⟩
def CL_FIRST_INFO_BIT : Fld := ⟨0x020000C, [], 16, 5, .ro, 0x0⟩
def CL_FIRST_INFO_VALID : Fld := ⟨0x020000C, [], 15, 1, .w1c, 0x0⟩
def CL_FIRST_INFO_INJ : Fld := ⟨0x020000C, [], 14, 1, .ro, 0x0⟩
def CL_FIRST_INFO_CHECK : Fld := ⟨0x020000C, [], 11, 3, .ro, 0x0⟩
def CL_FIRST_INFO_SYNDROME : Fld := ⟨0x020000C, [], 0, 11, .ro, 0x0⟩
def CL_FIRST_TIME : Fld := ⟨0x0200010, [], 0, 32, .ro, 0x0⟩
def CL_ERR_COUNT : Fld := ⟨0x0200014, [], 0, 32, .ro, 0x0⟩
def CL_INJECT_ARM : Fld := ⟨0x0200018, [], 31, 1, .w1s, 0x0⟩
def CL_INJECT_SEL : Fld := ⟨0x0200018, [], 24, 3, .rwr, 0x0⟩
def CL_INJECT_MASK : Fld := ⟨0x0200018, [], 0, 16, .rwr, 0x0⟩
def JNL_IRQ_EN : Fld := ⟨0x0300004, [], 0, 32, .rwr, 0x0⟩
def JNL_FIRST_ADDR : Fld := ⟨0x0300008, [], 0, 32, .ro, 0x0⟩
def JNL_FIRST_INFO_MASTER : Fld := ⟨0x030000C, [], 24, 8, .ro, 0x0⟩
def JNL_FIRST_INFO_ACCESS : Fld := ⟨0x030000C, [], 21, 3, .ro, 0x0⟩
def JNL_FIRST_INFO_BIT : Fld := ⟨0x030000C, [], 16, 5, .ro, 0x0⟩
def JNL_FIRST_INFO_VALID : Fld := ⟨0x030000C, [], 15, 1, .w1c, 0x0⟩
def JNL_FIRST_INFO_INJ : Fld := ⟨0x030000C, [], 14, 1, .ro, 0x0⟩
def JNL_FIRST_INFO_CHECK : Fld := ⟨0x030000C, [], 11, 3, .ro, 0x0⟩
def JNL_FIRST_INFO_SYNDROME : Fld := ⟨0x030000C, [], 0, 11, .ro, 0x0⟩
def JNL_FIRST_TIME : Fld := ⟨0x0300010, [], 0, 32, .ro, 0x0⟩
def JNL_ERR_COUNT : Fld := ⟨0x0300014, [], 0, 32, .ro, 0x0⟩
def JNL_INJECT_ARM : Fld := ⟨0x0300018, [], 31, 1, .w1s, 0x0⟩
def JNL_INJECT_SEL : Fld := ⟨0x0300018, [], 24, 3, .rwr, 0x0⟩
def JNL_INJECT_MASK : Fld := ⟨0x0300018, [], 0, 16, .rwr, 0x0⟩
def TBU_IRQ_EN : Fld := ⟨0x0400004, [], 0, 32, .rwr, 0x0⟩
def TBU_FIRST_ADDR : Fld := ⟨0x0400008, [], 0, 32, .ro, 0x0⟩
def TBU_FIRST_INFO_MASTER : Fld := ⟨0x040000C, [], 24, 8, .ro, 0x0⟩
def TBU_FIRST_INFO_ACCESS : Fld := ⟨0x040000C, [], 21, 3, .ro, 0x0⟩
def TBU_FIRST_INFO_BIT : Fld := ⟨0x040000C, [], 16, 5, .ro, 0x0⟩
def TBU_FIRST_INFO_VALID : Fld := ⟨0x040000C, [], 15, 1, .w1c, 0x0⟩
def TBU_FIRST_INFO_INJ : Fld := ⟨0x040000C, [], 14, 1, .ro, 0x0⟩
def TBU_FIRST_INFO_CHECK : Fld := ⟨0x040000C, [], 11, 3, .ro, 0x0⟩
def TBU_FIRST_INFO_SYNDROME : Fld := ⟨0x040000C, [], 0, 11, .ro, 0x0⟩
def TBU_FIRST_TIME : Fld := ⟨0x0400010, [], 0, 32, .ro, 0x0⟩
def TBU_ERR_COUNT : Fld := ⟨0x0400014, [], 0, 32, .ro, 0x0⟩
def TBU_INJECT_ARM : Fld := ⟨0x0400018, [], 31, 1, .w1s, 0x0⟩
def TBU_INJECT_SEL : Fld := ⟨0x0400018, [], 24, 3, .rwr, 0x0⟩
def TBU_INJECT_MASK : Fld := ⟨0x0400018, [], 0, 16, .rwr, 0x0⟩
def NI_IRQ_EN : Fld := ⟨0x0500004, [(0x8000, 2)], 0, 32, .rwr, 0x0⟩
def NI_FIRST_ADDR : Fld := ⟨0x0500008, [(0x8000, 2)], 0, 32, .ro, 0x0⟩
def NI_FIRST_INFO_MASTER : Fld := ⟨0x050000C, [(0x8000, 2)], 24, 8, .ro, 0x0⟩
def NI_FIRST_INFO_ACCESS : Fld := ⟨0x050000C, [(0x8000, 2)], 21, 3, .ro, 0x0⟩
def NI_FIRST_INFO_BIT : Fld := ⟨0x050000C, [(0x8000, 2)], 16, 5, .ro, 0x0⟩
def NI_FIRST_INFO_VALID : Fld := ⟨0x050000C, [(0x8000, 2)], 15, 1, .w1c, 0x0⟩
def NI_FIRST_INFO_INJ : Fld := ⟨0x050000C, [(0x8000, 2)], 14, 1, .ro, 0x0⟩
def NI_FIRST_INFO_CHECK : Fld := ⟨0x050000C, [(0x8000, 2)], 11, 3, .ro, 0x0⟩
def NI_FIRST_INFO_SYNDROME : Fld := ⟨0x050000C, [(0x8000, 2)], 0, 11, .ro, 0x0⟩
def NI_FIRST_TIME : Fld := ⟨0x0500010, [(0x8000, 2)], 0, 32, .ro, 0x0⟩
def NI_ERR_COUNT : Fld := ⟨0x0500014, [(0x8000, 2)], 0, 32, .ro, 0x0⟩
def NI_INJECT_ARM : Fld := ⟨0x0500018, [(0x8000, 2)], 31, 1, .w1s, 0x0⟩
def NI_INJECT_SEL : Fld := ⟨0x0500018, [(0x8000, 2)], 24, 3, .rwr, 0x0⟩
def NI_INJECT_MASK : Fld := ⟨0x0500018, [(0x8000, 2)], 0, 16, .rwr, 0x0⟩
def EGS_IRQ_EN : Fld := ⟨0x0600004, [], 0, 32, .rwr, 0x0⟩
def EGS_FIRST_ADDR : Fld := ⟨0x0600008, [], 0, 32, .ro, 0x0⟩
def EGS_FIRST_INFO_MASTER : Fld := ⟨0x060000C, [], 24, 8, .ro, 0x0⟩
def EGS_FIRST_INFO_ACCESS : Fld := ⟨0x060000C, [], 21, 3, .ro, 0x0⟩
def EGS_FIRST_INFO_BIT : Fld := ⟨0x060000C, [], 16, 5, .ro, 0x0⟩
def EGS_FIRST_INFO_VALID : Fld := ⟨0x060000C, [], 15, 1, .w1c, 0x0⟩
def EGS_FIRST_INFO_INJ : Fld := ⟨0x060000C, [], 14, 1, .ro, 0x0⟩
def EGS_FIRST_INFO_CHECK : Fld := ⟨0x060000C, [], 11, 3, .ro, 0x0⟩
def EGS_FIRST_INFO_SYNDROME : Fld := ⟨0x060000C, [], 0, 11, .ro, 0x0⟩
def EGS_FIRST_TIME : Fld := ⟨0x0600010, [], 0, 32, .ro, 0x0⟩
def EGS_ERR_COUNT : Fld := ⟨0x0600014, [], 0, 32, .ro, 0x0⟩
def EGS_INJECT_ARM : Fld := ⟨0x0600018, [], 31, 1, .w1s, 0x0⟩
def EGS_INJECT_SEL : Fld := ⟨0x0600018, [], 24, 3, .rwr, 0x0⟩
def EGS_INJECT_MASK : Fld := ⟨0x0600018, [], 0, 16, .rwr, 0x0⟩
def RS_IRQ_EN : Fld := ⟨0x0700004, [], 0, 32, .rwr, 0x0⟩
def RS_FIRST_ADDR : Fld := ⟨0x0700008, [], 0, 32, .ro, 0x0⟩
def RS_FIRST_INFO_MASTER : Fld := ⟨0x070000C, [], 24, 8, .ro, 0x0⟩
def RS_FIRST_INFO_ACCESS : Fld := ⟨0x070000C, [], 21, 3, .ro, 0x0⟩
def RS_FIRST_INFO_BIT : Fld := ⟨0x070000C, [], 16, 5, .ro, 0x0⟩
def RS_FIRST_INFO_VALID : Fld := ⟨0x070000C, [], 15, 1, .w1c, 0x0⟩
def RS_FIRST_INFO_INJ : Fld := ⟨0x070000C, [], 14, 1, .ro, 0x0⟩
def RS_FIRST_INFO_CHECK : Fld := ⟨0x070000C, [], 11, 3, .ro, 0x0⟩
def RS_FIRST_INFO_SYNDROME : Fld := ⟨0x070000C, [], 0, 11, .ro, 0x0⟩
def RS_FIRST_TIME : Fld := ⟨0x0700010, [], 0, 32, .ro, 0x0⟩
def RS_ERR_COUNT : Fld := ⟨0x0700014, [], 0, 32, .ro, 0x0⟩
def RS_INJECT_ARM : Fld := ⟨0x0700018, [], 31, 1, .w1s, 0x0⟩
def RS_INJECT_SEL : Fld := ⟨0x0700018, [], 24, 3, .rwr, 0x0⟩
def RS_INJECT_MASK : Fld := ⟨0x0700018, [], 0, 16, .rwr, 0x0⟩
def CE_IRQ_EN : Fld := ⟨0x0800004, [], 0, 32, .rwr, 0x0⟩
def CE_FIRST_ADDR : Fld := ⟨0x0800008, [], 0, 32, .ro, 0x0⟩
def CE_FIRST_INFO_MASTER : Fld := ⟨0x080000C, [], 24, 8, .ro, 0x0⟩
def CE_FIRST_INFO_ACCESS : Fld := ⟨0x080000C, [], 21, 3, .ro, 0x0⟩
def CE_FIRST_INFO_BIT : Fld := ⟨0x080000C, [], 16, 5, .ro, 0x0⟩
def CE_FIRST_INFO_VALID : Fld := ⟨0x080000C, [], 15, 1, .w1c, 0x0⟩
def CE_FIRST_INFO_INJ : Fld := ⟨0x080000C, [], 14, 1, .ro, 0x0⟩
def CE_FIRST_INFO_CHECK : Fld := ⟨0x080000C, [], 11, 3, .ro, 0x0⟩
def CE_FIRST_INFO_SYNDROME : Fld := ⟨0x080000C, [], 0, 11, .ro, 0x0⟩
def CE_FIRST_TIME : Fld := ⟨0x0800010, [], 0, 32, .ro, 0x0⟩
def CE_ERR_COUNT : Fld := ⟨0x0800014, [], 0, 32, .ro, 0x0⟩
def CE_INJECT_ARM : Fld := ⟨0x0800018, [], 31, 1, .w1s, 0x0⟩
def CE_INJECT_SEL : Fld := ⟨0x0800018, [], 24, 3, .rwr, 0x0⟩
def CE_INJECT_MASK : Fld := ⟨0x0800018, [], 0, 16, .rwr, 0x0⟩
def EDA_IRQ_EN : Fld := ⟨0x2000004, [(0x100000, 16)], 0, 32, .rwr, 0x0⟩
def EDA_FIRST_ADDR : Fld := ⟨0x2000008, [(0x100000, 16)], 0, 32, .ro, 0x0⟩
def EDA_FIRST_INFO_MASTER : Fld := ⟨0x200000C, [(0x100000, 16)], 24, 8, .ro, 0x0⟩
def EDA_FIRST_INFO_ACCESS : Fld := ⟨0x200000C, [(0x100000, 16)], 21, 3, .ro, 0x0⟩
def EDA_FIRST_INFO_BIT : Fld := ⟨0x200000C, [(0x100000, 16)], 16, 5, .ro, 0x0⟩
def EDA_FIRST_INFO_VALID : Fld := ⟨0x200000C, [(0x100000, 16)], 15, 1, .w1c, 0x0⟩
def EDA_FIRST_INFO_INJ : Fld := ⟨0x200000C, [(0x100000, 16)], 14, 1, .ro, 0x0⟩
def EDA_FIRST_INFO_CHECK : Fld := ⟨0x200000C, [(0x100000, 16)], 11, 3, .ro, 0x0⟩
def EDA_FIRST_INFO_SYNDROME : Fld := ⟨0x200000C, [(0x100000, 16)], 0, 11, .ro, 0x0⟩
def EDA_FIRST_TIME : Fld := ⟨0x2000010, [(0x100000, 16)], 0, 32, .ro, 0x0⟩
def EDA_ERR_COUNT : Fld := ⟨0x2000014, [(0x100000, 16)], 0, 32, .ro, 0x0⟩
def EDA_INJECT_ARM : Fld := ⟨0x2000018, [(0x100000, 16)], 31, 1, .w1s, 0x0⟩
def EDA_INJECT_SEL : Fld := ⟨0x2000018, [(0x100000, 16)], 24, 3, .rwr, 0x0⟩
def EDA_INJECT_MASK : Fld := ⟨0x2000018, [(0x100000, 16)], 0, 16, .rwr, 0x0⟩
def ESA_IRQ_EN : Fld := ⟨0x3000004, [], 0, 32, .rwr, 0x0⟩
def ESA_FIRST_ADDR : Fld := ⟨0x3000008, [], 0, 32, .ro, 0x0⟩
def ESA_FIRST_INFO_MASTER : Fld := ⟨0x300000C, [], 24, 8, .ro, 0x0⟩
def ESA_FIRST_INFO_ACCESS : Fld := ⟨0x300000C, [], 21, 3, .ro, 0x0⟩
def ESA_FIRST_INFO_BIT : Fld := ⟨0x300000C, [], 16, 5, .ro, 0x0⟩
def ESA_FIRST_INFO_VALID : Fld := ⟨0x300000C, [], 15, 1, .w1c, 0x0⟩
def ESA_FIRST_INFO_INJ : Fld := ⟨0x300000C, [], 14, 1, .ro, 0x0⟩
def ESA_FIRST_INFO_CHECK : Fld := ⟨0x300000C, [], 11, 3, .ro, 0x0⟩
def ESA_FIRST_INFO_SYNDROME : Fld := ⟨0x300000C, [], 0, 11, .ro, 0x0⟩
def ESA_FIRST_TIME : Fld := ⟨0x3000010, [], 0, 32, .ro, 0x0⟩
def ESA_ERR_COUNT : Fld := ⟨0x3000014, [], 0, 32, .ro, 0x0⟩
def ESA_INJECT_ARM : Fld := ⟨0x3000018, [], 31, 1, .w1s, 0x0⟩
def ESA_INJECT_SEL : Fld := ⟨0x3000018, [], 24, 3, .rwr, 0x0⟩
def ESA_INJECT_MASK : Fld := ⟨0x3000018, [], 0, 16, .rwr, 0x0⟩
def PORT_IRQ_EN : Fld := ⟨0x3800004, [], 0, 32, .rwr, 0x0⟩
def PORT_FIRST_ADDR : Fld := ⟨0x3800008, [], 0, 32, .ro, 0x0⟩
def PORT_FIRST_INFO_MASTER : Fld := ⟨0x380000C, [], 24, 8, .ro, 0x0⟩
def PORT_FIRST_INFO_ACCESS : Fld := ⟨0x380000C, [], 21, 3, .ro, 0x0⟩
def PORT_FIRST_INFO_BIT : Fld := ⟨0x380000C, [], 16, 5, .ro, 0x0⟩
def PORT_FIRST_INFO_VALID : Fld := ⟨0x380000C, [], 15, 1, .w1c, 0x0⟩
def PORT_FIRST_INFO_INJ : Fld := ⟨0x380000C, [], 14, 1, .ro, 0x0⟩
def PORT_FIRST_INFO_CHECK : Fld := ⟨0x380000C, [], 11, 3, .ro, 0x0⟩
def PORT_FIRST_INFO_SYNDROME : Fld := ⟨0x380000C, [], 0, 11, .ro, 0x0⟩
def PORT_FIRST_TIME : Fld := ⟨0x3800010, [], 0, 32, .ro, 0x0⟩
def PORT_ERR_COUNT : Fld := ⟨0x3800014, [], 0, 32, .ro, 0x0⟩
def PORT_INJECT_ARM : Fld := ⟨0x3800018, [], 31, 1, .w1s, 0x0⟩
def PORT_INJECT_SEL : Fld := ⟨0x3800018, [], 24, 3, .rwr, 0x0⟩
def PORT_INJECT_MASK : Fld := ⟨0x3800018, [], 0, 16, .rwr, 0x0⟩
def CAL_IRQ_EN : Fld := ⟨0x4000004, [], 0, 32, .rwr, 0x0⟩
def CAL_FIRST_ADDR : Fld := ⟨0x4000008, [], 0, 32, .ro, 0x0⟩
def CAL_FIRST_INFO_MASTER : Fld := ⟨0x400000C, [], 24, 8, .ro, 0x0⟩
def CAL_FIRST_INFO_ACCESS : Fld := ⟨0x400000C, [], 21, 3, .ro, 0x0⟩
def CAL_FIRST_INFO_BIT : Fld := ⟨0x400000C, [], 16, 5, .ro, 0x0⟩
def CAL_FIRST_INFO_VALID : Fld := ⟨0x400000C, [], 15, 1, .w1c, 0x0⟩
def CAL_FIRST_INFO_INJ : Fld := ⟨0x400000C, [], 14, 1, .ro, 0x0⟩
def CAL_FIRST_INFO_CHECK : Fld := ⟨0x400000C, [], 11, 3, .ro, 0x0⟩
def CAL_FIRST_INFO_SYNDROME : Fld := ⟨0x400000C, [], 0, 11, .ro, 0x0⟩
def CAL_FIRST_TIME : Fld := ⟨0x4000010, [], 0, 32, .ro, 0x0⟩
def CAL_ERR_COUNT : Fld := ⟨0x4000014, [], 0, 32, .ro, 0x0⟩
def CAL_INJECT_ARM : Fld := ⟨0x4000018, [], 31, 1, .w1s, 0x0⟩
def CAL_INJECT_SEL : Fld := ⟨0x4000018, [], 24, 3, .rwr, 0x0⟩
def CAL_INJECT_MASK : Fld := ⟨0x4000018, [], 0, 16, .rwr, 0x0⟩
def THM_IRQ_EN : Fld := ⟨0x4100004, [], 0, 32, .rwr, 0x0⟩
def THM_FIRST_ADDR : Fld := ⟨0x4100008, [], 0, 32, .ro, 0x0⟩
def THM_FIRST_INFO_MASTER : Fld := ⟨0x410000C, [], 24, 8, .ro, 0x0⟩
def THM_FIRST_INFO_ACCESS : Fld := ⟨0x410000C, [], 21, 3, .ro, 0x0⟩
def THM_FIRST_INFO_BIT : Fld := ⟨0x410000C, [], 16, 5, .ro, 0x0⟩
def THM_FIRST_INFO_VALID : Fld := ⟨0x410000C, [], 15, 1, .w1c, 0x0⟩
def THM_FIRST_INFO_INJ : Fld := ⟨0x410000C, [], 14, 1, .ro, 0x0⟩
def THM_FIRST_INFO_CHECK : Fld := ⟨0x410000C, [], 11, 3, .ro, 0x0⟩
def THM_FIRST_INFO_SYNDROME : Fld := ⟨0x410000C, [], 0, 11, .ro, 0x0⟩
def THM_FIRST_TIME : Fld := ⟨0x4100010, [], 0, 32, .ro, 0x0⟩
def THM_ERR_COUNT : Fld := ⟨0x4100014, [], 0, 32, .ro, 0x0⟩
def THM_INJECT_ARM : Fld := ⟨0x4100018, [], 31, 1, .w1s, 0x0⟩
def THM_INJECT_SEL : Fld := ⟨0x4100018, [], 24, 3, .rwr, 0x0⟩
def THM_INJECT_MASK : Fld := ⟨0x4100018, [], 0, 16, .rwr, 0x0⟩
def PCV_IRQ_EN : Fld := ⟨0x4200004, [], 0, 32, .rwr, 0x0⟩
def PCV_FIRST_ADDR : Fld := ⟨0x4200008, [], 0, 32, .ro, 0x0⟩
def PCV_FIRST_INFO_MASTER : Fld := ⟨0x420000C, [], 24, 8, .ro, 0x0⟩
def PCV_FIRST_INFO_ACCESS : Fld := ⟨0x420000C, [], 21, 3, .ro, 0x0⟩
def PCV_FIRST_INFO_BIT : Fld := ⟨0x420000C, [], 16, 5, .ro, 0x0⟩
def PCV_FIRST_INFO_VALID : Fld := ⟨0x420000C, [], 15, 1, .w1c, 0x0⟩
def PCV_FIRST_INFO_INJ : Fld := ⟨0x420000C, [], 14, 1, .ro, 0x0⟩
def PCV_FIRST_INFO_CHECK : Fld := ⟨0x420000C, [], 11, 3, .ro, 0x0⟩
def PCV_FIRST_INFO_SYNDROME : Fld := ⟨0x420000C, [], 0, 11, .ro, 0x0⟩
def PCV_FIRST_TIME : Fld := ⟨0x4200010, [], 0, 32, .ro, 0x0⟩
def PCV_ERR_COUNT : Fld := ⟨0x4200014, [], 0, 32, .ro, 0x0⟩
def PCV_INJECT_ARM : Fld := ⟨0x4200018, [], 31, 1, .w1s, 0x0⟩
def PCV_INJECT_SEL : Fld := ⟨0x4200018, [], 24, 3, .rwr, 0x0⟩
def PCV_INJECT_MASK : Fld := ⟨0x4200018, [], 0, 16, .rwr, 0x0⟩
def PLAN_IRQ_EN : Fld := ⟨0x4400004, [], 0, 32, .rwr, 0x0⟩
def PLAN_FIRST_ADDR : Fld := ⟨0x4400008, [], 0, 32, .ro, 0x0⟩
def PLAN_FIRST_INFO_MASTER : Fld := ⟨0x440000C, [], 24, 8, .ro, 0x0⟩
def PLAN_FIRST_INFO_ACCESS : Fld := ⟨0x440000C, [], 21, 3, .ro, 0x0⟩
def PLAN_FIRST_INFO_BIT : Fld := ⟨0x440000C, [], 16, 5, .ro, 0x0⟩
def PLAN_FIRST_INFO_VALID : Fld := ⟨0x440000C, [], 15, 1, .w1c, 0x0⟩
def PLAN_FIRST_INFO_INJ : Fld := ⟨0x440000C, [], 14, 1, .ro, 0x0⟩
def PLAN_FIRST_INFO_CHECK : Fld := ⟨0x440000C, [], 11, 3, .ro, 0x0⟩
def PLAN_FIRST_INFO_SYNDROME : Fld := ⟨0x440000C, [], 0, 11, .ro, 0x0⟩
def PLAN_FIRST_TIME : Fld := ⟨0x4400010, [], 0, 32, .ro, 0x0⟩
def PLAN_ERR_COUNT : Fld := ⟨0x4400014, [], 0, 32, .ro, 0x0⟩
def PLAN_INJECT_ARM : Fld := ⟨0x4400018, [], 31, 1, .w1s, 0x0⟩
def PLAN_INJECT_SEL : Fld := ⟨0x4400018, [], 24, 3, .rwr, 0x0⟩
def PLAN_INJECT_MASK : Fld := ⟨0x4400018, [], 0, 16, .rwr, 0x0⟩
def SNP_IRQ_EN : Fld := ⟨0x4500004, [], 0, 32, .rwr, 0x0⟩
def SNP_FIRST_ADDR : Fld := ⟨0x4500008, [], 0, 32, .ro, 0x0⟩
def SNP_FIRST_INFO_MASTER : Fld := ⟨0x450000C, [], 24, 8, .ro, 0x0⟩
def SNP_FIRST_INFO_ACCESS : Fld := ⟨0x450000C, [], 21, 3, .ro, 0x0⟩
def SNP_FIRST_INFO_BIT : Fld := ⟨0x450000C, [], 16, 5, .ro, 0x0⟩
def SNP_FIRST_INFO_VALID : Fld := ⟨0x450000C, [], 15, 1, .w1c, 0x0⟩
def SNP_FIRST_INFO_INJ : Fld := ⟨0x450000C, [], 14, 1, .ro, 0x0⟩
def SNP_FIRST_INFO_CHECK : Fld := ⟨0x450000C, [], 11, 3, .ro, 0x0⟩
def SNP_FIRST_INFO_SYNDROME : Fld := ⟨0x450000C, [], 0, 11, .ro, 0x0⟩
def SNP_FIRST_TIME : Fld := ⟨0x4500010, [], 0, 32, .ro, 0x0⟩
def SNP_ERR_COUNT : Fld := ⟨0x4500014, [], 0, 32, .ro, 0x0⟩
def SNP_INJECT_ARM : Fld := ⟨0x4500018, [], 31, 1, .w1s, 0x0⟩
def SNP_INJECT_SEL : Fld := ⟨0x4500018, [], 24, 3, .rwr, 0x0⟩
def SNP_INJECT_MASK : Fld := ⟨0x4500018, [], 0, 16, .rwr, 0x0⟩
def SAF_INJECT_ARM : Fld := ⟨0x4300018, [], 31, 1, .w1s, 0x0⟩
def SAF_INJECT_SEL : Fld := ⟨0x4300018, [], 24, 3, .rwr, 0x0⟩
def SAF_INJECT_MASK : Fld := ⟨0x4300018, [], 0, 16, .rwr, 0x0⟩
/-! 04_sensing_light, table of R106. -/

def PORT_LOS_STATE : Fld := ⟨0x3802000, [(0x4, 32)], 0, 32, .ro, 0x0⟩
def PORT_OVER : Fld := ⟨0x3802080, [(0x4, 16)], 0, 32, .ro, 0x0⟩
/-! 06_competing_loops_and_learning, table of R150. -/

def PORT_SLPCAP : Fld := ⟨0x3803100, [(0x4, 8)], 0, 32, .rwc, 0xFFFFFFFF⟩
/-! 06_competing_loops_and_learning, table of R163. -/

def CE_SUSPECT : Fld := ⟨0x0800200, [(0x4, 1120)], 0, 32, .ro, 0x0⟩
/-! 06_competing_loops_and_learning, table of R159. -/

def LM_BIN_E : Fld := ⟨0x1800000, [(0x80, 35840), (0x4, 32)], 0, 16, .rw, 0x0⟩
def LM_BIN_O : Fld := ⟨0x1800000, [(0x80, 35840), (0x4, 32)], 16, 16, .rw, 0x0⟩
/-! 11_calibration, table of R277. -/

def CAL_INSUSP : Fld := ⟨0x4000200, [(0x4, 32)], 0, 32, .ro, 0x0⟩
/-! 13_safety_functions_and_telegrams, table of R328. -/

def SAF_DARK : Fld := ⟨0x4300600, [(0x4, 16)], 0, 32, .ro, 0x0⟩
def SAF_SLPTRIP : Fld := ⟨0x4300640, [(0x4, 16)], 0, 32, .ro, 0x0⟩
/-! 10_stored_plans, table of R250. -/

def PLAN_CLAIM : Fld := ⟨0x4405000, [(0x4, 32)], 0, 32, .ro, 0x0⟩
/-! 15_egress_queues_and_gates, table of R361. -/

def EGS_CNTHALF : Fld := ⟨0x0600180, [], 0, 32, .w1c, 0x0⟩
/-! 14_network_ports, table of R341. -/

def NI_CNT : Fld := ⟨0x0501000, [(0x8000, 2), (0x4, 24)], 0, 32, .ro, 0x0⟩
/-! 19_faults_and_snapshots, table of R435. -/

def SNP_BUF : Fld := ⟨0x4520000, [(0x4, 215040)], 0, 32, .ro, 0x0⟩

/-! The fields of each block region (20_register_summary R438). -/

def PWR_fields0 : List Fld :=
  [PWR_MODE_OVL_BUSY, PWR_MODE_C_LOCKOUT, PWR_MODE_C_STOP, PWR_MODE_C_SHED,
   PWR_MODE_C_MAINT, PWR_MODE_C_DEG, PWR_MODE_C_UPD, PWR_MODE_CAUSE,
   PWR_MODE_RESTING, PWR_MODE_PREV, PWR_MODE_CUR, PWR_STATUS_WDOG,
   PWR_STATUS_AUTO_SUSP, PWR_STATUS_RESTART_FAIL, PWR_STATUS_RESTART, PWR_STATUS_LATCH,
   PWR_STATUS_SHED, PWR_STATUS_ISL_FAIL, PWR_ISL_STATE, PWR_ISL_AUTO,
   PWR_ISL_RESTART, PWR_ISL_AUTO_SUSP, PWR_ISL_SHEDS, PWR_ISL_FAILS]
def PWR_fields1 : List Fld :=
  [PWR_IRQ_EN, PWR_FIRST_ADDR, PWR_FIRST_INFO_MASTER, PWR_FIRST_INFO_ACCESS,
   PWR_FIRST_INFO_BIT, PWR_FIRST_INFO_VALID, PWR_FIRST_INFO_INJ, PWR_FIRST_INFO_CHECK,
   PWR_FIRST_INFO_SYNDROME, PWR_FIRST_TIME, PWR_ERR_COUNT, PWR_INJECT_ARM,
   PWR_INJECT_SEL, PWR_INJECT_MASK]
def PWR_fields : List Fld :=
  PWR_fields0 ++ PWR_fields1
def PWR_resets : List Fld := [PWR_MODE_CAUSE, PWR_MODE_RESTING]

def EDA_fields0 : List Fld :=
  [EDA_KTAB_SAMPLE_E, EDA_KTAB_SAMPLE_O, EDA_KTAB_VALID, EDA_KTAB_CHARGE,
   EDA_KTAB_HOLD0, EDA_RB_STATE, EDA_RB_HRANGE, EDA_RB_SEG,
   EDA_RB_HOLD, EDA_RB_HCODE, EDA_RB_FRZ, EDA_RB_HO,
   EDA_RB_CLR, EDA_RB_FAIL, EDA_RB_MISM, EDA_RB_HRES,
   EDA_RB_COMP, EDA_RB_VH, EDA_RB_RNDNO, EDA_STATUS_ELEM_FAIL,
   EDA_STATUS_KTAB, EDA_STATUS_SPACING, EDA_STATUS_BUDGET, EDA_STATUS_HOLD_CLAMP]
def EDA_fields1 : List Fld :=
  [EDA_STATUS_COMP, EDA_STATUS_HRES, EDA_STATUS_MISM, EDA_SLEW_RSTEP,
   EDA_SLEW_HSTEP, EDA_HO_TIME_B3, EDA_HO_TIME_B2, EDA_HO_TIME_B1,
   EDA_HO_TIME_B0, EDA_RANGE_THR_UP, EDA_RANGE_THR_DN, EDA_VPIN_CFG_HMAX,
   EDA_VPIN_CFG_QMAX, EDA_CLR_PARK, EDA_CLR_PIN, EDA_CLR_SB,
   EDA_CLR_SA, EDA_CLR_COLD, EDA_LASTWAVE_WAVE, EDA_LASTWAVE_COUNT,
   EDA_ECFG_KSCALE, EDA_ECFG_PCODE, EDA_IRQ_EN, EDA_FIRST_ADDR]
def EDA_fields2 : List Fld :=
  [EDA_FIRST_INFO_MASTER, EDA_FIRST_INFO_ACCESS, EDA_FIRST_INFO_BIT, EDA_FIRST_INFO_VALID,
   EDA_FIRST_INFO_INJ, EDA_FIRST_INFO_CHECK, EDA_FIRST_INFO_SYNDROME, EDA_FIRST_TIME,
   EDA_ERR_COUNT, EDA_INJECT_ARM, EDA_INJECT_SEL, EDA_INJECT_MASK]
def EDA_fields : List Fld :=
  EDA_fields0 ++ EDA_fields1 ++ EDA_fields2
def EDA_resets : List Fld := [EDA_RB_CLR, EDA_SLEW_RSTEP, EDA_SLEW_HSTEP, EDA_HO_TIME_B3, EDA_HO_TIME_B2, EDA_HO_TIME_B1, EDA_HO_TIME_B0, EDA_RANGE_THR_UP, EDA_RANGE_THR_DN, EDA_VPIN_CFG_HMAX, EDA_VPIN_CFG_QMAX, EDA_CLR_COLD, EDA_ECFG_KSCALE]

def ESA_fields0 : List Fld :=
  [ESA_CORR_GAIN0, ESA_CORR_GAIN1, ESA_CORR_OFS1, ESA_CORR_OFS0,
   ESA_CORR_TCAL, ESA_CORR_DARK0, ESA_SAMPLE_VALUE, ESA_SAMPLE_VALID,
   ESA_SAMPLE_SAT, ESA_SAMPLE_RCHG, ESA_SAMPLE_FILL, ESA_SAMPLE_MOVE,
   ESA_SAMPLE_UNDER, ESA_SAMPLE_GRANGE, ESA_SAMPLE_SEQ, ESA_STATUS_CORR_PAR,
   ESA_STATUS_NO_SAMPLE, ESA_STATUS_CLIP, ESA_STATUS_SAT, ESA_TAPCFG_IN_OSR,
   ESA_IRQ_EN, ESA_FIRST_ADDR, ESA_FIRST_INFO_MASTER, ESA_FIRST_INFO_ACCESS]
def ESA_fields1 : List Fld :=
  [ESA_FIRST_INFO_BIT, ESA_FIRST_INFO_VALID, ESA_FIRST_INFO_INJ, ESA_FIRST_INFO_CHECK,
   ESA_FIRST_INFO_SYNDROME, ESA_FIRST_TIME, ESA_ERR_COUNT, ESA_INJECT_ARM,
   ESA_INJECT_SEL, ESA_INJECT_MASK]
def ESA_fields : List Fld :=
  ESA_fields0 ++ ESA_fields1
def ESA_resets : List Fld := [ESA_TAPCFG_IN_OSR]

def PORT_fields0 : List Fld :=
  [PORT_LOS_IN_EN, PORT_LOS_IN_ASSERT_N, PORT_LOS_IN_CLEAR_N, PORT_LOS_IN_CLR,
   PORT_LOS_IN_SET, PORT_LOS_OUT_EN, PORT_LOS_OUT_ASSERT_N, PORT_LOS_OUT_CLEAR_N,
   PORT_LOS_OUT_CLR, PORT_LOS_OUT_SET, PORT_STATUS_TOT_OVER, PORT_STATUS_IN_OVER,
   PORT_VCAL_P_E, PORT_VCAL_P_O, PORT_VCAL_BCODE, PORT_SETPT_MODE,
   PORT_SETPT_GATE, PORT_SETPT_LOSACT, PORT_SETPT_LOST, PORT_SETPT_LOSN,
   PORT_SETPT_CLRN, PORT_SETPT_PHI, PORT_SETPT_PLO, PORT_SETPT_FB]
def PORT_fields1 : List Fld :=
  [PORT_SETPT_FHI, PORT_SETPT_FLO, PORT_SETPT_LOS, PORT_SETPT_VALID,
   PORT_SETPT_V, PORT_IRQ_EN, PORT_FIRST_ADDR, PORT_FIRST_INFO_MASTER,
   PORT_FIRST_INFO_ACCESS, PORT_FIRST_INFO_BIT, PORT_FIRST_INFO_VALID, PORT_FIRST_INFO_INJ,
   PORT_FIRST_INFO_CHECK, PORT_FIRST_INFO_SYNDROME, PORT_FIRST_TIME, PORT_ERR_COUNT,
   PORT_INJECT_ARM, PORT_INJECT_SEL, PORT_INJECT_MASK, PORT_LOS_STATE,
   PORT_OVER, PORT_SLPCAP]
def PORT_fields : List Fld :=
  PORT_fields0 ++ PORT_fields1
def PORT_resets : List Fld := [PORT_LOS_IN_EN, PORT_LOS_IN_ASSERT_N, PORT_LOS_IN_CLEAR_N, PORT_LOS_IN_CLR, PORT_LOS_IN_SET, PORT_LOS_OUT_EN, PORT_LOS_OUT_ASSERT_N, PORT_LOS_OUT_CLEAR_N, PORT_LOS_OUT_CLR, PORT_LOS_OUT_SET, PORT_SETPT_LOST, PORT_SETPT_LOSN, PORT_SETPT_CLRN, PORT_SETPT_PHI, PORT_SETPT_FHI, PORT_SETPT_FLO, PORT_SLPCAP]

def LT_fields0 : List Fld :=
  [LT_LOOP_STATE, LT_LOOP_LAW, LT_LOOP_NBQ, LT_LOOP_RATE,
   LT_LOOP_PHASE, LT_LOOP_TSTATE, LT_LOOP_EXT, LT_LOOP_DITH_EN,
   LT_LOOP_RC_EN, LT_LOOP_FF_EN, LT_LOOP_PL_EN, LT_LOOP_HCAUSE,
   LT_LOOP_CSET, LT_LOOP_TARGET, LT_LOOP_TREF, LT_LOOP_PLCNT,
   LT_LOOP_UMOD, LT_LOOP_TCO, LT_LOOP_REFS, LT_LOOP_DAMP,
   LT_LOOP_DSEQ, LT_LOOP_DLAG, LT_LOOP_DSH, LT_LOOP_YAVG]
def LT_fields1 : List Fld :=
  [LT_LOOP_DEMOD, LT_LOOP_DH, LT_LOOP_NBAD, LT_LOOP_NGOOD,
   LT_LOOP_UCMD, LT_LOOP_S, LT_VOA_EQSRC, LT_VOA_SPSEL,
   LT_VOA_SLPCLS, LT_VOA_PB_EN, LT_VOA_WIN, LT_VOA_PBSH,
   LT_VOA_EQV, LT_VOA_RAMP, LT_VOA_RSH, LT_VOA_PBHYS,
   LT_VOA_PBP, LT_VOA_TAU]
def LT_fields : List Fld :=
  LT_fields0 ++ LT_fields1
def LT_resets : List Fld := []

def CE_fields0 : List Fld :=
  [CE_CSET_B, CE_CSET_A, CE_CSET_BQ, CE_CSET_KPH,
   CE_CSET_GOUT, CE_CSET_RGOUT, CE_CSET_KB, CE_CSET_WIN,
   CE_CSET_KREF, CE_CSET_YFLOOR, CE_STATUS_FROZEN, CE_STATUS_ECC_DED,
   CE_STATUS_SHED, CE_STATUS_CLUSTER_FAIL, CE_STATUS_ENG_RETIRED, CE_STATUS_RESIDUE,
   CE_RATECFG_VOA, CE_RATECFG_DARK, CE_RATECFG_LIT, CE_SUPV_NGOODMIN,
   CE_SUPV_NBADMAX, CE_CSBAND_STRIDE, CE_CLSTAT_LIVE, CE_LOADSTAT_CAP]
def CE_fields1 : List Fld :=
  [CE_LOADSTAT_PEAK, CE_RCCTL_LEARN_EN, CE_RCCTL_PLAY_EN, CE_RCGEN_EN,
   CE_RCGEN_DOMAIN, CE_RCGEN_SRC, CE_RCGEN_MULT, CE_RCGEN_SCHED,
   CE_FFTAB_NB1, CE_FFTAB_NB0, CE_FFTAB_NB3, CE_FFTAB_NB2,
   CE_FFTAB_G3, CE_FFTAB_G2, CE_FFTAB_G1, CE_FFTAB_G0,
   CE_FFTAB_FFS, CE_CSET_RCGEN, CE_CSET_LEAD, CE_CSET_FSH,
   CE_CSET_KL, CE_CSET_LRG, CE_CSET_FFSH, CE_CSET_LMIN]
def CE_fields2 : List Fld :=
  [CE_CSET_LMAX, CE_CSET_PLUP, CE_CSET_PLTRIP, CE_CSET_PLREL,
   CE_CSET_OVTOL, CE_IRQ_EN, CE_FIRST_ADDR, CE_FIRST_INFO_MASTER,
   CE_FIRST_INFO_ACCESS, CE_FIRST_INFO_BIT, CE_FIRST_INFO_VALID, CE_FIRST_INFO_INJ,
   CE_FIRST_INFO_CHECK, CE_FIRST_INFO_SYNDROME, CE_FIRST_TIME, CE_ERR_COUNT,
   CE_INJECT_ARM, CE_INJECT_SEL, CE_INJECT_MASK, CE_SUSPECT]
def CE_fields : List Fld :=
  CE_fields0 ++ CE_fields1 ++ CE_fields2
def CE_resets : List Fld := [CE_RATECFG_VOA, CE_SUPV_NGOODMIN, CE_SUPV_NBADMAX, CE_RCCTL_LEARN_EN, CE_RCCTL_PLAY_EN, CE_FFTAB_NB1, CE_FFTAB_NB0, CE_FFTAB_NB3, CE_FFTAB_NB2, CE_CSET_FSH, CE_CSET_LRG, CE_CSET_FFSH, CE_CSET_LMAX, CE_CSET_PLUP, CE_CSET_PLTRIP, CE_CSET_PLREL, CE_CSET_OVTOL]

def TBU_fields0 : List Fld :=
  [TBU_STATUS_TS_LOST, TBU_STATUS_STEP_REFUSED, TBU_STATUS_STEPPED, TBU_STATUS_PPS_STRAY,
   TBU_STATUS_NODOM, TBU_STATUS_HOLDOVER, TBU_STATUS_UNLOCK, TBU_RXLAT,
   TBU_TXLAT, TBU_PPSOUT_EN, TBU_PPSOUT_SQUELCH, TBU_PPSOUT_DOMAIN,
   TBU_PPSOUT_WIDTH, TBU_PPSOUT_OFS, TBU_NODOM, TBU_DOM_CFG_EN,
   TBU_DOM_CFG_PORTS, TBU_DOM_CFG_PERIOD, TBU_DOM_CFG_MCAST, TBU_DOM_CFG_PTPDOM,
   TBU_DOM_CFG_CLASS_MAX, TBU_DOM_CFG_LOCK_THR, TBU_DOM_HOLD_HOLDOVER_T, TBU_DOM_STATE_STATE]
def TBU_fields1 : List Fld :=
  [TBU_DOM_STATE_TTPORT, TBU_DOM_STATE_TTVALID, TBU_DOM_STATE_TTCLASS, TBU_DOM_STATE_HO_MS,
   TBU_DOM_EST, TBU_DOM_TIME_SEC_HI, TBU_DOM_TIME_SEC_LO, TBU_DOM_TIME_NS,
   TBU_DOM_TIME_FRAC, TBU_DOM_AF, TBU_DOM_FADJ, TBU_DOM_PHADJ,
   TBU_DOM_STEP_GO, TBU_DOM_STEP_SEC_HI, TBU_DOM_STEP_SEC_LO, TBU_DOM_STEP_NS,
   TBU_DOM_EPOCH_SEC_HI, TBU_DOM_EPOCH_SEC_LO, TBU_DOM_EPOCH_NS, TBU_DOM_ASYM,
   TBU_DOM_PRIO_LPRIO_B, TBU_DOM_PRIO_LPRIO_A, TBU_DOM_PPSCFG_PPSMODE, TBU_DOM_PPSCFG_PPSDLY]
def TBU_fields2 : List Fld :=
  [TBU_DOM_PPSERR, TBU_DOM_SYNC_RX, TBU_DOM_DRESP_RX, TBU_DOM_DREQ_TX,
   TBU_DOM_ANN_RX, TBU_DOM_PTP_BAD, TBU_DOM_GW_EN, TBU_DOM_GW_CLASS,
   TBU_DOM_GW_OFS, TBU_DOM_GW_LEN, TBU_IRQ_EN, TBU_FIRST_ADDR,
   TBU_FIRST_INFO_MASTER, TBU_FIRST_INFO_ACCESS, TBU_FIRST_INFO_BIT, TBU_FIRST_INFO_VALID,
   TBU_FIRST_INFO_INJ, TBU_FIRST_INFO_CHECK, TBU_FIRST_INFO_SYNDROME, TBU_FIRST_TIME,
   TBU_ERR_COUNT, TBU_INJECT_ARM, TBU_INJECT_SEL, TBU_INJECT_MASK]
def TBU_fields : List Fld :=
  TBU_fields0 ++ TBU_fields1 ++ TBU_fields2
def TBU_resets : List Fld := [TBU_PPSOUT_SQUELCH, TBU_PPSOUT_WIDTH, TBU_DOM_CFG_PORTS, TBU_DOM_CFG_PTPDOM, TBU_DOM_CFG_CLASS_MAX, TBU_DOM_CFG_LOCK_THR, TBU_DOM_HOLD_HOLDOVER_T, TBU_DOM_STATE_TTCLASS, TBU_DOM_PRIO_LPRIO_B, TBU_DOM_PRIO_LPRIO_A]

def RS_fields0 : List Fld :=
  [RS_STATUS_STORE_ECC, RS_STATUS_SOLVE_LATE, RS_STATUS_REPAIR_WAIT, RS_STATUS_REPAIR,
   RS_STATUS_UNROUTED, RS_STATUS_DEFERRED, RS_STATUS_PINNED_BLOCK, RS_CTRL_REOPT_EN,
   RS_CTRL_REOPT_GAP, RS_SOLVE_LAST, RS_SOLVE_MAX, RS_CONN_DESC,
   RS_CONN_REPAIR_WAIT, RS_CONN_UNROUTED, RS_CONN_SUSP, RS_CONN_FRZ,
   RS_CONN_MOVES, RS_PATH_VALID, RS_PATH_CROW, RS_PATH_IL,
   RS_PATH_XT, RS_PATH_REE, RS_PATH_AGE, RS_PATH_UPD]
def RS_fields1 : List Fld :=
  [RS_EFAIL, RS_ESUSP, RS_EVSTATUS_LATE_ABORT, RS_EVSTATUS_PARTIAL,
   RS_EVSTATUS_TABLE_FULL, RS_EVSTATUS_CONTENTION, RS_EVSTATUS_EXPIRED, RS_EVSTATUS_LATE,
   RS_EVSTATUS_ORDER_WAIT, RS_EVCOUNT_PEAK, RS_EVCOUNT_PENDING, RS_WAVENO_WAVE,
   RS_EVTAB_STATE, RS_EVTAB_LATE, RS_EVTAB_DEFERRED, RS_EVTAB_PARTIAL,
   RS_EVTAB_GROUP, RS_EVTAB_REASON, RS_EVTAB_SESSION, RS_EVTAB_SSEQ,
   RS_EVTAB_ASEQ, RS_EVTAB_WAVES, RS_EVTAB_NCONN, RS_IRQ_EN]
def RS_fields2 : List Fld :=
  [RS_FIRST_ADDR, RS_FIRST_INFO_MASTER, RS_FIRST_INFO_ACCESS, RS_FIRST_INFO_BIT,
   RS_FIRST_INFO_VALID, RS_FIRST_INFO_INJ, RS_FIRST_INFO_CHECK, RS_FIRST_INFO_SYNDROME,
   RS_FIRST_TIME, RS_ERR_COUNT, RS_INJECT_ARM, RS_INJECT_SEL,
   RS_INJECT_MASK]
def RS_fields : List Fld :=
  RS_fields0 ++ RS_fields1 ++ RS_fields2
def RS_resets : List Fld := [RS_CTRL_REOPT_GAP, RS_PATH_AGE]

def PLAN_fields0 : List Fld :=
  [PLAN_STATUS_SCHED_STOP, PLAN_STATUS_OVERRIDE, PLAN_STATUS_MISSED, PLAN_STATUS_REJECTED,
   PLAN_STATUS_FIRED, PLAN_MAPINFO_VALID, PLAN_MAPINFO_PARTIAL, PLAN_MAPINFO_COUNT,
   PLAN_RULE_TTYPE, PLAN_RULE_ACTION, PLAN_RULE_ONESHOT, PLAN_RULE_CLAIM,
   PLAN_RULE_SPREAD, PLAN_RULE_MODES, PLAN_RULE_WSEL, PLAN_RULE_WIDX,
   PLAN_RULE_DOMAIN, PLAN_RULE_ARG, PLAN_RULE_FIRST, PLAN_RULE_LAST,
   PLAN_RULE_NMIN, PLAN_RULE_EDGE, PLAN_RULE_PIN, PLAN_RULE_INSTANT]
def PLAN_fields1 : List Fld :=
  [PLAN_RULE_AFMOD, PLAN_RULE_LEAD, PLAN_RULE_DEFER, PLAN_RULE_DEADLINE,
   PLAN_RULE_HOLDOFF, PLAN_RCTL_EN, PLAN_RCTL_REARM, PLAN_RCTL_RELEASE,
   PLAN_RCTL_CLAIMED, PLAN_RCTL_STATE, PLAN_RCTL_FIRES, PLAN_SCHED_DOMAIN,
   PLAN_SCHED_WIDX, PLAN_SCHED_NSTEPS, PLAN_SCHED_STOP_ON_FAIL, PLAN_SCHED_ALIGN,
   PLAN_SCHED_MAP, PLAN_SCHED_LEN, PLAN_SCTL_RUN, PLAN_SCTL_STEP,
   PLAN_SCTL_CYCLES, PLAN_IRQ_EN, PLAN_FIRST_ADDR, PLAN_FIRST_INFO_MASTER]
def PLAN_fields2 : List Fld :=
  [PLAN_FIRST_INFO_ACCESS, PLAN_FIRST_INFO_BIT, PLAN_FIRST_INFO_VALID, PLAN_FIRST_INFO_INJ,
   PLAN_FIRST_INFO_CHECK, PLAN_FIRST_INFO_SYNDROME, PLAN_FIRST_TIME, PLAN_ERR_COUNT,
   PLAN_INJECT_ARM, PLAN_INJECT_SEL, PLAN_INJECT_MASK, PLAN_CLAIM]
def PLAN_fields : List Fld :=
  PLAN_fields0 ++ PLAN_fields1 ++ PLAN_fields2
def PLAN_resets : List Fld := [PLAN_RULE_AFMOD, PLAN_SCHED_ALIGN]

def CAL_fields0 : List Fld :=
  [CAL_STATUS_QUALITY_LOW, CAL_STATUS_RECORD_FAIL, CAL_STATUS_GRADUAL, CAL_STATUS_NO_CAL_WINDOW,
   CAL_STATUS_STEP_ABORT, CAL_STATUS_SUSPECT_NEW, CAL_STATUS_NO_LIGHT, CAL_RUN_PHASE,
   CAL_RUN_RESULT, CAL_RUN_PROGRESS, CAL_SRC_VALID, CAL_SRC_PWR,
   CAL_BGCFG_EN, CAL_BGCFG_SRC_EN, CAL_BGINT_B3, CAL_BGINT_B2,
   CAL_BGINT_B1, CAL_BGINT_B0, CAL_RECCFG_PERIOD, CAL_RECORD_VALID,
   CAL_RECORD_IMPORTED, CAL_RECORD_REGION, CAL_RECORD_DIRTY, CAL_RECORD_SEQ]
def CAL_fields1 : List Fld :=
  [CAL_NSUSP, CAL_NFAIL, CAL_ABORTED, CAL_GRADUAL,
   CAL_STEPS, CAL_EREC_TREF, CAL_EREC_UMOD_S, CAL_EREC_TCO,
   CAL_EREC_KPI, CAL_EREC_UMOD_T, CAL_EREC_EPS0, CAL_EREC_LSPAN,
   CAL_EREC_SUSPECT, CAL_EREC_QUAL, CAL_EREC_ATTEMPTS, CAL_FIXLOSS_OUT,
   CAL_FIXLOSS_IN, CAL_IRQ_EN, CAL_FIRST_ADDR, CAL_FIRST_INFO_MASTER,
   CAL_FIRST_INFO_ACCESS, CAL_FIRST_INFO_BIT, CAL_FIRST_INFO_VALID, CAL_FIRST_INFO_INJ]
def CAL_fields2 : List Fld :=
  [CAL_FIRST_INFO_CHECK, CAL_FIRST_INFO_SYNDROME, CAL_FIRST_TIME, CAL_ERR_COUNT,
   CAL_INJECT_ARM, CAL_INJECT_SEL, CAL_INJECT_MASK, CAL_INSUSP]
def CAL_fields : List Fld :=
  CAL_fields0 ++ CAL_fields1 ++ CAL_fields2
def CAL_resets : List Fld := [CAL_BGCFG_EN, CAL_BGINT_B3, CAL_BGINT_B2, CAL_BGINT_B1, CAL_BGINT_B0, CAL_RECCFG_PERIOD]

def SAF_fields0 : List Fld :=
  [SAF_STATUS_CFG_MISMATCH, SAF_STATUS_START_FAIL, SAF_STATUS_VSAFE, SAF_STATUS_SRST_REJ,
   SAF_STATUS_SO_FAULT, SAF_STATUS_TP_FAULT, SAF_STATUS_XSHORT, SAF_STATUS_DISC_LOCK,
   SAF_STATUS_DISC_WARN, SAF_STATUS_XCHK, SAF_GI_EN, SAF_GI_STA,
   SAF_GI_STB, SAF_GI_HOLD, SAF_GI_AA, SAF_GI_BA,
   SAF_GI_AB, SAF_GI_BB, SAF_GI_SUSP, SAF_GI_DCNTA,
   SAF_GI_DCNTB, SAF_GICFG_EN, SAF_GICFG_STM, SAF_GICFG_DEB]
def SAF_fields1 : List Fld :=
  [SAF_GICFG_DISC_T, SAF_SO_ON, SAF_SO_HCMD, SAF_SO_LCMD,
   SAF_SO_HA, SAF_SO_LA, SAF_SO_HB, SAF_SO_LB,
   SAF_SO_FAULT, SAF_SO_LASTTEST, SAF_XLINK_OK, SAF_XLINK_ITEM,
   SAF_SPBCRC_A, SAF_SPBCRC_B, SAF_PINS_VSAFE_OK, SAF_PINS_TPB,
   SAF_PINS_TPA, SAF_PINS_MGRANT_B, SAF_PINS_MGRANT_A, SAF_PINS_MAINT_B,
   SAF_PINS_MAINT_A, SAF_PINS_SRST_B, SAF_PINS_SRST_A, SAF_PINS_START_OK]
def SAF_fields2 : List Fld :=
  [SAF_SOCFG_GI, SAF_SOCFG_STOP, SAF_SOCFG_PERMIT, SAF_SOCFG_TELWD,
   SAF_SOCFG_SLP, SAF_SOCFG_SDP, SAF_SOCFG_MAINT, SAF_GIMAP_FN,
   SAF_GIMAP_MBYP, SAF_GIMAP_OCONN, SAF_TELCFG_EN, SAF_TELCFG_WDFN,
   SAF_TELCFG_TWD, SAF_TELCFG_ETYPE, SAF_TELCFG_SRCID, SAF_TELCFG_STID,
   SAF_TELCFG_TXCYC, SAF_TELSTAT_WD, SAF_TELSTAT_WDB, SAF_TELSTAT_STOP,
   SAF_TELSTAT_RESYNC, SAF_TELSTAT_PERMIT, SAF_TELSTAT_AGE, SAF_TELSTAT_LAST]
def SAF_fields3 : List Fld :=
  [SAF_LOCK_B, SAF_LOCK_A, SAF_SLPCFG_EN, SAF_SLPCFG_RESTR,
   SAF_SLPCFG_PLIM, SAF_CNT_TEL_PAIR, SAF_CNT_TEL_SINGLE, SAF_CNT_TEL_MISMATCH,
   SAF_CNT_TEL_BAD, SAF_CNT_TEL_REPLAY, SAF_CNT_TEL_WD, SAF_CNT_SLP_TRIP_B,
   SAF_CNT_SLP_TRIP_A, SAF_CNT_SOS, SAF_CNT_SDP, SAF_CNT_TEST_PASS,
   SAF_CNT_TEST_ABAND, SAF_INJECT_ARM, SAF_INJECT_SEL, SAF_INJECT_MASK,
   SAF_DARK, SAF_SLPTRIP]
def SAF_fields : List Fld :=
  SAF_fields0 ++ SAF_fields1 ++ SAF_fields2 ++ SAF_fields3
def SAF_resets : List Fld := [SAF_GICFG_DEB, SAF_GICFG_DISC_T, SAF_TELCFG_TWD, SAF_TELCFG_ETYPE, SAF_TELCFG_TXCYC, SAF_TELSTAT_RESYNC, SAF_TELSTAT_AGE]

def NI_fields0 : List Fld :=
  [NI_STATUS_CNT_HALF, NI_STATUS_PORT_FAIL, NI_STATUS_LINK_LOST, NI_STATUS_FEC_UNCORR,
   NI_STATUS_PAUSE_CLIP, NI_STATUS_NOBUF, NI_STATUS_MEM_ECC, NI_CFG_EN,
   NI_CFG_MODE, NI_CFG_PAUSE_HONOUR, NI_CFG_RXPOL, NI_CFG_TXPOL,
   NI_CFG_PAUSE_CAP, NI_CLASSCFG_VID, NI_CLASSCFG_KCP_PORT, NI_LINK_UP,
   NI_LINK_HI_BER, NI_LINK_LFAULT, NI_LINK_RFAULT, NI_LINK_PAUSED,
   NI_LINK_PREM, NI_MACADDR_ADDR_LO, NI_MACADDR_ADDR_HI, NI_CNTHALF_HALF]
def NI_fields1 : List Fld :=
  [NI_RING_LOW, NI_RING_FREE, NI_IP_V4ADDR, NI_IP_V4PLEN,
   NI_IP_GRPADDR, NI_IP_V6ADDR0, NI_IP_V6ADDR1, NI_IRQ_EN,
   NI_FIRST_ADDR, NI_FIRST_INFO_MASTER, NI_FIRST_INFO_ACCESS, NI_FIRST_INFO_BIT,
   NI_FIRST_INFO_VALID, NI_FIRST_INFO_INJ, NI_FIRST_INFO_CHECK, NI_FIRST_INFO_SYNDROME,
   NI_FIRST_TIME, NI_ERR_COUNT, NI_INJECT_ARM, NI_INJECT_SEL,
   NI_INJECT_MASK, NI_CNT]
def NI_fields : List Fld :=
  NI_fields0 ++ NI_fields1
def NI_resets : List Fld := [NI_CFG_PAUSE_HONOUR, NI_CLASSCFG_KCP_PORT, NI_IP_V4PLEN]

def EGS_fields0 : List Fld :=
  [EGS_STATUS_CNT_HALF, EGS_STATUS_LINK_DROP, EGS_STATUS_POL_DROP, EGS_STATUS_GATE_FALLBACK,
   EGS_STATUS_GATE_OVERSIZE, EGS_STATUS_TAIL_DROP, EGS_STATUS_MEM_ECC, EGS_SRCCFG_PCV_DSH,
   EGS_SRCCFG_THM_DSH, EGS_SRCCFG_TAP_DSH, EGS_SRCCFG_LOOP_DSH, EGS_GCTL_EN,
   EGS_GCTL_DOMAIN, EGS_GCTL_CYC, EGS_GCTL_NENT, EGS_GCTL_FBGATES,
   EGS_GCTL_GB, EGS_GCL_INTERVAL, EGS_GCL_GATES, EGS_TC_TX,
   EGS_GATE_OVERSIZE, EGS_LINK_DROP, EGS_TAIL_DROP, EGS_POL_DROP]
def EGS_fields1 : List Fld :=
  [EGS_POL_EN, EGS_POL_RATE, EGS_POL_BURST, EGS_DEST_EN,
   EGS_DEST_IPV6, EGS_DEST_TAG, EGS_DEST_DOMAIN, EGS_DEST_MAXLEN,
   EGS_DEST_VID, EGS_DEST_HOLD, EGS_DEST_MAC_LO, EGS_DEST_MAC_HI,
   EGS_DEST_DPORT, EGS_DEST_SPORT, EGS_DEST_IPADDR, EGS_SAMP_FIRST,
   EGS_SAMP_LAST, EGS_SAMP_EN, EGS_SAMP_PERIOD, EGS_SAMP_TQ,
   EGS_QSTAT_MAXDELAY, EGS_QSTAT_DEPTH, EGS_QCFG_EN, EGS_QCFG_TC]
def EGS_fields2 : List Fld :=
  [EGS_QCFG_PORT, EGS_QCFG_SHAPE, EGS_QCFG_RATE, EGS_QCFG_BURST,
   EGS_QCFG_DEST, EGS_QCFG_QSH, EGS_QCFG_LIMIT, EGS_IRQ_EN,
   EGS_FIRST_ADDR, EGS_FIRST_INFO_MASTER, EGS_FIRST_INFO_ACCESS, EGS_FIRST_INFO_BIT,
   EGS_FIRST_INFO_VALID, EGS_FIRST_INFO_INJ, EGS_FIRST_INFO_CHECK, EGS_FIRST_INFO_SYNDROME,
   EGS_FIRST_TIME, EGS_ERR_COUNT, EGS_INJECT_ARM, EGS_INJECT_SEL,
   EGS_INJECT_MASK, EGS_CNTHALF]
def EGS_fields : List Fld :=
  EGS_fields0 ++ EGS_fields1 ++ EGS_fields2
def EGS_resets : List Fld := [EGS_SRCCFG_TAP_DSH, EGS_SRCCFG_LOOP_DSH, EGS_GCTL_FBGATES, EGS_DEST_MAXLEN, EGS_DEST_HOLD, EGS_QCFG_BURST, EGS_QCFG_QSH, EGS_QCFG_LIMIT]

def JNL_fields0 : List Fld :=
  [JNL_STATUS_GAP, JNL_STATUS_RECOVERED, JNL_STATUS_PWRFAIL, JNL_STATUS_CRC_REPAIR,
   JNL_STATUS_SIGFAIL, JNL_STATUS_COPY_FAIL_B, JNL_STATUS_COPY_FAIL_A, JNL_COPY_STATE,
   JNL_COPY_CHECKS, JNL_COPY_PROGRESS, JNL_JSEQ_LO, JNL_JSEQ_HI,
   JNL_ASEQ, JNL_CKPT, JNL_RECOV_CAUSE, JNL_RECOV_MS,
   JNL_RECOV_DONE, JNL_RECOV_FAILED, JNL_CFG_EXP_EN, JNL_CFG_IDLE_T,
   JNL_CFG_EXPQ, JNL_SESS_OPEN, JNL_SESS_PLANOBS, JNL_SESS_KEYSLOT]
def JNL_fields1 : List Fld :=
  [JNL_SESS_RIGHTS, JNL_SESS_NEXT, JNL_SESS_CSEQ, JNL_SESS_CQ,
   JNL_SESS_NQ, JNL_SCNT_SIGFAIL, JNL_SCNT_GAPDROP, JNL_SCNT_STALE,
   JNL_SCNT_DUPS, JNL_HKEY_VALID, JNL_HKEY_RIGHTS, JNL_IRQ_EN,
   JNL_FIRST_ADDR, JNL_FIRST_INFO_MASTER, JNL_FIRST_INFO_ACCESS, JNL_FIRST_INFO_BIT,
   JNL_FIRST_INFO_VALID, JNL_FIRST_INFO_INJ, JNL_FIRST_INFO_CHECK, JNL_FIRST_INFO_SYNDROME,
   JNL_FIRST_TIME, JNL_ERR_COUNT, JNL_INJECT_ARM, JNL_INJECT_SEL]
def JNL_fields2 : List Fld :=
  [JNL_INJECT_MASK]
def JNL_fields : List Fld :=
  JNL_fields0 ++ JNL_fields1 ++ JNL_fields2
def JNL_resets : List Fld := [JNL_CFG_IDLE_T, JNL_CFG_EXPQ]

def CL_fields0 : List Fld :=
  [CL_STATUS_OTP_ECC, CL_STATUS_HOLD_FAIL, CL_STATUS_UPD_FAIL, CL_STATUS_SLOT_FAIL,
   CL_STATUS_FALLBACK, CL_BOOT_SLOT, CL_BOOT_STATE_A, CL_BOOT_STATE_B,
   CL_BOOT_FAILITEM, CL_BOOT_SVN, CL_BOOT_OTPSVN, CL_BOOT_LOADMS,
   CL_IMGSEQ_LO, CL_IMGSEQ_HI, CL_DEVID, CL_KEYS_BFK_REV,
   CL_KEYS_UIK_REV, CL_KEYS_UIK_PROG, CL_KEYS_JTAG_LOCK, CL_UPD_OWNED,
   CL_UPD_SESSION, CL_UPD_KIB, CL_CERT, CL_IRQ_EN]
def CL_fields1 : List Fld :=
  [CL_FIRST_ADDR, CL_FIRST_INFO_MASTER, CL_FIRST_INFO_ACCESS, CL_FIRST_INFO_BIT,
   CL_FIRST_INFO_VALID, CL_FIRST_INFO_INJ, CL_FIRST_INFO_CHECK, CL_FIRST_INFO_SYNDROME,
   CL_FIRST_TIME, CL_ERR_COUNT, CL_INJECT_ARM, CL_INJECT_SEL,
   CL_INJECT_MASK]
def CL_fields : List Fld :=
  CL_fields0 ++ CL_fields1
def CL_resets : List Fld := []

def THM_fields0 : List Fld :=
  [THM_STATUS_BAND, THM_STATUS_BROKEN, THM_STATUS_LATCH, THM_STATUS_SHED,
   THM_STATUS_WARN, THM_SCRUBINT_B3, THM_SCRUBINT_B2, THM_SCRUBINT_B1,
   THM_SCRUBINT_B0, THM_ROUND, THM_LOGSEQ, THM_ISL_BAND,
   THM_ISL_WARN, THM_ISL_ALLBROKEN, THM_ISL_HOTSENS, THM_ISL_HOT,
   THM_TEMP_VALID, THM_TEMP_BROKEN, THM_TEMP_RND, THM_TEMP_TEMP,
   THM_LOG_LSEQ, THM_LOG_BOOT, THM_LOG_KIND, THM_LOG_ISLAND]
def THM_fields1 : List Fld :=
  [THM_LOG_SENSOR, THM_LOG_TEMP, THM_LOG_TIME_LO, THM_LOG_TIME_HI,
   THM_LOG_JSEQ_LO, THM_LOG_JSEQ_HI, THM_LOG_CRC, THM_IRQ_EN,
   THM_FIRST_ADDR, THM_FIRST_INFO_MASTER, THM_FIRST_INFO_ACCESS, THM_FIRST_INFO_BIT,
   THM_FIRST_INFO_VALID, THM_FIRST_INFO_INJ, THM_FIRST_INFO_CHECK, THM_FIRST_INFO_SYNDROME,
   THM_FIRST_TIME, THM_ERR_COUNT, THM_INJECT_ARM, THM_INJECT_SEL,
   THM_INJECT_MASK]
def THM_fields : List Fld :=
  THM_fields0 ++ THM_fields1
def THM_resets : List Fld := [THM_SCRUBINT_B3, THM_SCRUBINT_B2, THM_SCRUBINT_B1, THM_SCRUBINT_B0]

def PCV_fields0 : List Fld :=
  [PCV_STATUS_SUSPENDED, PCV_STATUS_REF_UNSETTLED, PCV_STATUS_REFX_BAD, PCV_STATUS_OVR,
   PCV_CTRL_REFBUF_EN, PCV_CTRL_RUN, PCV_CTRL_REF_OK, PCV_REFX_VALID,
   PCV_REFX_UV, PCV_SEQ_EN, PCV_SEQ_RATE, PCV_SEQ_CH,
   PCV_RESULT_VALID, PCV_RESULT_REF_UNSETTLED, PCV_RESULT_OVR, PCV_RESULT_CNT,
   PCV_RESULT_VALUE, PCV_CHCAL_GAIN, PCV_CHCAL_OFS, PCV_IRQ_EN,
   PCV_FIRST_ADDR, PCV_FIRST_INFO_MASTER, PCV_FIRST_INFO_ACCESS, PCV_FIRST_INFO_BIT]
def PCV_fields1 : List Fld :=
  [PCV_FIRST_INFO_VALID, PCV_FIRST_INFO_INJ, PCV_FIRST_INFO_CHECK, PCV_FIRST_INFO_SYNDROME,
   PCV_FIRST_TIME, PCV_ERR_COUNT, PCV_INJECT_ARM, PCV_INJECT_SEL,
   PCV_INJECT_MASK]
def PCV_fields : List Fld :=
  PCV_fields0 ++ PCV_fields1
def PCV_resets : List Fld := [PCV_CHCAL_GAIN]

def SNP_fields0 : List Fld :=
  [SNP_STATUS_BUF_PAR, SNP_STATUS_SCHED_DROP, SNP_STATUS_MISSED, SNP_CTRL_RELEASE,
   SNP_CTRL_EXPORT, SNP_CTRL_AUTOREL, SNP_CTRL_SRC_EN, SNP_CTRL_EXPQ,
   SNP_FCLASS, SNP_SCHED, SNP_STATE_STATE, SNP_STATE_SCHED_ARMED,
   SNP_STATE_MISSED, SNP_SNAPSEQ, SNP_IRQ_EN, SNP_FIRST_ADDR,
   SNP_FIRST_INFO_MASTER, SNP_FIRST_INFO_ACCESS, SNP_FIRST_INFO_BIT, SNP_FIRST_INFO_VALID,
   SNP_FIRST_INFO_INJ, SNP_FIRST_INFO_CHECK, SNP_FIRST_INFO_SYNDROME, SNP_FIRST_TIME]
def SNP_fields1 : List Fld :=
  [SNP_ERR_COUNT, SNP_INJECT_ARM, SNP_INJECT_SEL, SNP_INJECT_MASK,
   SNP_BUF]
def SNP_fields : List Fld :=
  SNP_fields0 ++ SNP_fields1
def SNP_resets : List Fld := [SNP_CTRL_AUTOREL, SNP_CTRL_SRC_EN, SNP_CTRL_EXPQ]

def GLB_fields0 : List Fld :=
  [GLB_STATUS_LOCK_WR, GLB_STATUS_STRAP_CHG, GLB_STATUS_PARITY, GLB_ID_PART,
   GLB_ID_GRADE, GLB_ID_STEP, GLB_FWVER_MAJOR, GLB_FWVER_MINOR,
   GLB_FWVER_BUILD, GLB_MID_MID, GLB_TIME_LO, GLB_TIME_HI,
   GLB_BOOT, GLB_ALERT_MASK, GLB_ALERT_ASSERTED, GLB_ALERT_HW_HOLD,
   GLB_SCRATCH, GLB_IRQ_EN, GLB_FIRST_ADDR, GLB_FIRST_INFO_MASTER,
   GLB_FIRST_INFO_ACCESS, GLB_FIRST_INFO_BIT, GLB_FIRST_INFO_VALID, GLB_FIRST_INFO_INJ]
def GLB_fields1 : List Fld :=
  [GLB_FIRST_INFO_CHECK, GLB_FIRST_INFO_SYNDROME, GLB_FIRST_TIME, GLB_ERR_COUNT,
   GLB_INJECT_ARM, GLB_INJECT_SEL, GLB_INJECT_MASK]
def GLB_fields : List Fld :=
  GLB_fields0 ++ GLB_fields1
def GLB_resets : List Fld := [GLB_ID_PART, GLB_ALERT_ASSERTED, GLB_ALERT_HW_HOLD]

def LM_fields0 : List Fld :=
  [LM_BIN_E, LM_BIN_O]
def LM_fields : List Fld :=
  LM_fields0
def LM_resets : List Fld := []

end Sys2Proof.Machine.R
end

