-- ==== Sys2Proof/Machine/Cells.lean ====
section
/-! DEFINITION. Sparse storage: a list of (key, value) cells in one canonical form over a default that every
key not listed reads as. Register space and every numbered array of the block are held in it. -/

namespace Sys2Proof.Machine

/-- Cells of an array indexed by Nat: only the entries that differ from their default are listed. -/
abbrev Cells (α : Type) := List (Nat × α)

/-- The first cell listed under key `a`, or the default `d a`. -/
def cellGet {α : Type} (d : Nat → α) : Cells α → Nat → α
  | [], a => d a
  | (k, v) :: t, a => if a = k then v else cellGet d t a

/-- Put (a, v) before the first key above `a`. -/
def cellInsert {α : Type} (a : Nat) (v : α) : Cells α → Cells α
  | [] => [(a, v)]
  | (k, w) :: t => if a < k then (a, v) :: (k, w) :: t else (k, w) :: cellInsert a v t

/-- The cells without key `a`. -/
def cellErase {α : Type} (c : Cells α) (a : Nat) : Cells α :=
  c.filter fun p => !(p.1 == a)

/-- Write `v` at key `a`: a value equal to the default is not listed. -/
def cellSet {α : Type} [DecidableEq α] (d : Nat → α) (c : Cells α) (a : Nat) (v : α) : Cells α :=
  if v = d a then cellErase c a else cellInsert a v (cellErase c a)

/-- Change the value at key `a`. -/
def cellUpd {α : Type} [DecidableEq α] (d : Nat → α) (c : Cells α) (a : Nat) (f : α → α) : Cells α :=
  cellSet d c a (f (cellGet d c a))

/-- Apply `f` to every listed cell; cells that become their default are dropped. A key not listed keeps its
default, so `f` must send a default to itself for this to act on the whole array. -/
def cellMap {α : Type} [DecidableEq α] (d : Nat → α) (f : Nat → α → α) (c : Cells α) : Cells α :=
  (c.map fun p => (p.1, f p.1 p.2)).filter fun p => !(decide (p.2 = d p.1))

/-- Forget every cell whose key satisfies `p`. -/
def cellDrop {α : Type} (p : Nat → Bool) (c : Cells α) : Cells α :=
  c.filter fun q => !(p q.1)

/-- Keys strictly rising. -/
def cellRising {α : Type} : Cells α → Bool
  | [] => true
  | [_] => true
  | (a, _) :: (b, w) :: t => decide (a < b) && cellRising ((b, w) :: t)

/-- The canonical form: keys strictly rising and no cell equal to its default. -/
def cellWf {α : Type} [DecidableEq α] (d : Nat → α) (c : Cells α) : Bool :=
  cellRising c && c.all fun p => !(decide (p.2 = d p.1))

end Sys2Proof.Machine
end

