-- ==== Sys2Proof/Machine/Types.lean ====
section
/-! DEFINITION. The parts of the state that are not registers: messages, frames, queues and rings (14, 15, 16),
journal entries and sessions (16), routes, units, waves and events (08, 09), domain servo data (07), snapshots (19). -/

namespace Sys2Proof.Machine

/-! Outgoing messages and frames (15_egress, 16_kcp). -/

/-- The content of an answer (R363 to R371). -/
structure Ans where
  type : Nat
  result : Nat
  reason : Nat
  index : Nat
  trunc : Bool
  body : List Nat
  deriving DecidableEq, Repr

/-- How a record frame is addressed (R344, R360): IPv6 or IPv4, the 802.1Q tag as (PCP, VID), destination MAC and IP address, UDP
ports, the source address of each port, and the UDP checksum of the copy of each port: 0 over IPv4, valid over IPv6. -/
structure RecDest where
  ipv6 : Bool
  tag : Option (Nat × Nat)
  mac : Nat
  ip : Nat
  dport : Nat
  sport : Nat
  src : Nat × Nat
  sum : Nat × Nat
  deriving DecidableEq, Repr

/-- What a frame in an egress queue carries. -/
inductive FBody where
  /-- A KCP message (R362 to R365): its two ends, the broadcast MAC address (R376), its header and body bytes, and the session key under
  which its TAG of 16 bytes is the HMAC of them; none: a TAG of zeros. -/
  | kcp (ends : Peer) (bcast : Bool) (bytes : List Nat) (key : Option Nat)
  /-- A record frame (R360): its addressing, and the bytes of its UDP payload: header and records. -/
  | records (dest : RecDest) (payload : List Nat)
  /-- A PTP Delay_Req (R177): domain, sequence number, originTimestamp (seconds, ns) inserted at departure, correctionField. -/
  | delayReq (dom seq sec ns corr : Nat)
  /-- A status telegram of Garnet (R327): its bytes. -/
  | telegram (bytes : List Nat)
  /-- Any other frame: ARP, ICMP, Neighbor Discovery replies or user frames. -/
  | other (tag : Nat)
  deriving DecidableEq, Repr

/-- A queued frame: charged length in bytes (R347), content, enqueue stamp (R357), the ports its copies have still
to leave by (bit 0 NETA, bit 1 NETB; R345), its number, and whether a copy of it has started. -/
structure Frame where
  len : Nat
  body : FBody
  stamp : Nat
  copies : Nat
  id : Nat
  begun : Bool
  deriving DecidableEq, Repr

/-- An open record frame (R359): kind, TVALID, record size, time of the first record, records so far (newest first). -/
structure OpenFrame where
  kind : Nat
  tvalid : Bool
  rsize : Nat
  sec : Nat
  ns : Nat
  recs : List (List Nat)
  deriving DecidableEq, Repr

/-- One egress queue: frames (oldest first), credit in 10⁻⁶ bit (R348), DRR deficits (R351), FSEQ and open frame
(R359), record decimation count, and the shaping values in force since its last refill (R350). -/
structure Queue where
  frames : List Frame
  credit : Int
  defA : Nat
  defB : Nat
  fseq : Nat
  opened : Option OpenFrame
  dec : Nat
  rate : Nat
  burst : Nat
  shape : Bool
  en : Bool
  deriving DecidableEq, Repr

/-- An untouched queue. -/
def Queue.idle : Queue := ⟨[], 0, 0, 0, 0, none, 0, 0, 0x90, false, false⟩

/-- The egress scheduler: queues, the DRR round of each port and class (key port × 8 + class; front first), which queues
of a round have had their quantum added in their present turn, policer credits (R356), and per port whether
the gate list runs (R355), its entry and its cycle start in domain ns; the number of the next frame. -/
structure Egs where
  queues : Cells Queue
  rounds : Cells (List Nat)
  served : Cells (List Nat)
  pol : Cells Int
  running : Cells Bool
  entry : Cells Nat
  cycle : Cells Nat
  next : Nat
  deriving DecidableEq, Repr

/-- What goes with a PTP frame (R174, R175): messageType, domainNumber, whether it came to 01-80-C2-00-00-0E, the raw stamp, the
counter of its domain at the capture in 2⁻¹⁶ ns, and whether the message is well-formed. -/
structure PtpTag where
  typ : Nat
  dom : Nat
  mcast : Bool
  raw : Nat
  ok : Bool
  deriving DecidableEq, Repr

/-- A frame held in an ingress ring (R337): length without FCS, arrival stamp, KCP session field, which safety channels have taken it, its PTP stamp, and the VID
of its 802.1Q tag. -/
structure RxHeld where
  len : Nat
  stamp : Nat
  tag : Nat
  takenA : Bool
  takenB : Bool
  ptp : Option PtpTag
  vid : Option Nat
  deriving DecidableEq, Repr

/-- One network port: its four rings (KCP, PTP, SAFETY, OTHER), the frame its MAC is sending (queue, frame),
whether it counts as failed (R332), local time at which its pause timer was loaded (R339). -/
structure NetPort where
  kcp : List RxHeld
  ptp : List RxHeld
  safety : List RxHeld
  other : List RxHeld
  tx : Option (Nat × Frame)
  failed : Bool
  pauseAt : Nat
  deriving DecidableEq, Repr

def NetPort.idle : NetPort := ⟨[], [], [], [], none, false, 0⟩

/-! The journal and sessions (16_kcp_and_journal). -/

/-- A journal entry (R378); the payload is its bytes. -/
structure Entry where
  kind : Nat
  part : Nat
  parts : Nat
  jseq : Nat
  aseq : Nat
  session : Nat
  type : Nat
  boot : Nat
  seq : Nat
  time : Nat
  payload : List Nat
  deriving DecidableEq, Repr

/-- An erased slot. -/
def Entry.blank : Entry := ⟨0, 0, 0, 0, 0, 0, 0, 0, 0, 0, []⟩

/-- A completion of a final event (R373). T0 values are domain ns. -/
structure Compl where
  session : Nat
  cseq : Nat
  time : Nat
  state : Nat
  reason : Nat
  flags : Nat
  waves : Nat
  sseq : Nat
  aseq : Nat
  nconn : Nat
  dom : Nat
  t0First : Nat
  t0Last : Nat
  jseq : Nat
  deriving DecidableEq, Repr

/-- A session (R365 to R368): its key, the identity of the OPEN that keyed it and the answer it got, the last 1,024
consumed SEQ values with their requests and answers (newest first), the reorder window, NSEQ, completions held while
closed, completions sent, and the host key that opened it (R367); the two ends of its last OPEN, and a request whose answer is not formed
yet (R368, R372). -/
structure Sess where
  key : Nat
  hkey : Nat
  openId : Nat
  openAns : Ans
  window : List (Nat × Req × Ans)
  held : List (Nat × Hdr × Req)
  nseq : Nat
  waiting : List Compl
  sent : List Compl
  peer : Peer
  late : Option (Hdr × Req)
  deriving DecidableEq, Repr

def Ans.none : Ans := ⟨0, 0, 0, 0, false, []⟩
/-- No completion. -/
def Compl.none : Compl := ⟨0, 0, 0, 0, 0, 0, 0, 0, 0, 0, 0, 0, 0, 0⟩

def Peer.none : Peer := ⟨false, 0, 0, 0, 0⟩
def Sess.closed : Sess := ⟨0, 0, 0, Ans.none, [], [], 0, [], [], Peer.none, none⟩

/-! Routes and events (08, 09). -/

/-- A connection, whether it has a path, and its centre rows. -/
structure Route where
  desc : Nat
  routed : Bool
  rowX : Nat
  rowY : Nat
  deriving DecidableEq, Repr

/-- The change of one output port. `named` tells a named connection from a moved bystander (R190). -/
structure Chg where
  out : Nat
  old : Option Route
  new : Option Route
  named : Bool
  deriving DecidableEq, Repr

/-- A unit (R219): the index of its first descriptor and its changes. -/
structure SUnit where
  first : Nat
  chgs : List Chg
  deriving DecidableEq, Repr

/-- An event that is not final (R207, R215): identity, request, arrival stamp, resolved instant and earliest schedulable
instant (domain ns), state, solution units, placed waves (T0 in domain ns, first T0 given to them, units), counts of
waves armed and started, flags, group state, what its last solve replaced on its named ports (R226), and its event-table
entry. -/
structure Ev where
  session : Nat
  sseq : Nat
  aseq : Nat
  req : EvReq
  dom : Nat
  instant : Nat
  earliest : Nat
  st : Nat
  descs : List Nat
  units : List SUnit
  waves : List (Nat × Nat × List SUnit)
  armed : Nat
  started : Nat
  t0First : Nat
  t0Last : Nat
  nconn : Nat
  late : Bool
  deferred : Bool
  part : Bool
  failing : Bool
  committed : Bool
  replaced : Option (List (Nat × Nat))
  tab : Nat
  acceptJ : Nat
  deriving DecidableEq, Repr

/-- The move of one element in an armed wave as its bank has latched it (R69, R81, R222): element, new state, new heater
command; whether it kicks, and then kick-table entry, segment N, KSCALE, scaled H0 before the clamp of R61, decrement and
scaled charge; the retarget record's reference sensor and coefficient set (R132). -/
structure EMove where
  elem : Nat
  st : Nat
  u : Nat
  kick : Bool
  ent : Nat
  seg : Bool
  scale : Nat
  h0 : Nat
  dec : Nat
  charge : Nat
  refs : Nat
  cset : Nat
  deriving DecidableEq, Repr

/-- An armed wave (R222): local start instant, T0 in domain ns with the domain, the units of each event, the element
moves, and the transmission codes of the VOAs it opens (R131). Repair waves carry ASEQ 0. -/
structure Wave where
  start : Nat
  dom : Nat
  t0 : Nat
  units : List (Nat × SUnit)
  moves : List EMove
  voas : List (Nat × Nat)
  deriving DecidableEq, Repr

/-- Plans beside their registers (10_stored_plans): rules whose edge or count trigger has come and not yet been
evaluated, TIME rules fired since the image load, last AFPOS instant fired per rule (domain ns), and per schedule its
cycle start (domain ns), steps submitted or skipped since its start, step events pending, events submitted in all (SSEQ),
the schedules that hold claims, the step that each pending step event (by ASEQ) applies; re-optimisation events submitted in all
(SSEQ, R242) and the local time of the last acceptance of one (R202); the local times from which plans have been active (R249) and from
which each rule has met the conditions of R236, with the time of its domain then (ns); rules of which that lies before the last RESET (R249). -/
structure PlanSt where
  hits : List Nat
  timeFired : List Nat
  afLast : Cells Nat
  cycStart : Cells Nat
  submitted : Cells Nat
  stepsOut : Cells Nat
  fires : Cells Nat
  claims : List Nat
  stepEvs : Cells Nat
  reopts : Nat
  reoptAt : Option Nat
  activeFrom : Nat
  armedAt : Cells Nat
  armedDom : Cells Nat
  earlier : List Nat
  deriving DecidableEq, Repr

def PlanSt.idle : PlanSt := ⟨[], [], [], [], [], [], [], [], [], 0, none, 0, [], [], []⟩

/-- What the journal lets a recovery rebuild after an entry (R380, R383): events, sessions, plans, the repairs that wait,
and the words of the live map, the event table, sessions and plan states. -/
structure Saved where
  evs : List Ev
  sess : Cells Sess
  finals : List Nat
  shown : Cells Compl
  plan : PlanSt
  repairs : List (Nat × Nat)
  words : Cells Word
  deriving DecidableEq, Repr

def Saved.empty : Saved := ⟨[], [], [], [], PlanSt.idle, [], []⟩

/-- Amber: the two copies by slot, what a replay up to an entry rebuilds (by JSEQ, from the newest checkpoint on), the last
JSEQ and ASEQ given (they continue across resets, R207, R378), write protection after POWERFAIL (R382), recovery in progress
(R383), KCP reading stopped (R382, R401); final states whose FINAL entry no copy has taken yet, with the event-table entry and the bytes of
a PARTIAL entry (R466); COMMIT_ECHO messages sent (R363). -/
structure Jnl where
  copyA : Cells Entry
  copyB : Cells Entry
  hist : Cells Saved
  last : Nat
  aseq : Nat
  protect : Bool
  recovering : Bool
  stopped : Bool
  owed : List (Nat × Compl × List Nat)
  echoes : Nat
  deriving DecidableEq, Repr

/-! Time domains (07). -/

/-- Announce data of one PTP port: received, clockClass, remaining priority vector as one number, messages missed. -/
structure Annc where
  seen : Bool
  cls : Nat
  vector : Nat
  deriving DecidableEq, Repr

/-- What the servo of one domain keeps per port: the pending two-step Sync (sequence number, t2, correction), the Delay_Req whose
answer is awaited (sequence number, t3) and the latest Delay_Resp (t3, t4, correction), all in 2⁻¹⁶ ns (R176); announce data (R174);
Delay_Req log interval and next sequence number. -/
structure PtpPort where
  sync : Option (Nat × Int × Int)
  t3 : Option (Nat × Int)
  delay : Option (Int × Int × Int)
  ann : Annc
  dreqLog : Int
  dreqSeq : Nat
  deriving DecidableEq, Repr

/-- Servo data of one domain: consecutive estimates within LOCK_THR and beyond 250 ns (R170), its two ports, the last second with an
accepted PPS pulse (R178), estimates computed and not yet submitted (2⁻⁸ ns), local time of entry to HOLDOVER,
HOLDOVER_T in force (R185). -/
structure Servo where
  good : Nat
  bad : Nat
  portA : PtpPort
  portB : PtpPort
  ppsSec : Option Nat
  est : List Int
  hoFrom : Nat
  holdT : Nat
  deriving DecidableEq, Repr

def Annc.silent : Annc := ⟨false, 255, 0⟩
def PtpPort.idle : PtpPort := ⟨none, none, none, Annc.silent, 0, 0⟩
def Servo.idle : Servo := ⟨0, 0, PtpPort.idle, PtpPort.idle, none, [], 0, 1000⟩

/-! The element drive (03_element_drive). -/

/-- The drive of one element: heater output and command in U (R55, R63), HI range, segment N, kick phase (0 none, 1
waveform, 2 hold before the ramp, 3 ramp running), the kick-table entry and KSCALE latched for its last kick, H0, ramp
accumulator and decrement (R62), the hold code applied at the last slew tick (R60), ΔH, HO, FRZ, no command yet
since the last clear and slewing at RSTEP since then (R75), element state code (R45), local instant of the
last kick start. -/
structure Drv where
  out : Nat
  cmd : Nat
  hi : Bool
  seg : Bool
  phase : Nat
  ent : Nat
  scale : Nat
  h0 : Nat
  acc : Nat
  dec : Nat
  hold : Nat
  dh : Int
  ho : Bool
  frz : Bool
  fresh : Bool
  rstep : Bool
  st : Nat
  t0 : Nat
  deriving DecidableEq, Repr

/-- Hardware clear code 0 (R72). -/
def Drv.idle : Drv := ⟨0, 0, false, false, 0, 0, 0, 0, 0, 0, 0, 0, false, false, true, false, 0, 0⟩

/-- A bank slice: its `EDA.ECFG` table is loaded, it restarted from cold and parks itself (R79), it is held clear since that
restart until Tangram assigns elements of it again (R72), visits of its read-back round so far (R82). -/
structure BankSt where
  loaded : Bool
  selfPark : Bool
  unassigned : Bool
  visits : Nat
  deriving DecidableEq, Repr

def BankSt.cold : BankSt := ⟨false, false, false, 0⟩

/-- What a loop keeps beside its entry (R123, R126, R128, R263): the last command without dither ul, the last compensator output,
the handover bit that the EDA returned with its previous drive command, the local time + 1 of its last usable sample; the commands of the
updates that a B1 step in progress has averaged so far, newest first (R267). -/
structure LoopX where
  ul : Nat
  w : Int
  ho : Bool
  goodAt : Nat
  ucs : List Nat
  deriving DecidableEq, Repr

def LoopX.zero : LoopX := ⟨0, 0, false, 0, []⟩

/-- A correction applied gradually (R272): updates made, updates in all, its fields (address, mask, value), the words it started
from. -/
structure Ramp where
  step : Nat
  len : Nat
  fields : List (Nat × Nat × Nat)
  olds : List (Nat × Nat)
  deriving DecidableEq, Repr

def Ramp.idle : Ramp := ⟨0, 0, [], []⟩

/-- What the Calibration Sequencer keeps beside its registers (11): local time at which the phase in progress began; the selected
branch of the injection tree and of the CAL_OUT pick-off, none at the absorbers (R43); local time since which the hottest sensor of
every island has stayed within 0.5 °C, with the range of each since then (R254); local time since which both CRPDs have read at
least −12 dBm (R23); losses measured in C7, 0.01 dB, by plane × 512 + output port (R131); last ε
(2⁻³⁰) and δ (10⁻⁵ rad) of each element (R263); the Pinwheel map at the end of C4 (R273); the latest B1 results of an actuator, newest
first, as (target state, temperature in 2⁻⁸ °C, command) (R267); local time + 1 of the last visit of an actuator by a step, key 4 × actuator +
step (R268), and from which a correction is ready (R271); local time of the last record write, whether one is due since MAINTAIN was entered,
and the outcome of one that waits for the end of UPDATE (R276); the words of `THM.TEMP` at the end of C2 and of C4 (R255, R256); elements in which the read-back
round has found a fault, and a heater resistance fault, during the run (R259, R261); local time + 1 since which an island has been out of
service (R262). -/
structure CalSt where
  start : Nat
  inject : Option Nat
  divert : Option Nat
  since : Nat
  span : Cells (Int × Int)
  crpdAt : Option Nat
  c7 : Cells Nat
  eps : Cells (Nat × Nat)
  pins : List (Nat × Int)
  b1 : Cells (List (Nat × Int × Nat))
  visits : Cells Nat
  ready : Cells Nat
  recAt : Nat
  recDue : Bool
  recWait : Option Bool
  heat2 : List (Nat × Nat)
  heat4 : List (Nat × Nat)
  rbBad : List Nat
  rbHres : List Nat
  lost : Cells Nat
  deriving DecidableEq, Repr

def CalSt.idle : CalSt := ⟨0, none, none, 0, [], none, [], [], [], [], [], [], 0, false, none, [], [], [], [], []⟩

/-! The safety channels (12, 13). -/

/-- One guard input in one channel (R286 to R296): pin levels and filtered levels of contacts A and B, state (0 OPEN, 1
CLOSED, 2 LOCKED, 3 FAULT), discrepancy count, suspect patterns (bit 0 A high in TPA, 1 B low in TPA, 2 B high in TPB, 3 A
low in TPB), start-up hold, healthy checks in a row of each supply, local time since which both contacts read open, length in ns of
the last full open until both contacts have closed, and that of the last full open that a close within DISC_T has followed, since
LOCKED, FAULT or hold began; latched SDP (R312). -/
structure Guard where
  pinA : Bool
  pinB : Bool
  fA : Bool
  fB : Bool
  st : Nat
  dcnt : Nat
  susp : Nat
  hold : Bool
  okA : Nat
  okB : Nat
  openAt : Option Nat
  wide : Option Nat
  openFor : Option Nat
  sdp : Bool
  deriving DecidableEq, Repr

def Guard.open : Guard := ⟨false, false, false, false, 0, 0, 0, false, 0, 0, none, none, none, false⟩

/-- One guard input in a state message (R282): state, the state once pending trips are adopted, discrepancy count, the full
open and close that the sender has seen, and two healthy checks of each supply (R292). -/
structure HeardIn where
  st : Nat
  eff : Nat
  dcnt : Nat
  openFor : Option Nat
  well : Bool
  deriving DecidableEq, Repr

def HeardIn.none : HeardIn := ⟨0, 0, 0, Option.none, false⟩

/-- The last state message of the partner (R282 to R284): its kind and sequence number; its own demands: SOS, outputs, ports dark; its
demands on outputs with the adopted ones; switch commands and read-back of the eight output pins (bits 3:0 high sides, 7:4 low sides);
MAINT_N low, maintenance grant, press accepted; start-up test passed; block CRC; lockout causes it holds, those it has still to adopt,
and those not yet adopted here; inputs tripped into LOCKED; the inputs; faulted outputs; every dark verification passed. -/
structure Heard where
  periodic : Bool
  seq : Nat
  sos : Bool
  outs : Nat
  ports : List Nat
  dem : Nat
  cmd : Nat
  pins : Nat
  maintLow : Bool
  grant : Bool
  accepted : Bool
  startOk : Bool
  crc : Nat
  locks : Nat
  due : Nat
  fresh : Nat
  locked : List Nat
  ins : List HeardIn
  sofault : Nat
  darkOk : Bool
  deriving DecidableEq, Repr

def Heard.none : Heard :=
  ⟨false, 0, false, 0, [], 0, 0, 0, false, false, false, false, 0, 0, 0, 0, [], [], 0, true⟩

/-- One safety channel: guards; start-up open test running, passed (R293); lockout causes held (R318); VSAFE demand
(R301); maintenance grant and MAINT_N low (R303); SRST_N low, read high since reset, press accepted (R302); telegrams:
LAST, next pair accepted at any SEQ, watchdog demand, accepted pairs since the expiry, start-up demand, watchdog running,
STOP, DARK ports, PERMIT, the copies that await their partner, oldest first (port, local time, bytes) (R324 to R326); SLP trips, samples without VALID
in a row per port and plane (R313); dark-verification failures (R310); SOS in force until the reset (R309); ports whose
block line is asserted; switch commands and faulted outputs; output under test (R299); cross-link faulty as it sees it
(R283); parameter block CRC and whether its check holds (R281); MAINT_N demand, latched (R304); restricted ports held dark
(R320); SOS and SDP demands of its last evaluation, as counted (R328); lockout causes already told to the partner (R284); its
oscillator has stopped (R279); what it heard; its copy of the parameter block, by the address of the mirror register (R281); messages
sent; local time of the last message heard, and times of the PERIODIC ones in the last 100 ms (R283); output pins as its comparators read
them (R298); levels of TPA (bit 0) and TPB (bit 1), and which of them it reads low outside its pulse (R289); ends of the blanking windows
of the two supplies (R286); local time until which the start-up open test still shows in the filtered contacts (R293); local times plus 1
since which its block lines, and all lines, are asserted (R310). -/
structure Chan where
  guards : Cells Guard
  testing : Bool
  startOk : Bool
  locks : Nat
  vsafe : Bool
  grant : Bool
  maintLow : Bool
  srstLow : Bool
  srstSeen : Bool
  accepted : Bool
  last : Nat
  resync : Bool
  wd : Bool
  pairs : Nat
  boot : Bool
  wdRun : Bool
  stop : Bool
  dark : List Nat
  permit : Nat
  half : List (Nat × Nat × List Nat)
  trips : List Nat
  novalid : Cells Nat
  dver : List Nat
  force : Bool
  blocks : List Nat
  cmd : Nat
  sofault : Nat
  testOut : Option Nat
  xbad : Bool
  crc : Nat
  crcOk : Bool
  maintDem : Bool
  restr : Bool
  sosOn : Bool
  sdpOn : Bool
  told : Nat
  clkLost : Bool
  heard : Heard
  block : Cells Word
  seq : Nat
  heardAt : Nat
  beats : List Nat
  pins : Nat
  tp : Nat
  tpLow : Nat
  blankA : Nat
  blankB : Nat
  quiet : Nat
  blkAt : Cells Nat
  forceAt : Nat
  deriving DecidableEq, Repr

def Chan.reset : Chan :=
  ⟨[], false, false, 0, false, false, false, false, false, false, 0, true, false, 0, false, false, false, [], 0, [], [], [], [],
    false, [], 0, 0, none, false, 0, false, false, false, false, false, 0, false, Heard.none, [], 0, 0, [], 0, 0, 0, 0, 0, 0, [], 0⟩

/-- What the Thermal Monitor, the island switches and the converter keep beside their registers (18): per sensor the
rounds in a row out of range, far from its neighbours, and plausible (R410); per island the rounds in a row at its limit and
with every sensor broken (R415, R416), the local times of its sheds, newest first (R419), the restarts tried since its supply
fault (R405); whether the last REFX check failed (R421), the time at which REF_OK was set (R423) and the last conversion made (0 none). -/
structure Therm where
  sens : Cells (Nat × Nat × Nat)
  hot : Cells Nat
  dead : Cells Nat
  sheds : Cells (List Nat)
  tries : Cells Nat
  refxBad : Bool
  refAt : Nat
  conv : Nat
  deriving DecidableEq, Repr

def Therm.idle : Therm := ⟨[], [], [], [], [], false, 0, 0⟩

/-- What a snapshot latched (R433, R435): the register words at the trigger, the header words by offset, and the
islands that were powered. -/
structure Picture where
  words : Cells Word
  header : List (Nat × Nat)
  islands : List Nat
  deriving DecidableEq, Repr

def Picture.blank : Picture := ⟨[], [], []⟩

end Sys2Proof.Machine
end

