-- ==== Sys2Proof/Machine/Store.lean ====
section
/-! DEFINITION. The register store as data: what an address reads as while nothing has been written to it, and the
arithmetic of one field of a word. -/

namespace Sys2Proof.Machine

/-- Address of one instance of a field. -/
def fldAddr (F : Fld) (ix : List Nat) : Nat :=
  F.base + ((F.dims.zip ix).map fun p => p.1.1 * p.2).sum

/-- Whether an offset is a sum of stride × index with each index in its range. -/
def coversOfs : List (Nat × Nat) → Nat → Bool
  | [], r => r == 0
  | (st, ct) :: t, r => if r / st < ct then coversOfs t (r % st) else false

/-- Field `F` has an instance at address `a`. -/
def Fld.covers (F : Fld) (a : Nat) : Bool := decide (F.base ≤ a) && coversOfs F.dims (a - F.base)

/-- Index of the instance at address `a`. -/
def fldIx : List (Nat × Nat) → Nat → List Nat
  | [], _ => []
  | (st, _) :: t, r => (r / st) :: fldIx t (r % st)

/-- The fields whose reset value is not 0, by block region (20_register_summary R438). -/
def resetFields (a : Nat) : List Fld :=
  if a < 0x100000 then R.GLB_resets else if a < 0x200000 then R.PWR_resets else if a < 0x300000 then R.CL_resets
  else if a < 0x400000 then R.JNL_resets else if a < 0x500000 then R.TBU_resets else if a < 0x600000 then R.NI_resets
  else if a < 0x700000 then R.EGS_resets else if a < 0x800000 then R.RS_resets else if a < 0x1000000 then R.CE_resets
  else if a < 0x1800000 then R.LT_resets else if a < 0x2000000 then R.LM_resets else if a < 0x3000000 then R.EDA_resets
  else if a < 0x3800000 then R.ESA_resets else if a < 0x4000000 then R.PORT_resets
  else if a < 0x4100000 then R.CAL_resets else if a < 0x4200000 then R.THM_resets else if a < 0x4300000 then R.PCV_resets
  else if a < 0x4400000 then R.SAF_resets else if a < 0x4500000 then R.PLAN_resets
  else if a < 0x4800000 then R.SNP_resets else R.CAL_resets

/-- Reset word of a session's registers (16_kcp, JNL.SESS): session 0 is always open, and the completion and
notification queues follow the session number. -/
def sessReset (a : Nat) : Nat :=
  let s := (a - 0x300200) / 16
  if (a - 0x300200) % 16 = 0 then (if s = 0 then 2 ^ 31 else 0)
  else if (a - 0x300200) % 16 = 4 then 1
  else if (a - 0x300200) % 16 = 12 then (0x9520 + 2 * s) * 2 ^ 16 + (0x9521 + 2 * s)
  else 0

/-- Reset word of the configuration of a fixed queue (R344): PORT = PERFRAME and the class of each. -/
def fixedQueueReset (a : Nat) : Nat :=
  let q := (a - 0x680000) / 8
  let tc := if q = 65535 then 7 else if q = 65534 then 6 else if q = 65531 ∨ q = 65533 then 5
    else if q = 65532 then 4 else 0
  if (a - 0x680000) % 8 = 0 then tc * 2 ^ 28 + 3 * 2 ^ 26 else 0x90 * 2 ^ 17 + 3 * 2 ^ 10 + 0x10

/-- What an address reads as while nothing has been written to it: the reset values of the fields of that word. -/
def resetNat (a : Nat) : Nat :=
  if 0x300200 ≤ a ∧ a < 0x300400 then sessReset a
  else if 0x6FFF80 ≤ a ∧ a < 0x700000 then fixedQueueReset a
  else if a = 0x4200278 then 0x40C
  else if a = 0x420027C then 0x40D
  else (resetFields a).foldl (fun acc F => if F.covers a then acc + F.rst * 2 ^ F.lo else acc) 0

/-- The default of the register store. -/
def resetWord (a : Nat) : Word := BitVec.ofNat 32 (resetNat a)

/-- Replace bits `lo + w - 1 .. lo` of a word. -/
def setBits (old lo w v : Nat) : Nat :=
  old / 2 ^ (lo + w) * 2 ^ (lo + w) + v % 2 ^ w * 2 ^ lo + old % 2 ^ lo

/-- Replace the bits of `mask` by those of `v`. -/
def maskIn (old mask v : Word) : Word := (old &&& ~~~mask) ||| (v &&& mask)

/-- The mask of a field. -/
def Fld.mask (F : Fld) : Nat := (2 ^ F.width - 1) * 2 ^ F.lo

/-! Fields of a word. -/

/-- The fields of a block region (R438). -/
def blockFields (a : Nat) : List Fld :=
  if a < 0x100000 then R.GLB_fields else if a < 0x200000 then R.PWR_fields else if a < 0x300000 then R.CL_fields
  else if a < 0x400000 then R.JNL_fields else if a < 0x500000 then R.TBU_fields else if a < 0x600000 then R.NI_fields
  else if a < 0x700000 then R.EGS_fields else if a < 0x800000 then R.RS_fields else if a < 0x1000000 then R.CE_fields
  else if a < 0x1800000 then R.LT_fields else if a < 0x2000000 then R.LM_fields else if a < 0x3000000 then R.EDA_fields
  else if a < 0x3800000 then R.ESA_fields else if a < 0x4000000 then R.PORT_fields
  else if a < 0x4100000 then R.CAL_fields else if a < 0x4200000 then R.THM_fields else if a < 0x4300000 then R.PCV_fields
  else if a < 0x4400000 then R.SAF_fields else if a < 0x4500000 then R.PLAN_fields
  else if a < 0x4800000 then R.SNP_fields else R.CAL_fields

/-- The fields that words 0x10, 0x14 and 0x18 of a VOA's loop entry hold in place of an element's (R117). -/
def voaForm : List Fld :=
  [R.LT_VOA_EQSRC, R.LT_VOA_SPSEL, R.LT_VOA_SLPCLS, R.LT_VOA_PB_EN, R.LT_VOA_WIN, R.LT_VOA_PBSH, R.LT_VOA_EQV, R.LT_VOA_RAMP,
   R.LT_VOA_RSH, R.LT_VOA_PBHYS, R.LT_VOA_PBP, R.LT_VOA_TAU]

/-- A field of the loop table belongs to the form of the actuator at `a`. -/
def formOk (a : Nat) (F : Fld) : Bool :=
  if 0x1000000 ≤ a ∧ a < 0x1800000 ∧ 0x10 ≤ a % 64 ∧ a % 64 < 0x1C then voaForm.contains F == isVoa ((a - 0x1000000) / 64)
  else true

/-- The fields of the word at an address. -/
def fieldsAt (a : Nat) : List Fld := (blockFields a).filter fun F => F.covers a && formOk a F

/-- Bits of a word with an access code. -/
def accMask (c : Acc) (l : List Fld) : Nat := ((l.filter fun F => F.acc == c).map Fld.mask).foldl Nat.lor 0

/-- Bits of a word that some field holds: a reserved bit takes no value (R5). -/
def fieldMask (a : Nat) : Nat := ((fieldsAt a).map Fld.mask).foldl Nat.lor 0

/-- Bits of a word that a loaded image or an internal master sets: RO, W1C, W1S and RC fields keep theirs (R5, R6), and so
does the configuration of a fixed queue, which is RO (R361). -/
def loadMask (a : Nat) : Nat :=
  let l := if 0x6FFF80 ≤ a ∧ a < 0x700000 then [] else fieldsAt a
  Nat.lor (Nat.lor (accMask .rw l) (accMask .rwc l)) (accMask .rwr l)

end Sys2Proof.Machine
end

