-- ==== Sys2Proof/Machine/State.lean ====
section
/-! DEFINITION. The state of the block: the register space, everything the spec gives it beside registers, and the
queue of waiting commands; the reasons a step can stop; the state after reset. -/

namespace Sys2Proof.Machine

/-- No meaning of this model ends in a fault: the spec gives every command an effect. The type is inhabited so that a
later repair has a name to use. -/
inductive Fault where
  /-- Raised by nobody. Safe: a fault only stops a run. -/
  | noEffect
  deriving DecidableEq, Repr

/-- Reasons a command is turned away by the model. -/
inductive Refusal where
  /-- A command whose meaning is not written yet. Safe: it only stops a run. -/
  | notModelled (mnemonic : String)
  deriving DecidableEq, Repr

/-- Modes, conditions and start-up (01). The mode, its cause, the resting mode and the conditions themselves are the
fields of PWR.MODE. `degCauses` lists the faulted parts (16-bit tags) that hold DEGRADED; `latched` the islands latched
at 115 °C (R416); `ran`, `lastOk` whether a run has ended since LOAD and with a record (R23); `crpd` that both CRPDs
have read at least −12 dBm for 1 s since; `calFrom` the mode CALIBRATE was entered from; `parked`, `dark` the DARK
steps (R21); `leaving` a MODE request whose answer waits (R372: 3 leave, 4 recalibrate); `busyL`, `busyQ`, `busyS`, `busyP`
the loops, queues, sensors and inputs (light-loss detectors by port, outputs from 512; set-point inputs from 1,024) that have
not reached the boundary of the newest overlay transition (R31); `mpDown` the MP is
down or recovering; `released` DARK has been released since it was entered last (R297); `porst` PORST_N is asserted; `resetFrom` the mode that the
last RESET was entered from (R18); `shedIsl` the islands shed and not yet back in service (R406, R418; 100 + i: one that was off for another cause); `downAt` the
local time at which the MP was interrupted last (R373);
`clr` the clear sources in force by their bit of `EDA.CLR`: 1 channel A, 2 channel B, 3 ELEM_CLR_N, 4 PARK (R72). -/
structure ModeSt where
  resetCause : Nat
  supplies : Bool
  noImage : Bool
  latched : List Nat
  degCauses : List Nat
  ran : Bool
  lastOk : Bool
  crpd : Bool
  calFrom : Nat
  parked : Bool
  dark : Bool
  leaving : Option (Nat × Hdr)
  busyL : List Nat
  busyQ : List Nat
  busyS : List Nat
  busyP : List Nat
  mpDown : Bool
  released : Bool
  porst : Bool
  resetFrom : Nat
  shedIsl : List Nat
  downAt : Nat
  clr : Nat
  deriving DecidableEq, Repr

def ModeSt.reset : ModeSt :=
  ⟨1, true, false, [], [], false, false, false, 3, false, false, none, [], [], [], [], true, false, true, 0, [], 0, 0⟩

structure State where
  /-- The register space: words that differ from `resetWord` (R438). -/
  regs : Cells Word
  /-- High words latched by the read of their low word (R101, R110, R168, R340). -/
  latch : Cells Nat
  /-- Local time since BOOT, ns. -/
  time : Nat
  /-- The eight domain counters, in 2⁻⁴⁴ ns (R166). -/
  cnt : Cells Nat
  modes : ModeSt
  egs : Egs
  netA : NetPort
  netB : NetPort
  jnl : Jnl
  sess : Cells Sess
  /-- Notifications that fell due while the MP was down, oldest first: session, kind and parameters (R374, R404). -/
  notes : List (Nat × Nat × List Nat)
  evs : List Ev
  armed : List Wave
  /-- Local T0 of the wave started last. -/
  lastT0 : Nat
  /-- Samples still to be delivered with FILL (R94, R96), two at a sensor's start (R95, R102), and with RCHG (R95), per
  sensor. -/
  refill : Cells Nat
  rchg : Cells Nat
  /-- Rate code + 1 at which an input tap still runs until its next boundary (R94); sensors whose latest boundary brought no sample
  (R123); local time + 1 of the last VALID sample of a sensor (R121, R131). -/
  osr : Cells Nat
  missed : List Nat
  validAt : Cells Nat
  /-- Consecutive raw values below the downward threshold per sensor (R95); sensors whose `ESA.CORR` entry has a parity
  error (R100); light-loss and overpower counts: key port for assertion of inputs, 512 + port of outputs, + 1,024 for
  clearing, 2,048 + port above and 2,560 + port below the port limit (R104, R105); the total condition (R104). -/
  lowRun : Cells Nat
  corrBad : List Nat
  light : Cells Nat
  totOver : Bool
  /-- Set-point inputs: invalid and valid measurements in a row, and the last valid value since the mode was set (R152). -/
  setpt : Cells (Nat × Nat × Option Nat)
  /-- Word 1 of `PORT.SETPT` (PHI, PLO), FB and LOSACT as each input's latest measurement took them (R154). -/
  spLev : Cells (Nat × Nat × Bool)
  /-- Loop updates of the present 16 µs period and of the one before: cluster, and sample boundary in 125 ns (R113, R141). -/
  updates : List (Nat × Nat)
  /-- Loops whose entry holds an uncorrectable error and awaits its rewrite (R140). -/
  loopBad : List Nat
  loopX : Cells LoopX
  /-- Clusters whose home loops are with the survivors (R137, R139); level of the load shedding in force (R116): 0 none, 1
  dark elements, 2 VOAs too, 2 + k the lit elements of the k highest banks too. -/
  away : List Nat
  shed : Nat
  /-- Local T0 + 1 of the last wave that moved an element or opened a VOA (R101, R123, R133). -/
  moved : Cells Nat
  /-- Heater code that the last command of a VOA gave its driver, by plane × 512 + port (R142, R143). -/
  voaOut : Cells Nat
  /-- Outputs whose connection awaits a repair solve, with its descriptor (R200, R223). -/
  repairs : List (Nat × Nat)
  /-- ASEQ of the event that Tangram was solving when the first of them came: its solve is not interrupted (R200). -/
  solving : Option Nat
  /-- Repair waves solved and not yet armed: local start and units (R200). -/
  repairWaves : List (Nat × List SUnit)
  /-- PI07 has restarted and its recovery is still to rebuild the connection records (R205). -/
  rsLost : Bool
  /-- Local time + 1 of the last refresh of a path's figures, by 2 × output + plane (R204). -/
  pathAt : Cells Nat
  /-- Event-table entries of final events, oldest first (R234). -/
  finals : List Nat
  /-- Completions of the final events that the event table still shows, by entry (R234, R229, R466). -/
  shown : Cells Compl
  plan : PlanSt
  servo : Cells Servo
  /-- Residual phase of each domain in 2⁻⁴⁴ ns (R167). -/
  phase : Cells Int
  /-- Domain time in ns from which the learning periods of each generator may begin (R158). -/
  rcFrom : Cells Nat
  /-- The PPS_OUT pin (R179). -/
  ppsOut : Bool
  /-- Element drives and bank slices (03). -/
  drv : Cells Drv
  banks : Cells BankSt
  /-- Garnet and Jasper (12, 13). -/
  chA : Chan
  chB : Chan
  /-- The supply in its test pulse (R289): 0 none, 1 TPA, 2 TPB; SEQ of the next status telegram (R327). -/
  pulse : Nat
  statusSeq : Nat
  therm : Therm
  pic : Picture
  /-- Domain instant, in ns, of the pending scheduled snapshot (R434). -/
  snapAt : Nat
  /-- The image being written (R399): its TOTAL, and the byte ranges programmed so far (start, end), apart and ascending. -/
  updTotal : Nat
  updRanges : List (Nat × Nat)
  otp : Otp
  flash : Flash
  /-- The image in force. -/
  image : Option Image
  /-- Working base of the fields the image or KCP has written (R29). -/
  wbase : Cells Word
  /-- Calibrated words in force, from the record and the corrections since (R79, R273, R406). -/
  wcal : Cells Word
  /-- Corrections that wait for their instant and gradual ones, by loop or by 35,840 + input (R271, R272); disagreeing background
  steps in a row, per actuator (R267). -/
  corr : Cells (List (Nat × Nat × Nat))
  ramps : Cells Ramp
  bgFail : Cells Nat
  calx : CalSt
  /-- Commands that wait, first in, first out. -/
  pending : List Instr
  deriving DecidableEq, Repr

def Otp.blank : Otp := ⟨0, 0, 0, 0, 0, 0, 0, 0, false, 0, 0, [], [], [], [], [], []⟩
def SlotDir.blank : SlotDir := ⟨0, 0, 0, 0, 0, 0, false⟩
def Flash.blank : Flash := ⟨true, none, none, SlotDir.blank, SlotDir.blank, none, none⟩

/-- The machine right after reset: every register at its reset value, drives at hardware clear code 0, no session, no
event, an empty journal and an empty boot flash. -/
def State.reset : State where
  regs := []
  latch := []
  time := 0
  cnt := []
  modes := ModeSt.reset
  egs := ⟨[], [], [], [], [], [], [], 0⟩
  netA := NetPort.idle
  netB := NetPort.idle
  jnl := ⟨[], [], [], 0, 0, false, true, false, [], 0⟩
  sess := []
  notes := []
  evs := []
  armed := []
  lastT0 := 0
  refill := []
  rchg := []
  osr := []
  missed := []
  validAt := []
  lowRun := []
  corrBad := []
  light := []
  totOver := false
  setpt := []
  spLev := []
  updates := []
  loopBad := []
  loopX := []
  away := []
  shed := 0
  moved := []
  voaOut := []
  repairs := []
  solving := none
  repairWaves := []
  rsLost := false
  pathAt := []
  finals := []
  shown := []
  plan := PlanSt.idle
  servo := []
  phase := []
  rcFrom := []
  ppsOut := false
  drv := []
  banks := []
  chA := Chan.reset
  chB := Chan.reset
  pulse := 0
  statusSeq := 0
  therm := Therm.idle
  pic := Picture.blank
  snapAt := 0
  updTotal := 0
  updRanges := []
  otp := Otp.blank
  flash := Flash.blank
  image := none
  wbase := []
  wcal := []
  corr := []
  ramps := []
  bgFail := []
  calx := CalSt.idle
  pending := []

end Sys2Proof.Machine
end

