-- ==== Sys2Proof/Machine/Ops.lean ====
section
/-! DEFINITION. Named operations over the register space, islands, fault sets with first-error capture (R426 to R431),
snapshots (R433 to R435) and the words that a read computes. -/

namespace Sys2Proof.Machine

/-! Registers. -/

/-- The stored word at an address. -/
def readN (s : State) (a : Nat) : Nat := (cellGet resetWord s.regs a).toNat

/-- Store a word. -/
def wrWord (s : State) (a v : Nat) : State := { s with regs := cellSet resetWord s.regs a (BitVec.ofNat 32 v) }

/-- Replace the bits of `mask` in a stored word. -/
def mergeWord (mask a v : Nat) (s : State) : State :=
  wrWord s a (maskIn (BitVec.ofNat 32 (readN s a)) (BitVec.ofNat 32 mask) (BitVec.ofNat 32 v)).toNat

/-- Read one instance of a field. -/
def State.rd (s : State) (F : Fld) (ix : List Nat) : Nat := bitsN (readN s (fldAddr F ix)) F.lo F.width

/-- Write one instance of a field. -/
def State.wr (s : State) (F : Fld) (ix : List Nat) (v : Nat) : State :=
  wrWord s (fldAddr F ix) (setBits (readN s (fldAddr F ix)) F.lo F.width v)

/-- A one-bit field as Bool. -/
def State.flag (s : State) (F : Fld) (ix : List Nat) : Bool := s.rd F ix == 1

/-- A field read as a signed number. -/
def State.rdS (s : State) (F : Fld) (ix : List Nat) : Int := toS F.width (s.rd F ix)

/-- Write a signed number. -/
def State.wrS (s : State) (F : Fld) (ix : List Nat) (v : Int) : State := s.wr F ix (ofS F.width v)

/-- Add one modulo the field's width. -/
def State.inc (s : State) (F : Fld) (ix : List Nat) : State := s.wr F ix (s.rd F ix + 1)

/-- Add one, saturating. -/
def State.incS (s : State) (F : Fld) (ix : List Nat) : State := s.wr F ix (incSat F.width (s.rd F ix))

/-- Bit `i` of an array of 32-bit words that starts at address `a`. -/
def mapBit (s : State) (a i : Nat) : Bool := bitN (readN s (a + 4 * (i / 32))) (i % 32)

/-- Set or clear bit `i` of such an array. -/
def setMapBit (s : State) (a i : Nat) (v : Bool) : State :=
  wrWord s (a + 4 * (i / 32)) (setBits (readN s (a + 4 * (i / 32))) (i % 32) 1 (b2n v))

/-- Forget every word in `lo .. hi - 1`: it reads as after reset. -/
def dropRange (s : State) (lo hi : Nat) : State :=
  { s with regs := cellDrop (fun a => decide (lo ≤ a) && decide (a < hi)) s.regs }

/-! Islands (18_power R404 to R406, R440). -/

/-- STATE of an island: 0 ON, 1 STARTING, 2 OFF, 3 SHED, 4 LATCHED, 5 FAILED. -/
def islState (s : State) (i : Nat) : Nat := s.rd R.PWR_ISL_STATE [i]

/-- Supplied and out of reset; PI00 stays powered whatever happens (R7, R415). -/
def islOn (s : State) (i : Nat) : Bool := decide (islState s i ≤ 1) || i == 0

/-- In service. -/
def islServing (s : State) (i : Nat) : Bool := decide (islState s i = 0)

/-! Views: words that a read computes. -/

/-- Domain time, ns and 2⁻¹⁶ ns (R166). -/
def domCnt (s : State) (d : Nat) : Nat := cellGet (fun _ => 0) s.cnt d
def domNs (s : State) (d : Nat) : Nat := domCnt s d / 2 ^ 44
def domFrac (s : State) (d : Nat) : Nat := domCnt s d % 2 ^ 44 / 2 ^ 28

/-- The epoch of a domain, ns (R180). -/
def epochNs (s : State) (d : Nat) : Nat :=
  (s.rd R.TBU_DOM_EPOCH_SEC_HI [d] * 2 ^ 32 + s.rd R.TBU_DOM_EPOCH_SEC_LO [d]) * 1000000000 +
    s.rd R.TBU_DOM_EPOCH_NS [d]

/-- Pattern period of a domain, ns. -/
def patOf (s : State) (d : Nat) : Nat := patNs (s.rd R.TBU_DOM_CFG_PERIOD [d])

/-- `TBU.DOM[d].AF` at a domain time (R180); a domain that is OFF shows its reset value. -/
def afWord (s : State) (d t : Nat) : Nat :=
  let e := epochNs s d
  if s.rd R.TBU_DOM_STATE_STATE [d] = 0 ∨ t < e then 0
  else
    let af := (t - e) / 10000000
    af / 1024 % 65536 * 2 ^ 16 + af % 1024 * 2 ^ 6 + (t - e) % 10000000 / patOf s d * 2 + 1

/-- A block's interrupt to the MP (R428). -/
def irq (s : State) (b : Blk) : Bool := Nat.land (readN s b.base) (readN s (b.base + 4)) != 0

/-- ALERT_N is asserted: PI00 holds it while PI01 is latched off (R7), PWR while the MP is down or recovering, else the masked
interrupts (R428). -/
def alertAsserted (s : State) : Bool :=
  s.modes.latched.contains 1 || s.modes.mpDown || allBlks.any fun b =>
    match b.maskBit with
    | some i => bitN (s.rd R.GLB_ALERT_MASK []) i && irq s b
    | none => false

/-- Word at offset `o` of the snapshot buffer (R435). -/
def snapWord (p : Picture) (o : Nat) : Nat :=
  let w (a : Nat) : Nat := (cellGet resetWord p.words a).toNat
  let on (i : Nat) : Bool := p.islands.contains i
  if o < 0x100 then ((p.header.find? fun h => h.1 == o).map (·.2)).getD 0
  else if p.islands.isEmpty then 0
  else if o < 0x1100 then (if on 7 then w (0x710000 + (o - 0x100)) else 0)
  else if o < 0x1500 then w (0x4102000 + (o - 0x1100))
  else if o < 0x1580 then w (0x4200300 + (o - 0x1500))
  else if o < 0x15A0 then w (0x4300100 + (o - 0x1580))
  else if o < 0x15B0 then w (0x4300200 + (o - 0x15A0))
  else if o < 0x15B4 then w 0x4300520
  else if o < 0x1600 then 0
  else if o < 0x1660 then (if on 5 then w (0x501000 + (o - 0x1600)) else 0)
  else if o < 0x16C0 then (if on 5 then w (0x509000 + (o - 0x1660)) else 0)
  else if o < 0x2000 then 0
  else if o < 0x48000 then
    let n := (o - 0x2000) / 8
    if on (actIsland n) then w (0x1000000 + 64 * n + if (o - 0x2000) % 8 = 0 then 0 else 0x1C) else 0
  else if o < 0x6A000 then
    let i := (o - 0x48000) / 4
    if on (12 + bankOf i) then w (0x2040000 + 0x100000 * bankOf i + 8 * localIx i) else 0
  else if o < 0xB2000 then
    if on (sensIsland ((o - 0x6A000) / 8)) then w (0x3200000 + (o - 0x6A000)) else 0
  else if o < 0xD2000 then
    let q := (o - 0xB2000) / 2
    if on 5 then w (0x640000 + 4 * q) % 2 ^ 16 + w (0x640000 + 4 * (q + 1)) % 2 ^ 16 * 2 ^ 16 else 0
  else 0

/-- Whether an island that holds the register at `a` is on (R440). -/
def regOn (s : State) (a : Nat) : Bool := (addrIslands a).any (islOn s)

/-- Set bits of a 32-bit word. -/
def popc32 (n : Nat) : Nat := ((span 0 32).filter (bitN n)).length

/-- Elements marked SUSPECT and elements declared failed (the counters of `CAL`, offset 0x0120). -/
def nSuspect (s : State) : Nat := ((span 0 1088).map fun w => popc32 (readN s (0x800200 + 4 * w))).sum
def nFailed (s : State) : Nat :=
  (s.regs.filter fun c => decide (0x2000000 ≤ c.1) && decide (c.1 < 0x3000000) && decide (0x40000 ≤ c.1 % 0x100000) &&
    decide (c.1 % 0x100000 < 0x44400) && c.1 % 8 == 4 && bitN c.2.toNat 28).length

/-- What a read of a word returns now, before any latch or read effect (R6, R438, R440). -/
def viewWord (s : State) (a : Nat) : Nat :=
  if !regOn s a then 0
  else if a = 0x110 then s.time % 2 ^ 32
  else if a = 0x114 then s.time / 2 ^ 32 % 2 ^ 32
  else if a = 0x124 then b2n (alertAsserted s) * 2 ^ 31 + b2n s.modes.mpDown * 2 ^ 30
  else if 0x401000 ≤ a ∧ a < 0x403000 then
    let d := (a - 0x401000) / 0x400
    let o := (a - 0x401000) % 0x400
    let t := domNs s d
    if o = 0x10 then t / 1000000000 / 2 ^ 32 % 2 ^ 16
    else if o = 0x14 then t / 1000000000 % 2 ^ 32
    else if o = 0x18 then t % 1000000000
    else if o = 0x1C then domFrac s d
    else if o = 0x20 then afWord s d t
    else if o = 0x08 ∧ readN s a / 2 ^ 30 = 3 then
      setBits (readN s a) 0 16 (min 65535 ((s.time - (cellGet (fun _ => Servo.idle) s.servo d).hoFrom) / 1000000))
    else readN s a
  else if (a = 0x500108 ∨ a = 0x508108) ∧ bitN (readN s a) 27 then
    let q := nthD 512 [512, 2048, 2048, 5120] (bitsN (readN s (a - 8)) 29 2)
    let since := if a = 0x500108 then s.netA.pauseAt else s.netB.pauseAt
    setBits (readN s a) 0 16 (readN s a % 2 ^ 16 - (s.time - since) * 100 / q)
  else if a = 0x4000120 then nSuspect s * 2 ^ 16 + nFailed s
  else if 0x720000 ≤ a ∧ a < 0x724000 ∧ a % 16 = 8 then
    let t := cellGet (fun _ => 0) s.pathAt ((a - 0x720000) / 16)
    if t = 0 then readN s a else setBits (readN s a) 0 16 (min 65535 ((s.time + 1 - t) / 1000000))
  else if 0x4520000 ≤ a ∧ a < 0x45F2000 then snapWord s.pic (a - 0x4520000)
  else if 0x2000000 ≤ a ∧ a < 0x3000000 ∧ 0x40000 ≤ a % 0x100000 ∧ a % 0x100000 < 0x44400 ∧ a % 8 = 4 then
    setBits (readN s a) 29 1 (b2n (readN s (a / 0x100000 * 0x100000 + 0x110) % 32 != 0 ||
      (cellGet (fun _ => BankSt.cold) s.banks ((a - 0x2000000) / 0x100000)).unassigned))
  else readN s a

/-! Faults (19_faults_and_snapshots). -/

/-- What first-error capture records of an occurrence (R429): address, MASTER, ACCESS, CHECK, SYNDROME, INJ. -/
structure Cause where
  addr : Nat
  master : Nat
  access : Nat
  check : Nat
  synd : Nat
  inj : Bool
  deriving DecidableEq, Repr

/-- An occurrence that no access causes: MASTER 0xFF, ACCESS 7. -/
def Cause.none : Cause := ⟨0, 0xFF, 7, 0, 0, false⟩

/-- An occurrence at an address with no access. -/
def Cause.at (a : Nat) : Cause := ⟨a, 0xFF, 7, 0, 0, false⟩

/-- Count and record one occurrence in a block's fault set: STATUS bit, ERR_COUNT and, while VALID is 0, the three
capture registers (R427, R429). In the SAF mirror only STATUS acts (R426). -/
def record (b : Blk) (bit : Nat) (c : Cause) (s : State) : State :=
  let s1 := wrWord s b.base (setBits (readN s b.base) bit 1 1)
  if b = .saf then s1
  else
    let s2 := wrWord s1 (b.base + 0x14) (readN s1 (b.base + 0x14) + 1)
    if bitN (readN s2 (b.base + 0xC)) 15 then s2
    else
      wrWord (wrWord (wrWord s2 (b.base + 8) c.addr) (b.base + 0xC)
        (c.master * 2 ^ 24 + c.access * 2 ^ 21 + bit * 2 ^ 16 + 2 ^ 15 + b2n c.inj * 2 ^ 14 + c.check * 2 ^ 11 +
          c.synd % 2 ^ 11))
        (b.base + 0x10) (s.time / 1024)

/-- An occurrence would be captured now (R429). -/
def captures (b : Blk) (s : State) : Bool := !decide (b = .saf) && !bitN (readN s (b.base + 0xC)) 15

/-- Header words of a snapshot (R435). -/
def snapHeader (src : Nat) (s : State) : List (Nat × Nat) :=
  [(0x00, s.rd R.SNP_SNAPSEQ []), (0x04, src), (0x08, s.time % 2 ^ 32), (0x0C, s.time / 2 ^ 32 % 2 ^ 32),
   (0x10, s.rd R.GLB_BOOT []), (0x14, readN s 0x100010), (0x18, s.rd R.JNL_JSEQ_LO []), (0x1C, s.rd R.JNL_JSEQ_HI []),
   (0x20, s.rd R.JNL_ASEQ []), (0x24, if islOn s 7 then s.rd R.RS_WAVENO_WAVE [] else 0),
   (0x28, if islOn s 7 then readN s 0x780004 else 0),
   (0x2C, ((span 0 30).map fun i => b2n (islOn s i) * 2 ^ i).sum)] ++
  ((span 0 8).map fun d =>
    let t := domNs s d
    [(0x40 + 16 * d, s.rd R.TBU_DOM_STATE_STATE [d] * 2 ^ 30 + t / 1000000000 / 2 ^ 32 % 2 ^ 16),
     (0x44 + 16 * d, t / 1000000000 % 2 ^ 32), (0x48 + 16 * d, t % 1000000000), (0x4C + 16 * d, afWord s d t)]).flatten

/-- The snapshot held was triggered at this very time. -/
def snapJoins (s : State) : Bool :=
  s.pic.header.contains (0x08, s.time % 2 ^ 32) && s.pic.header.contains (0x0C, s.time / 2 ^ 32 % 2 ^ 32)

/-- Sources that fire within the same 8 ns form one snapshot: each is recorded in SRC (R433). -/
def snapAdd (en : Nat) (s : State) : State :=
  { s with pic := { s.pic with header := s.pic.header.map fun h => if h.1 = 4 then (4, Nat.lor h.2 en) else h } }

/-- The common trigger with the source bits that fire (R433, R434): a source whose SRC_EN bit is 0 triggers nothing; a
trigger while a snapshot is HELD or being exported is counted in MISSED; else every block latches its part. -/
def snapTrigger (src : Nat) (s : State) : State :=
  let en := Nat.land src (s.rd R.SNP_CTRL_SRC_EN [] * 2 ^ 24)
  if en = 0 ∨ !islOn s 1 then s
  else if s.rd R.SNP_STATE_STATE [] ≠ 0 ∧ snapJoins s then snapAdd en s
  else if s.rd R.SNP_STATE_STATE [] ≠ 0 then record .snp 0 Cause.none (s.incS R.SNP_STATE_MISSED [])
  else
    let s1 := ((s.inc R.SNP_SNAPSEQ []).wr R.SNP_STATE_STATE [] 1).wr R.SNP_STATE_MISSED [] 0
    { s1 with pic := ⟨s.regs, snapHeader en s1, (span 0 30).filter (islOn s)⟩ }

/-- The source bit of a safety channel: a new SOS demand, SDP demand or SLP trip (R433). -/
def snapSafety : Nat := 2 ^ 28

/-- One occurrence of a cause, with the snapshot that a capture in an FCLASS block triggers (R427, R429, R433). -/
def raise (b : Blk) (bit : Nat) (c : Cause) (s : State) : State :=
  let s1 := record b bit c s
  match b.maskBit with
  | some i => if captures b s && bitN (s.rd R.SNP_FCLASS []) i then snapTrigger (2 ^ 27) s1 else s1
  | none => s1

/-- An occurrence with no address and no access. -/
def raise0 (b : Blk) (bit : Nat) (s : State) : State := raise b bit Cause.none s

/-- Whether the block has a checker for SEL (19_faults, checkers by SEL). -/
def hasChecker (b : Blk) (sel : Nat) : Bool :=
  match b with
  | .ce => decide (sel ≤ 3)
  | .cl | .jnl | .neta | .netb | .eda _ => decide (sel ≤ 1)
  | _ => decide (sel = 0)

/-- An armed injection meets an access to checker `sel` (R431): ARM clears, and the inverted check bits are answered.
A MASK of 0 fires with no effect. -/
def injHit (b : Blk) (sel : Nat) (s : State) : Nat × State :=
  let w := readN s (b.base + 0x18)
  if bitN w 31 && bitsN w 24 3 == sel then (bitsN w 0 16, wrWord s (b.base + 0x18) (w - 2 ^ 31)) else (0, s)

/-- An armed injection meets a parity checker: only bit 0 of MASK inverts anything. -/
def injParity (b : Blk) (sel : Nat) (s : State) : Nat × State :=
  let h := injHit b sel s
  (h.1 % 2, h.2)

/-- Number of set bits of the low 16. -/
def popc (n : Nat) : Nat := ((span 0 16).filter (bitN n)).length

/-- An occurrence that no STATUS bit stands for: ERR_COUNT alone steps. -/
def countOnly (b : Blk) (s : State) : State := wrWord s (b.base + 0x14) (readN s (b.base + 0x14) + 1)

/-- An access of `master` at address `a` meets a SECDED checker: one inverted bit is corrected and counted, two are
uncorrectable (R431) and record STATUS bit `bit`. -/
def eccHit (b : Blk) (sel bit a master acc : Nat) (s : State) : Bool × State :=
  let h := injHit b sel s
  if popc h.1 = 0 then (false, h.2)
  else if popc h.1 = 1 then (false, countOnly b h.2)
  else (true, raise b bit ⟨a, master, acc, 2, h.1, true⟩ h.2)

/-- An entry, a directory copy or a record passes its CRC checker: any inverted bit is a failure (R431), which no STATUS bit stands for; what
fails its verification is written once more (R274, R379, R390). -/
def crcHit (b : Blk) (sel : Nat) (s : State) : State :=
  let h := injHit b sel s
  if popc h.1 = 0 then h.2 else countOnly b h.2

/-! Block of an address, for W1C, INJECT and parity (R438). -/

/-- The fault-set block whose region holds an address. -/
def blkOf (a : Nat) : Option Blk :=
  if a < 0x100000 then some .glb else if a < 0x200000 then some .pwr else if a < 0x300000 then some .cl
  else if a < 0x400000 then some .jnl else if a < 0x500000 then some .tbu
  else if a < 0x508000 then some .neta else if a < 0x510000 then some .netb
  else if a < 0x600000 then none else if a < 0x700000 then some .egs else if a < 0x800000 then some .rs
  else if a < 0x2000000 then some .ce else if a < 0x3000000 then some (.eda ((a - 0x2000000) / 0x100000))
  else if a < 0x3800000 then some .esa else if a < 0x4000000 then some .port
  else if a < 0x4100000 then some .cal else if a < 0x4200000 then some .thm else if a < 0x4300000 then some .pcv
  else if a < 0x4400000 then some .saf else if a < 0x4500000 then some .plan else if a < 0x4600000 then some .snp
  else if 0x4800000 ≤ a ∧ a < 0x4A00000 then some .cal else none

end Sys2Proof.Machine
end

