-- ==== Sys2Proof/Machine/Egress.lean ====
section
/-! DEFINITION. Egress queues (15_egress_queues_and_gates): enqueue and tail drop, record frames, shaping, gates,
selection, policers and samplers. -/

namespace Sys2Proof.Machine

/-! Queues. -/

def qGet (s : State) (q : Nat) : Queue := cellGet (fun _ => Queue.idle) s.egs.queues q
def qPut (s : State) (q : Nat) (v : Queue) : State :=
  { s with egs := { s.egs with queues := cellSet (fun _ => Queue.idle) s.egs.queues q v } }

def portGet (s : State) (p : Nat) : NetPort := if p = 0 then s.netA else s.netB
def portPut (s : State) (p : Nat) (v : NetPort) : State :=
  if p = 0 then { s with netA := v } else { s with netB := v }

/-! Ingress rings (R336, R337): KCP 0, PTP 1, SAFETY 2, OTHER 3. -/

def ringGet (v : NetPort) (r : Nat) : List RxHeld :=
  match r with | 0 => v.kcp | 1 => v.ptp | 2 => v.safety | _ => v.other
def ringPut (v : NetPort) (r : Nat) (l : List RxHeld) : NetPort :=
  match r with
  | 0 => { v with kcp := l }
  | 1 => { v with ptp := l }
  | 2 => { v with safety := l }
  | _ => { v with other := l }

/-- Buffers of a ring. -/
def ringSize (r : Nat) : Nat := nthD 512 [4096, 256, 128, 512] r
/-- Buffers in use. -/
def ringUsed (l : List RxHeld) : Nat := (l.map fun f => (f.len + 255) / 256).sum

/-- Set a ring's content: FREE and LOW follow. -/
def ringSet (p r : Nat) (l : List RxHeld) (s : State) : State :=
  let free := ringSize r - ringUsed l
  let s1 := (portPut s p (ringPut (portGet s p) r l)).wr R.NI_RING_FREE [p, r] free
  s1.wr R.NI_RING_LOW [p, r] (min free (s1.rd R.NI_RING_LOW [p, r]))

/-- The consumer takes the oldest frame of a ring. -/
def takeRing (p r : Nat) (s : State) : State :=
  match ringGet (portGet s p) r with
  | [] => s
  | _ :: t => ringSet p r t s

/-- The rings of an enabled port are empty (R337). -/
def clearRings (p : Nat) (s : State) : State :=
  if s.flag R.NI_CFG_EN [p] then
    (span 0 4).foldl (fun t r => ((portPut t p (ringPut (portGet t p) r [])).wr R.NI_RING_FREE [p, r] (ringSize r)).wr
      R.NI_RING_LOW [p, r] (ringSize r)) s
  else s

/-- The port's link is up (R331). -/
def linkUp (s : State) (p : Nat) : Bool := s.flag R.NI_LINK_UP [p]

/-- Cells of a frame (R346). -/
def cellsOf (len : Nat) : Nat := (len + 255) / 256

/-- Fixed queues (R343). -/
def isFixed (q : Nat) : Bool := decide (65520 ≤ q)

/-- Queues that never hold a frame (R343). -/
def noQueue (q : Nat) : Bool := decide (65520 ≤ q) && decide (q ≤ 65530)

/-- The longest frame that leaves the module (R333). -/
def maxFrame : Nat := 9216

/-- Length of a record frame with `n` records of `rsize` bytes under profile `k`: Ethernet header, tag, IP, UDP, the
24-byte telemetry header, the records, FCS (R347, R360). -/
def recFrameLen (s : State) (k rsize n : Nat) : Nat :=
  14 + 4 * s.rd R.EGS_DEST_TAG [k] + (if s.flag R.EGS_DEST_IPV6 [k] then 40 else 20) + 8 + 24 + n * rsize + 4

def openCells (s : State) (q : Nat) (v : Queue) : Nat :=
  match v.opened with
  | some f => cellsOf (recFrameLen s (s.rd R.EGS_QCFG_DEST [q]) f.rsize f.recs.length)
  | none => 0

/-- Frames that MACs are sending and of which no copy stands in a queue any more, each once: their cells stay taken until the last copy has
left (R345). -/
def sending (s : State) : List (Nat × Frame) :=
  let out (t : Option (Nat × Frame)) : List (Nat × Frame) :=
    t.toList.filter fun x => !((qGet s x.1).frames.any fun f => f.id == x.2.id)
  out s.netA.tx ++ (out s.netB.tx).filter fun x => !(s.netA.tx.any fun y => y.2.id == x.2.id)

/-- Cells a queue holds (R346, R357). -/
def qCells (s : State) (q : Nat) (v : Queue) : Nat :=
  (v.frames.map fun f => cellsOf f.len).sum + openCells s q v +
    (((sending s).filter fun x => x.1 == q).map fun x => cellsOf x.2.len).sum

/-- Cells in use in the whole memory. -/
def usedCells (s : State) : Nat :=
  (s.egs.queues.map fun c => (c.2.frames.map fun f => cellsOf f.len).sum + openCells s c.1 c.2).sum +
    ((sending s).map fun x => cellsOf x.2.len).sum

/-- Show a queue's depth (R357). -/
def showDepth (q : Nat) (s : State) : State := s.wr R.EGS_QSTAT_DEPTH [q] (qCells s q (qGet s q))

/-- Step a data-class counter; the half-range bit and interrupt at each change of its top bit (R340, R341, R361). -/
def bumpEgs (F : Fld) (ix : List Nat) (s : State) : State :=
  let v := s.rd F ix
  let s1 := s.inc F ix
  if bitN v 31 != bitN (v + 1) 31 || v + 1 == 2 ^ 32 then
    raise0 .egs 6 (wrWord s1 0x600180 (setBits (readN s1 0x600180) (Config.egsHalfBit (fldAddr F ix) % 32) 1 1))
  else s1

/-! DRR rounds. -/

def roundKey (p c : Nat) : Nat := p * 8 + c
def roundGet (s : State) (p c : Nat) : List Nat := cellGet (fun _ => []) s.egs.rounds (roundKey p c)
def roundPut (s : State) (p c : Nat) (l : List Nat) : State :=
  { s with egs := { s.egs with rounds := cellSet (fun _ => []) s.egs.rounds (roundKey p c) l } }
def servedGet (s : State) (p c : Nat) : List Nat := cellGet (fun _ => []) s.egs.served (roundKey p c)
def servedPut (s : State) (p c : Nat) (l : List Nat) : State :=
  { s with egs := { s.egs with served := cellSet (fun _ => []) s.egs.served (roundKey p c) l } }

def defGet (v : Queue) (p : Nat) : Nat := if p = 0 then v.defA else v.defB
def defPut (v : Queue) (p d : Nat) : Queue := if p = 0 then { v with defA := d } else { v with defB := d }

/-- Head frame of a queue for a port (R345). -/
def headFor (v : Queue) (p : Nat) : Option Frame := v.frames.find? fun f => bitN f.copies p

/-- Take the head frame's copy for a port out, to start it or to drop it: the frame leaves the queue with its last copy. -/
def takeHead (p : Nat) (starts : Bool) : List Frame → List Frame
  | [] => []
  | f :: t =>
    if bitN f.copies p then
      if f.copies = 2 ^ p then t else { f with copies := f.copies - 2 ^ p, begun := f.begun || starts } :: t
    else f :: takeHead p starts t

/-- A queue joins the back of its round on a port. -/
def joinRound (p q : Nat) (s : State) : State :=
  let c := s.rd R.EGS_QCFG_TC [q]
  let l := roundGet s p c
  if l.contains q then s else roundPut s p c (l ++ [q])

/-- A queue leaves its round: it has emptied, and its deficit is 0 (R351). -/
def leaveRound (p q : Nat) (s : State) : State :=
  let c := s.rd R.EGS_QCFG_TC [q]
  let s1 := roundPut s p c ((roundGet s p c).filter (· != q))
  let s2 := servedPut s1 p c ((servedGet s1 p c).filter (· != q))
  qPut s2 q (defPut (qGet s2 q) p 0)

/-- Discard every frame of a queue for a port that is down (R345). -/
def dropDown (p q : Nat) : Nat → State → State
  | 0, s => s
  | n + 1, s =>
    match headFor (qGet s q) p with
    | none => s
    | some _ =>
      let v := qGet s q
      let s1 := qPut s q { v with frames := takeHead p false v.frames }
      dropDown p q n (raise0 .egs 5 (bumpEgs R.EGS_LINK_DROP [p] s1))

/-- A frame of KCP or PTP, which a port that counts as failed does not carry (R332). -/
def kcpPtp (b : FBody) : Bool :=
  match b with
  | .kcp _ _ _ _ => true
  | .delayReq _ _ _ _ _ => true
  | _ => false

/-- A port takes a frame: its link is up, and it does not count as failed where the frame is KCP or PTP. -/
def portTakes (s : State) (p : Nat) (f : Frame) : Bool := linkUp s p && !((portGet s p).failed && kcpPtp f.body)

/-- A port with frames for it in a queue: joined to the round when it takes them, discarded at once when not. -/
def offer (p q : Nat) (s : State) : State :=
  match headFor (qGet s q) p with
  | none => s
  | some f => if portTakes s p f then joinRound p q s else dropDown p q (qGet s q).frames.length s

/-- Ports that a frame of queue `q` goes to; PERFRAME takes the port it names (R345). -/
def copiesOf (s : State) (q port : Nat) : Nat :=
  match s.rd R.EGS_QCFG_PORT [q] with
  | 0 => 1
  | 1 => 2
  | 2 => 3
  | _ => if port = 0 then 1 else 2

/-- Whether `c` more cells fit queue `q` (R346). -/
def fits (s : State) (q c : Nat) : Bool :=
  decide (qCells s q (qGet s q) + c ≤ s.rd R.EGS_QCFG_LIMIT [q] * 16) &&
    (if isFixed q then decide (usedCells s + c ≤ 32768) else decide (usedCells s + c + 512 ≤ 32768))

/-- Enqueue a frame under the cell limits, or drop it whole (R346). While PI05 is off there is no queue; a reserved queue holds no frame (R343),
and none longer than 9,216 bytes is offered (R333). -/
def enqueue (q port len : Nat) (b : FBody) (s : State) : State :=
  if !islOn s 5 || noQueue q || decide (maxFrame < len) then s
  else
    let n := max 64 len
    if fits s q (cellsOf n) then
      let v := qGet s q
      let s1 := qPut s q { v with frames := v.frames ++ [⟨n, b, s.time, copiesOf s q port, s.egs.next, false⟩] }
      let s2 := { s1 with egs := { s1.egs with next := s1.egs.next + 1 } }
      showDepth q (offer 1 q (offer 0 q (eccHit .egs 0 0 0 0xFF 1 s2).2))
    else showDepth q (raise0 .egs 1 (bumpEgs R.EGS_TAIL_DROP [] s))

/-! Record frames (R359, R360). -/

/-- A domain is LOCKED or in HOLDOVER (R169). -/
def domUsable (s : State) (d : Nat) : Bool := decide (2 ≤ s.rd R.TBU_DOM_STATE_STATE [d])

/-- A port's address for what it sends (R360): V4ADDR, or its first IPv6 address. -/
def portAddr (s : State) (p : Nat) (v6 : Bool) : Nat :=
  if v6 then (span 0 4).foldl (fun a i => a * 2 ^ 32 + s.rd R.NI_IP_V6ADDR0 [p, i]) 0 else s.rd R.NI_IP_V4ADDR [p]

/-- Sum of 16-bit words, high byte first, an odd last byte padded with zeros. -/
def sum16 : Nat → List Nat → Nat
  | 0, _ => 0
  | _ + 1, [] => 0
  | _ + 1, [a] => a * 256
  | n + 1, a :: b :: t => a * 256 + b + sum16 n t

/-- The UDP checksum over a pseudo-header of IPv6: the complement of the ones' complement sum, 0 shown as 65,535. -/
def udpSum (src dst sport dport : Nat) (payload : List Nat) : Nat :=
  let n := 8 + payload.length
  let l := beBytes 16 src ++ beBytes 16 dst ++ beBytes 4 n ++ [0, 0, 0, 17] ++ beBytes 2 sport ++ beBytes 2 dport ++ beBytes 2 n ++
    [0, 0] ++ payload
  let x := sum16 l.length l
  let c := 65535 - (if x % 65535 = 0 then 65535 else x % 65535)
  if c = 0 then 65535 else c

/-- The addressing of queue `q`'s record frames: its destination profile, its class as PCP (R344, R360). -/
def recDest (s : State) (q : Nat) : RecDest :=
  let k := s.rd R.EGS_QCFG_DEST [q]
  let v6 := s.flag R.EGS_DEST_IPV6 [k]
  let word (j : Nat) : Nat := s.rd R.EGS_DEST_IPADDR [k, j]
  { ipv6 := v6
    tag := if s.flag R.EGS_DEST_TAG [k] then some (s.rd R.EGS_QCFG_TC [q], s.rd R.EGS_DEST_VID [k]) else none
    mac := s.rd R.EGS_DEST_MAC_HI [k] * 2 ^ 32 + s.rd R.EGS_DEST_MAC_LO [k]
    ip := if v6 then ((word 0 * 2 ^ 32 + word 1) * 2 ^ 32 + word 2) * 2 ^ 32 + word 3 else word 3
    dport := s.rd R.EGS_DEST_DPORT [k]
    sport := s.rd R.EGS_DEST_SPORT [k]
    src := (portAddr s 0 v6, portAddr s 1 v6)
    sum := (0, 0) }

/-- The addressing with the checksum of a payload (R360). -/
def withSum (d : RecDest) (payload : List Nat) : RecDest :=
  let one (src : Nat) : Nat := if d.ipv6 then udpSum src d.ip d.sport d.dport payload else 0
  { d with sum := (one d.src.1, one d.src.2) }

/-- The 24-byte telemetry header of an open frame of queue `q` (R360). -/
def recHeader (s : State) (q fseq : Nat) (f : OpenFrame) : List Nat :=
  [1, f.kind] ++ beBytes 2 q ++ [b2n f.tvalid * 128 + s.rd R.GLB_MID_MID [], f.rsize % 256] ++ beBytes 2 f.recs.length ++
    beBytes 4 fseq ++ [s.rd R.EGS_DEST_DOMAIN [s.rd R.EGS_QCFG_DEST [q]], 0, 0, 0] ++ beBytes 4 f.sec ++ beBytes 4 f.ns

/-- Close the open frame of a queue: it takes the next FSEQ and is enqueued. -/
def closeFrame (q : Nat) (s : State) : State :=
  let v := qGet s q
  match v.opened with
  | none => s
  | some f =>
    let k := s.rd R.EGS_QCFG_DEST [q]
    let s1 := qPut s q { v with opened := none, fseq := (v.fseq + 1) % 2 ^ 32 }
    let b := recHeader s q v.fseq f ++ f.recs.reverse.flatten
    enqueue q 0 (recFrameLen s k f.rsize f.recs.length) (.records (withSum (recDest s q) b) b) s1

/-- TVALID, and the time of domain `d` now: seconds and nanoseconds. -/
def recNow (s : State) (d : Nat) : Bool × Nat × Nat :=
  (domUsable s d, domNs s d / 1000000000 % 2 ^ 32, domNs s d % 1000000000)

/-- Add a record to the open frame of a queue, closing it first where MAXLEN would be passed; `stamp` is the time of a first record by
the profile's domain. -/
def addRecordAt (stamp : Nat → Bool × Nat × Nat) (q kind : Nat) (bytes : List Nat) (s : State) : State :=
  let k := s.rd R.EGS_QCFG_DEST [q]
  if !(qGet s q).en || !s.flag R.EGS_DEST_EN [k] || !islOn s 5 || noQueue q then s
  else
    let s1 := match (qGet s q).opened with
      | some f =>
        if min maxFrame (s.rd R.EGS_DEST_MAXLEN [k]) < recFrameLen s k f.rsize (f.recs.length + 1) then closeFrame q s else s
      | none => s
    let v := qGet s1 q
    let f := match v.opened with
      | some f => { f with recs := bytes :: f.recs }
      | none =>
        let z := stamp (s.rd R.EGS_DEST_DOMAIN [k])
        ⟨kind, z.1, bytes.length, z.2.1, z.2.2, [bytes]⟩
    showDepth q (qPut s1 q { v with opened := some f })

/-- A record of the present instant. -/
def addRecord (q kind : Nat) (bytes : List Nat) (s : State) : State := addRecordAt (recNow s) q kind bytes s

/-- A source with a decimation shift: one record at every 2^shift-th call while the queue is in use (R359). -/
def gatherAt (stamp : Nat → Bool × Nat × Nat) (q kind shift : Nat) (bytes : List Nat) (s : State) : State :=
  let v := qGet s q
  if !v.en then s
  else if v.dec + 1 < 2 ^ shift then qPut s q { v with dec := v.dec + 1 }
  else addRecordAt stamp q kind bytes (qPut s q { v with dec := 0 })

/-- A source whose record is of the present instant. -/
def gather (q kind shift : Nat) (bytes : List Nat) (s : State) : State := gatherAt (recNow s) q kind shift bytes s

/-! Shaping (R347 to R350). -/

/-- OVL_BUSY goes to 0 once no instance waits for its boundary (R31). -/
def settle (s : State) : State :=
  if s.modes.busyL.isEmpty && s.modes.busyQ.isEmpty && s.modes.busyS.isEmpty && s.modes.busyP.isEmpty then s.wr R.PWR_MODE_OVL_BUSY [] 0 else s

/-- A queue has passed its boundary. -/
def settleQ (q : Nat) (s : State) : State :=
  if s.modes.busyQ.contains q then
    settle { s with modes := { s.modes with busyQ := s.modes.busyQ.filter (· != q) } }
  else s

/-- The refill arithmetic (R348). -/
def refill (credit : Int) (rate burst : Nat) : Int :=
  min (credit + ((rate * 4194304 : Nat) : Int)) ((burst * 512000000 : Nat) : Int)

/-- Refill of a queue: RATE, BURST, SHAPE and EN come into force; a bucket turned on starts with the credit it held. -/
def refillQueue (q : Nat) (s : State) : State :=
  let v := qGet s q
  let sh := s.flag R.EGS_QCFG_SHAPE [q]
  let r := s.rd R.EGS_QCFG_RATE [q]
  let b := s.rd R.EGS_QCFG_BURST [q]
  let e := s.flag R.EGS_QCFG_EN [q]
  let c := if sh && v.shape then refill v.credit r b else v.credit
  let s1 := qPut s q { v with credit := c, rate := r, burst := b, shape := sh, en := e }
  settleQ q (if e then s1 else closeFrame q s1)

/-- SHAPER_REFILL (R348): one queue of the sweep. -/
def execShaperRefill (queue : Nat) (s : State) : Host.Outcome State Fault Refusal :=
  .next (if islOn s 5 && decide (queue < 65536) && !isFixed queue then refillQueue queue s else s)

/-- FRAME_ENQUEUE (R346): a frame offered to a queue. Queues 0 to 38,175 are filled by their hardware sources alone, and queues 65,520 to
65,530 never hold a frame (R343). -/
def execFrameEnqueue (queue port len tag : Nat) (s : State) : Host.Outcome State Fault Refusal :=
  .next (if queue < 38176 ∨ 65536 ≤ queue then s else enqueue queue port len (.other tag) s)

/-! Time gates (R352 to R355). -/

/-- Entries of a list as (length, gates), cut off at the cycle end, the last one held until it. -/
def gateSegs : List (Nat × Nat) → Nat → List (Nat × Nat)
  | [], _ => []
  | [(_, g)], left => if left = 0 then [] else [(left, g)]
  | (n, g) :: t, left => if left = 0 then [] else (min n left, g) :: gateSegs t (left - min n left)

/-- The entries of port `p`'s list. -/
def gateList (s : State) (p : Nat) : List (Nat × Nat) :=
  (span 0 (s.rd R.EGS_GCTL_NENT [p] + 1)).map fun e => (s.rd R.EGS_GCL_INTERVAL [p, e], s.rd R.EGS_GCL_GATES [p, e])

/-- Cycle length in ns (R352). -/
def gateCycle (s : State) (p : Nat) : Nat := 2 ^ s.rd R.EGS_GCTL_CYC [p] * patOf s (s.rd R.EGS_GCTL_DOMAIN [p])

/-- Class `c` is open in a gate mask: TC7 and TC6 always (R352). -/
def gateOpen (g c : Nat) : Bool := decide (6 ≤ c) || bitN g c

/-- Length of the leading open run. -/
def openLead (c : Nat) : List (Nat × Nat) → Nat
  | [] => 0
  | (n, g) :: t => if gateOpen g c then n + openLead c t else 0

/-- Segments from position `u` of the cycle on: the rest of the segment that contains it and what follows. -/
def segsFrom : List (Nat × Nat) → Nat → List (Nat × Nat)
  | [], _ => []
  | (n, g) :: t, u => if u < n then (n - u, g) :: t else segsFrom t (u - n)

/-- The longest run of open segments, with the run in progress. -/
def longestRun (c : Nat) : List (Nat × Nat) → Nat → Nat → Nat
  | [], run, best => max run best
  | (n, g) :: t, run, best =>
    if gateOpen g c then longestRun c t (run + n) best else longestRun c t 0 (max run best)

/-- LONGEST of a class in ns, none where the gate is open throughout (R354): the cycle is read twice so that a run over
the boundary counts whole. -/
def longest (c : Nat) (segs : List (Nat × Nat)) : Option Nat :=
  if segs.all fun x => gateOpen x.2 c then none else some (longestRun c (segs ++ segs) 0 0)

/-- The gate list of a port is in force: EN, its domain usable and past its epoch, and started (R352, R355). -/
def listUsable (s : State) (p : Nat) : Bool :=
  let d := s.rd R.EGS_GCTL_DOMAIN [p]
  domUsable s d && decide (epochNs s d ≤ domNs s d)
def listRunning (s : State) (p : Nat) : Bool := listUsable s p && cellGet (fun _ => false) s.egs.running p

/-- Bit time of a port in 0.01 ns (R353). -/
def bitTime (s : State) (p : Nat) : Nat := nthD 10 [1, 4, 4, 10] (s.rd R.NI_CFG_MODE [p])

/-- Wire time plus guard band of a frame, 0.01 ns (R353). -/
def wireTime (s : State) (p len : Nat) : Nat := (len + 20) * bitTime s p * 8 + s.rd R.EGS_GCTL_GB [p] * 800

/-- A frame of class `c` may start on port `p` now (R353, R355). -/
def gateAllows (s : State) (p c len : Nat) : Bool :=
  if !s.flag R.EGS_GCTL_EN [p] then true
  else if !listRunning s p then gateOpen (s.rd R.EGS_GCTL_FBGATES [p]) c
  else
    let d := s.rd R.EGS_GCTL_DOMAIN [p]
    let l := gateCycle s p
    let segs := gateSegs (gateList s p) l
    if segs.all fun x => gateOpen x.2 c then true
    else
      let pos := (domCnt s d - epochNs s d * 2 ^ 44) % (l * 2 ^ 44)
      let lead := openLead c (segsFrom segs (pos / 2 ^ 44) ++ segs)
      decide (wireTime s p len * 2 ^ 44 + pos % 2 ^ 44 * 100 ≤ lead * 100 * 2 ^ 44)

/-- A head frame can never start on this list (R354). -/
def gateNever (s : State) (p c len : Nat) : Bool :=
  if !s.flag R.EGS_GCTL_EN [p] || !listRunning s p then false
  else
    match longest c (gateSegs (gateList s p) (gateCycle s p)) with
    | none => false
    | some n => decide (n * 100 < wireTime s p len)

/-- Entry of the list at position `u` of the cycle. -/
def gateIndex : List (Nat × Nat) → Nat → Nat
  | [], _ => 0
  | (n, _) :: t, u => if u < n then 0 else gateIndex t (u - n) + 1

/-- The port's gates fall back: a list that ran stops, and one that has not started does not (R355). -/
def gateFallback (p : Nat) (s : State) : State :=
  raise0 .egs 3 { s with egs := { s.egs with running := cellSet (fun _ => false) s.egs.running p false } }

/-- The lists of a domain fall back when it becomes OFF or UNLOCKED (R355). -/
def gatesFall (d : Nat) (s : State) : State :=
  [0, 1].foldl (fun t p => if t.flag R.EGS_GCTL_EN [p] ∧ t.rd R.EGS_GCTL_DOMAIN [p] = d then gateFallback p t else t) s

/-- GATE_ENTRY_CHANGE (R352, R355): the list moves to the entry of the present domain time; it starts at a cycle start;
while its domain is unusable the port falls back. -/
def execGateEntryChange (port : Nat) (s : State) : Host.Outcome State Fault Refusal :=
  .next (
    if !islOn s 5 || !s.flag R.EGS_GCTL_EN [port] then s
    else if !listUsable s port then gateFallback port s
    else
      let d := s.rd R.EGS_GCTL_DOMAIN [port]
      let l := gateCycle s port
      let u := (domNs s d - epochNs s d) % l
      let i := gateIndex (gateSegs (gateList s port) l) u
      let run := cellGet (fun _ => false) s.egs.running port || i == 0
      { s with egs := { s.egs with
          running := cellSet (fun _ => false) s.egs.running port run
          entry := cellSet (fun _ => 0) s.egs.entry port i
          cycle := cellSet (fun _ => 0) s.egs.cycle port (domNs s d - u) } })

/-! Selection (R349, R351). -/

/-- Drop head frames that can never start (R354). -/
def dropOversize (p c q : Nat) : Nat → State → State
  | 0, s => s
  | n + 1, s =>
    match headFor (qGet s q) p with
    | none => leaveRound p q s
    | some f =>
      if gateNever s p c f.len then
        let v := qGet s q
        dropOversize p c q n (raise0 .egs 2 (bumpEgs R.EGS_GATE_OVERSIZE [p]
          (showDepth q (qPut s q { v with frames := takeHead p false v.frames }))))
      else s

/-- A queue is eligible to start its head frame on a port (R349). -/
def eligible (s : State) (p c q : Nat) : Bool :=
  let v := qGet s q
  match headFor v p with
  | none => false
  | some f => (!v.shape || decide (0 < v.credit)) && gateAllows s p c f.len

/-- Greatest delay of a queue (R357). -/
def noteDelay (q : Nat) (f : Frame) (s : State) : State :=
  let d := min 65535 ((s.time - f.stamp) / 1000)
  if s.rd R.EGS_QSTAT_MAXDELAY [q] < d then s.wr R.EGS_QSTAT_MAXDELAY [q] d else s

/-- Start the head frame of a queue on a port: charge it, count its delay at its first copy, and leave the round or go
to its back where the next head exceeds the deficit. -/
def startFrame (p c q : Nat) (f : Frame) (s : State) : State :=
  let v := qGet s q
  let d := defGet v p - f.len
  let v1 := defPut { v with frames := takeHead p true v.frames,
                            credit := if v.shape then v.credit - ((f.len * 8000000 : Nat) : Int) else v.credit } p d
  let s1 := qPut s q v1
  let s2 := if f.begun then s1 else noteDelay q f s1
  let s3 := portPut s2 p { portGet s2 p with tx := some (q, { f with copies := f.copies - 2 ^ p, begun := true }) }
  match headFor v1 p with
  | none => showDepth q (leaveRound p q s3)
  | some g =>
    if d < g.len then
      let s4 := roundPut s3 p c ((roundGet s3 p c).filter (· != q) ++ [q])
      showDepth q (servedPut s4 p c ((servedGet s4 p c).filter (· != q)))
    else showDepth q s3

/-- One class: the first eligible queue of the round takes its quantum when it comes to the front and sends while its
head fits its deficit; else it goes to the back (R351). -/
def drr (p c : Nat) : Nat → State → State
  | 0, s => s
  | n + 1, s =>
    match (roundGet s p c).find? (eligible s p c) with
    | none => s
    | some q =>
      let v := qGet s q
      let s1 :=
        if (servedGet s p c).contains q then s
        else qPut (servedPut s p c (q :: servedGet s p c)) q
          (defPut v p (defGet v p + 256 * 2 ^ s.rd R.EGS_QCFG_QSH [q]))
      match headFor v p with
      | none => s
      | some f =>
        if f.len ≤ defGet (qGet s1 q) p then startFrame p c q f s1
        else
          let s2 := roundPut s1 p c ((roundGet s1 p c).filter (· != q) ++ [q])
          drr p c n (servedPut s2 p c ((servedGet s2 p c).filter (· != q)))

/-- Classes from `c − 1` down: the highest class with an eligible queue wins. -/
def pickClass (p : Nat) : Nat → State → State
  | 0, s => s
  | c + 1, s =>
    let s1 := (roundGet s p c).foldl (fun t q => dropOversize p c q ((qGet t q).frames.length + 1) t) s
    if (roundGet s1 p c).any (eligible s1 p c) then drr p c (38 * (roundGet s1 p c).length + 1) s1
    else pickClass p c s1

def servoGet (s : State) (d : Nat) : Servo := cellGet (fun _ => Servo.idle) s.servo d
def servoPut (s : State) (d : Nat) (v : Servo) : State :=
  { s with servo := cellSet (fun _ => Servo.idle) s.servo d v }

/-- A port of a domain's servo. -/
def ptpGet (s : State) (d p : Nat) : PtpPort := if p = 0 then (servoGet s d).portA else (servoGet s d).portB
def ptpPut (s : State) (d p : Nat) (v : PtpPort) : State :=
  servoPut s d (if p = 0 then { servoGet s d with portA := v } else { servoGet s d with portB := v })

/-- A Delay_Req that starts is stamped: t3 is its departure at the reference plane (R175), in 2⁻¹⁶ ns; rounded down to a nanosecond it
is inserted as the frame's originTimestamp (R177). No other frame's format marks an inserted time field. -/
def stampDelayReq (p : Nat) (s : State) : State :=
  match (portGet s p).tx with
  | some (q, f) =>
    match f.body with
    | .delayReq d n _ _ c =>
      let t3 : Nat := domCnt s d / 2 ^ 28 + s.rd R.TBU_TXLAT [p] * 2 ^ 8
      let ns := t3 / 65536
      let g : Frame := { f with body := .delayReq d n (ns / 1000000000) (ns % 1000000000) c }
      let s1 := portPut s p { portGet s p with tx := some (q, g) }
      ptpPut s1 d p { ptpGet s1 d p with t3 := some (n, (t3 : Int)) }
    | _ => s
  | none => s

/-- EGRESS_SELECT (R351): the MAC of a port can start a frame. -/
def execEgressSelect (port : Nat) (s : State) : Host.Outcome State Fault Refusal :=
  .next (
    if islOn s 5 && linkUp s port && !s.flag R.NI_LINK_PAUSED [port] && (portGet s port).tx.isNone then
      stampDelayReq port (pickClass port 8 s)
    else s)

/-! Telemetry and samplers (R358, R359). -/

/-- QUEUE_SAMPLER_VISIT (R358): a queue-sample record for TQ; the greatest delay is cleared. -/
def execQueueSamplerVisit (k queue : Nat) (s : State) : Host.Outcome State Fault Refusal :=
  .next (
    if islOn s 5 && s.flag R.EGS_SAMP_EN [k] && decide (s.rd R.EGS_SAMP_FIRST [k] ≤ queue) &&
        decide (queue ≤ s.rd R.EGS_SAMP_LAST [k]) then
      let bytes := beBytes 2 queue ++ beBytes 2 (s.rd R.EGS_QSTAT_DEPTH [queue]) ++
        beBytes 2 (s.rd R.EGS_QSTAT_MAXDELAY [queue]) ++ [0, 0]
      addRecord (s.rd R.EGS_SAMP_TQ [k]) 5 bytes (s.wr R.EGS_QSTAT_MAXDELAY [queue] 0)
    else s)

/-- TELEMETRY_HOLD_EXPIRY (R359): the open frame has been held for HOLD µs. -/
def execTelemetryHoldExpiry (queue : Nat) (s : State) : Host.Outcome State Fault Refusal :=
  .next (closeFrame queue s)

/-! Ingress policers (R356). -/

def polGet (s : State) (k : Nat) : Int := cellGet (fun _ => 0) s.egs.pol k
def polPut (s : State) (k : Nat) (c : Int) : State :=
  { s with egs := { s.egs with pol := cellSet (fun _ => 0) s.egs.pol k c } }

/-- POLICER_REFILL (R356): at the start of a sweep period. -/
def execPolicerRefill (k : Nat) (s : State) : Host.Outcome State Fault Refusal :=
  .next (
    if islOn s 5 && s.flag R.EGS_POL_EN [k] then
      polPut s k (refill (polGet s k) (s.rd R.EGS_POL_RATE [k]) (s.rd R.EGS_POL_BURST [k]))
    else s)

/-- Charge a frame to a policer: it passes only while the credit is above 0 (R356). -/
def police (k len : Nat) (s : State) : Bool × State :=
  if !s.flag R.EGS_POL_EN [k] then (true, s)
  else if 0 < polGet s k then (true, polPut s k (polGet s k - ((len * 8000000 : Nat) : Int)))
  else (false, raise0 .egs 4 (bumpEgs R.EGS_POL_DROP [k] s))

end Sys2Proof.Machine
end

