-- ==== Sys2Proof/Machine/Journal.lean ====
section
/-! DEFINITION. Amber (16_kcp_and_journal R378 to R381): entries, commit to both copies, checkpoints, export; and the
messages the module originates: answers, completions and notifications (R364, R373, R374). -/

namespace Sys2Proof.Machine

/-! Entries. -/

/-- Entry slots of a copy (R378). -/
def nSlots : Nat := 131072

/-- Bytes 0 to 123 of an entry. -/
def entryHead (e : Entry) : List Nat :=
  [e.kind, e.part * 64] ++ beBytes 2 e.parts ++ beBytes 8 e.jseq ++ beBytes 4 e.aseq ++ [e.session, e.type] ++
    beBytes 2 e.boot ++ beBytes 4 e.seq ++ beBytes 8 e.time ++ (e.payload ++ List.replicate 92 0).take 92

/-- The 128 bytes of an entry as stored. -/
def entryBytes (e : Entry) : List Nat := entryHead e ++ beBytes 4 (crc32c (entryHead e))

/-- A copy is live (R379): STATE 0. -/
def copyLive (s : State) (c : Nat) : Bool := decide (s.rd R.JNL_COPY_STATE [c] = 0)

/-- An MRAM copy can accept an entry: PI01 on, not write-protected, a copy live (R10, R379, R382). -/
def jnlReady (s : State) : Bool := islOn s 1 && !s.jnl.protect && (copyLive s 0 || copyLive s 1)

/-- Tags of faulted parts that hold DEGRADED. -/
def degMp : Nat := 1
def degCopy (c : Nat) : Nat := 10 + c
def degPort (p : Nat) : Nat := 20 + p
def degCluster (c : Nat) : Nat := 30 + c
def degEngine (e : Nat) : Nat := 100 + e
def degIsland (i : Nat) : Nat := 200 + i

/-- A faulted part is noted and the DEGRADED condition comes on (R19); the mode follows at the mode-control tick. -/
def degOn (t : Nat) (s : State) : State :=
  let l := if s.modes.degCauses.contains t then s.modes.degCauses else t :: s.modes.degCauses
  { s with modes := { s.modes with degCauses := l } }.wr R.PWR_MODE_C_DEG [] 1

/-- A part is restored: DEGRADED goes off with the last faulted part. -/
def degOff (t : Nat) (s : State) : State :=
  let l := s.modes.degCauses.filter (· != t)
  { s with modes := { s.modes with degCauses := l } }.wr R.PWR_MODE_C_DEG [] (b2n (!l.isEmpty))

/-- Address of the slot of a JSEQ in its macro (R378). -/
def slotAddr (j : Nat) : Nat := j % nSlots * 128

/-- A copy that fails verification twice is retired (R379); the MP was writing the slot of the next entry. -/
def retireCopy (c : Nat) (s : State) : State :=
  degOn (degCopy c) (raise .jnl c ⟨slotAddr (s.jnl.last + 1), 0, 1, 0, 0, false⟩ ((s.wr R.JNL_COPY_STATE [c] 1).wr R.JNL_COPY_CHECKS [c] 0))

/-- Words that a recovery rebuilds: sessions, connection and path records, wave number, event table, plan states, claims; with
the rule and schedule definitions they belong to. -/
def durableWord (a : Nat) : Bool :=
  let r (lo hi : Nat) : Bool := decide (lo ≤ a) && decide (a < hi)
  r 0x300200 0x300400 || r 0x710000 0x724000 || r 0x780004 0x794000 || r 0x4401000 0x4402100 || r 0x4403000 0x4404020 ||
    r 0x4405000 0x4405080

/-- Repairs that units plan: the connection concerned leads its unit (R200). -/
def plannedRepairs (l : List SUnit) : List (Nat × Nat) :=
  l.filterMap fun u => u.chgs.head?.bind fun c => c.new.map fun r => (c.out, r.desc)

/-- Units of repairs in the waves armed. -/
def armedRepairs (s : State) : List SUnit := (s.armed.map fun w => (w.units.filter fun u => u.1 == 0).map (·.2)).flatten

/-- Connections that wait for a repair, with those planned in waves not yet armed and in `extra`. -/
def waitingRepairs (s : State) (extra : List SUnit) : List (Nat × Nat) :=
  s.repairs ++ (plannedRepairs ((s.repairWaves.map (·.2)).flatten ++ extra)).filter fun r => !(s.repairs.any fun x => x.1 == r.1)

/-- The connections that wait for a repair solve. The event that Tangram is solving when the first of them comes is the oldest
ACCEPTED one (R197, R200). -/
def setRepairs (l : List (Nat × Nat)) (s : State) : State :=
  { s with repairs := l,
           solving := if s.repairs.isEmpty && !l.isEmpty then (s.evs.find? fun e => e.st == 1).map (·.aseq) else s.solving }

/-- What a repair had planned is undone: its connections wait again. -/
def requeueRepairs (extra : List SUnit) (s : State) : State :=
  { setRepairs (waitingRepairs s extra) s with repairWaves := [] }

/-- What the journal as it stands lets a recovery rebuild. -/
def durable (s : State) : Saved :=
  ⟨s.evs, s.sess, s.finals, s.shown, s.plan, waitingRepairs s (armedRepairs s), s.regs.filter fun c => durableWord c.1⟩

def histPut (h : Cells Saved) (j : Nat) (v : Saved) : Cells Saved := cellSet (fun _ => Saved.empty) h j v

/-- After a RESET the state still waits for its replay (R383): RECOV.CAUSE is 0 until a recovery has run. -/
def awaitsReplay (s : State) : Bool := s.jnl.recovering && s.rd R.JNL_RECOV_CAUSE [] == 0

/-- Keep what the journal lets a recovery rebuild now, before it stops taking entries. -/
def saveHist (s : State) : State :=
  if awaitsReplay s || !jnlReady s then s
  else { s with jnl := { s.jnl with hist := histPut s.jnl.hist s.jnl.last (durable s) } }

/-- Write one entry to every copy that is not retired, as `ok` tells whether each copy verifies; a live copy that does
not is retired first (R379). -/
def writeEntry (okA okB : Bool) (e : Entry) (s : State) : State :=
  let s0 := if (okA || !copyLive s 0) && (okB || !copyLive s 1) then s else saveHist s
  let s1 := if copyLive s0 0 && !okA then retireCopy 0 s0 else s0
  let s2 := if copyLive s1 1 && !okB then retireCopy 1 s1 else s1
  let s3 := [0, 1].foldl (fun t c => if s2.rd R.JNL_COPY_STATE [c] = 1 then t else crcHit .jnl c t) s2
  if copyLive s3 0 || copyLive s3 1 then
    let j := s3.jnl.last + 1
    let e1 := { e with jseq := j, boot := s3.rd R.GLB_BOOT [], time := s3.time }
    let put (c : Nat) (l : Cells Entry) :=
      if s3.rd R.JNL_COPY_STATE [c] = 1 then l else cellSet (fun _ => Entry.blank) l (j % nSlots) e1
    let h := if awaitsReplay s3 then s3.jnl.hist else histPut s3.jnl.hist s3.jnl.last (durable s3)
    let s4 := { s3 with
      jnl := { s3.jnl with copyA := put 0 s3.jnl.copyA, copyB := put 1 s3.jnl.copyB, hist := h, last := j } }
    let s5 := (s4.wr R.JNL_JSEQ_LO [] j).wr R.JNL_JSEQ_HI [] (j / 2 ^ 32)
    if s5.flag R.JNL_CFG_EXP_EN [] then addRecord (s5.rd R.JNL_CFG_EXPQ []) 7 (entryBytes e1) s5 else s5
  else s3

/-- Cut a payload into entries of 92 bytes (R378). -/
def chunks : Nat → List Nat → List (List Nat)
  | 0, _ => []
  | n + 1, l => if l.length ≤ 92 then [l] else l.take 92 :: chunks n (l.drop 92)

/-- Entries of a record of given parts: single, or FIRST, CONT … LAST. -/
def partEntries (kind aseq session type seq : Nat) (cs : List (List Nat)) : List Entry :=
  let n := cs.length
  let mk (i : Nat) (c : List Nat) : Entry :=
    ⟨kind, if n = 1 then 0 else if i = 0 then 1 else if i + 1 = n then 3 else 2, n, 0, aseq, session, type, 0, seq, 0, c⟩
  (span 0 n).zipWith mk cs

/-- Entries of a record. -/
def recordEntries (kind aseq session type seq : Nat) (payload : List Nat) : List Entry :=
  partEntries kind aseq session type seq (chunks (payload.length + 1) payload)

/-- The request body of an event as journal bytes (R208). -/
def evBytes (r : EvReq) : List Nat :=
  [r.kind, b2n r.group * 128 + b2n r.spread * 64] ++ beBytes 2 r.count ++ beBytes 8 r.instant ++ beBytes 2 r.defer ++
    beBytes 2 r.deadline ++ beBytes 4 r.gid ++ beBytes 8 r.members ++ [0, 0, 0, 0] ++ (r.descs.map (beBytes 4)).flatten

/-- What a checkpoint records (R380): mode record, session table, live map, pending events, plan states, claims,
schedules, last ASEQ. -/
def checkpointBytes (s : State) : List Nat :=
  beBytes 4 (readN s 0x100010) ++ ((span 0 128).map fun i => beBytes 4 (readN s (0x300200 + 4 * i))).flatten ++
    ((span 0 1024).map fun i => beBytes 4 (readN s (0x710000 + 4 * i))).flatten ++
    (s.evs.map fun e => beBytes 4 e.aseq ++ [e.st] ++ beBytes 8 e.acceptJ).flatten ++
    ((span 0 64).map fun r => beBytes 4 (readN s (0x4402000 + 4 * r))).flatten ++
    ((span 0 32).map fun w => beBytes 4 (readN s (0x4405000 + 4 * w))).flatten ++
    ((span 0 8).map fun k => beBytes 4 (readN s (0x4404000 + 4 * k))).flatten ++ beBytes 4 s.jnl.aseq

/-- A pending event's ACCEPT record is written again before its slots can be overwritten (R380). -/
def carryOne (okA okB : Bool) (e : Ev) (s : State) : State :=
  if e.acceptJ + nSlots ≤ s.jnl.last + 3 * 4096 then
    let j := s.jnl.last + 1
    let s1 := (recordEntries 0x0E e.aseq e.session 0x05 e.sseq (evBytes e.req)).foldl
      (fun t x => writeEntry okA okB x t) s
    { s1 with evs := s1.evs.map fun x => if x.aseq = e.aseq then { x with acceptJ := j } else x }
  else s

/-- A checkpoint: it starts at a JSEQ that is a multiple of 4,096 (R380). -/
def checkpoint (okA okB : Bool) (s : State) : State :=
  let j := s.jnl.last + 1
  let s1 := (recordEntries 0x0D 0 0 0 0 (checkpointBytes s)).foldl (fun t x => writeEntry okA okB x t) s
  let s2 := { s1 with jnl := { s1.jnl with hist := cellDrop (fun k => !awaitsReplay s && decide (k + 1 < j)) s1.jnl.hist } }
  s2.evs.foldl (fun t e => carryOne okA okB e t) (s2.wr R.JNL_CKPT [] j)

/-- The checkpoint that is due before the next entry. -/
def dueCheckpoint (okA okB : Bool) (s : State) : State := if (s.jnl.last + 1) % 4096 = 0 then checkpoint okA okB s else s

/-- Append one entry, with the checkpoint that is due before it. -/
def appendEntry (okA okB : Bool) (e : Entry) (s : State) : State := writeEntry okA okB e (dueCheckpoint okA okB s)

/-- Commit entries (R379); nothing is written while no copy accepts them. -/
def commitEntries (okA okB : Bool) (l : List Entry) (s : State) : State :=
  if jnlReady s then l.foldl (fun t e => appendEntry okA okB e t) s else s

/-- Commit a record. -/
def commitV (okA okB : Bool) (kind aseq session type seq : Nat) (payload : List Nat) (s : State) : State :=
  commitEntries okA okB (recordEntries kind aseq session type seq payload) s

/-- Commit a record of an autonomous change; both copies verify it. -/
def commit (kind aseq session type seq : Nat) (payload : List Nat) (s : State) : State :=
  commitV true true kind aseq session type seq payload s

/-- The entry of a JSEQ, from a copy that is not retired. -/
def entryAt (s : State) (j : Nat) : Option Entry :=
  let look (l : Cells Entry) : Option Entry :=
    let e := cellGet (fun _ => Entry.blank) l (j % nSlots)
    if e.jseq = j ∧ j ≠ 0 then some e else none
  if copyLive s 0 then look s.jnl.copyA else if copyLive s 1 then look s.jnl.copyB else none

/-- The oldest JSEQ still held. -/
def oldestJ (s : State) : Nat := if s.jnl.last < nSlots then 1 else s.jnl.last + 1 - nSlots

/-- The FINAL entry of an event in the journal, if any: its payload is the completion body and CSEQ. -/
def findFinal (s : State) (p : Entry → Bool) : Option Entry :=
  let l := if copyLive s 0 then s.jnl.copyA else s.jnl.copyB
  (l.find? fun c => c.2.kind == 3 && p c.2).map (·.2)

/-! Messages the module originates. -/

def sessGet (s : State) (k : Nat) : Sess := cellGet (fun _ => Sess.closed) s.sess k
def sessPut (s : State) (k : Nat) (v : Sess) : State :=
  { s with sess := cellSet (fun _ => Sess.closed) s.sess k v }

/-- A session is open (JNL.SESS.OPEN). -/
def sessOpen (s : State) (k : Nat) : Bool := s.flag R.JNL_SESS_OPEN [k]

/-- Frame length of a KCP message with `n` body bytes in UDP over IPv4 or IPv6 (R363). -/
def msgLen (v6 : Bool) (n : Nat) : Nat := 14 + (if v6 then 40 else 20) + 8 + 16 + n + 16 + 4

/-- The header of a message that the module sends (R363). -/
def kcpHead (s : State) (type k : Nat) (dup trunc : Bool) (seq result reason index len : Nat) : List Nat :=
  [16, type, k, b2n dup * 128 + b2n trunc * 64] ++ beBytes 4 seq ++ beBytes 2 len ++ [s.rd R.GLB_MID_MID [], 0, result, reason] ++
    beBytes 2 index

/-- A message of a session: its TAG is formed under the session key while the session is open (R365). -/
def kcpMsg (s : State) (ends : Peer) (type k : Nat) (dup trunc : Bool) (seq result reason index : Nat) (body : List Nat) : FBody :=
  .kcp ends false (kcpHead s type k dup trunc seq result reason index body.length ++ body)
    (if k ≠ 0 ∧ sessOpen s k then some (sessGet s k).key else none)

/-- An answer leaves from queue 65,533 on the port of the answered copy, from the address it came to, to its source (R362, R364). -/
def sendAnswer (h : Hdr) (dup : Bool) (a : Ans) (s : State) : State :=
  enqueue 65533 h.port (msgLen h.peer.v6 a.body.length)
    (kcpMsg s h.peer a.type h.session dup a.trunc h.seq a.result a.reason a.index a.body) s

/-- PTP Timestamp format of a domain time in ns: 48-bit seconds, 32-bit nanoseconds. -/
def ptpBytes (t : Nat) : List Nat := beBytes 6 (t / 1000000000) ++ beBytes 4 (t % 1000000000)

/-- COMPLETION body (R373). -/
def complBytes (c : Compl) : List Nat :=
  [c.state, c.reason, c.flags, min 255 c.waves] ++ beBytes 4 c.sseq ++ beBytes 4 c.aseq ++ beBytes 2 c.nconn ++
    [c.dom, 0] ++ ptpBytes c.t0First ++ ptpBytes c.t0Last ++ beBytes 8 c.jseq

/-- A NOTIFY leaves for one session (R374), to the far end of its last OPEN (DESIGN CHOICE, log entry 126). -/
def sendNote (k kind : Nat) (params : List Nat) (s : State) : State :=
  let v := sessGet s k
  let s1 := sessPut s k { v with nseq := (v.nseq + 1) % 2 ^ 32 }
  let b := beBytes 2 kind ++ [0, 0] ++ params
  enqueue (s1.rd R.JNL_SESS_NQ [k]) 0 (msgLen v.peer.v6 b.length)
    (kcpMsg s1 v.peer 0xC1 k false false ((v.nseq + 1) % 2 ^ 32) 0 0 0 b) s1

/-- One NOTIFY to one session (R374). It is a KCP message that the MP forms, and KCP stops while the MP is down (R404): one that falls due then
is sent at the end of the recovery (DEDUCED, log entry 72). -/
def notifyTo (k kind : Nat) (params : List Nat) (s : State) : State :=
  if s.modes.mpDown then { s with notes := s.notes ++ [(k, kind, params)] } else sendNote k kind params s

/-- A NOTIFY to every open host session with the READ right (R374). -/
def notifyAll (kind : Nat) (params : List Nat) (s : State) : State :=
  (span 1 31).foldl (fun t k =>
    if sessOpen t k && bitN (t.rd R.JNL_SESS_RIGHTS [k]) 0 then notifyTo k kind params t else t) s

/-- A COMPLETION body leaves from the session's completion queue (R373), to the far end of its last OPEN (DESIGN CHOICE, log entry 126). -/
def sendBody (dup : Bool) (k cseq : Nat) (body : List Nat) (s : State) : State :=
  let v := sessGet s k
  enqueue (s.rd R.JNL_SESS_CQ [k]) 0 (msgLen v.peer.v6 44) (kcpMsg s v.peer 0xC0 k dup false cseq 0 0 0 body) s

def sendCompletion (dup : Bool) (c : Compl) (s : State) : State := sendBody dup c.session c.cseq (complBytes c) s

/-- Report a final state once: to the submitting session, held while it is closed or until the MP is back from its recovery
(R383 step 5); session 0 is reported by PLAN_DONE to
the sessions that asked for it (R218, R373, R374). -/
def reportCompletion (c : Compl) (s : State) : State :=
  if c.session = 0 then
    (span 1 31).foldl (fun t k =>
      if sessOpen t k && bitN (t.rd R.JNL_SESS_RIGHTS [k]) 0 && t.flag R.JNL_SESS_PLANOBS [k] then
        notifyTo k 0x0B (complBytes c) t else t) s
  else
    let v := sessGet s c.session
    if sessOpen s c.session && !s.modes.mpDown && !s.jnl.recovering then
      sendCompletion false c (sessPut s c.session { v with sent := c :: v.sent.take 1023 })
    else sessPut s c.session { v with waiting := v.waiting ++ [c] }

end Sys2Proof.Machine
end

