-- ==== Sys2Proof/Machine/EventOps.lean ====
section
/-! DEFINITION. Event records (09_events): the event table, states, final states and completions, claims of plans
(10_stored_plans R243, R244), and routes of the live and projected maps (08_connections). -/

namespace Sys2Proof.Machine

/-! Reason codes (R233) and event states (R215). -/

def rPortRestricted : Nat := 0x01
def rModeForbids : Nat := 0x02
def rTimePassed : Nat := 0x03
def rNoGuardWindow : Nat := 0x04
def rRipplePinned : Nat := 0x05
def rDomainUnlocked : Nat := 0x06
def rBudget : Nat := 0x07
def rJournalFull : Nat := 0x08
def rPortBusy : Nat := 0x09
def rSafetyLocked : Nat := 0x0A
def rElementFailed : Nat := 0x0B
def rResetDuring : Nat := 0x0C
def rGroupAbort : Nat := 0x0D
def rDeadline : Nat := 0x0E
def rSessionInvalid : Nat := 0x0F
def rMalformed : Nat := 0x10
def rNotPermitted : Nat := 0x11
def rSignature : Nat := 0x12
def rOverlayConflict : Nat := 0x13
def rPlanOverride : Nat := 0x14
def rEngineCapacity : Nat := 0x15
def rUnroutable : Nat := 0x16

def evAccepted : Nat := 1
def evSolved : Nat := 2
def evScheduled : Nat := 3
def evArmed : Nat := 4
def evDone : Nat := 5
def evFailed : Nat := 6
def evCancelled : Nat := 7
def evExpired : Nat := 8

/-! Routes. -/

/-- The live connection of an output port and its centre rows (R204). -/
def liveRoute (s : State) (n : Nat) : Option Route :=
  let d := s.rd R.RS_CONN_DESC [n]
  if dValid d then
    some ⟨d, s.flag R.RS_PATH_VALID [n, 0] && s.flag R.RS_PATH_VALID [n, 1], s.rd R.RS_PATH_CROW [n, 0],
      s.rd R.RS_PATH_CROW [n, 1]⟩
  else none

/-- A live connection has a path (it is not UNROUTED). -/
def routed (s : State) (n : Nat) : Bool := s.flag R.RS_PATH_VALID [n, 0] && s.flag R.RS_PATH_VALID [n, 1]

/-- The change of output `n` in a list of changes, if any; later changes win. -/
def chgFor (l : List Chg) (n : Nat) : Option Chg := l.reverse.find? fun c => c.out == n

/-- All changes of an event's solution. -/
def evChgs (e : Ev) : List Chg := (e.units.map (·.chgs)).flatten

/-- Changes of repairs under way: their waves armed, then those placed (R200). -/
def repairChgs (s : State) : List Chg :=
  ((s.armed.map fun w => ((w.units.filter fun u => u.1 == 0).map fun u => u.2.chgs).flatten).flatten) ++
    ((s.repairWaves.map fun w => (w.2.map (·.chgs)).flatten).flatten)

/-- Changes of the events that satisfy `p`. -/
def chgsOf (p : Ev → Bool) (s : State) : List Chg := ((s.evs.filter p).map evChgs).flatten

/-- Route of output `n` in the map that events accepted before `aseq`, and the repairs under way, will leave (R197, R200). -/
def projRoute (s : State) (aseq n : Nat) : Option Route :=
  let l := chgsOf (fun e => decide (e.aseq < aseq) && decide (evArmed ≤ e.st)) s ++ repairChgs s ++
    chgsOf (fun e => decide (e.aseq < aseq) && (e.st == evSolved || e.st == evScheduled)) s
  match chgFor l n with
  | some c => c.new
  | none => liveRoute s n

/-- Output that input `i` feeds in a map. -/
def outOfIn (f : Nat → Option Route) (i : Nat) : Option Nat :=
  (span 0 512).find? fun n => match f n with | some r => dIn r.desc == i | none => false

/-- Removals that descriptors imply (R190, R209): another output that the input of a named connection feeds. -/
def impliedOuts (f : Nat → Option Route) (l : List Nat) : List Nat :=
  l.filterMap fun d =>
    if dValid d then
      match outOfIn f (dIn d) with
      | some m => if l.any fun x => dOut x == m then none else some m
      | none => none
    else none

/-- Session-0 events of re-optimisation (R242). -/
def isReopt (e : Ev) : Bool := e.session == 0 && bitsN e.sseq 30 2 == 2

/-- Ports that descriptors name: inputs as 0–511, outputs as 512–1,023. -/
def portsOf (ds : List Nat) : List Nat :=
  (ds.map fun d => if dValid d then [dIn d, 512 + dOut d] else [512 + dOut d]).flatten

/-- Two events share a named port (R226). -/
def sharePort (a b : Ev) : Bool := (portsOf a.descs).any fun p => (portsOf b.descs).contains p

/-- A sticky bit of `RS.EVSTATUS` (R234). -/
def evStatus (bit : Nat) (s : State) : State := wrWord s 0x780000 (setBits (readN s 0x780000) bit 1 1)

/-! The event table (R234). -/

def evFind (s : State) (aseq : Nat) : Option Ev := s.evs.find? fun e => e.aseq == aseq

def evSet (e : Ev) (s : State) : State :=
  { s with evs := s.evs.map fun x => if x.aseq = e.aseq then e else x }

def evDrop (aseq : Nat) (s : State) : State := { s with evs := s.evs.filter fun e => e.aseq != aseq }

/-- PENDING and PEAK follow the number of events not final. -/
def showPending (s : State) : State :=
  let n := s.evs.length
  let s1 := s.wr R.RS_EVCOUNT_PENDING [] n
  if s1.rd R.RS_EVCOUNT_PEAK [] < n then s1.wr R.RS_EVCOUNT_PEAK [] n else s1

/-- Show an event in its table entry. -/
def showEv (e : Ev) (reason : Nat) (s : State) : State :=
  let w (F : Fld) (v : Nat) (t : State) : State := t.wr F [e.tab] v
  w R.RS_EVTAB_NCONN e.nconn (w R.RS_EVTAB_WAVES (min 255 e.started) (w R.RS_EVTAB_ASEQ e.aseq
    (w R.RS_EVTAB_SSEQ e.sseq (w R.RS_EVTAB_SESSION e.session (w R.RS_EVTAB_REASON reason
    (w R.RS_EVTAB_GROUP (b2n e.req.group) (w R.RS_EVTAB_PARTIAL (b2n e.part)
    (w R.RS_EVTAB_DEFERRED (b2n e.deferred) (w R.RS_EVTAB_LATE (b2n e.late) (w R.RS_EVTAB_STATE e.st s))))))))))

/-- The entry a new event takes: a free one, else the one with the oldest final state (R234). -/
def allocTab (s : State) : Nat × State :=
  match (span 0 1024).find? fun i => s.rd R.RS_EVTAB_STATE [i] == 0 with
  | some i => (i, s)
  | none =>
    match s.finals with
    | i :: t => (i, { s with finals := t, shown := cellErase s.shown i })
    | [] => (0, s)

/-- LATE, DEFERRED and PARTIAL as the flag byte of a completion (R373). -/
def evFlags (e : Ev) : Nat := b2n e.late * 4 + b2n e.deferred * 2 + b2n e.part

/-- A transition to a state that is not final: journaled, then shown (R216). -/
def evGoto (e : Ev) (s : State) : State :=
  showEv e 0 (evSet e (commit 0x02 e.aseq e.session 0x05 e.sseq [e.st, 0, evFlags e] s))

/-! Claims (R243, R244). -/

def planMap (s : State) (m : Nat) : Option PlanMap :=
  match s.image with
  | some im => (im.maps.find? fun x => x.1 == m).map (·.2)
  | none => none

def mapPorts (s : State) (m : Nat) : List Nat :=
  match planMap s m with
  | some x => portsOf x.descs
  | none => []

/-- Ports that a schedule's step maps name. -/
def schedPorts (s : State) (k : Nat) : List Nat :=
  ((span 0 (s.rd R.PLAN_SCHED_NSTEPS [k] + 1)).map fun i => mapPorts s (s.rd R.PLAN_SCHED_MAP [k, i])).flatten

/-- A port is claimed (PLAN.CLAIM). -/
def claimed (s : State) (port : Nat) : Bool := mapBit s 0x4405000 port

def claimPorts (l : List Nat) (v : Bool) (s : State) : State := l.foldl (fun t p => setMapBit t 0x4405000 p v) s

/-- Claims that others still hold: rules other than `r`, schedules other than `k`. -/
def otherClaims (s : State) (r k : Nat) : List Nat :=
  ((span 0 64).map fun x =>
    if x ≠ r ∧ s.flag R.PLAN_RCTL_CLAIMED [x] then mapPorts s (s.rd R.PLAN_RULE_ARG [x]) else []).flatten ++
  ((s.plan.claims.filter (· != k)).map (schedPorts s)).flatten

/-- Release a rule's claim. -/
def releaseRule (r : Nat) (s : State) : State :=
  if s.flag R.PLAN_RCTL_CLAIMED [r] then
    let s1 := claimPorts (mapPorts s (s.rd R.PLAN_RULE_ARG [r])) false (s.wr R.PLAN_RCTL_CLAIMED [r] 0)
    claimPorts (otherClaims s1 r 64) true s1
  else s

/-- Release a schedule's claim once it is stopped and its last step event is final (R243). -/
def releaseSched (k : Nat) (s : State) : State :=
  if s.plan.claims.contains k && !s.flag R.PLAN_SCTL_RUN [k] && cellGet (fun _ => 0) s.plan.stepsOut k == 0 then
    let s1 := { s with plan := { s.plan with claims := s.plan.claims.filter (· != k) } }
    claimPorts (otherClaims s1 64 k) true (claimPorts (schedPorts s k) false s1)
  else s

/-- A schedule stops: no further step is submitted; journaled (R248, R249). `fault` marks a stop on a failure or a lost
domain. -/
def stopSched (k : Nat) (fault : Bool) (s : State) : State :=
  if s.flag R.PLAN_SCTL_RUN [k] then
    let s1 := s.wr R.PLAN_SCTL_RUN [k] 0
    let s2 := commit 0x0B 0 0 0 0 [2, k, 0] s1
    releaseSched k (if fault then raise0 .plan 4 s2 else s2)
  else s

/-- STEP and CYCLES of a schedule move when its step's event is DONE; `i` counts its steps from the start (table of PLAN.SCTL, 10_stored_plans.md). -/
def showStep (k i : Nat) (s : State) : State :=
  let n := s.rd R.PLAN_SCHED_NSTEPS [k] + 1
  (s.wr R.PLAN_SCTL_STEP [k] (i % n)).wr R.PLAN_SCTL_CYCLES [k] (min 16777215 (i / n))

/-- What a final state means to the plan that submitted the event (R243, R248): a step that is DONE is in effect. -/
def planFinal (e : Ev) (st : Nat) (s : State) : State :=
  if e.session = 0 ∧ bitsN e.sseq 30 2 = 1 then
    let k := bitsN e.sseq 24 6
    let s0 := { s with plan := { s.plan with stepsOut := cellUpd (fun _ => 0) s.plan.stepsOut k (· - 1),
                                             stepEvs := cellErase s.plan.stepEvs e.aseq } }
    let s1 := if st = evDone then showStep k (cellGet (fun _ => 0) s.plan.stepEvs e.aseq) s0 else s0
    releaseSched k (if (st = evFailed ∨ st = evExpired) ∧ s1.flag R.PLAN_SCHED_STOP_ON_FAIL [k] then stopSched k true s1 else s1)
  else s

/-! Moves of a set of changes. -/

/-- Elements of a connection's path in both planes, with their states. -/
def routeElems (r : Route) : List (Nat × Nat) :=
  if r.routed then pathElems 0 (dIn r.desc) (dOut r.desc) r.rowX ++ pathElems 1 (dIn r.desc) (dOut r.desc) r.rowY else []

/-- State that a list of (element, state) gives an element; PARK when it is not listed. -/
def stateIn (l : List (Nat × Nat)) (e : Nat) : Nat := ((l.find? fun p => p.1 == e).map (·.2)).getD 0

def optElems (r : Option Route) : List (Nat × Nat) := match r with | some x => routeElems x | none => []

/-- Element transitions of a set of changes (R80, R190): every element whose state changes, with its new state. -/
def movesOf (l : List Chg) : List (Nat × Nat) :=
  let olds := (l.map fun c => optElems c.old).flatten
  let news := (l.map fun c => optElems c.new).flatten
  (news.filter fun p => stateIn olds p.1 != p.2) ++
    ((olds.filter fun p => !(news.any fun q => q.1 == p.1)).map fun p => (p.1, 0))

/-- Number of transitions of a unit. -/
def unitSize (u : SUnit) : Nat := (movesOf u.chgs).length

/-- All changes of a wave's units. -/
def waveChgs (l : List (Nat × SUnit)) : List Chg := (l.map fun u => u.2.chgs).flatten

/-! Final states (R217, R218, R224). -/

/-- An armed wave without the units of one event: its records, kicks and VOA codes go with them (R134, R224). -/
def withoutUnits (aseq : Nat) (w : Wave) : Wave :=
  let units := w.units.filter fun u => u.1 != aseq
  if units.length = w.units.length then w
  else
    let chgs := waveChgs units
    let moves := movesOf chgs
    { w with units := units, moves := w.moves.filter fun m => moves.any fun p => p.1 == m.elem,
             voas := w.voas.filter fun v => chgs.any fun c => v.1 == voaLoop 0 c.out || v.1 == voaLoop 1 c.out }

/-- Waves not yet started are discarded: the event's units leave the armed waves (R134, R224). -/
def discardWaves (aseq : Nat) (s : State) : State :=
  { s with armed := (s.armed.map (withoutUnits aseq)).filter fun w => !w.units.isEmpty }

/-- Outputs of an event's started waves as the live map has them, as descriptors; a removed one as a removal (R224). -/
def inEffect (e : Ev) (s : State) : List Nat :=
  let chgs := ((e.waves.take e.started).map fun w => (w.2.2.map (·.chgs)).flatten).flatten
  (chgs.map fun c =>
    let d := s.rd R.RS_CONN_DESC [c.out]
    beBytes 4 (if dValid d then d else c.out)).flatten

/-- Events solved against a projection that included this one are solved again (R197). -/
def resolveLater (aseq : Nat) (s : State) : State :=
  (s.evs.filter fun e => decide (aseq < e.aseq) && (e.st == evSolved || e.st == evScheduled)).foldl
    (fun t e => evGoto { e with st := evAccepted, units := [], waves := [] } t) s

/-- The FINAL entry of a completion is committed, with its own JSEQ in the body (R373, R466), and a PARTIAL entry after it (R224); the
event table keeps the completion with its entry `tab`. -/
def commitFinal (tab : Nat) (c : Compl) (part : List Nat) (s : State) : Compl × State :=
  let s1 := dueCheckpoint true true s
  let c1 := { c with jseq := s1.jnl.last + 1 }
  let s2 := commit 0x03 c.aseq c.session 0x05 c.sseq (complBytes c1 ++ beBytes 4 c.cseq) s1
  let s3 := if part.isEmpty then s2 else commit 0x0C c.aseq 0 0 0 part s2
  (c1, { s3 with shown := cellSet (fun _ => Compl.none) s3.shown tab c1 })

/-- An event in its final state `e.st` leaves the pending ones; its record in the event table stays (R234). -/
def closeEv (e : Ev) (reason : Nat) (s : State) : State :=
  let s1 := if e.part then evStatus 5 s else s
  let s2 := if e.st = evExpired then evStatus 2 s1 else s1
  let s3 := showPending (evDrop e.aseq (discardWaves e.aseq (showEv e reason s2)))
  { s3 with finals := s3.finals ++ [e.tab] }

/-- A FINAL entry that no copy can take yet waits (R382). -/
def oweFinal (x : Nat × Compl × List Nat) (s : State) : State := { s with jnl := { s.jnl with owed := s.jnl.owed ++ [x] } }

/-- An event reaches a final state: journaled with its completion body and CSEQ, shown, and reported exactly once
(R217, R218). While no copy takes entries, the entry and the report wait (R382, R466). -/
def finish (e : Ev) (st reason : Nat) (s : State) : State :=
  let pt := e.part || (decide (0 < e.started) && (st == evFailed || st == evExpired))
  let e1 := { e with st := st, part := pt }
  let s1 := if e.session = 0 then s else s.inc R.JNL_SESS_CSEQ [e.session]
  let c : Compl := ⟨e.session, s1.rd R.JNL_SESS_CSEQ [e.session], s.time, st, reason, evFlags e1, e.started, e.sseq,
    e.aseq, e.nconn, e.dom, e.t0First, e.t0Last, 0⟩
  let part := if e1.part then inEffect e s1 else []
  planFinal e st (if jnlReady s1 then
      let r := commitFinal e.tab c part s1
      reportCompletion r.1 (closeEv e1 reason r.2)
    else oweFinal (e.tab, c, part) (closeEv e1 reason s1))

/-- FINAL entries that waited are committed once a copy takes them, and their completions are sent (R382, R466). -/
def flushOwed (s : State) : State :=
  if !jnlReady s then s
  else s.jnl.owed.foldl (fun t x =>
    let r := commitFinal x.1 x.2.1 x.2.2 t
    reportCompletion r.1 r.2) { s with jnl := { s.jnl with owed := [] } }

/-- An event reaches a final state; unless it is DONE, events solved against it are solved again (R197). -/
def finalise (e : Ev) (st reason : Nat) (s : State) : State :=
  let s1 := finish e st reason s
  if st = evDone then s1 else resolveLater e.aseq s1

/-- Fail every pending event that satisfies `p`. All of them have one cause: a failure goes before the return of another to
ACCEPTED (R216). -/
def failWhere (p : Ev → Bool) (reason : Nat) (s : State) : State :=
  match s.evs.filter p with
  | [] => s
  | e :: l =>
    let s1 := (e :: l).foldl (fun t e => match evFind t e.aseq with
      | some x => finish x evFailed reason t
      | none => t) s
    resolveLater ((l.map (·.aseq)).foldl min e.aseq) s1

/-- A claim begins: pending host events that name a claimed port and are not armed fail with PLAN_OVERRIDE (R244). -/
def displace (ports : List Nat) (s : State) : State :=
  let hit (e : Ev) : Bool := e.session != 0 && decide (e.st < evArmed) && (portsOf e.descs).any ports.contains
  if s.evs.any hit then failWhere hit rPlanOverride (raise0 .plan 3 s) else s

end Sys2Proof.Machine
end

