-- ==== Sys2Proof/Machine/Drive.lean ====
section
/-! DEFINITION. Element drives (03_element_drive): heater DAC ranges, slew limiter, kick tables, hold ramp, clears,
read-back registers. -/

namespace Sys2Proof.Machine

def drvGet (s : State) (e : Nat) : Drv := cellGet (fun _ => Drv.idle) s.drv e
def bankGet (s : State) (k : Nat) : BankSt := cellGet (fun _ => BankSt.cold) s.banks k
def bankPut (s : State) (k : Nat) (v : BankSt) : State :=
  { s with banks := cellSet (fun _ => BankSt.cold) s.banks k v }

/-- DAC code of a heater command in its range (R55). The spec bounds only HSTEP by the overlap (R58): an RSTEP that takes the
output from HI to a step below DN while U is above 65,535 leaves LO with the DAC at full scale (DESIGN CHOICE, log entry
81). -/
def heaterCode (d : Drv) : Nat := if d.hi then min 65535 ((d.out + 1) / 2) else min 65535 d.out

/-- The hold code before the clamp of R61. -/
def holdRaw (d : Drv) : Int := if d.phase < 2 then 0 else ((d.acc / 16384 : Nat) : Int) + d.dh

/-- The hold code that the next slew tick applies (R61, R62). -/
def holdCode (d : Drv) : Nat := (clampI 0 102 (holdRaw d)).toNat

/-- Bits 29:0 of word 0 of `EDA.RB`: range, segment, applied hold code and heater code. -/
def latchWord (d : Drv) : Nat := b2n d.hi * 2 ^ 29 + b2n d.seg * 2 ^ 28 + d.hold * 2 ^ 16 + heaterCode d

/-- `EDA.RB` address of an element (R82). -/
def rbAddr (e : Nat) : Nat := 0x2040000 + 0x100000 * bankOf e + 8 * localIx e

/-- Word 0 of `EDA.RB` of a drive. -/
def rbWord (d : Drv) : Nat := d.st * 2 ^ 30 + latchWord d

/-- Store a drive and show it in `EDA.RB`, which keeps what the read-back round found (R82) while the drive stands; an index
above the last element names no drive. -/
def drvPut (s : State) (e : Nat) (d : Drv) : State :=
  if e < nElem then
    let s1 := { s with drv := cellSet (fun _ => Drv.idle) s.drv e d }
    let s2 := if rbWord d = rbWord (drvGet s e) then s1 else wrWord s1 (rbAddr e) (rbWord d)
    wrWord s2 (rbAddr e + 4) (setBits (readN s2 (rbAddr e + 4)) 30 2 (b2n d.frz * 2 + b2n d.ho))
  else s

/-- Configured clear code: PCODE once the bank's table is loaded, else hardware clear code 0 (R72, R77). -/
def clearCode (s : State) (e : Nat) : Nat :=
  if (bankGet s (bankOf e)).loaded then s.rd R.EDA_ECFG_PCODE [bankOf e, localIx e] else 0

/-- A cleared drive, range set by R59. -/
def clearedDrv (s : State) (e : Nat) : Drv :=
  let c := clearCode s e
  { Drv.idle with out := c, cmd := c, hi := decide (s.rd R.EDA_RANGE_THR_UP [bankOf e] < c) }

/-- Clear one element (R72, R73). -/
def clearElem (s : State) (e : Nat) : State := drvPut s e (clearedDrv s e)

/-- A clear source of the bank is active, or the bank is cold or not yet assigned again (R72, R74). -/
def clrActive (s : State) (k : Nat) : Bool := readN s (0x2000110 + 0x100000 * k) % 32 != 0 || (bankGet s k).unassigned

/-- Elements of bank `k` whose drive or clear code may differ from 0. -/
def bankElems (s : State) (k : Nat) : List Nat :=
  let lo := 0x2020000 + 0x100000 * k
  let cfg := (s.regs.filter fun c => decide (lo ≤ c.1) && decide (c.1 < lo + 8704)).map fun c =>
    elemOfLocal k ((c.1 - lo) / 4)
  let drv := (s.drv.filter fun c => bankOf c.1 == k && !cfg.contains c.1).map (·.1)
  cfg ++ drv

/-- Clear every element of a bank in one update. -/
def clearBank (k : Nat) (s : State) : State := (bankElems s k).foldl clearElem s

/-- Element declared failed (R83). -/
def elemFailed (s : State) (e : Nat) : Bool := s.flag R.EDA_RB_FAIL [bankOf e, localIx e]

/-- Phase C2 of a calibration run keeps every element parked at its clear code (R254). -/
def calParks (s : State) : Bool := s.rd R.CAL_RUN_PHASE [] == 2

/-- An element cannot be moved: bank off, clear source active, declared failed, or parked by the CAL (R74, R83, R135, R254). -/
def drvHeld (s : State) (e : Nat) : Bool :=
  !islOn s (12 + bankOf e) || clrActive s (bankOf e) || elemFailed s e || calParks s

/-! Slew limiter and ramp (R57, R62, R63). -/

/-- One tick of the limiter: a range change makes no step. -/
def slewStep (up dn step : Nat) (d : Drv) : Drv :=
  let nxt : Int := (d.out : Int) + clampI (-(step : Int)) step ((d.cmd : Int) - d.out)
  if !d.hi && decide ((up : Int) < nxt) then { d with hi := true }
  else if d.hi && decide (nxt < (dn : Int)) then { d with hi := false }
  else { d with out := nxt.toNat, rstep := d.rstep && decide (nxt ≠ (d.cmd : Int)) }

/-- One tick of the ramp; between waveforms the tick applies the hold code (R60). -/
def rampStep (d : Drv) : Drv :=
  let d1 := if d.phase = 3 ∧ !d.frz then { d with acc := d.acc - d.dec } else d
  { d1 with hold := holdCode d1 }

/-- One tick of one element. -/
def tickElem (s : State) (e : Nat) : State :=
  if drvHeld s e then s
  else
    let k := bankOf e
    let d := drvGet s e
    let step := if d.rstep then s.rd R.EDA_SLEW_RSTEP [k] else s.rd R.EDA_SLEW_HSTEP [k]
    let d1 := rampStep (slewStep (s.rd R.EDA_RANGE_THR_UP [k]) (s.rd R.EDA_RANGE_THR_DN [k]) step d)
    let s1 := drvPut s e d1
    if 102 < holdRaw d1 then raise (.eda k) 3 (Cause.at (rbAddr e)) s1 else s1

/-- SLEW_TICK (R63): one 125 ns tick of a bank. -/
def execSlewTick (bank : Nat) (s : State) : Host.Outcome State Fault Refusal :=
  .next (if bank < 16 ∧ islOn s (12 + bank) then
      ((s.drv.filter fun c => bankOf c.1 == bank).map (·.1)).foldl tickElem s
    else s)

/-! Commands of a loop (R64, R85). -/

/-- A loop's command: discarded while the element is held; the first one after a clear slews at RSTEP to the element's
state of the live map (R75); it ends a freeze. -/
def driveCmd (e u : Nat) (dh : Int) (tstate : Nat) (s : State) : State :=
  if drvHeld s e then s
  else
    let d := drvGet s e
    drvPut s e { d with cmd := u, dh := if d.ho then dh else 0, frz := false, fresh := false,
                        rstep := d.rstep || d.fresh, st := if d.fresh then tstate else d.st }

/-- The drive has taken a command since its last clear (R75), and the applied heater command equals it. -/
def drvSettled (s : State) (e : Nat) : Bool := !(drvGet s e).fresh && (drvGet s e).out == (drvGet s e).cmd

/-! Kicks (R65 to R71). -/

/-- Heater code of a calibrated state (R45, R256). -/
def calCode (s : State) (e st : Nat) : Nat :=
  if st = stS then s.rd R.CAL_EREC_UMOD_S [e] else if st = stT then s.rd R.CAL_EREC_UMOD_T [e]
  else s.rd R.EDA_ECFG_PCODE [bankOf e, localIx e]

/-- Magnitude of the change of heater phase in units of π / 8, rounded, at most 8 (R65); φ is proportional to U² and
KPI is the change of U² that gives π. Where no record gives KPI the class of a change is open. -/
def kickClass (s : State) (e oldSt newSt : Nat) : Nat :=
  let a := calCode s e oldSt
  let b := calCode s e newSt
  let d := if a ≤ b then b * b - a * a else a * a - b * b
  let pi := s.rd R.CAL_EREC_KPI [e] * 65536
  if d = 0 then 0 else if pi = 0 then Config.openClass d % 9 else min 8 ((d * 16 + pi) / (2 * pi))

/-- The move lowers the phase: segment N. -/
def kickNeg (s : State) (e oldSt newSt : Nat) : Bool := decide (calCode s e newSt < calCode s e oldSt)

/-- Band of an island (18_power). -/
def bandOf (s : State) (i : Nat) : Nat := s.rd R.THM_ISL_BAND [i]

/-- Kick-table entry of a move in a band (R65). -/
def kickEntry (band : Nat) (neg : Bool) (cls : Nat) : Nat := band * 16 + b2n neg * 8 + (cls - 1)

/-- A code scaled by a KSCALE (R66). -/
def scaledBy (scale code : Nat) : Nat := min 1023 ((code * scale + 64) / 128)

/-- A code scaled by the element's KSCALE. -/
def scaled (s : State) (e code : Nat) : Nat := scaledBy (s.rd R.EDA_ECFG_KSCALE [bankOf e, localIx e]) code

/-- Scaled charge of an entry, in units of 19.531 fC (R80). -/
def scaledCharge (s : State) (e j : Nat) : Nat :=
  (s.rd R.EDA_KTAB_CHARGE [bankOf e, j] * s.rd R.EDA_ECFG_KSCALE [bankOf e, localIx e] + 64) / 128

/-- Scaled H0 before the clamp of R61. -/
def kickH0 (s : State) (e j : Nat) : Nat := scaled s e (s.rd R.EDA_KTAB_HOLD0 [bankOf e, j])

/-- T_HO of a band in µs. -/
def handoverUs (s : State) (k band : Nat) : Nat :=
  if band = 0 then s.rd R.EDA_HO_TIME_B0 [k] else if band = 1 then s.rd R.EDA_HO_TIME_B1 [k]
  else if band = 2 then s.rd R.EDA_HO_TIME_B2 [k] else s.rd R.EDA_HO_TIME_B3 [k]

/-- Decrement of the ramp: ceil(H0 × 16,384 / n), n = T_HO / 125 ns (R62). -/
def rampDec (h0 us : Nat) : Nat := (h0 * 16384 + us * 8 - 1) / (us * 8)

/-- A latched heater command at T0 without a kick (R65, R71): hold, ramp and freeze run on; a slew that a clear release left at
RSTEP stays there (R63). -/
def heaterMove (m : EMove) (d : Drv) : Drv :=
  { d with cmd := m.u, st := m.st, fresh := false, rstep := d.rstep || d.fresh }

/-- The kick-table entry that a latched move plays: its sign and class with the band at the kick start (R67). -/
def startEntry (s : State) (m : EMove) : Nat := bandOf s (12 + bankOf m.elem) * 16 + m.ent % 16

/-- The decrement of its ramp, by the T_HO of the band at the kick start (R62, R67, R87). -/
def startDec (s : State) (m : EMove) : Nat :=
  rampDec (min 102 m.h0) (handoverUs s (bankOf m.elem) (bandOf s (12 + bankOf m.elem)))

/-- A latched kick at T0 with its entry and decrement (R69): the hold on the other segment is dropped, the waveform starts. A freeze ends
only at the loop's command (R85). -/
def kickMove (t0 ent dec : Nat) (m : EMove) (d : Drv) : Drv :=
  { d with cmd := m.u, st := m.st, seg := m.seg, phase := 1, ent := ent, scale := m.scale, h0 := m.h0, acc := 0,
           dec := dec, hold := 0, dh := 0, ho := true, fresh := false, rstep := false, t0 := t0 }

/-- Start the move of one element at T0 as its bank latched it when the wave was armed, the band apart (R65, R67, R69, R71; log entry
37). The Bool tells
whether the element could be moved; a table error names its `EDA.RB` entry. -/
def kickStart (m : EMove) (s : State) : Bool × State :=
  let e := m.elem
  let k := bankOf e
  if drvHeld s e then (false, s)
  else if !m.kick then (true, drvPut s e (heaterMove m (drvGet s e)))
  else
    let cfg := injParity (.eda k) 0 s
    let hit := injParity (.eda k) 1 cfg.2
    if cfg.1 ≠ 0 then (false, raise (.eda k) 6 ⟨rbAddr e, 0xFF, 0, 3, 0, true⟩ hit.2)
    else if hit.1 ≠ 0 then (false, raise (.eda k) 6 ⟨rbAddr e, 0xFF, 3, 3, 0, true⟩ hit.2)
    else if s.flag R.EDA_KTAB_VALID [k, startEntry s m] then
      (true, drvPut hit.2 e (kickMove s.time (startEntry s m) (startDec s m) m (drvGet s e)))
    else (false, raise (.eda k) 6 (Cause.at (rbAddr e)) hit.2)

/-- Sample `i` of a kick-table entry. -/
def kickSample (s : State) (k j i : Nat) : Nat :=
  if i % 2 = 0 then s.rd R.EDA_KTAB_SAMPLE_E [k, j, i / 2] else s.rd R.EDA_KTAB_SAMPLE_O [k, j, i / 2]

/-- The code that an element's kick DAC drives now (R60): sample by sample, once per nanosecond, while the waveform plays, then
the hold code applied last. -/
def kickCode (s : State) (e : Nat) : Nat :=
  let d := drvGet s e
  if d.phase = 1 then scaledBy d.scale (kickSample s (bankOf e) d.ent (min 63 (s.time - d.t0))) else d.hold

/-- KICK_WAVEFORM_END (R62): the accumulator is loaded with H0 × 16,384, H0 clamped to 102 (R61), and the DAC holds H0. -/
def execKickWaveformEnd (elem : Nat) (s : State) : Host.Outcome State Fault Refusal :=
  .next (
    let d := drvGet s elem
    if d.phase = 1 ∧ elem < nElem then
      let h := min 102 d.h0
      let s1 := drvPut s elem { d with phase := 2, h0 := h, acc := h * 16384, hold := h }
      if 102 < d.h0 then raise (.eda (bankOf elem)) 3 (Cause.at (rbAddr elem)) s1 else s1
    else s)

/-- RAMP_START (R69): at T0 + 2 µs the ramp starts. -/
def execRampStart (elem : Nat) (s : State) : Host.Outcome State Fault Refusal :=
  .next (
    let d := drvGet s elem
    if d.phase = 2 ∧ elem < nElem then drvPut s elem { d with phase := 3 } else s)

/-- HANDOVER_END (R69): the ramp is at zero; ΔH is forced to 0, the segment released and HO cleared. -/
def execHandoverEnd (elem : Nat) (s : State) : Host.Outcome State Fault Refusal :=
  .next (
    let d := drvGet s elem
    if d.phase = 3 ∧ d.acc = 0 ∧ elem < nElem then
      drvPut s elem { d with phase := 0, dec := 0, h0 := 0, hold := 0, dh := 0, ho := false, seg := false }
    else s)

/-- DRIVE_FREEZE (R85): 64 µs without a command from the element's loop. -/
def execDriveFreeze (elem : Nat) (s : State) : Host.Outcome State Fault Refusal :=
  .next (if elem < nElem ∧ !drvHeld s elem then drvPut s elem { drvGet s elem with frz := true } else s)

/-! Clear sources (R72 to R79). -/

/-- Assert a source bit of `EDA.CLR`: each powered bank goes to its clear codes, and a bank that starts later meets it
(R72). -/
def clrSet (bit : Nat) (s0 : State) : State :=
  let s := { s0 with modes := { s0.modes with clr := setBits s0.modes.clr bit 1 1 } }
  (span 0 16).foldl (fun t k =>
    if islOn t (12 + k) then
      clearBank k (wrWord t (0x2000110 + 0x100000 * k) (setBits (readN t (0x2000110 + 0x100000 * k)) bit 1 1))
    else t) s

/-- Release a source bit of `EDA.CLR` in every bank: the drives stay until their loops command them (R75). -/
def clrRelease (bit : Nat) (s0 : State) : State :=
  let s := { s0 with modes := { s0.modes with clr := setBits s0.modes.clr bit 1 0 } }
  (span 0 16).foldl (fun t k =>
    if islOn t (12 + k) then
      wrWord t (0x2000110 + 0x100000 * k) (setBits (readN t (0x2000110 + 0x100000 * k)) bit 1 0)
    else t) s

/-- ELEM_CLR_N_ASSERT (R73): every element goes to its clear code; the loops follow at their updates (R129). -/
def execElemClrNAssert (s : State) : Host.Outcome State Fault Refusal := .next (clrSet 3 s)

/-- ELEM_CLR_N_RELEASE (R75). -/
def execElemClrNRelease (s : State) : Host.Outcome State Fault Refusal := .next (clrRelease 3 s)

/-- A bank leaves hardware clear code 0 for its configured clear codes in one update (R78, R79). -/
def parkCold (k : Nat) (s : State) : State :=
  wrWord (clearBank k s) (0x2000110 + 0x100000 * k) (setBits (readN s (0x2000110 + 0x100000 * k)) 0 1 0)

/-- Parking in DARK (R78): the MP sets `EDA.CLR.PARK` in every bank. -/
def parkAll (s : State) : State :=
  (span 0 16).foldl (fun t k => if islOn t (12 + k) then parkCold k t else t) (clrSet 4 s)

/-- BANK_SELF_PARK (R79): a bank restarted from cold, its table restored, parks itself. -/
def execBankSelfPark (s : State) : Host.Outcome State Fault Refusal :=
  .next ((span 0 16).foldl (fun t k =>
    let b := bankGet t k
    if b.selfPark && b.loaded && islOn t (12 + k) then parkCold k (bankPut t k { b with selfPark := false })
    else t) s)

end Sys2Proof.Machine
end

