-- ==== Sys2Proof/Machine/Hooks.lean ====
section
/-! DEFINITION. What a change of a configuration field sets going in the engines, the light-loss detectors and the set-point
inputs, whoever makes it: a KCP write, an overlay, an image (R31, R106, R116, R152). -/

namespace Sys2Proof.Machine

/-! Engines, clusters and owners (R111, R113 to R116, R137 to R139). -/

def engLive (s : State) (e : Nat) : Bool := bitN (s.rd R.CE_CLSTAT_LIVE []) e

/-- Live engines of a cluster. -/
def liveOf (s : State) (c : Nat) : Nat := ((span (8 * c) 8).filter (engLive s)).length

/-- Home cluster of a loop (R111). -/
def homeOf (n : Nat) : Nat := if n < 34816 then bankOf n % 4 else (n - 34816) % 512 / 128

/-- Clusters that serve loops. -/
def survivors (s : State) : List Nat := (span 0 4).filter fun c => !s.away.contains c

/-- Owner of a loop: its home cluster, or survivor number n mod S (R137). -/
def ownerOf (s : State) (n : Nat) : Option Nat :=
  let h := homeOf n
  if !s.away.contains h then some h
  else
    let l := survivors s
    if l.isEmpty then none else l[n % l.length]?

/-- An armed wave moves the element of a loop. -/
def movesSoon (s : State) (n : Nat) : Bool := s.armed.any fun w => w.moves.any fun m => m.elem == n

/-- Rate code of a loop's class at a shedding level (R114, R116); the loop of an element that an armed wave moves runs at least at
the lit rate (R131, R134). -/
def rateAt (s : State) (lev n : Nat) : Nat :=
  if 34816 ≤ n then (if 2 ≤ lev then max 2 (s.rd R.CE_RATECFG_VOA []) else s.rd R.CE_RATECFG_VOA [])
  else
    let lit := if 18 ≤ lev + bankOf n then max 1 (s.rd R.CE_RATECFG_LIT []) else s.rd R.CE_RATECFG_LIT []
    if s.rd R.LT_LOOP_TSTATE [n] = 0 then
      let dark := if 1 ≤ lev then 3 else s.rd R.CE_RATECFG_DARK []
      if movesSoon s n then min dark lit else dark
    else lit

/-- Loops that are not OFF. -/
def runningLoops (s : State) : List Nat :=
  (s.regs.filter fun c => decide (0x1000000 ≤ c.1) && decide (c.1 < 0x1800000) && c.1 % 64 == 0 &&
    c.2.toNat / 2 ^ 30 != 0).map fun c => (c.1 - 0x1000000) / 64

/-- First tick (125 ns) of a loop's boundaries in 16 µs, and their spacing. -/
def tickOf (n rate : Nat) : Nat × Nat :=
  let o := if n < 34816 then bankOf n else if (n - 34816) % 512 < 256 then 0 else 8
  (o + 16 * (n % 2 ^ rate), 16 * 2 ^ rate)

/-- A loop at a rate has a boundary in the 8 ticks from `t`. -/
def inSlot (n rate t : Nat) : Bool :=
  let k := tickOf n rate
  (span 0 8).any fun i => (t + i + 128 - k.1 % k.2) % k.2 == 0

/-- Highest slot load that loops `l` put on a cluster over any 1 µs (R113), for rates given by `f`. -/
def peakLoad (s : State) (c : Nat) (l : List Nat) (f : Nat → Nat) : Nat :=
  let own := l.filter fun n => ownerOf s n == some c
  ((span 0 128).map fun t => (own.filter fun n => inSlot n (f n) t).length).foldl max 0

/-- Highest number of updates of a cluster over any 1 µs of the last 16 µs period (R113, R141). -/
def peakSeen (s : State) (c : Nat) : Nat :=
  let k := s.time / 16000
  let l := ((s.updates.filter fun u => u.1 == c).map (·.2))
  if k = 0 then 0
  else ((span (128 * (k - 1)) 121).map fun x => (l.filter fun t => decide (x ≤ t) && decide (t < x + 8)).length).foldl max 0

/-- An update is counted at its sample boundary. -/
def noteUpdate (c tick : Nat) (s : State) : State :=
  { s with updates := (s.updates.filter fun u => decide (128 * (s.time / 16000 - 1) ≤ u.2)) ++ [(c, tick)] }

/-- Every serving cluster meets R113 with loops `l`. -/
def loadOk (s : State) (l : List Nat) (f : Nat → Nat) : Bool :=
  (survivors s).all fun c => decide (peakLoad s c l f ≤ 750 * liveOf s c)

/-- Every engine is live and every cluster serves: no setting of `CE.RATECFG` exceeds the capacity (R114). -/
def fullPower (s : State) : Bool := s.rd R.CE_CLSTAT_LIVE [] == 2 ^ 32 - 1 && s.away.isEmpty

/-- The lowest shedding level that meets R113, else the highest. -/
def shedLevel (s : State) : Nat → Nat → Nat
  | 0, lev => lev
  | k + 1, lev => if loadOk s (runningLoops s) (rateAt s lev) then lev else shedLevel s k (lev + 1)

/-- Load shedding is decided anew (R116), whenever engines, rates, targets or the loops that run change. -/
def reshed (s : State) : State :=
  let lev := if fullPower s then 0 else shedLevel s 18 0
  let s1 := { s with shed := lev }
  if s.shed < lev then raise0 .ce 3 s1 else s1

/-! Light-loss detectors (R105, R106). -/

def lightGet (s : State) (k : Nat) : Nat := cellGet (fun _ => 0) s.light k
def lightPut (k v : Nat) (s : State) : State := { s with light := cellSet (fun _ => 0) s.light k v }

/-- Light-loss counts of a detector start again (R106). -/
def losRestart (k : Nat) (s : State) : State := lightPut (k + 1024) 0 (lightPut k 0 s)

/-! Set-point inputs (R151, R152): invalid and valid measurements in a row, and the last valid value since the mode was
set. -/

def setptGet (s : State) (k : Nat) : Nat × Nat × Option Nat := cellGet (fun _ => (0, 0, none)) s.setpt k
def setptPut (s : State) (k : Nat) (v : Nat × Nat × Option Nat) : State :=
  { s with setpt := cellSet (fun _ => (0, 0, none)) s.setpt k v }

/-- Levels word, FB and LOSACT that an input uses: its latest measurement's. An input that is OFF makes none and takes the register's. -/
def setptHeld (s : State) (k : Nat) : Nat × Nat × Bool :=
  if s.rd R.PORT_SETPT_MODE [k] = 0 then
    (readN s (0x3803004 + 16 * k), s.rd R.PORT_SETPT_FB [k], s.flag R.PORT_SETPT_LOSACT [k])
  else cellGet (fun _ => (0x0FA00000, 0, false)) s.spLev k

/-- The value in use: FB while OFF, before the first valid value, and in LOS with FALLBACK; else the last valid value. -/
def setptUse (s : State) (k : Nat) : Nat :=
  let h := setptHeld s k
  match (setptGet s k).2.2 with
  | none => h.2.1
  | some v => if s.rd R.PORT_SETPT_MODE [k] = 0 ∨ (s.flag R.PORT_SETPT_LOS [k] ∧ h.2.2) then h.2.1 else v

/-- LOS of a set-point input takes a state: a change is notified (R152). -/
def setptLos (k : Nat) (v : Bool) (s : State) : State :=
  if s.flag R.PORT_SETPT_LOS [k] = v then s else notifyAll 0x05 [k, b2n v] (s.wr R.PORT_SETPT_LOS [k] (b2n v))

/-- V shows the value in use. -/
def setptShow (k : Nat) (s : State) : State := s.wr R.PORT_SETPT_V [k] (setptUse s k)

/-- `PORT.SETPT` word 1 that an input's levels are taken from. -/
def setptLevels (s : State) (k : Nat) : Nat := (setptHeld s k).1

/-- A measurement takes levels, FB and LOSACT as they stand (R154). -/
def setptLatch (k : Nat) (s : State) : State :=
  let h := (readN s (0x3803004 + 16 * k), s.rd R.PORT_SETPT_FB [k], s.flag R.PORT_SETPT_LOSACT [k])
  { s with spLev := cellSet (fun _ => (0x0FA00000, 0, false)) s.spLev k h }

/-- Decoding restarts (R152): LOS asserted, counters at zero; a new mode has had no valid measurement yet. -/
def setptRestart (newMode : Bool) (k : Nat) (s : State) : State :=
  let last := if newMode then none else (setptGet s k).2.2
  let s1 := if newMode then setptLatch k s else s
  setptShow k (setptLos k true (setptPut s1 k (0, 0, last)))

/-- A measurement of an input, invalid or with its value (R151, R152). -/
def setptTake (k : Nat) (m : Option Nat) (s0 : State) : State :=
  let s := setptLatch k s0
  let c := setptGet s k
  match m with
  | none =>
    let n := min 15 (c.1 + 1)
    let s1 := setptPut (s.wr R.PORT_SETPT_VALID [k] 0) k (n, 0, c.2.2)
    let s2 := if s.rd R.PORT_SETPT_LOSN [k] ≤ n then setptLos k true s1 else s1
    setptShow k s2
  | some v =>
    let n := min 255 (c.2.1 + 1)
    let s1 := setptPut (s.wr R.PORT_SETPT_VALID [k] 1) k (0, n, some v)
    let s2 := if s.rd R.PORT_SETPT_CLRN [k] ≤ n then setptLos k false s1 else s1
    setptShow k s2

/-- An input decodes: its mode is not OFF, and PORT is powered. -/
def setptRuns (s : State) (k : Nat) : Bool :=
  decide (k < 8) && s.rd R.PORT_SETPT_MODE [k] != 0 && (islOn s 28 || islOn s 29)

/-! Input taps (R94, R102). -/

/-- `ESA.TAPCFG.IN_OSR` changes from the rate code `old`: each input tap runs on at the rate it has until its next boundary. -/
def osrChange (old : Nat) (s : State) : State :=
  let l := (span 35840 1024).filter fun n => islOn s (sensIsland n)
  { s with osr := l.foldl (fun c n => if cellGet (fun _ => 0) c n = 0 then cellSet (fun _ => 0) c n (old % 4 + 1) else c) s.osr }

/-! The hook. -/

/-- The word at `a`, which was `old`, has been given a value: `CE.RATECFG` decides shedding anew, `ESA.TAPCFG` restarts the input taps at
their next boundary, a light-loss register restarts its counts, a change of MODE, GATE, FLO or FHI restarts decoding, and an input that is OFF shows a new FB. -/
def fieldHook (a old : Nat) (s : State) : State :=
  let k := (a - 0x3803000) / 16
  if a = 0x800100 then reshed s
  else if a = 0x3000100 then (if readN s a % 4 = old % 4 then s else osrChange old s)
  else if 0x3801000 ≤ a ∧ a < 0x3802000 then losRestart ((a - 0x3801000) / 4) s
  else if 0x3803000 ≤ a ∧ a < 0x3803080 ∧ a % 16 = 0 then
    (if readN s a / 2 ^ 28 = old / 2 ^ 28 then s else setptRestart (readN s a / 2 ^ 30 != old / 2 ^ 30) k s)
  else if 0x3803000 ≤ a ∧ a < 0x3803080 ∧ a % 16 = 8 then
    (if readN s a % 2 ^ 16 ≠ old % 2 ^ 16 then setptRestart false k s
     else if s.rd R.PORT_SETPT_MODE [k] = 0 then setptShow k s else s)
  else s

/-- The hooks of the words among `l` that changed since `s0`. -/
def fieldHooks (s0 : State) (l : List Nat) (s : State) : State :=
  l.foldl (fun t a => if readN t a = readN s0 a then t else fieldHook a (readN s0 a) t) s

end Sys2Proof.Machine
end

