-- ==== Sys2Proof/Machine/ModeOps.lean ====
section
/-! DEFINITION. Mode control (01_architecture_and_modes): conditions, transitions, overlays, entry to DARK. -/

namespace Sys2Proof.Machine

/-! Modes and conditions. -/

def mReset : Nat := 0
def mLoad : Nat := 1
def mCalibrate : Nat := 2
def mDark : Nat := 3
def mRun : Nat := 4
def mEco : Nat := 5
def mDegraded : Nat := 6
def mMaintain : Nat := 7
def mSafeStop : Nat := 8
def mLockout : Nat := 9
def mShed : Nat := 10
def mUpdate : Nat := 11

/-- The current mode (R26). -/
def modeOf (s : State) : Nat := s.rd R.PWR_MODE_CUR []

/-- The MP reads KCP frames (R372, R382, R383, R401, R404). -/
def kcpUp (s : State) : Bool :=
  !s.modes.mpDown && !s.jnl.recovering && !s.jnl.stopped && !s.jnl.protect && islOn s 2 && islOn s 5 && decide (2 ≤ modeOf s)

/-- Host events are accepted and plans are active in these modes. -/
def modeActive (m : Nat) : Bool := decide (4 ≤ m) && decide (m ≠ 8) && decide (m ≠ 9)

/-- The mode that R15 gives for the conditions on. -/
def modeByRank (s : State) : Nat :=
  if s.flag R.PWR_MODE_C_LOCKOUT [] then mLockout
  else if s.flag R.PWR_MODE_C_STOP [] then mSafeStop
  else if s.flag R.PWR_MODE_C_SHED [] then mShed
  else if s.flag R.PWR_MODE_C_MAINT [] then mMaintain
  else if s.flag R.PWR_MODE_C_DEG [] then mDegraded
  else if s.flag R.PWR_MODE_C_UPD [] then mUpdate
  else s.rd R.PWR_MODE_RESTING []

/-! Overlays (R27 to R33). -/

/-- The fields an overlay names, with their values (address, mask, value). -/
def overlayOf (s : State) (m : Nat) : List (Nat × Nat × Nat) :=
  match s.image with
  | some im => ((im.overlays.find? fun o => o.1 == m).map (·.2)).getD []
  | none => []

/-- Registers that one write moves: `EDA.SLEW`, `EDA.HO_TIME` and the other configuration registers of any slice, and the kick
tables, stand for all sixteen slices (R65, R87). -/
def mirrored (a : Nat) : List Nat :=
  if 0x2000000 ≤ a ∧ a < 0x3000000 ∧ (0x100 ≤ a % 0x100000 ∧ a % 0x100000 < 0x110 ∨
      0x10000 ≤ a % 0x100000 ∧ a % 0x100000 < 0x14000) then
    (span 0 16).map fun k => 0x2000000 + 0x100000 * k + a % 0x100000
  else [a]

/-- Put the bits of `mask` into a register and its mirrors. -/
def putMasked (a mask v : Nat) (s : State) : State :=
  (mirrored a).foldl (fun t x => mergeWord mask x v t) s

/-- Instances that wait for their boundary after a change of the field at `a` (R31): loops for `CE` fields, queues for
`EGS.QCFG`, input taps for `ESA.TAPCFG`, the port of a light-loss register (R106), a set-point input that decodes (R154). Every other
eligible field is used at its next use and has reached its boundary once it is written. -/
def busyFor (a : Nat) (s : State) : State :=
  let m := s.modes
  if 0x800100 ≤ a ∧ a < 0x800140 then { s with modes := { m with busyL := runningLoops s } }
  else if 0x680000 ≤ a ∧ a < 0x700000 then
    let q := (a - 0x680000) / 8
    { s with modes := { m with busyQ := if isFixed q ∨ m.busyQ.contains q then m.busyQ else q :: m.busyQ } }
  else if a = 0x3000100 then
    let l := (span 35840 1024).filter fun x => islOn s (sensIsland x)
    { s with modes := { m with busyS := l } }
  else if 0x3801000 ≤ a ∧ a < 0x3802000 then
    let k := (a - 0x3801000) / 4
    { s with modes := { m with busyP := if m.busyP.contains k ∨ !islOn s (sensIsland (34816 + k % 512)) then m.busyP else k :: m.busyP } }
  else if 0x3803000 ≤ a ∧ a < 0x3803080 then
    let k := (a - 0x3803000) / 16
    let off := s.rd R.PORT_SETPT_MODE [k] = 0 ∨ !(islOn s 28 || islOn s 29)
    { s with modes := { m with busyP := if m.busyP.contains (1024 + k) ∨ off then m.busyP else (1024 + k) :: m.busyP } }
  else s

/-- A light-loss detector or a set-point input has passed its boundary (R31). -/
def settleP (k : Nat) (s : State) : State :=
  if s.modes.busyP.contains k then
    settle { s with modes := { s.modes with busyP := s.modes.busyP.filter (· != k) } }
  else s

/-- One field of a transition moves directly to its target value (R30). -/
def moveField (f : Nat × Nat × Nat) (s : State) : State :=
  if Nat.land (readN s f.1) f.2.1 = Nat.land f.2.2 f.2.1 then s
  else busyFor f.1 (putMasked f.1 f.2.1 f.2.2 s)

/-- An overlay transition (R30): fields `named` take their values, fields of the overlay before (`olds`) that it does not name
return to their working base. An instance that still waits for its boundary goes on waiting for it: it takes there what the newest
mode has (R31). -/
def overlayTo (olds named : List (Nat × Nat × Nat)) (s : State) : State :=
  let back := olds.map fun f =>
    (f.1, Nat.land f.2.1 (4294967295 - (((named.filter fun g => g.1 == f.1).map (·.2.1)).foldl Nat.lor 0)),
      (cellGet resetWord s.wbase f.1).toNat)
  let s1 := fieldHooks s ((back ++ named).map (·.1)) ((back ++ named).foldl (fun t f => moveField f t) s)
  settle (s1.wr R.PWR_MODE_OVL_BUSY [] 1)

/-- The overlay transition from mode `a` to mode `b`. -/
def overlayMove (a b : Nat) (s : State) : State := overlayTo (overlayOf s a) (overlayOf s b) s

/-! Transitions (R14, R18, R19). -/

/-- Pending events that are not armed are solved again (R14). -/
def keepAndResolve (s : State) : State :=
  (s.evs.filter fun e => e.st == evSolved || e.st == evScheduled).foldl
    (fun t e => evGoto { e with st := evAccepted, units := [], waves := [] } t) s

/-- Bit of MODES for a mode. -/
def modesBit (m : Nat) : Nat :=
  if m = mRun then 0 else if m = mEco then 1 else if m = mDegraded then 2 else if m = mMaintain then 3
  else if m = mShed then 4 else 5

/-- Plans are active (R13), and neither a power failure, a restart nor a recovery has stopped them (R382, R383, R401). -/
def plansRun (s : State) : Bool :=
  modeActive (modeOf s) && !s.jnl.protect && !s.jnl.stopped && !s.jnl.recovering

/-- The rule is ARMED and may fire in the present mode (R236). -/
def ruleArmed (s : State) (r : Nat) : Bool :=
  s.rd R.PLAN_RCTL_STATE [r] == 1 && plansRun s && islOn s 7 && bitN (s.rd R.PLAN_RULE_MODES [r]) (modesBit (modeOf s))

/-- Plans are active from now on (R249). -/
def plansResume (s : State) : State := { s with plan := { s.plan with activeFrom := s.time } }

/-- Rules that satisfy `p` meet the conditions of R236 from now on: a point of theirs that passed before does not fire. -/
def rulesFrom (p : Nat → Bool) (s : State) : State :=
  let q := s.plan
  let l := (span 0 64).filter p
  { s with plan := { q with
    armedAt := l.foldl (fun c r => cellSet (fun _ => 0) c r s.time) q.armedAt,
    armedDom := l.foldl (fun c r => cellSet (fun _ => 0) c r (domNs s (s.rd R.PLAN_RULE_DOMAIN [r]))) q.armedDom,
    earlier := q.earlier.filter fun r => !p r } }

/-- What the entry into mode `m` from mode `old` means to the rules: those with a MODE_ENTRY trigger for it that may fire are hit, in
the mode as it is entered; a mode in which plans are not active ends every hit (R13, R236). -/
def entryHits (old m : Nat) (s : State) : State :=
  if modeActive m then
    let may (x r : Nat) : Bool := bitN (s.rd R.PLAN_RULE_MODES [r]) (modesBit x)
    let s1 := if modeActive old then rulesFrom (fun r => may m r && !may old r) s else plansResume s
    let l := (span 0 64).filter fun r => s1.rd R.PLAN_RULE_TTYPE [r] == 6 && s1.rd R.PLAN_RULE_ARG [r] % 16 == m && ruleArmed s1 r
    { s1 with plan := { s1.plan with hits := s1.plan.hits ++ l } }
  else { s with plan := { s.plan with hits := s.plan.hits.filter (· == 64) } }

def chanGet (s : State) (c : Nat) : Chan := if c = 0 then s.chA else s.chB
def chanPut (s : State) (c : Nat) (v : Chan) : State := if c = 0 then { s with chA := v } else { s with chB := v }

/-- Island of a safety channel. -/
def chanIsland (c : Nat) : Nat := 3 + c

/-- A field of a channel's copy of the safety parameter block (R278, R281). -/
def spb (v : Chan) (F : Fld) (ix : List Nat) : Nat := bitsN (cellGet resetWord v.block (fldAddr F ix)).toNat F.lo F.width
def spbOn (v : Chan) (F : Fld) (ix : List Nat) : Bool := spb v F ix == 1

/-- Entry to DARK in one channel (R293, R324, R326): the start-up open test begins, discrepancy counts start afresh, the next pair is
accepted at any SEQ, and the watchdog's start-up demand holds until it. -/
def chanDark (c : Nat) (s : State) : State :=
  let v := chanGet s c
  let l := (v.guards.map fun g => (g.1, { g.2 with dcnt := 0 })).filter fun g => decide (g.2 ≠ Guard.open)
  chanPut s c { v with testing := true, startOk := false, resync := true, wdRun := false, boot := spbOn v R.SAF_TELCFG_EN [],
                       cmd := 0, guards := l }

/-! Blocks of the safety channels (R308, R310). -/

/-- A port's VOAs are held at block: a channel asserts the port's line, or all lines. -/
def heldDark (s : State) (n : Nat) : Bool :=
  s.chA.force || s.chB.force || s.chA.blocks.contains n || s.chB.blocks.contains n

/-- Local times plus 1 since which a channel's lines block a port. -/
def blockTimes (v : Chan) (n : Nat) : List Nat :=
  (if v.force then [v.forceAt] else []) ++ (if v.blocks.contains n then [cellGet (fun _ => 0) v.blkAt n] else [])

/-- The block of a port has stood for 2 ms (R310). -/
def darkLong (s : State) (n : Nat) : Bool :=
  (blockTimes s.chA n ++ blockTimes s.chB n).any fun t => decide (t + 2000000 ≤ s.time + 1)

/-- Entry to DARK (R21, R72): every bank parks, both channels start the open test. -/
def enterDark (s : State) : State :=
  let s1 := chanDark 1 (chanDark 0 (parkAll s))
  let s2 := ((s1.wr R.SAF_TELSTAT_RESYNC [] 1).wr R.SAF_PINS_START_OK [] 0)
  { s2 with modes := { s2.modes with parked := true, dark := false, released := false } }

/-- Injection and CAL_OUT switch trees at their absorbers (R43); the watch for light starts afresh (R23). -/
def treesIdle (s : State) : State := { s with calx := { s.calx with inject := none, divert := none, crpdAt := none } }

/-- A calibration run is abandoned (R262): it has ended, without a record (R23). -/
def abandonRun (s : State) : State :=
  if s.rd R.CAL_RUN_PHASE [] = 0 then s
  else
    let s1 := (s.wr R.CAL_RUN_RESULT [] 3).wr R.CAL_RUN_PHASE [] 0
    treesIdle { s1 with modes := { s1.modes with ran := true, lastOk := false, crpd := false } }

/-- A write of corrections is due on entry to MAINTAIN (R276). -/
def recordEntry (new : Nat) (s : State) : State :=
  if new = mMaintain ∧ s.flag R.CAL_RECORD_DIRTY [] then { s with calx := { s.calx with recDue := true } } else s

/-- What the entry into a mode does beside its overlay. -/
def entryActions (old new : Nat) (s : State) : State :=
  let s1 := if modeActive new then s else (span 0 8).foldl (fun t k => stopSched k false t) s
  let s2 := if new = mSafeStop ∨ new = mLockout then failWhere (fun _ => true) rSafetyLocked s1 else s1
  let s3 := if old = mCalibrate ∧ (new = mSafeStop ∨ new = mLockout) then abandonRun s2 else s2
  let s4 := recordEntry new (if new = mDark then enterDark s3 else if old = mDark then treesIdle s3 else s3)
  if new = mDegraded ∨ new = mShed ∨ new = mMaintain ∨ new = mUpdate ∨ (old = mDark ∧ modeActive new) ∨
      (old = mCalibrate ∧ modeActive new) then keepAndResolve s4 else s4

/-- One mode transition: journaled, shown, its overlay moved, its actions taken, notified (R13, R14, R18, R30). -/
def enterMode (new cause : Nat) (s : State) : State :=
  let old := modeOf s
  let s1 := commit 0x09 0 0 0 0 [old, new, cause] s
  let s2 := ((s1.wr R.PWR_MODE_PREV [] old).wr R.PWR_MODE_CUR [] new).wr R.PWR_MODE_CAUSE [] cause
  let s3 := entryActions old new (overlayMove old new s2)
  entryHits old new (notifyAll 0x01 [old, new, cause] s3)

/-- Directory copy 1 is the one in force: its CRC is valid, and copy 0 has a bad one or a lower count (R390). -/
def dirSecond (f : Flash) : Bool := f.dir1.ok && (!f.dir0.ok || decide (f.dir0.count < f.dir1.count))

/-- The directory in force (R390); with no valid copy every slot is EMPTY. -/
def slotDir (f : Flash) : SlotDir := if dirSecond f then f.dir1 else if f.dir0.ok then f.dir0 else SlotDir.blank

/-- A change of the directory goes into the copy that is not in force, under the next write count (R390). -/
def writeDir (g : SlotDir → SlotDir) (f : Flash) : Flash :=
  let d := { g (slotDir f) with count := ((slotDir f).count + 1) % 2 ^ 32, ok := true }
  if dirSecond f then { f with dir0 := d } else { f with dir1 := d }

/-- State of a slot in the directory. -/
def slotState (s : State) (b : Bool) : Nat := if b then (slotDir s.flash).stB else (slotDir s.flash).stA

/-- Content of a slot. -/
def slotImage (s : State) (b : Bool) : Option Image := if b then s.flash.slotB else s.flash.slotA

/-- The CL's read of a slot, at its flash address (R389), as the cause of an occurrence. -/
def slotCause (b : Bool) : Cause := ⟨if b then 0x3C20000 else 0x20000, 1, 0, 0, 0, false⟩

/-- IMGSEQ of what a slot holds, 0 for nothing. -/
def slotSeq (o : Option Image) : Nat := match o with | some im => im.imgSeq | none => 0

/-- A directory write: the state and IMGSEQ of one slot, shown in `CL.BOOT` (R390). -/
def setSlot (b : Bool) (st : Nat) (s0 : State) : State :=
  let s := crcHit .cl 1 s0
  if b then { s with flash := writeDir (fun d => { d with stB := st, seqB := slotSeq s.flash.slotB }) s.flash }.wr R.CL_BOOT_STATE_B [] st
  else { s with flash := writeDir (fun d => { d with stA := st, seqA := slotSeq s.flash.slotA }) s.flash }.wr R.CL_BOOT_STATE_A [] st

/-- A directory write of the trial count. -/
def setTrial (n : Nat) (s : State) : State := { s with flash := writeDir (fun d => { d with trial := n }) s.flash }

/-- The inactive slot: the other one than that in force. -/
def inactiveSlot (s : State) : Bool := !s.flag R.CL_BOOT_SLOT []

/-- A flash write is abandoned: the slot being written is marked INVALID, the owner cleared and the UPDATE condition
goes off (R17, R399). -/
def abandonUpdate (s : State) : State :=
  if s.flag R.PWR_MODE_C_UPD [] then
    setSlot (inactiveSlot s) 4 (((s.wr R.PWR_MODE_C_UPD [] 0).wr R.CL_UPD_OWNED [] 0).wr R.CL_UPD_KIB [] 0)
  else s

/-- Cause of a condition that comes on (R19). -/
def causeOn (m : Nat) : Nat := if m = mDegraded then 0x09 else if m = mShed then 0x0D else 0x07

/-- Cause of leaving a mode because its condition went off. -/
def causeOff (m upd : Nat) : Nat := if m = mDegraded then 0x0A else if m = mShed then 0x0E else upd

/-- Rank of a mode, highest first (R15). -/
def rankOf (m : Nat) : Nat :=
  if m = mLockout then 0 else if m = mSafeStop then 1 else if m = mShed then 2 else if m = mMaintain then 3
  else if m = mDegraded then 4 else if m = mUpdate then 5 else 6

/-- The end of a mode-control tick (R15 to R17, R19, R25). `c` is the cause of a change of the resting mode or of
leaving UPDATE; `stop` that of SAFE_STOP. -/
def modeTickBy (c stop : Nat) (s : State) : State :=
  let m := modeOf s
  if m < 2 then s
  else if s.flag R.PWR_MODE_C_LOCKOUT [] then
    if m = mLockout then s else enterMode mLockout 0x0C (abandonUpdate s)
  else if s.flag R.PWR_MODE_C_STOP [] then
    if m = mSafeStop ∨ m = mLockout then s else enterMode mSafeStop stop (abandonUpdate s)
  else if m = mCalibrate ∨ m = mDark ∨ m = mSafeStop ∨ m = mLockout then s
  else
    let s1 := if modeByRank s ≠ mUpdate ∧ rankOf (modeByRank s) < 5 then abandonUpdate s else s
    let t := modeByRank s1
    if t = m then s1
    else if rankOf t < rankOf m then enterMode t (causeOn t) s1
    else enterMode t (if rankOf m = 6 then c else causeOff m c) s1

/-- A tick without a request. -/
def modeTick (s : State) : State := modeTickBy 0x11 0x0B s

/-! Requests whose answer waits (R14, R303, R372). -/

/-- The SEQ is consumed with its answer (R368). -/
def consume (h : Hdr) (r : Req) (a : Ans) (s : State) : State :=
  let k := h.session
  let v := sessGet s k
  sessPut (s.wr R.JNL_SESS_NEXT [k] (h.seq + 1)) k { v with window := ((h.seq, r, a) :: v.window).take 1024, late := none }

/-- Copies that wait for an answer get it (R368). -/
def answerCopies (h : Hdr) (a : Ans) (s : State) : State :=
  let v := sessGet s h.session
  let l := v.held.filter fun x => x.1 == h.seq
  l.foldl (fun t x => sendAnswer x.2.1 true a (t.incS R.JNL_SCNT_DUPS [h.session]))
    (sessPut s h.session { v with held := v.held.filter fun x => x.1 != h.seq })

/-- The answer of a request whose effect came later: its SEQ is consumed now, the answer is sent, and copies that arrived meanwhile get it
too (R368, R369). -/
def answerLate (h : Hdr) (a : Ans) (s : State) : State :=
  match (sessGet s h.session).late with
  | some (g, r) => if g.seq = h.seq then answerCopies h a (sendAnswer h false a (consume h r a s)) else s
  | none => s

/-- ACK of a MODE request: `PWR.MODE` as it reads now (R372). -/
def ackMode (s : State) : Ans := ⟨0x88, 0, 0, 0, false, beBytes 4 (readN s 0x100010)⟩

/-- A calibration run starts (R254): CALIBRATE is entered with phase C1. -/
def startRun (cause : Nat) (s : State) : State :=
  let s1 := enterMode mCalibrate cause { s with modes := { s.modes with calFrom := modeOf s } }
  let s2 := treesIdle { s1 with calx := { s1.calx with start := s1.time, since := s1.time, span := [], heat2 := [], heat4 := [], rbBad := [], rbHres := [] } }
  (s2.wr R.CAL_RUN_PHASE [] 1).wr R.CAL_RUN_PROGRESS [] 0

/-- The MAINTAIN condition is over: the request is answered with the mode then reached. -/
def finishLeave (h : Hdr) (s : State) : State :=
  let s1 := { s.wr R.PWR_MODE_C_MAINT [] 0 with modes := { s.modes with leaving := none } }
  let s2 := if modeOf s1 = mMaintain then enterMode mDark 0x07 s1 else s1
  answerLate h (ackMode s2) s2

/-- A request to leave MAINTAIN or to recalibrate takes effect once every armed wave has started and, for a leave, both
grants are released (R14, R303, R372). -/
def leaveNow (s : State) : State :=
  match s.modes.leaving with
  | none => s
  | some (op, h) =>
    if !s.armed.isEmpty then s
    else if op = 3 then (if s.chA.grant || s.chB.grant then s else finishLeave h s)
    else
      let s1 := { s with modes := { s.modes with leaving := none } }
      let s2 := if modeOf s1 = mMaintain ∨ modeOf s1 = mDark then startRun 0x07 s1 else s1
      answerLate h (ackMode s2) s2

end Sys2Proof.Machine
end

