-- ==== Sys2Proof/Machine/Domain.lean ====
section
/-! DEFINITION. Time domains (07_time_domains_and_air_frames): counters, states, PTP and PPS input, guard windows and
wave slots, instant names. -/

namespace Sys2Proof.Machine

/-! Counters (R166, R167). -/

def phaseGet (s : State) (d : Nat) : Int := cellGet (fun _ => 0) s.phase d

/-- Set a domain counter. -/
def cntPut (d c : Nat) (s : State) : State := { s with cnt := cellSet (fun _ => 0) s.cnt d c }

/-- Set the residual phase; PHADJ shows it in 2⁻¹⁶ ns. -/
def phasePut (d : Nat) (p : Int) (s : State) : State :=
  { s with phase := cellSet (fun _ => 0) s.phase d p }.wrS R.TBU_DOM_PHADJ [d] (sra p 28)

/-- The slew of one 8 ns tick at 100 ppm, in 2⁻⁴⁴ ns. -/
def slewStepPs : Int := 14073748835

/-- One 8 ns tick of a domain that is not OFF: the nominal step with FADJ, and the slew of the residual; a positive PHADJ advances the
counter (DESIGN CHOICE, log entry 90). -/
def tickDomain (s : State) (d : Nat) : State :=
  if s.rd R.TBU_DOM_STATE_STATE [d] = 0 ∨ !islOn s 6 then s
  else
    let p := phaseGet s d
    let x := clampI (-slewStepPs) slewStepPs p
    let s1 := cntPut d (((domCnt s d + 8 * 2 ^ 44 : Nat) : Int) + 8 * s.rdS R.TBU_DOM_FADJ [d] + x).toNat s
    if p = 0 then s1 else phasePut d (p - x) s1

/-- One 8 ns tick of the local timebase: every counter advances. Nothing else happens without a command. -/
def tick (s : State) : State := (span 0 8).foldl tickDomain { s with time := s.time + 8 }

/-! Local and domain time (R222). -/

/-- Local instant of a domain time at the present rate. -/
def localOf (s : State) (d t : Nat) : Nat :=
  let diff : Int := ((t * 2 ^ 44 : Nat) : Int) - (domCnt s d : Nat)
  let r : Int := ((2 ^ 44 : Nat) : Int) + s.rdS R.TBU_DOM_FADJ [d]
  ((s.time : Int) + diff / r).toNat

/-- Domain time of a local instant at the present rate. -/
def domainOf (s : State) (d t : Nat) : Nat :=
  let diff : Int := (t : Int) - (s.time : Nat)
  let r : Int := ((2 ^ 44 : Nat) : Int) + s.rdS R.TBU_DOM_FADJ [d]
  ((((domCnt s d : Nat) : Int) + diff * r) / ((2 ^ 44 : Nat) : Int)).toNat

/-- Domain time of domain `b` at time `t` of domain `a`. -/
def crossTime (s : State) (a b t : Nat) : Nat := if a = b then t else domainOf s b (localOf s a t)

/-- A domain can be scheduled: LOCKED or HOLDOVER, and past its epoch (R169, R180). -/
def domReady (s : State) (d : Nat) : Bool := domUsable s d && decide (epochNs s d ≤ domNs s d) && islOn s 6

/-! Guard windows and slots (R181, R182, R194). -/

/-- An enabled EVENT or EVENT+CAL window. -/
def eventWindow (s : State) (d w : Nat) : Bool :=
  s.flag R.TBU_DOM_GW_EN [d, w] && (s.rd R.TBU_DOM_GW_CLASS [d, w] == 0 || s.rd R.TBU_DOM_GW_CLASS [d, w] == 2)

/-- Number of slots of a window. -/
def slotCount (s : State) (d w : Nat) : Nat :=
  let n := s.rd R.TBU_DOM_GW_LEN [d, w]
  if n < 1100 then 0 else (n - 1100) / 20000 + 1

/-- Start of pattern period `k` counted from the epoch. -/
def periodStart (s : State) (d k : Nat) : Nat := epochNs s d + k * patOf s d

/-- First slot of window `w` in period `k` at or after `t`. -/
def slotIn (s : State) (d w k t : Nat) : Option Nat :=
  let z := periodStart s d k + s.rd R.TBU_DOM_GW_OFS [d, w] + 250
  let j := if t ≤ z then 0 else (t - z + 19999) / 20000
  if eventWindow s d w && decide (j < slotCount s d w) then some (z + 20000 * j) else none

/-- Least of a list. -/
def minOf : List Nat → Option Nat
  | [] => none
  | a :: t => match minOf t with | some b => some (min a b) | none => some a

/-- First slot of any enabled window at or after `t`. -/
def slotFrom (s : State) (d t : Nat) : Option Nat :=
  let k := (t - epochNs s d) / patOf s d
  minOf (((span 0 32).map fun w => (slotIn s d w k t).toList ++ (slotIn s d w (k + 1) t).toList).flatten)

/-- First slot 0 of window `w`, or of any enabled window, at or after `t` (R239, R184). -/
def slotZeroFrom (s : State) (d t : Nat) (w : Option Nat) : Option Nat :=
  let k := (t - epochNs s d) / patOf s d
  let one (v : Nat) : List Nat :=
    if eventWindow s d v && decide (0 < slotCount s d v) then
      ([k, k + 1, k + 2].map fun i => periodStart s d i + s.rd R.TBU_DOM_GW_OFS [d, v] + 250).filter fun x => decide (t ≤ x)
    else []
  minOf (match w with | some v => one v | none => ((span 0 32).map one).flatten)

/-- A wave at `t0` of domain `a` coincides with a window of domain `d` (R194). -/
def coincides (s : State) (a t0 d : Nat) : Bool :=
  let t := crossTime s a d t0
  let k := (t - epochNs s d) / patOf s d
  let inW (w : Nat) : Bool :=
    let z := periodStart s d k + s.rd R.TBU_DOM_GW_OFS [d, w]
    eventWindow s d w && decide (z + 250 ≤ t) && decide (t + 1000 + 250 ≤ z + s.rd R.TBU_DOM_GW_LEN [d, w])
  domReady s d && (span 0 32).any inW

/-! Instant names (R183, R184). -/

/-- Offset of a name within its air frame. -/
def nameOffset (s : State) (i : Nat) : Nat :=
  let d := inDom i
  inPidx i * patOf s d + (if inKind i = 0 then s.rd R.TBU_DOM_GW_OFS [d, inWidx i] + 250 else inOfs i)

/-- Resolve a name against the domain's time and the earliest schedulable instant: a reason code or the instant in
domain ns (R184, R212). Of two occurrences at 32,768 hyperframes either way the past one counts as the nearest (DESIGN CHOICE, log entry
125). -/
def resolveName (s : State) (i earliest : Nat) : Except Nat Nat :=
  let d := inDom i
  let e := epochNs s d
  if !domReady s d then .error rDomainUnlocked
  else if decide (10000000 ≤ inPidx i * patOf s d) || (inKind i == 1 && decide (patOf s d ≤ inOfs i)) || inRsvd i then
    .error rMalformed
  else if inKind i = 0 ∧ !eventWindow s d (inWidx i) then .error rNoGuardWindow
  else
    let o := nameOffset s i
    if inNext i then
      let base := e + inAfn i * 10000000 + o
      let m := if earliest ≤ base then 0 else (earliest - base + 10239999999) / 10240000000
      .ok (base + m * 10240000000)
    else
      let h := (domNs s d - e) / 10240000000
      let full : Int := (h : Int) + toS 16 (inHfn i + 65536 - h % 65536)
      let t : Int := (e : Int) + (full * 1024 + (inAfn i : Nat)) * 10000000 + (o : Nat)
      if t < (earliest : Int) then .error rTimePassed else .ok t.toNat

/-! Learning generators (R158). -/

/-- A generator takes its periods from a schedule: SRC 2, and the reserved SRC 3 (DESIGN CHOICE, log entry 88). -/
def genSched (s : State) (g : Nat) : Bool := decide (2 ≤ s.rd R.CE_RCGEN_SRC [g])

/-- Domain whose time a generator's periods follow: its own, or that of its schedule (R155). -/
def genDomain (s : State) (g : Nat) : Nat :=
  if genSched s g then s.rd R.PLAN_SCHED_DOMAIN [s.rd R.CE_RCGEN_SCHED [g]] else s.rd R.CE_RCGEN_DOMAIN [g]

/-- The generators that satisfy `p` begin learning no earlier than now. -/
def rcRestart (p : Nat → Bool) (s : State) : State :=
  (span 0 8).foldl (fun t g =>
    if p g then { t with rcFrom := cellSet (fun _ => 0) t.rcFrom g (domNs t (genDomain t g)) } else t) s

/-! States (R169 to R172). -/

/-- Domains an event depends on: of its instant, and of foreign connections it creates or replaces (R210, R216). -/
def evDomains (s : State) (e : Ev) : List Nat :=
  let f := projRoute s e.aseq
  e.dom :: (e.descs.map fun d => if dValid d then [dDom d] else []).flatten ++
    ((e.descs ++ impliedOuts f e.descs).map fun d => match f (dOut d) with | some r => [dDom r.desc] | none => []).flatten

/-- PPS_OUT is held low with its domain OFF or UNLOCKED, when it is squelched (R179). -/
def ppsSquelch (s : State) : State :=
  if s.flag R.TBU_PPSOUT_SQUELCH [] && !domUsable s (s.rd R.TBU_PPSOUT_DOMAIN []) then { s with ppsOut := false } else s

/-- The new state of a domain is shown, journaled and notified; a port's gate lists fall back with a loss of lock (R170, R172, R355). The runs
of good and bad estimates start afresh (DESIGN CHOICE, log entry 90). -/
def domShow (d st : Nat) (s : State) : State :=
  let v := servoGet s d
  let s1 := servoPut (s.wr R.TBU_DOM_STATE_STATE [d] st) d
    { v with good := 0, bad := 0, hoFrom := if st = 3 then s.time else v.hoFrom,
             holdT := if s.rd R.TBU_DOM_STATE_STATE [d] = 0 then s.rd R.TBU_DOM_HOLD_HOLDOVER_T [d] else v.holdT }
  let s2 := ppsSquelch (s1.wr R.TBU_DOM_STATE_HO_MS [d] 0)
  let s3 := if st ≤ 1 then gatesFall d s2 else s2
  let s4 := if st = 1 then raise0 .tbu 0 s3 else if st = 3 then raise0 .tbu 1 s3 else s3
  notifyAll 0x02 [d, st] (commit 0x0A 0 0 0 0 [d, st] s4)

/-- A domain becomes LOCKED: its generators learn from here, and the times that its rules wait for are counted afresh (R158, R236). -/
def domFound (d : Nat) (s : State) : State :=
  let s1 := rcRestart (fun g => s.rd R.CE_RCGEN_DOMAIN [g] == d) s
  if plansRun s1 then rulesFrom (fun r => s.rd R.PLAN_RULE_DOMAIN [r] == d) s1 else s1

/-- A domain loses its lock: events not yet armed fail, its schedules stop (R172, R248). -/
def domLost (d : Nat) (s : State) : State :=
  let hit (e : Ev) : Bool := decide (e.st < evArmed) && (evDomains s e).contains d
  (span 0 8).foldl (fun t k => if t.rd R.PLAN_SCHED_DOMAIN [k] = d then stopSched k true t else t)
    (failWhere hit rDomainUnlocked s)

/-- A domain changes state (R170). -/
def domSet (d st : Nat) (s : State) : State :=
  let old := s.rd R.TBU_DOM_STATE_STATE [d]
  if old = st then s
  else
    let s1 := domShow d st s
    if st ≤ 1 then domLost d s1 else if old ≤ 1 then domFound d s1 else s1

/-- Every domain that the configuration enables goes from OFF to UNLOCKED (R170, R406). -/
def enableDomains (s : State) : State :=
  (span 0 8).foldl (fun t d => if t.flag R.TBU_DOM_CFG_EN [d] ∧ t.rd R.TBU_DOM_STATE_STATE [d] = 0 then domSet d 1 t else t) s

/-- Greatest FADJ: 122 ppm in 2⁻⁴⁴ (R167). -/
def fadjMax : Int := 2146246697

/-- DOMAIN_FADJ_WRITE (R167): rate offset within ±122 ppm; kept through HOLDOVER (R170). -/
def execDomainFadjWrite (dom : Nat) (value : Int) (s : State) : Host.Outcome State Fault Refusal :=
  .next (
    if 8 ≤ dom ∨ !islOn s 6 ∨ s.rd R.TBU_DOM_STATE_STATE [dom] = 3 then s
    else s.wrS R.TBU_DOM_FADJ [dom] (clampI (-fadjMax) fadjMax value))

/-- DOMAIN_PHADJ_WRITE (R167): loads a residual phase in 2⁻¹⁶ ns, replacing any residual. -/
def execDomainPhadjWrite (dom : Nat) (value : Int) (s : State) : Host.Outcome State Fault Refusal :=
  .next (
    if 8 ≤ dom ∨ !islOn s 6 ∨ s.rd R.TBU_DOM_STATE_STATE [dom] = 3 then s
    else phasePut dom (satS 32 value * 2 ^ 28) s)

/-- The estimated offset exceeds 1 µs (R171). -/
def wantsStep (s : State) (d : Nat) : Bool := decide (256000 < (s.rdS R.TBU_DOM_EST [d]).natAbs)

/-- A write of STEP_GO (R167, R171): refused outside UNLOCKED. -/
def stepGo (dom : Nat) (s : State) : State :=
  if 8 ≤ dom ∨ !islOn s 6 then s
  else if s.rd R.TBU_DOM_STATE_STATE [dom] = 1 then s.wr R.TBU_DOM_STEP_GO [dom] 1
  else raise0 .tbu 5 s

/-- DOMAIN_STEP_GO (R167, R171): the servo writes the time of a step and STEP_GO; an offset of 1 µs or less of an UNLOCKED domain it
removes through PHADJ instead. -/
def execDomainStepGo (dom sec ns : Nat) (s : State) : Host.Outcome State Fault Refusal :=
  .next (
    if 8 ≤ dom ∨ !islOn s 6 then s
    else if s.rd R.TBU_DOM_STATE_STATE [dom] = 1 ∧ !wantsStep s dom then
      phasePut dom (-(s.rdS R.TBU_DOM_EST [dom]) * 2 ^ 36) s
    else
      stepGo dom (((s.wr R.TBU_DOM_STEP_SEC_HI [dom] (sec / 2 ^ 32)).wr R.TBU_DOM_STEP_SEC_LO [dom] sec).wr R.TBU_DOM_STEP_NS [dom] ns))

/-- Learning period of a generator in ns (R155); the reserved MULT 5 to 7 give 32 to 128 periods (DESIGN CHOICE, log entry 88). -/
def rcPeriod (s : State) (g : Nat) : Nat :=
  let m := 2 ^ s.rd R.CE_RCGEN_MULT [g]
  match s.rd R.CE_RCGEN_SRC [g] with
  | 0 => 10000000 * m
  | 1 => patOf s (s.rd R.CE_RCGEN_DOMAIN [g]) * m
  | _ =>
    let k := s.rd R.CE_RCGEN_SCHED [g]
    ((span 0 (s.rd R.PLAN_SCHED_NSTEPS [k] + 1)).map fun i => s.rd R.PLAN_SCHED_LEN [k, i]).sum *
      patOf s (s.rd R.PLAN_SCHED_DOMAIN [k])

/-- DOMAIN_STEP_APPLY (R167, R171): the counter takes the written time at a 125 ns tick while no event of the domain is
ARMED. -/
def execDomainStepApply (dom : Nat) (s : State) : Host.Outcome State Fault Refusal :=
  .next (
    if 8 ≤ dom ∨ !islOn s 6 ∨ !s.flag R.TBU_DOM_STEP_GO [dom] ∨
        s.evs.any (fun e => e.dom == dom && e.st == evArmed) then s
    else if s.rd R.TBU_DOM_STATE_STATE [dom] ≠ 1 then raise0 .tbu 5 (s.wr R.TBU_DOM_STEP_GO [dom] 0)
    else
      let sec := s.rd R.TBU_DOM_STEP_SEC_HI [dom] * 2 ^ 32 + s.rd R.TBU_DOM_STEP_SEC_LO [dom]
      let t := sec * 1000000000 + s.rd R.TBU_DOM_STEP_NS [dom]
      let o := domNs s dom
      let far := if o ≤ t then t - o else o - t
      let s1 := cntPut dom (t * 2 ^ 44) (s.wr R.TBU_DOM_STEP_GO [dom] 0)
      let s2 := rcRestart (fun g => genDomain s1 g == dom && decide (rcPeriod s1 g < far * 64)) s1
      notifyAll 0x03 [dom] (raise0 .tbu 4 s2))

/-- HOLDOVER_EXPIRY (R170): HOLDOVER_T ms have elapsed since entry to HOLDOVER; a value that KCP wrote counts from
the next servo update on (R185). -/
def execHoldoverExpiry (dom : Nat) (s : State) : Host.Outcome State Fault Refusal :=
  .next (
    if dom < 8 ∧ s.rd R.TBU_DOM_STATE_STATE [dom] = 3 ∧
        (servoGet s dom).holdT * 1000000 ≤ s.time - (servoGet s dom).hoFrom then domSet dom 1 s
    else s)

/-! PTP (R174 to R177). Times are in 2⁻¹⁶ ns. Each message is the oldest frame of its port's PTP ring (R336). -/

/-- The enabled domain of a PTP frame: its number, its port and its address (R174). A frame with a domain's number that comes to a port or an
address which is not the domain's matches none (DESIGN CHOICE, log entry 125). -/
def ptpDomain (s : State) (port domNo : Nat) (mcast : Bool) : Option Nat :=
  (span 0 8).find? fun d => s.flag R.TBU_DOM_CFG_EN [d] && s.rd R.TBU_DOM_CFG_PTPDOM [d] == domNo &&
    bitN (s.rd R.TBU_DOM_CFG_PORTS [d]) port && s.flag R.TBU_DOM_CFG_MCAST [d] == mcast

/-- A frame that matches no enabled domain. -/
def noDomain (s : State) : State := raise0 .tbu 2 (s.inc R.TBU_NODOM [])

/-- The MP takes the oldest frame of a port's PTP ring, if it is a message of type `typ`: its tag, its domain, and the state without
the frame. -/
def takePtp (port typ : Nat) (s : State) : Option (PtpTag × Option Nat × State) :=
  if 2 ≤ port ∨ !islOn s 6 then none
  else match (portGet s port).ptp with
  | f :: _ =>
    match f.ptp with
    | some g => if g.typ = typ then some (g, ptpDomain s port g.dom g.mcast, takeRing port 1 s) else none
    | none => none
  | [] => none

/-- What the MP does with a message of type `typ` from a port's PTP ring: one that matches no enabled domain is counted (R174), a malformed one
is discarded and counted (R185), any other goes to `act` with its tag and its domain. -/
def withPtp (port typ : Nat) (act : PtpTag → Nat → State → State) (s0 : State) : State :=
  match takePtp port typ s0 with
  | none => s0
  | some (_, none, s) => noDomain s
  | some (g, some d, s) => if g.ok then act g d s else s.inc R.TBU_DOM_PTP_BAD [d]

/-- Mean path delay and offset of a pair (R176), in 2⁻⁸ ns. -/
def ptpOffset (t1 t2 cs t3 t4 cd asym : Int) : Int :=
  let mpd := ((t2 - t1 - cs) + (t4 - t3 - cd)) / 2
  sra (t2 - t1 - cs - mpd - asym) 8

/-- A completed Sync with its port's most recent Delay_Resp whose t3 lies within 1 s of it gives an estimate, if the port is the
selected one. -/
def ptpPair (d port : Nat) (t1 t2 cs : Int) (s : State) : State :=
  match (ptpGet s d port).delay with
  | some (t3, t4, cd) =>
    if (t2 - t3).natAbs ≤ 65536000000000 ∧ s.flag R.TBU_DOM_STATE_TTVALID [d] ∧ s.rd R.TBU_DOM_STATE_TTPORT [d] = port ∧
        s.rd R.TBU_DOM_PPSCFG_PPSMODE [d] ≠ 2 then
      let v := servoGet s d
      servoPut s d { v with est := v.est ++ [ptpOffset t1 t2 cs t3 t4 cd (s.rdS R.TBU_DOM_ASYM [d, port])] }
    else s
  | none => s

/-- PTP_SYNC_RX (R174 to R176): t2 is the stamp of the frame, referred to the reference plane. -/
def execPtpSyncRx (port seq : Nat) (logInterval : Int) (twoStep : Bool) (t1 corr : Int) (s0 : State) :
    Host.Outcome State Fault Refusal :=
  .next (
    withPtp port 0 (fun g d s =>
      if logInterval < -7 ∨ 0 < logInterval then s.inc R.TBU_DOM_PTP_BAD [d]
      else
        let t2 := (g.raw : Int) - ((s.rd R.TBU_RXLAT [port] * 256 : Nat) : Int)
        let s1 := s.inc R.TBU_DOM_SYNC_RX [d]
        if twoStep then ptpPut s1 d port { ptpGet s1 d port with sync := some (seq, t2, corr) }
        else ptpPair d port t1 t2 corr s1) s0)

/-- PTP_FOLLOW_UP_RX (R176): completes the two-step Sync of its sequence number. -/
def execPtpFollowUpRx (port seq : Nat) (t1 corr : Int) (s0 : State) : Host.Outcome State Fault Refusal :=
  .next (
    withPtp port 8 (fun _ d s =>
      let v := ptpGet s d port
      match v.sync with
      | some (n, t2, c) =>
        if n = seq then ptpPair d port t1 t2 (c + corr) (ptpPut s d port { v with sync := none }) else s
      | none => s) s0)

/-- PTP_DELAY_RESP_RX (R174, R176): the answer to the Delay_Req whose t3 is held. One whose logMessageInterval lies outside −7 to 0 is
counted bad and not used (DESIGN CHOICE, log entry 90). -/
def execPtpDelayRespRx (port seq : Nat) (logInterval t4 corr : Int) (s0 : State) : Host.Outcome State Fault Refusal :=
  .next (
    withPtp port 9 (fun _ d s =>
      let v := ptpGet s d port
      if logInterval < -7 ∨ 0 < logInterval then s.inc R.TBU_DOM_PTP_BAD [d]
      else match v.t3 with
      | some (n, t3) =>
        if n = seq then
          ptpPut (s.inc R.TBU_DOM_DRESP_RX [d]) d port { v with delay := some (t3, t4, corr), t3 := none, dreqLog := logInterval }
        else s
      | none => s) s0)

/-- One announce data set is better than another (alternate BMCA: class, then the remaining vector, then local
priority). -/
def betterAnnc (a b : Annc) (la lb : Nat) : Bool :=
  if !b.seen then a.seen
  else if !a.seen then false
  else if a.cls ≠ b.cls then decide (a.cls < b.cls)
  else if a.vector ≠ b.vector then decide (a.vector < b.vector)
  else decide (la ≤ lb)

/-- The transmitter that the servo uses (R174). -/
def selectTransmitter (d : Nat) (s : State) : State :=
  let a := (ptpGet s d 0).ann
  let b := (ptpGet s d 1).ann
  if !a.seen && !b.seen then (s.wr R.TBU_DOM_STATE_TTVALID [d] 0).wr R.TBU_DOM_STATE_TTCLASS [d] 255
  else
    let x := betterAnnc a b (s.rd R.TBU_DOM_PRIO_LPRIO_A [d]) (s.rd R.TBU_DOM_PRIO_LPRIO_B [d])
    ((s.wr R.TBU_DOM_STATE_TTVALID [d] 1).wr R.TBU_DOM_STATE_TTPORT [d] (b2n (!x))).wr R.TBU_DOM_STATE_TTCLASS [d]
      (if x then a.cls else b.cls)

/-- A class above CLASS_MAX takes a LOCKED domain to HOLDOVER (R170); so does the class 255 that TTCLASS shows once no transmitter is
qualified (DESIGN CHOICE, log entry 125). -/
def classHold (d : Nat) (s : State) : State :=
  if s.rd R.TBU_DOM_STATE_STATE [d] = 2 ∧ s.rd R.TBU_DOM_CFG_CLASS_MAX [d] < s.rd R.TBU_DOM_STATE_TTCLASS [d] then domSet d 3 s else s

/-- PTP_ANNOUNCE_RX (R174): `qualified` tells whether the transmitter of the port is a qualified one. -/
def execPtpAnnounceRx (port cls vector : Nat) (qualified : Bool) (s0 : State) : Host.Outcome State Fault Refusal :=
  .next (
    withPtp port 11 (fun _ d s =>
      let s1 := s.inc R.TBU_DOM_ANN_RX [d]
      classHold d (selectTransmitter d (ptpPut s1 d port { ptpGet s1 d port with ann := ⟨qualified, cls, vector⟩ }))) s0)

/-- The transmitter on a port has sent no Announce for three intervals: it is no candidate any more (R170, R174). -/
def annLost (d port : Nat) (s : State) : State :=
  selectTransmitter d (ptpPut s d port { ptpGet s d port with ann := Annc.silent })

/-- DOMAIN_HOLDOVER_ENTRY (R170): a cause of LOCKED → HOLDOVER: 0 no Sync for three intervals, 1 no Announce from the selected
transmitter, which counts only with no other transmitter qualified, 2 its clockClass, 3 no pulse for three seconds in PPS PHASE mode, 4 no
estimate for 250 ms. -/
def execDomainHoldoverEntry (dom cause : Nat) (s : State) : Host.Outcome State Fault Refusal :=
  .next (
    if 8 ≤ dom ∨ !islOn s 6 ∨ s.rd R.TBU_DOM_STATE_STATE [dom] = 0 then s
    else if cause = 1 then
      let s1 := annLost dom (s.rd R.TBU_DOM_STATE_TTPORT [dom]) s
      if s1.flag R.TBU_DOM_STATE_TTVALID [dom] then classHold dom s1
      else if s1.rd R.TBU_DOM_STATE_STATE [dom] = 2 then domSet dom 3 s1 else s1
    else if cause = 2 then classHold dom s
    else if s.rd R.TBU_DOM_STATE_STATE [dom] = 2 ∧ (cause = 0 ∨ cause = 4 ∨ (cause = 3 ∧ s.rd R.TBU_DOM_PPSCFG_PPSMODE [dom] = 2)) then
      domSet dom 3 s
    else s)

/-- DELAY_REQ_TX (R174, R177): a Delay_Req with a correctionField of 0 is queued in TC7. -/
def execDelayReqTx (dom port : Nat) (s : State) : Host.Outcome State Fault Refusal :=
  .next (
    if dom < 8 ∧ port < 2 ∧ s.flag R.TBU_DOM_CFG_EN [dom] ∧ bitN (s.rd R.TBU_DOM_CFG_PORTS [dom]) port ∧ islOn s 6 then
      let v := ptpGet s dom port
      let s1 := ptpPut (s.inc R.TBU_DOM_DREQ_TX [dom]) dom port { v with dreqSeq := (v.dreqSeq + 1) % 65536 }
      enqueue 65535 port 62 (.delayReq dom v.dreqSeq 0 0 0) s1
    else s)

/-! PPS (R178, R179). -/

/-- Distance to the nearest whole second. -/
def secondError (x : Int) (unit : Int) : Int :=
  let r := x % unit
  if r * 2 < unit then r else r - unit

/-- PPS_IN_PULSE (R178): the edge is stamped in the domain's counter with a resolution of 0.5 ns. Every pulse counts as one of its second,
accepted or not; one not accepted sets PPS_STRAY (R185). PPSERR keeps its low 32 bits (DESIGN CHOICE, log entry 90); the code 3 of PPSMODE,
which no table names, is taken as OFF (DESIGN CHOICE, log entry 125). -/
def execPpsInPulse (input : Nat) (s : State) : Host.Outcome State Fault Refusal :=
  .next (
    let m := s.rd R.TBU_DOM_PPSCFG_PPSMODE [input]
    if 2 ≤ input ∨ m = 0 ∨ m = 3 ∨ !islOn s 6 ∨ s.rd R.TBU_DOM_STATE_STATE [input] = 0 then s
    else
      let x : Int := ((domCnt s input / 2 ^ 43 * 128 : Nat) : Int) - s.rdS R.TBU_DOM_PPSCFG_PPSDLY [input] * 256
      let err := secondError x 256000000000
      let sec := ((x - err) / 256000000000).toNat
      let v := servoGet s input
      let again := v.ppsSec == some sec
      let wide := decide (2 ≤ s.rd R.TBU_DOM_STATE_STATE [input]) && decide (25600000 < err.natAbs)
      if again || wide then raise0 .tbu 3 (servoPut s input { v with ppsSec := some sec })
      else
        (servoPut s input { v with ppsSec := some sec, est := if m = 2 then v.est ++ [err] else v.est }).wrS
          R.TBU_DOM_PPSERR [input] err)

/-- Ns of the present second of PPS_OUT: domain time less OFS (R179). -/
def ppsPhase (s : State) : Nat :=
  let d := s.rd R.TBU_PPSOUT_DOMAIN []
  (((domNs s d : Nat) : Int) - s.rdS R.TBU_PPSOUT_OFS []).toNat % 1000000000

/-- The last tick of the domain has crossed a whole second plus OFS: the time since then is less than the longest step of a tick, 8 ns with
FADJ and the slew. -/
def ppsCrossed (s : State) : Bool :=
  let d := s.rd R.TBU_PPSOUT_DOMAIN []
  let x := ((domCnt s d : Nat) : Int) - s.rdS R.TBU_PPSOUT_OFS [] * 2 ^ 44
  decide (x % (1000000000 * 2 ^ 44) < 8 * 2 ^ 44 + 8 * max 0 (s.rdS R.TBU_DOM_FADJ [d]) + slewStepPs)

/-- PPS_OUT_EDGE (R179): the pin rises at a whole second plus OFS, at the tick of 8 ns that crosses that instant, and falls WIDTH µs
later; disabled or squelched it stays low, and a pin held low resumes only at a whole second. -/
def execPpsOutEdge (s : State) : Host.Outcome State Fault Refusal :=
  .next (
    let d := s.rd R.TBU_PPSOUT_DOMAIN []
    let ok := islOn s 6 && s.flag R.TBU_PPSOUT_EN [] && !(s.flag R.TBU_PPSOUT_SQUELCH [] && !domUsable s d) &&
      s.rd R.TBU_DOM_STATE_STATE [d] != 0
    let high := if s.ppsOut then decide (ppsPhase s < s.rd R.TBU_PPSOUT_WIDTH [] * 1000) else ppsCrossed s
    { s with ppsOut := ok && high })

end Sys2Proof.Machine
end

