-- ==== Sys2Proof/Machine/Correct.lean ====
section
/-! DEFINITION. Corrections of the calibration coming into force (11_calibration R271, R272): at once, with a wave, or in
a ramp. -/

namespace Sys2Proof.Machine

/-- The words that the CAL writes: `CE.FFTAB`, loop entries, learning bins, `EDA.ECFG`, `ESA.CORR`, `PORT.VCAL` and its own element
records. -/
def calWord (a : Nat) : Bool :=
  (decide (0x900000 ≤ a) && decide (a < 0x2000000)) || (decide (0x20000 ≤ a % 0x100000) && decide (a % 0x100000 < 0x40000) && decide (0x2000000 ≤ a) && decide (a < 0x3000000)) ||
    (decide (0x3100000 ≤ a) && decide (a < 0x3200000)) || (decide (0x3810000 ≤ a) && decide (a < 0x3820000)) ||
    (decide (0x4800000 ≤ a) && decide (a < 0x4900000))

/-- Bits that the CAL writes: RW fields, and the RO fields of its own records (R6). -/
def calMask (a : Nat) : Nat := if 0x4800000 ≤ a then fieldMask a else loadMask a

/-- Words of a correction or of a calibration record come into force; the bits that the CAL writes are the calibrated values from
then on (R6, R273, R406).
A new `ESA.CORR` word ends its parity error (R100). -/
def putCal (fields : List (Nat × Nat × Nat)) (s : State) : State :=
  (fields.filter fun f => calWord f.1).foldl (fun t f =>
    let t1 := putMasked f.1 (Nat.land f.2.1 (calMask f.1)) f.2.2 t
    let w := (mirrored f.1).foldl (fun c a => cellSet resetWord c a
      (maskIn (resetWord a) (BitVec.ofNat 32 (calMask a)) (cellGet resetWord t1.regs a))) t1.wcal
    let bad := t1.corrBad.filter fun n => !(decide (0x3100000 + 16 * n ≤ f.1) && decide (f.1 < 0x3100010 + 16 * n))
    { t1 with wcal := w, corrBad := bad }) s

def corrGet (s : State) (n : Nat) : List (Nat × Nat × Nat) := cellGet (fun _ => []) s.corr n

/-- No correction waits for an actuator, and no ramp runs. -/
def corrDrop (n : Nat) (s : State) : State :=
  { s with corr := cellErase s.corr n, ramps := cellErase s.ramps n }

/-- The correction that waits for an actuator, or the target of its ramp. -/
def corrFields (s : State) (n : Nat) : List (Nat × Nat × Nat) :=
  match s.ramps.find? fun r => r.1 == n with
  | some r => r.2.fields
  | none => corrGet s n

/-- An actuator's correction comes into force whole (R271): `CAL.RECORD.DIRTY` shows it. -/
def corrApply (n : Nat) (s : State) : State :=
  let l := corrFields s n
  if l.isEmpty then s else (putCal l (corrDrop n s)).wr R.CAL_RECORD_DIRTY [] 1

/-- The state as it will be when the correction of an actuator is in force: what a retarget record carries (R271). -/
def corrView (n : Nat) (s : State) : State := putCal (corrFields s n) s

/-- Value of step `k` of `kk`: old + round((new − old) × k / kk) (R272). -/
def rampValue (old new : Int) (k kk : Nat) : Int :=
  if kk = 0 then new else old + (2 * (new - old) * (k : Int) + kk) / ((2 * kk : Nat) : Int)

/-- Fields of a word that a ramp interpolates: UMOD, TCO and TREF of a loop entry, the points of `PORT.VCAL` (R272), as (lowest bit,
width, signed). -/
def rampParts (a : Nat) : List (Nat × Nat × Bool) :=
  if 0x1000000 ≤ a ∧ a < 0x1800000 then
    (if a % 64 = 8 then [(0, 17, false), (24, 8, true)] else if a % 64 = 0xC then [(16, 16, true)] else [])
  else if 0x3810000 ≤ a ∧ a < 0x3820000 then
    (if a % 64 < 0x20 then [(0, 16, false), (16, 16, false)] else if a % 64 = 0x20 then [(0, 16, false)] else [])
  else []

/-- A part of a word as a number. -/
def partVal (w lo width : Nat) (sgn : Bool) : Int := if sgn then toS width (bitsN w lo width) else (bitsN w lo width : Nat)

/-- One word of a ramp at step `k`. -/
def rampWord (r : Ramp) (k : Nat) (f : Nat × Nat × Nat) (s : State) : State :=
  let old := ((r.olds.find? fun o => o.1 == f.1).map (·.2)).getD 0
  let hit := (rampParts f.1).filter fun p => Nat.land f.2.1 ((2 ^ p.2.1 - 1) * 2 ^ p.1) != 0
  hit.foldl (fun t p =>
    let v := rampValue (partVal old p.1 p.2.1 p.2.2) (partVal f.2.2 p.1 p.2.1 p.2.2) k r.len
    wrWord t f.1 (setBits (readN t f.1) p.1 p.2.1 (ofS p.2.1 v))) s

/-- One update of a loop whose correction is applied gradually (R272): at the last one every field is written. -/
def rampTick (n : Nat) (s : State) : State :=
  match s.ramps.find? fun r => r.1 == n with
  | none => s
  | some (_, r) =>
    let k := r.step + 1
    if r.len ≤ k then corrApply n s
    else
      let s1 := { s with ramps := cellSet (fun _ => Ramp.idle) s.ramps n { r with step := k } }
      r.fields.foldl (fun t f => rampWord r k f t) s1

/-- Fields of a newer correction take the place of a waiting one's; the others stay (R271, R272). -/
def mergeFields (l new : List (Nat × Nat × Nat)) : List (Nat × Nat × Nat) :=
  (l.filter fun f => !(new.any fun g => g.1 == f.1 && g.2.1 == f.2.1)) ++ new

/-- A loop's updates in 5 ms at a rate (R272). -/
def rampLen (rate : Nat) : Nat := 2500 / 2 ^ rate

/-- Start or restart a ramp towards a correction, from the values reached (R272); fields of a running ramp that the newer correction does
not name keep their targets. -/
def rampStart (n : Nat) (fields : List (Nat × Nat × Nat)) (s : State) : State :=
  let old := ((s.ramps.find? fun r => r.1 == n).map (·.2.fields)).getD []
  let l := mergeFields old fields
  let r : Ramp := ⟨0, rampLen (s.rd R.LT_LOOP_RATE [n]), l, l.map fun f => (f.1, readN s f.1)⟩
  { s with corr := cellErase s.corr n, ramps := cellSet (fun _ => Ramp.idle) s.ramps n r }

/-! Background steps in progress (R267 to R269). -/

/-- Background steps run (R267): the mode's plans are active, EN is set, the CAL is not suspended. -/
def bgRuns (s : State) : Bool := modeActive (modeOf s) && s.flag R.CAL_BGCFG_EN [] && islServing s 0

/-- Seconds between visits of an actuator (R268): by the band of its island, for B3 that of band B0. -/
def visitEvery (s : State) (n k : Nat) : Nat :=
  match if k = 3 then 0 else s.rd R.THM_ISL_BAND [actIsland n] with
  | 0 => s.rd R.CAL_BGINT_B0 []
  | 1 => s.rd R.CAL_BGINT_B1 []
  | 2 => s.rd R.CAL_BGINT_B2 []
  | _ => s.rd R.CAL_BGINT_B3 []

/-- Step `k` of an actuator is due: an interval has passed since its last visit. -/
def visitDue (s : State) (n k : Nat) : Bool :=
  let v := cellGet (fun _ => 0) s.calx.visits (4 * n + k)
  v == 0 || decide (v - 1 + visitEvery s n k * 1000000000 ≤ s.time)

/-- A visit takes place. -/
def noteVisit (n k : Nat) (s : State) : State :=
  { s with calx := { s.calx with visits := cellSet (fun _ => 0) s.calx.visits (4 * n + k) (s.time + 1) } }

/-- A step is abandoned for a wave (R269). -/
def stepAbort (s : State) : State := raise0 .cal 2 (s.incS R.CAL_ABORTED [])

/-- Commands that a B1 step in progress has averaged. -/
def ucsOf (s : State) (n : Nat) : List Nat := (cellGet (fun _ => LoopX.zero) s.loopX n).ucs

def ucsPut (n : Nat) (l : List Nat) (s : State) : State :=
  { s with loopX := cellSet (fun _ => LoopX.zero) s.loopX n { cellGet (fun _ => LoopX.zero) s.loopX n with ucs := l } }

/-- An update's command counts in the B1 step of a visit that is due, up to 64 (R267). -/
def noteUcmd (n u : Nat) (s : State) : State :=
  if bgRuns s && visitDue s n 1 then ucsPut n ((u :: ucsOf s n).take 64) s else s

/-- An actuator named by a wave at its arming abandons its step: it resumes at its next turn (R269). -/
def abandonStep (n : Nat) (s : State) : State :=
  if (ucsOf s n).isEmpty then s else stepAbort (noteVisit n 1 (ucsPut n [] s))

end Sys2Proof.Machine
end

