-- ==== Sys2Proof/Machine/WaveOps.lean ====
section
/-! DEFINITION. What changes the fabric: element moves of a set of changes (02, 08), temperature above an actuator (18),
the actuation budget (R80, R81), arming (R131, R222), retargeting at T0 (R132 to R135), path records (R204), element
availability (R199) and repairs (R200). -/

namespace Sys2Proof.Machine

/-! Temperature (R98, R126, R408). -/

/-- Grid cell above an actuator or sensor: row of its bank, column of its stage; input taps column 0, output taps and
VOAs column 15. Ports use the row of their connector's bank. -/
def cellAbove (n : Nat) : Nat :=
  if n < 34816 then 16 * bankOf n + min 15 (elemStage n)
  else if n < 35840 then 16 * ((n - 34816) % 512 / 32) + 15
  else 16 * ((n - 35840) % 512 / 32)

/-- A sensor that is valid. -/
def cellValid (s : State) (c : Nat) : Bool := s.flag R.THM_TEMP_VALID [c] && !s.flag R.THM_TEMP_BROKEN [c]

/-- Grid neighbours of a cell: the cells that share an edge. -/
def cellNeighbours (c : Nat) : List Nat :=
  (if 16 ≤ c then [c - 16] else []) ++ (if c < 240 then [c + 16] else []) ++
    (if 0 < c % 16 then [c - 1] else []) ++ (if c % 16 < 15 then [c + 1] else [])

/-- Reading above an actuator in 2⁻⁸ °C; a broken one is replaced by the mean of its valid neighbours, rounded down in these units
(DESIGN CHOICE, log entry 82); none where no neighbour is valid. -/
def tempAbove (s : State) (n : Nat) : Option Int :=
  let c := cellAbove n
  if cellValid s c then some (s.rdS R.THM_TEMP_TEMP [c])
  else
    let l := (cellNeighbours c).filter (cellValid s)
    if l.isEmpty then none else some ((l.map fun x => s.rdS R.THM_TEMP_TEMP [x]).sum / (l.length : Int))

/-- The temperature t of R98 and R126: without a valid neighbour it is TCAL of the sensor. -/
def tempOf (s : State) (n : Nat) : Int := (tempAbove s n).getD (s.rdS R.ESA_CORR_TCAL [n] * 256)

/-- Temperature-corrected model command mt of R126. -/
def modelAt (umod : Nat) (tco tref t top : Int) : Nat :=
  (clampI 0 top ((umod : Int) + sra (tco * (t - tref * 256)) 16)).toNat

/-- Input port whose connection uses an element after a set of changes. -/
def inputOf (l : List Chg) (e : Nat) : Option Nat :=
  l.findSome? fun c => match c.new with
    | some r => if (routeElems r).any fun p => p.1 == e then some (dIn r.desc) else none
    | none => none

/-! Budget (R80, R81). -/

/-- Hold code left on a ramp at a local instant, ΔH aside (R80). -/
def rampAt (h0 dec t0 x : Nat) : Nat :=
  if x < t0 + 2000 then h0 else (h0 * 16384 - dec * ((x - t0 - 2000) / 125)) / 16384

/-- Elements that kick in a wave. -/
def kicksOf (l : List EMove) : List Nat := (l.filter (·.kick)).map (·.elem)

/-- Hold codes at a local instant on the ramps of armed waves, that of an element only for its last kick. -/
def armedHold (x : Nat) (again : List Nat) : List Wave → Nat
  | [] => 0
  | w :: t =>
    let later := again ++ (t.map fun v => kicksOf v.moves).flatten
    (w.moves.map fun m => if !m.kick || later.contains m.elem then 0 else rampAt (min 102 m.h0) m.dec w.start x).sum +
      armedHold x again t

/-- Hold codes projected to a local instant: ramps of running drives and of armed waves that are not kicked again. -/
def holdSum (s : State) (x : Nat) (again : List Nat) : Nat :=
  let armedK := (s.armed.map fun w => kicksOf w.moves).flatten
  let run := s.drv.map fun c =>
    let d := c.2
    if d.phase = 0 ∨ again.contains c.1 ∨ armedK.contains c.1 then 0 else rampAt (min 102 d.h0) d.dec d.t0 x
  run.sum + armedHold x again s.armed

/-- Bank slice whose VPIN limits are read: the first powered one; they are written alike in all. -/
def vpinBank (s : State) : Nat := ((span 0 16).find? fun k => islOn s (12 + k)).getD 0

/-- A wave of these moves at local instant `start` breaks items 1, 3 or 4 of R80. -/
def overBudget (s : State) (moves : List EMove) (start : Nat) : Bool :=
  let k := vpinBank s
  let q := (moves.map (·.charge)).sum
  let h := holdSum s (start + 74) (kicksOf moves) + (moves.map fun m => min 102 m.h0).sum
  decide (8192 < moves.length) || decide (s.rd R.EDA_VPIN_CFG_QMAX [k] * 10240000 < q * 20) ||
    decide (s.rd R.EDA_VPIN_CFG_HMAX [k] * 102400 < h * 20)

/-- Local T0 of the wave armed or started last. -/
def lastStart (s : State) : Option Nat := (s.armed.getLast?).map (·.start)

/-- Item 2 of R80 is broken. -/
def tooClose (s : State) (start : Nat) : Bool :=
  (match lastStart s with | some x => decide (start < x + 20000) | none => false) ||
    (decide (0 < s.rd R.RS_WAVENO_WAVE []) && decide (start < s.lastT0 + 20000))

/-- State of an element once every wave armed has started (R81). -/
def stArmed (s : State) (e : Nat) : Nat :=
  ((s.armed.reverse.findSome? fun w => w.moves.find? fun m => m.elem == e).map (·.st)).getD (drvGet s e).st

/-- The latched move of one element (R65, R66, R69, R222): heater command mt of its new state; class and sign from the state that
the waves armed before leave it in; band of its island, KSCALE and table entry as they stand at arming (R81). -/
def latchMove (s0 : State) (chgs : List Chg) (p : Nat × Nat) : EMove :=
  let e := p.1
  let s := corrView e s0
  let k := bankOf e
  let old := stArmed s0 e
  let u := modelAt (calCode s e p.2) (s.rdS R.CAL_EREC_TCO [e]) (s.rdS R.CAL_EREC_TREF [e]) (tempOf s e) 131071
  let cls := kickClass s e old p.2
  let refs := match inputOf chgs e with | some i => 35840 + elemPlane e * 512 + i | none => 0
  let cset := s.rd R.LT_LOOP_CSET [e]
  if cls = 0 then ⟨e, p.2, u, false, 0, false, 0, 0, 0, 0, refs, cset⟩
  else
    let band := bandOf s (12 + k)
    let neg := kickNeg s e old p.2
    let j := kickEntry band neg cls
    let h := kickH0 s e j
    ⟨e, p.2, u, true, j, neg, s.rd R.EDA_ECFG_KSCALE [k, localIx e], h, rampDec (min 102 h) (handoverUs s k band),
      scaledCharge s e j, refs, cset⟩

/-! VOAs opened by a wave (R131, R145, R149). -/

/-- 10 pW units of a level code: round(10^((c − 4,000) / 1,000) × 10⁸), by an integer 1000-th root (R149). -/
def rootSearch (num den : Nat) : Nat → Nat → Nat → Nat
  | 0, lo, _ => lo
  | n + 1, lo, hi =>
    if hi ≤ lo + 1 then lo
    else
      let m := (lo + hi) / 2
      if m ^ 1000 * den ≤ num then rootSearch num den n m hi else rootSearch num den n lo m

/-- 2 × the level rounded down, so that rounding is exact: (2x)^1000 = 2^1000 × 10^(c + 4000). -/
def levelUnits (c : Nat) : Nat := (rootSearch (2 ^ 1000 * 10 ^ (c + 4000)) 1 40 0 (2 ^ 36) + 1) / 2

/-- Level of a set-point input (R153): PLO + round((PHI − PLO) × V / 65,535), the levels those of its latest measurement (R154). -/
def setptCode (s : State) (k : Nat) : Nat :=
  let w := setptLevels s k
  let lo : Int := (w % 65536 : Nat)
  let hi : Int := (w / 65536 : Nat)
  let v := if s.rd R.PORT_SETPT_MODE [k] = 0 then s.rd R.PORT_SETPT_FB [k] else s.rd R.PORT_SETPT_V [k]
  (lo + ((hi - lo) * (v : Nat) * 2 + 65535) / 131070).toNat

/-- Equalisation goal of a port, 10 pW units (R145). -/
def eqGoal (s : State) (n : Nat) : Nat :=
  let l := 34816 + n
  match s.rd R.LT_VOA_EQSRC [l] with
  | 0 => levelUnits (s.rd R.LT_VOA_EQV [l])
  | 1 => levelUnits (setptCode s (s.rd R.LT_VOA_SPSEL [l]))
  | _ => 4294967295

/-- SLP cap of a port's class. -/
def slpCap (s : State) (n : Nat) : Nat := s.rd R.PORT_SLPCAP [s.rd R.LT_VOA_SLPCLS [34816 + n]]

/-- Input taps of an input port: latest values (word 0 repeats the last valid value). -/
def inTap (s : State) (p i : Nat) : Nat := s.rd R.ESA_SAMPLE_VALUE [35840 + p * 512 + i]
def outTap (s : State) (p n : Nat) : Nat := s.rd R.ESA_SAMPLE_VALUE [34816 + p * 512 + n]

/-- Normalisation floor of a port's group, from the plane X coefficient set (R144). -/
def groupFloor (s : State) (n : Nat) : Nat :=
  let l := 34816 + n
  let j := (s.rd R.LT_LOOP_CSET [l] + bandOf s (actIsland l) * s.rd R.CE_CSBAND_STRIDE []) % 256
  s.rd R.CE_CSET_YFLOOR [j]

/-- Share of plane X in a port's light, Q0.16 (R145). -/
def shareX (s : State) (n i : Nat) : Nat :=
  let x := inTap s 0 i
  let y := inTap s 1 i
  if x + y < groupFloor s n then 32768 else max 4096 (min 61440 (x * 65536 / (x + y)))

/-- The least attenuation in steps of 40 dB / 65,536 that brings power `inp`, less a loss in 0.01 dB, down to `goal`, and whether it meets
the goal exactly. Powers are taken in 2⁻⁶⁴ units, so that 10^(loss / 1,000) is rounded there only. -/
def attSteps (inp goal loss : Nat) : Nat × Bool :=
  let top := goal * 2 ^ 64 * 10 ^ (loss / 1000 + 1) + 2
  let g := lastOk (fun x => decide (x ^ 1000 ≤ (goal * 2 ^ 64) ^ 1000 * 10 ^ loss)) (Nat.log2 top + 1) 0 top
  let a := (inp * 2 ^ 64) ^ 16384
  let b := g ^ 16384
  let k := if a ≤ b then 0 else lastOk (fun k => decide (b * 10 ^ k < a)) 17 0 65536 + 1
  (k, a == b * 10 ^ k)

/-- Transmission code that brings a VOA's plane to a goal (R131, R142): the rule states no rounding, so that a code between two whole
numbers is either of them, which one is open (log entry 19). -/
def transCode (inp goal loss : Nat) : Nat :=
  let k := attSteps inp goal loss
  max 1 (min 65535 (65536 - k.1 + b2n (!k.2 && Config.openUp inp goal loss)))

/-- UMOD of a VOA that a created or re-homed connection opens (R131): the code whose nominal loss brings the path's
transmission down to the VOA's share. The loss is that measured in C7 for the output in this plane, in 0.01 dB; the input's power its
latest VALID reading, and T = 1 where there never was one. -/
def openCode (s : State) (p n i : Nat) : Nat :=
  if cellGet (fun _ => 0) s.validAt (35840 + p * 512 + i) = 0 then 1
  else
    let sh := if p = 0 then shareX s n i else 65536 - shareX s n i
    let goal := min (eqGoal s n) (slpCap s n) * sh / 65536
    transCode (inTap s p i) goal (cellGet (fun _ => 0) s.calx.c7 (p * 512 + n))

/-- Only CLASS or DOMAIN changes (R190). -/
def restates (c : Chg) : Bool :=
  match c.old, c.new with
  | some a, some b => a.routed == b.routed && a.rowX == b.rowX && a.rowY == b.rowY && dIn a.desc == dIn b.desc && c.named
  | _, _ => false

/-- A routed connection keeps its input and its output. -/
def sameEnds (c : Chg) : Bool :=
  match c.old, c.new with
  | some a, some b => a.routed && dIn a.desc == dIn b.desc
  | _, _ => false

/-- Codes latched for the VOAs that the connections of a wave open (R131): one moved with its input and output unchanged keeps its present
UCMD; one created, given a new input, or routed again after it had no path opens at the share of its goal. A restatement moves nothing
(R190). -/
def voaCodes (s : State) (l : List Chg) : List (Nat × Nat) :=
  (l.map fun c => match c.new with
    | some r =>
      if r.routed && !restates c then
        [0, 1].map fun p => (voaLoop p c.out,
          if sameEnds c && !s.flag R.RS_CONN_UNROUTED [c.out] then s.rd R.LT_LOOP_UCMD [voaLoop p c.out] else openCode s p c.out (dIn r.desc))
      else []
    | none => []).flatten

/-! Arming (R81, R94, R131, R222). -/

/-- A wave refused at arming: every bank slice that holds an element of it reports (R81). -/
def refuseWave (moves : List EMove) (close : Bool) (s : State) : State :=
  (span 0 16).foldl (fun t k =>
    match moves.find? fun m => bankOf m.elem == k with
    | some m =>
      let t1 := if close then wrWord t (0x2000000 + 0x100000 * k)
        (setBits (readN t (0x2000000 + 0x100000 * k)) 5 1 1) else t
      raise (.eda k) 4 (Cause.at (rbAddr m.elem)) t1
    | none => t) s

/-- Tangram assigns elements of a bank again: the clear of its cold restart ends (R72). -/
def assignBank (k : Nat) (s : State) : State :=
  if (bankGet s k).unassigned then bankPut s k { bankGet s k with unassigned := false } else s

/-- Arm a wave for a local start instant: checked once across all banks; none when it is refused. Background steps of what it names are
abandoned (R269). Its loops take the lit rate at
their next boundaries (`rateAt`). -/
def armWave (dom t0 start : Nat) (units : List (Nat × SUnit)) (s : State) : Bool × State :=
  let chgs := waveChgs units
  let moves := (movesOf chgs).map (latchMove s chgs)
  let close := tooClose s start
  if close || overBudget s moves start then (false, refuseWave moves close s)
  else
    let s1 := (span 0 16).foldl (fun t k =>
      if moves.any fun m => bankOf m.elem == k then assignBank k t else t) s
    let voas := voaCodes s1 chgs
    let s2 := (moves.map (·.elem) ++ voas.map (·.1)).foldl (fun t n => abandonStep n t) s1
    (true, reshed { s2 with armed := s2.armed ++ [⟨start, dom, t0, units, moves, voas⟩] })

/-! T0 (R132, R204). -/

/-- Retarget of an element loop at T0 (R132): fields of its record, MODEL_HOLD with cause 2, states cleared. Combiners
and splitters in T seek the minimum, splitters in S the maximum. The heater command latched in the EDA counts as the loop's last command,
without hold correction (DESIGN CHOICE, log entry 83). The rules give no values for three fields of the record: a gradient loop's TARGET is
0, DITH_EN is set unless the state is PARK, and CSET stays (DESIGN CHOICE, log entry 123). -/
def retarget (m : EMove) (s0 : State) : State :=
  let e := m.elem
  let s := corrApply e s0
  let w (F : Fld) (v : Nat) (t : State) : State := t.wr F [e] v
  let ext := b2n (decide (m.st = stS) && decide (elemPos e < 2))
  let s1 := w R.LT_LOOP_TSTATE m.st (w R.LT_LOOP_EXT ext (w R.LT_LOOP_UMOD (calCode s e m.st)
    (w R.LT_LOOP_TCO (s.rd R.CAL_EREC_TCO [e]) (w R.LT_LOOP_TREF (s.rd R.CAL_EREC_TREF [e])
    (w R.LT_LOOP_REFS m.refs (w R.LT_LOOP_CSET m.cset (w R.LT_LOOP_TARGET 0 (w R.LT_LOOP_DITH_EN (b2n (m.st != 0))
    (w R.LT_LOOP_UCMD m.u (w R.LT_LOOP_DH 0 s))))))))))
  let s2 := w R.LT_LOOP_STATE 1 (w R.LT_LOOP_HCAUSE 2 (w R.LT_LOOP_DEMOD 0 (w R.LT_LOOP_YAVG 0
    (w R.LT_LOOP_NBAD 0 (w R.LT_LOOP_NGOOD 0 s1)))))
  let s3 := (span 0 8).foldl (fun t i => t.wr R.LT_LOOP_S [e, i] 0) s2
  let x := { cellGet (fun _ => LoopX.zero) s3.loopX e with ul := m.u, w := 0, ucs := [] }
  { s3 with moved := cellSet (fun _ => 0) s3.moved e (s3.time + 1), loopX := cellSet (fun _ => LoopX.zero) s3.loopX e x }

/-- A retarget record that reaches a loop under clear: the record is taken, the loop stays in MODEL_HOLD with cause 1
(R134). -/
def retargetHeld (m : EMove) (s : State) : State := (retarget m s).wr R.LT_LOOP_HCAUSE [m.elem] 1

/-- Heater code of a transmission code (R142): VOA `v` is plane × 512 + port. -/
def voaTable (s : State) (v t : Nat) : Nat :=
  let p (j : Nat) : Int :=
    ((if j % 2 = 0 then s.rd R.PORT_VCAL_P_E [v, j / 2] else s.rd R.PORT_VCAL_P_O [v, j / 2] : Nat) : Int)
  if t = 0 then s.rd R.PORT_VCAL_BCODE [v]
  else
    let j := t / 4096
    (p j + sra ((p (j + 1) - p j) * ((t % 4096 : Nat) : Int) + 2048) 12).toNat

/-- A VOA's driver takes a command (R142, R143): UCMD, and the heater code that the table gives it now. -/
def voaCommand (l t : Nat) (s : State) : State :=
  let s1 := s.wr R.LT_LOOP_UCMD [l] t
  { s1 with voaOut := cellSet (fun _ => 0) s1.voaOut (l - 34816) (voaTable s1 (l - 34816) t) }

/-- A VOA's output port. -/
def voaPort (n : Nat) : Nat := (n - 34816) % 512

/-- A VOA that a wave opens: it transmits its latched code from T0, its states cleared (R128, R132); that of a port held dark stays in
model hold with cause 1 (R311). -/
def openVoa (p : Nat × Nat) (s : State) : State :=
  if !islOn s (actIsland p.1) || s.rd R.LT_LOOP_STATE [p.1] = 0 then s
  else
    let s0 := corrApply p.1 s
    let s1 := ((s0.wr R.LT_LOOP_UMOD [p.1] p.2).wr R.LT_LOOP_STATE [p.1] 1).wr R.LT_LOOP_HCAUSE [p.1] (if heldDark s (voaPort p.1) then 1 else 2)
    let s2 := ((voaCommand p.1 p.2 s1).wr R.LT_LOOP_NBAD [p.1] 0).wr R.LT_LOOP_NGOOD [p.1] 0
    let s3 := (span 0 8).foldl (fun t i => t.wr R.LT_LOOP_S [p.1, i] 0) s2
    let x := { cellGet (fun _ => LoopX.zero) s3.loopX p.1 with ul := p.2, w := 0, ucs := [] }
    { s3 with moved := cellSet (fun _ => 0) s3.moved p.1 (s3.time + 1), loopX := cellSet (fun _ => LoopX.zero) s3.loopX p.1 x }

/-- A VOA whose output loses its connection sends block (R132). -/
def blockVoa (l : Nat) (s : State) : State :=
  if !islOn s (actIsland l) || s.rd R.LT_LOOP_STATE [l] = 0 then s
  else voaCommand l 0 ((s.wr R.LT_LOOP_STATE [l] 1).wr R.LT_LOOP_HCAUSE [l] 0)

/-! Availability (R199). -/

/-- `RS.EFAIL` bit of an element. -/
def unavailable (s : State) (e : Nat) : Bool := mapBit s 0x730000 e
/-- `RS.ESUSP` bit. -/
def suspect (s : State) (e : Nat) : Bool := mapBit s 0x731100 e

/-- Outputs whose live path uses an element that satisfies `p`. -/
def outputsUsing (s : State) (p : Nat → Bool) : List Nat :=
  (span 0 512).filter fun n => match liveRoute s n with
    | some r => (routeElems r).any fun x => p x.1
    | none => false

/-- Any loop of a connection is FROZEN. -/
def anyFrozen (s : State) (o : Nat) : Bool :=
  s.rd R.LT_LOOP_STATE [voaLoop 0 o] == 3 || s.rd R.LT_LOOP_STATE [voaLoop 1 o] == 3 ||
    (match liveRoute s o with
     | some r => (routeElems r).any fun p => s.rd R.LT_LOOP_STATE [p.1] == 3
     | none => false)

/-- SUSP and FRZ of an output's connection follow its path and its loops (R204). -/
def showFlags (o : Nat) (s : State) : State :=
  let susp := match liveRoute s o with
    | some r => (routeElems r).any fun p => suspect s p.1
    | none => false
  (s.wr R.RS_CONN_SUSP [o] (b2n susp)).wr R.RS_CONN_FRZ [o] (b2n (anyFrozen s o))

/-- A waiting repair ends with a change that gives its output, or its input, another use (R188, R200). -/
def dropRepair (n : Nat) (r : Option Route) (s : State) : State :=
  let own (x : Nat × Nat) : Bool := x.1 == n || (match r with | some y => dIn x.2 == dIn y.desc | none => false)
  { s with repairs := s.repairs.filter fun x => !own x }

/-- The records of one output take a change (R204). -/
def putConn (n : Nat) (r : Option Route) (s0 : State) : State :=
  let s := dropRepair n r s0
  match r with
  | none =>
    let s1 := (s.wr R.RS_CONN_DESC [n] 0).wr R.RS_CONN_UNROUTED [n] 0
    let s2 := s1.wr R.RS_CONN_REPAIR_WAIT [n] 0
    showFlags n ([0, 1].foldl (fun t p => (t.wr R.RS_PATH_VALID [n, p] 0).wr R.RS_PATH_CROW [n, p] 0) s2)
  | some x =>
    let s1 := (s.wr R.RS_CONN_DESC [n] x.desc).wr R.RS_CONN_UNROUTED [n] (b2n (!x.routed))
    let s2 := if x.routed then s1.wr R.RS_CONN_REPAIR_WAIT [n] 0 else s1
    let s3 := (s2.wr R.RS_PATH_VALID [n, 0] (b2n x.routed)).wr R.RS_PATH_VALID [n, 1] (b2n x.routed)
    showFlags n
      ((s3.wr R.RS_PATH_CROW [n, 0] (if x.routed then x.rowX else 0)).wr R.RS_PATH_CROW [n, 1] (if x.routed then x.rowY else 0))

/-- A moved bystander or repaired connection counts a move. -/
def countMove (c : Chg) (s : State) : State := if c.named then s else s.incS R.RS_CONN_MOVES [c.out]

/-! Repairs (R199, R200). -/

/-- Elements become unavailable: their bits are set and the connections through them await a repair solve. -/
def loseElems (l : List Nat) (s : State) : State :=
  if !islOn s 7 then s
  else
    let s1 := l.foldl (fun t e => setMapBit t 0x730000 e true) s
    let hit := (outputsUsing s1 l.contains).filter fun n => !(s1.repairs.any fun r => r.1 == n)
    setRepairs (s1.repairs ++ hit.map fun n => (n, s1.rd R.RS_CONN_DESC [n])) s1

/-- An element declared failed (R83): FAIL, its clear code, a report to Tangram. -/
def declareFailed (e : Nat) (s : State) : State :=
  let k := bankOf e
  let s1 := clearElem (s.wr R.EDA_RB_FAIL [k, localIx e] 1) e
  loseElems [e] (raise (.eda k) 7 (Cause.at (rbAddr e)) s1)

/-- The loop of an element whose bank went off is OFF (R129); its cells are gone with the island. -/
def bankElemList (k : Nat) : List Nat := (span 0 2176).map (elemOfLocal k)

/-! Read-back (R82, R83). -/

/-- Faults that the read-back round finds during a calibration run are kept to its end (R256, R259, R261). -/
def noteRound (e : Nat) (mism hres : Bool) (s : State) : State :=
  let add (l : List Nat) : List Nat := if l.contains e then l else e :: l
  { s with calx := { s.calx with rbBad := if mism || hres then add s.calx.rbBad else s.calx.rbBad,
                                 rbHres := if hres then add s.calx.rbHres else s.calx.rbHres } }

/-- READBACK_VISIT (R82, R83): `latched` holds what the latches of the visited element read, laid out as bits 29:0 of word
0 of `EDA.RB`; `vh` is the heater voltage in mV. -/
def execReadbackVisit (bank latched vh : Nat) (s : State) : Host.Outcome State Fault Refusal :=
  .next (
    if 16 ≤ bank ∨ !islOn s (12 + bank) then s
    else
      let b := bankGet s bank
      let i := b.visits % 2176
      let e := elemOfLocal bank i
      let d := drvGet s e
      let seen := if d.hold = 0 then setBits latched 28 1 (b2n d.seg) else latched
      let mism := decide (seen % 2 ^ 30 ≠ latchWord d)
      let s0 := wrWord s (rbAddr e) (d.st * 2 ^ 30 + Nat.land latched 0x33FFFFFF)
      let k := if d.hi then 6 else 3
      let cur := heaterCode d * k
      let hres := decide (32768 ≤ cur) && (decide (vh * 65536 < 280 * cur) || decide (560 * cur < vh * 65536))
      let comp := decide (2700 < vh)
      let again := (mism && s.flag R.EDA_RB_MISM [bank, i]) || (hres && s.flag R.EDA_RB_HRES [bank, i])
      let w (F : Fld) (v : Nat) (t : State) : State := t.wr F [bank, i] v
      let s1 := w R.EDA_RB_MISM (b2n mism) (w R.EDA_RB_HRES (b2n hres) (w R.EDA_RB_COMP (b2n comp)
        (w R.EDA_RB_VH vh (w R.EDA_RB_RNDNO (b.visits / 2176) (bankPut s0 bank { b with visits := b.visits + 1 })))))
      let c := Cause.at (rbAddr e)
      let s2 := if mism then raise (.eda bank) 0 c s1 else s1
      let s3 := if hres then raise (.eda bank) 1 c s2 else s2
      let s5 := if comp then raise (.eda bank) 2 c s3 else s3
      let s4 := if s.rd R.CAL_RUN_PHASE [] = 0 then s5 else noteRound e mism hres s5
      if again && !elemFailed s4 e then declareFailed e s4 else s4)

end Sys2Proof.Machine
end

