-- ==== Sys2Proof/Machine/Solve.lean ====
section
/-! DEFINITION. Solving (08_connections R190 to R198): named changes of an event, what makes a candidate a solution, the
ranking of R192, units (R219). -/

namespace Sys2Proof.Machine

/-! Named changes (R190, R209). -/

/-- Descriptors an event names against a map (R190, R209): a full map names only the differences. Connections that it drops have no
descriptor; they come first, by output, and the stored descriptors in their order after them (DESIGN CHOICE, log entry 124). -/
def namedDescs (s : State) (f : Nat → Option Route) (r : EvReq) : List Nat :=
  if r.kind = 0 then r.descs
  else
    match planMap s r.count with
    | none => []
    | some m =>
      if m.partialMap then m.descs
      else
        let gone := (span 0 512).filter fun n => match f n with
          | some _ => !(m.descs.any fun d => dValid d && dOut d == n)
          | none => false
        let new := m.descs.filter fun d => dValid d && (match f (dOut d) with | some x => x.desc != d | none => true)
        gone ++ new

/-- A named change before routing: index of its descriptor, output, old route, new descriptor, and whether the path stays
(a restatement of CLASS or DOMAIN). -/
structure NChg where
  ix : Nat
  out : Nat
  old : Option Route
  desc : Option Nat
  keep : Bool
  deriving DecidableEq, Repr

/-- The named changes of descriptor `ix`: its output, and another output that its input feeds (R209). A connection that stands already with
the same class and domain is a bystander (R190). -/
def changesOf (f : Nat → Option Route) (reopt : Bool) (all : List Nat) (ix d : Nat) : List NChg :=
  let n := dOut d
  if dValid d then
    let same := match f n with | some r => dIn r.desc == dIn d && !reopt | none => false
    let equal := match f n with | some r => r.desc == d && !reopt | none => false
    let other := match outOfIn f (dIn d) with
      | some m => if m ≠ n ∧ !(all.any fun x => dOut x == m) then [⟨ix, m, f m, none, false⟩] else []
      | none => []
    if equal then [] else ⟨ix, n, f n, some d, same⟩ :: other
  else if (f n).isSome then [⟨ix, n, f n, none, false⟩] else []

def namedChanges (f : Nat → Option Route) (reopt : Bool) (l : List Nat) : List NChg :=
  ((span 0 l.length).zipWith (fun i d => changesOf f reopt l i d) l).flatten

/-- The choice a candidate makes for an output. -/
def choiceFor (l : List Choice) (n : Nat) : Option Choice := l.find? fun c => c.out == n

/-- The routed change of a named connection under a candidate; none where it needs a path and the candidate gives none. -/
def routeNamed (c : Cand) (x : NChg) : Option Chg :=
  match x.desc with
  | none => some ⟨x.out, x.old, none, true⟩
  | some d =>
    if x.keep then some ⟨x.out, x.old, x.old.map fun r => { r with desc := d }, true⟩
    else (choiceFor c.named x.out).map fun h => ⟨x.out, x.old, some ⟨d, true, h.rowX, h.rowY⟩, true⟩

/-- The change of a moved bystander. -/
def routeMoved (f : Nat → Option Route) (h : Choice) : Option Chg :=
  (f h.out).map fun r => ⟨h.out, some r, some { r with routed := true, rowX := h.rowX, rowY := h.rowY }, false⟩

/-- All items or none. -/
def allSome {α : Type} : List (Option α) → Option (List α)
  | [] => some []
  | some a :: t => (allSome t).map (a :: ·)
  | none :: _ => none

/-- Units of a candidate (R219): the changes of each descriptor with the bystanders moved for it. -/
def unitsOf (f : Nat → Option Route) (l : List NChg) (c : Cand) (n : Nat) : Option (List SUnit) :=
  (allSome ((span 0 n).map fun i =>
    (allSome (((l.filter fun x => x.ix == i).map (routeNamed c)) ++
      ((c.moved.filter fun m => m.1 == i).map fun m => routeMoved f m.2))).map fun g => (⟨i, g⟩ : SUnit))).map
    fun us => us.filter fun u => !u.chgs.isEmpty

/-! Constraints and ranking (R191, R192). -/

/-- Rows are centre rows. -/
def rowsOk (l : List Chg) : Bool :=
  l.all fun c => match c.new with | some r => decide (r.rowX < 256) && decide (r.rowY < 256) | none => true

/-- Elements of a route's path in one plane. -/
def planeElems (r : Route) (p : Nat) : List (Nat × Nat) :=
  if r.routed then pathElems p (dIn r.desc) (dOut r.desc) (if p = 0 then r.rowX else r.rowY) else []

/-- Paths of a solution, plane by plane (key 2 × output + plane): the new or moved ones, and those that stay as they are. -/
def pathsWhere (moved : Bool) (l : List Chg) : List (Nat × List Nat) :=
  (l.map fun c => match c.new with
    | some r => ([0, 1].filter fun p => ((c.old.map fun o => planeElems o p) != some (planeElems r p)) == moved).map fun p =>
        (2 * c.out + p, (planeElems r p).map (·.1))
    | none => []).flatten

/-- New or moved paths of a solution. -/
def newPaths (l : List Chg) : List (Nat × List Nat) := pathsWhere true l

/-- No two items of a list share an element. -/
def disjointPaths : List (Nat × List Nat) → Bool
  | [] => true
  | a :: t => t.all (fun b => !(a.2.any b.2.contains)) && disjointPaths t

/-- Two paths of one plane never share an element (R38, R191): the new paths among themselves, and with the paths that
stay. -/
def pathsOk (f : Nat → Option Route) (l : List Chg) : Bool :=
  let new := newPaths l
  let changed := l.map (·.out)
  let stay := ((span 0 512).map fun n => if changed.contains n then [] else match f n with
    | some r => [(n, (routeElems r).map (·.1))]
    | none => []).flatten
  disjointPaths new && new.all fun a => (stay ++ pathsWhere false l).all fun b => !(a.2.any b.2.contains)

/-- Bystanders a solution moves, by class: those whose centre row changes in either plane. -/
def movedOf (cls : Nat) (l : List Chg) : Nat :=
  (l.filter fun c => !c.named && decide (c.new ≠ c.old) && (match c.old with | some r => dClass r.desc == cls | none => false)).length

/-- Every moved connection is a bystander of the map and carries no name. -/
def bystandersOk (l : List NChg) (c : Cand) : Bool :=
  c.moved.all fun m => !(l.any fun x => x.out == m.2.out)

/-- Elements marked on the new or moved paths. -/
def countOn (p : Nat → Bool) (l : List Chg) : Nat := (((newPaths l).map fun x => x.2.filter p).flatten).length

/-- Constraint 3: a connection that is routed or moved uses no element marked failed, in either plane. -/
def usesFailed (s : State) (l : List Chg) : Bool :=
  l.any fun c => !restates c && (optElems c.new).any fun p => unavailable s p.1

/-- Neither a failed nor a SUSPECT element lies in the fabric (R193). -/
def fabricWhole (s : State) : Bool := !(s.regs.any fun c => decide (0x730000 ≤ c.1) && decide (c.1 < 0x732200))

/-- Figures a solution is ranked by (R192): GUARDED moved, SUSPECT elements, FREE moved, transitions, rows in plane X and
in plane Y. -/
def rankKey (s : State) (l : List Chg) : List Nat :=
  [movedOf 1 l, countOn (suspect s) l, movedOf 0 l, (movesOf l).length] ++
    (l.map fun c => match c.new with | some r => r.rowX | none => 0) ++
    (l.map fun c => match c.new with | some r => r.rowY | none => 0)

/-- Lexicographic order. -/
def lexLe : List Nat → List Nat → Bool
  | [], _ => true
  | _ :: _, [] => false
  | a :: s, b :: t => if a = b then lexLe s t else decide (a < b)

/-- The lowest of a list by key. -/
def lowest {α : Type} (key : α → List Nat) : List α → Option α
  | [] => none
  | a :: t => match lowest key t with
    | none => some a
    | some b => if lexLe (key a) (key b) then some a else some b

/-- A routed candidate with its flags: moves a PINNED bystander, has a unit above 8,192 transitions (R192, R219). -/
structure Sol where
  units : List SUnit
  pinned : Bool
  big : Bool
  deriving DecidableEq, Repr

def solChgs (x : Sol) : List Chg := (x.units.map (·.chgs)).flatten

/-- Route a candidate against a map; none where it is no routing of this fabric (R191, constraint 3). -/
def solOf (s : State) (f : Nat → Option Route) (l : List NChg) (n : Nat) (c : Cand) : Option Sol :=
  match unitsOf f l c n with
  | none => none
  | some us =>
    let chgs := (us.map (·.chgs)).flatten
    if rowsOk chgs && bystandersOk l c && !usesFailed s chgs && pathsOk f chgs then
      some ⟨us, decide (0 < movedOf 2 chgs), us.any fun u => decide (8192 < unitSize u)⟩
    else none

/-- Solutions that meet constraints 1, 3 and 4. -/
def goodSols (l : List Sol) : List Sol := l.filter fun x => !x.pinned && !x.big

/-- Reason of an event for which no solution exists (R193, R195, R219). -/
def noSolution (l : List Sol) : Nat :=
  if l.any fun x => x.pinned && !x.big then rRipplePinned else if l.any fun x => x.big then rBudget else rUnroutable

/-! A single change (R198). -/

/-- Figures of one row for a new path in plane `p`: SUSPECT elements, transitions, row; none where the path meets a failed element or
one that a connection that stays uses. -/
def rowKey (s : State) (old : List (Nat × Nat)) (stay : List Nat) (p d row : Nat) : Option (List Nat) :=
  let l := pathElems p (dIn d) (dOut d) row
  if l.any fun x => unavailable s x.1 || stay.contains x.1 then none
  else
    let kept := old.filter fun q => l.any fun x => x.1 == q.1
    some [(l.filter fun x => suspect s x.1).length, (l.filter fun x => stateIn old x.1 != x.2).length + (old.length - kept.length), row]

/-- The best row of a plane for a new path that moves no other connection. -/
def bestRow (s : State) (old : List (Nat × Nat)) (stay : List Nat) (p d : Nat) : Option Nat :=
  (lowest id ((span 0 256).filterMap (rowKey s old stay p d))).bind (·.getLast?)

/-- The lowest solution of one new connection that moves no bystander: the two planes share no element, so that each takes its own
best row. `l` are the named changes of the one descriptor. -/
def directCand (s : State) (f : Nat → Option Route) (l : List NChg) : List Cand :=
  match l.filter fun x => x.desc.isSome && !x.keep with
  | [x] =>
    let d := x.desc.getD 0
    let gone := l.map (·.out)
    let stay := ((span 0 512).map fun n => if gone.contains n then [] else (optElems (f n)).map (·.1)).flatten
    let old := (l.map fun y => optElems y.old).flatten
    match bestRow s (old.filter fun q => elemPlane q.1 == 0) stay 0 d, bestRow s (old.filter fun q => elemPlane q.1 == 1) stay 1 d with
    | some a, some b => [⟨[⟨x.out, a, b⟩], []⟩]
    | _, _ => []
  | _ => []

/-! Every solution (R192, R198). -/

/-- Rows whose path in plane `p` meets no failed element. -/
def usableRows (s : State) (p d : Nat) : List Nat :=
  (span 0 256).filter fun r => (pathElems p (dIn d) (dOut d) r).all fun x => !unavailable s x.1

/-- A connection that still needs a path: the descriptor it belongs to (R219), its own descriptor, whether the event names it. -/
structure Need where
  ix : Nat
  desc : Nat
  named : Bool
  deriving DecidableEq, Repr

/-- The elements of a choice of rows. -/
def choiceElems (d rowX rowY : Nat) : List Nat :=
  (pathElems 0 (dIn d) (dOut d) rowX ++ pathElems 1 (dIn d) (dOut d) rowY).map (·.1)

/-- Bystanders among outputs `free` that elements `l` displace, for descriptor `ix`. -/
def displacedBy (f : Nat → Option Route) (free : List Nat) (ix : Nat) (l : List Nat) : List Need :=
  free.filterMap fun n => match f n with
    | some r => if (routeElems r).any fun x => l.contains x.1 then some ⟨ix, r.desc, false⟩ else none
    | none => none

/-- Every candidate that gives each need a pair of rows and each bystander it displaces another pair, so that no two chosen paths meet.
`used` are the elements of paths chosen or kept, `free` the outputs of bystanders not displaced yet. A lowest solution moves no other
bystander: leaving it where it stands would be lower (R192). -/
def searchFrom (s : State) (f : Nat → Option Route) : Nat → List Need → List Nat → List Nat → Cand → List Cand
  | 0, _, _, _, _ => []
  | _ + 1, [], _, _, acc => [acc]
  | k + 1, q :: todo, used, free, acc =>
    let ys := usableRows s 1 q.desc
    ((usableRows s 0 q.desc).map fun x => (ys.map fun y =>
      let l := choiceElems q.desc x y
      if l.any used.contains then []
      else
        let out := displacedBy f free q.ix l
        let c : Choice := ⟨dOut q.desc, x, y⟩
        searchFrom s f k (todo ++ out) (used ++ l) (free.filter fun n => !(out.any fun w => dOut w.desc == n))
          (if q.named then { acc with named := acc.named ++ [c] } else { acc with moved := acc.moved ++ [(q.ix, c)] })).flatten).flatten

/-- Every candidate for the named changes `l`: the continued search of R198, over every choice of centre rows. -/
def searchCands (s : State) (f : Nat → Option Route) (l : List NChg) : List Cand :=
  let needs := (l.filter fun x => !x.keep).filterMap fun x => x.desc.map fun d => (⟨x.ix, d, true⟩ : Need)
  let used := ((l.filter (·.keep)).map fun x => (optElems x.old).map (·.1)).flatten
  let free := (span 0 512).filter fun n => (f n).isSome && !(l.any fun x => x.out == n)
  searchFrom s f 1024 needs used free ⟨[], []⟩

/-- The solutions that candidates make. -/
def solsOf (s : State) (f : Nat → Option Route) (l : List NChg) (n : Nat) (cands : List Cand) : List Sol := cands.filterMap (solOf s f l n)

/-- Every solution of a single change up to its minimum (R198): the best that moves no bystander, which nothing beats while it has no
SUSPECT element, else all. -/
def singleSols (s : State) (f : Nat → Option Route) (l : List NChg) : List Sol :=
  let own := goodSols (solsOf s f l 1 (directCand s f l))
  if own.any fun x => countOn (suspect s) (solChgs x) == 0 then own else solsOf s f l 1 (searchCands s f l)

/-- Maximum solve time of `k` named connections in 0.1 µs (R198). -/
def solveMax (k : Nat) : Nat := if k ≤ 1 then 400 else min 4000 (400 + 60 * (k - 1))

/-- A solve ends: its time is shown (R198). -/
def noteSolve (tenths bound : Nat) (s : State) : State :=
  let s1 := s.wr R.RS_SOLVE_LAST [] (min 65535 tenths)
  let s2 := if s1.rd R.RS_SOLVE_MAX [] < tenths then s1.wr R.RS_SOLVE_MAX [] (min 65535 tenths) else s1
  if bound < tenths then raise0 .rs 5 s2 else s2

/-- Domains that a wave of these changes must coincide with: of GUARDED bystanders moved, and of foreign named connections
(R196, R210); a connection that re-optimisation moves counts as a bystander (R202). -/
def guardDomains (reopt : Bool) (dom : Nat) (l : List Chg) : List Nat :=
  (l.map fun c =>
    if (movesOf [c]).isEmpty then []
    else if c.named && !reopt then
      ((match c.new with | some r => [dDom r.desc] | none => []) ++
        (match c.old with | some r => [dDom r.desc] | none => [])).filter (· != dom)
    else match c.old with
      | some r => if dClass r.desc = 1 then [dDom r.desc] else []
      | none => []).flatten

end Sys2Proof.Machine
end

