-- ==== Sys2Proof/Machine/EventPlace.lean ====
section
/-! DEFINITION. Placement of waves (09_events R219 to R221, R226 to R228; 08 R196): the instants of an event, filling,
spacing and merging, guard windows, ordering, deferral, deadline. Instants are domain ns of the event's domain. -/

namespace Sys2Proof.Machine

/-! Instants. -/

/-- The event is named by an OFFSET instant. -/
def evOffset (e : Ev) : Bool := inKind e.req.instant == 1

/-- Slots of the window the event names. -/
def evSlots (s : State) (e : Ev) : Nat := slotCount s e.dom (inWidx e.req.instant)

/-- The instant after `t` in an event's sequence that starts at `z` (R211, R220); a late event with SPREAD = 1 takes the slots of
whatever windows come (R228). -/
def nextInstant (s : State) (e : Ev) (z t : Nat) : Option Nat :=
  if evOffset e then some (t + 20000)
  else if !(e.late && e.req.spread) && decide (t + 20000 < z + 20000 * evSlots s e) then some (t + 20000)
  else if e.req.spread then slotFrom s e.dom (t + 1)
  else none

/-- Where a late event starts, at or after `lo` (R228): the same offset or window in a later period, or the next slot. -/
def lateStart (s : State) (e : Ev) (lo : Nat) : Option Nat :=
  let p := patOf s e.dom
  if evOffset e then
    let z := epochNs s e.dom + inOfs e.req.instant
    some (if lo ≤ z then z else z + (lo - z + p - 1) / p * p)
  else if e.req.spread then slotFrom s e.dom lo
  else slotZeroFrom s e.dom lo (some (inWidx e.req.instant))

/-! Waves that already stand. -/

/-- Placed waves not yet armed, of the events that satisfy `p` and of repairs: local start and units. -/
def placedWaves (p : Ev → Bool) (s : State) : List (Nat × List (Nat × SUnit)) :=
  ((s.evs.filter p).map fun e =>
    (e.waves.drop e.armed).map fun w => (localOf s e.dom w.1, w.2.2.map fun u => (e.aseq, u))).flatten ++
    s.repairWaves.map fun w => (w.1, w.2.map fun u => (0, u))

/-- Events whose waves stand before those of `e`: accepted earlier (R221). -/
def before (e x : Ev) : Bool := decide (x.aseq < e.aseq)

/-- A wave in prospect, with its moves latched as at arming. -/
def planWave (s : State) (start : Nat) (units : List (Nat × SUnit)) : Wave :=
  let chgs := waveChgs units
  ⟨start, 0, 0, units, (movesOf chgs).map (latchMove s chgs), []⟩

/-- Units of a list of placed waves that stand at one local instant. -/
def unitsAt (l : List (Nat × List (Nat × SUnit))) (x : Nat) : List (Nat × SUnit) :=
  ((l.filter fun w => w.1 == x).map (·.2)).flatten

/-- Numbers in ascending order, each once. -/
def insertUp (a : Nat) : List Nat → List Nat
  | [] => [a]
  | b :: t => if a < b then a :: b :: t else if a = b then b :: t else b :: insertUp a t
def ascending (l : List Nat) : List Nat := l.foldr insertUp []

/-- The state as the waves placed before local instant `x` will leave it: each planned after those before it (R81, R220). -/
def placedBefore (s : State) (l : List (Nat × List (Nat × SUnit))) (x : Nat) : State :=
  (ascending ((l.filter fun w => decide (w.1 < x)).map (·.1))).foldl
    (fun t y => { t with armed := t.armed ++ [planWave t y (unitsAt l y)] })
    { s with armed := s.armed.filter fun a => decide (a.start < x) }

/-- Units fit one wave at local instant `x` beside what stands there, with the hold of every earlier wave, and the states that these
leave (R80, R220). -/
def fitsAt (s : State) (l : List (Nat × List (Nat × SUnit))) (x : Nat) (units : List (Nat × SUnit)) : Bool :=
  let t := placedBefore s l x
  !overBudget t (planWave t x (unitsAt l x ++ units)).moves x

/-- Local instant `x` keeps 20 µs from every other wave and is not that of an armed one (R80, R221). -/
def spacingOk (s : State) (l : List (Nat × List (Nat × SUnit))) (x : Nat) : Bool :=
  let far (y : Nat) : Bool := decide (x + 20000 ≤ y) || decide (y + 20000 ≤ x)
  (decide (s.lastT0 = 0) || decide (s.lastT0 + 20000 ≤ x)) && (s.armed.all fun a => far a.start) &&
    l.all fun w => w.1 == x || far w.1

/-- The longest run of units, in order, that one wave takes. -/
def takeUnits (ok : List SUnit → Bool) : List SUnit → List SUnit → List SUnit
  | acc, [] => acc
  | acc, u :: t => if ok (acc ++ [u]) then takeUnits ok (acc ++ [u]) t else acc

/-! Filling (R220). -/

/-- A placement: waves (T0, first T0 given, units), and whether contention or a guard window delayed one. -/
structure Placement where
  waves : List (Nat × Nat × List SUnit)
  contention : Bool
  guard : Bool
  deriving DecidableEq, Repr

/-- What bounds a placement: earliest instant and the reason of a delay up to it, start of the sequence, DEFER in ns
(none for a late event), last instant allowed (R226, R227). -/
structure Bounds where
  lo : Nat
  why : Nat
  z : Nat
  defer : Option Nat
  last : Option Nat
  deriving DecidableEq, Repr

/-- The instants that placement first gives the units (R220): each wave filled as if no other event had any. That the delay of R226
counts from these is DEDUCED from R221 (log entry 92). -/
def naturals (s : State) (e : Ev) (z : Nat) : Nat → Option Nat → List SUnit → List (Nat × List (Nat × SUnit)) → List Nat
  | 0, _, _, _ => []
  | n + 1, t, us, own =>
    match t, us with
    | some x, u :: rest =>
      let tag (l : List SUnit) : List (Nat × SUnit) := l.map fun v => (e.aseq, v)
      let lx := localOf s e.dom x
      let w := takeUnits (fun v => fitsAt s own lx (tag v)) [u] rest
      List.replicate w.length x ++ naturals s e z n (nextInstant s e z x) ((u :: rest).drop w.length) (own ++ [(lx, tag w)])
    | _, _ => []

/-- The natural instants of an event's units from start `z` on. -/
def naturalsOf (s : State) (e : Ev) (z : Nat) (units : List SUnit) : List Nat :=
  naturals { s with armed := [] } e z units.length (some z) units []

/-- A wave of these units meets a window of every domain that it must coincide with (R194, R196, R210). -/
def meetsGuards (s : State) (e : Ev) (x : Nat) (us : List SUnit) : Bool :=
  (guardDomains (isReopt e) e.dom (us.map (·.chgs)).flatten).all fun d => coincides s e.dom x d

/-- Place units from instant `t` on, each with its natural instant. The error is the reason of the failure, DEADLINE for an expiry, and 0
where a wave does not coincide with a window that it must meet. -/
def fillWaves (s : State) (e : Ev) (b : Bounds) (others : List (Nat × List (Nat × SUnit))) :
    Nat → Option Nat → Nat → List Nat → List SUnit → Placement → Except Nat Placement
  | 0, _, why, _, _, _ => .error why
  | n + 1, t, why, nat, units, acc =>
    if units.isEmpty then .ok acc
    else match t with
    | none => .error why
    | some x =>
      let first := nat.headD x
      if (match b.last with | some m => decide (m < x) | none => false) then .error rDeadline
      else if (match b.defer with | some d => decide (first + d < x) | none => false) then .error why
      else if x < b.lo then fillWaves s e b others n (nextInstant s e b.z x) why nat units acc
      else
        let own := acc.waves.map fun w => (localOf s e.dom w.1, w.2.2.map fun u => (e.aseq, u))
        let l := others ++ own
        let lx := localOf s e.dom x
        let fit (us : List SUnit) : Bool := fitsAt s l lx (us.map fun u => (e.aseq, u))
        if !spacingOk s l lx || !fit (units.take 1) then
          fillWaves s e b others n (nextInstant s e b.z x) rBudget nat units { acc with contention := true }
        else
          let us := takeUnits fit [] units
          let pushed := decide ((nat.drop us.length).headD (x + 1) ≤ x)
          if !meetsGuards s e x us then .error 0
          else fillWaves s e b others n (nextInstant s e b.z x) rBudget (nat.drop us.length) (units.drop us.length)
            ⟨acc.waves ++ [(x, first, us)], acc.contention || pushed, acc.guard⟩

/-- The event is deferred as a whole (R196): it starts at the earliest of its instants at which a wave coincides with a window of every
domain concerned, and from which every wave that must coincide does. -/
def deferWaves (s : State) (e : Ev) (b : Bounds) (others : List (Nat × List (Nat × SUnit))) (fuel : Nat) (nat : List Nat)
    (units : List SUnit) : Nat → Option Nat → Except Nat Placement
  | 0, _ => .error rNoGuardWindow
  | n + 1, t =>
    match t with
    | none => .error rNoGuardWindow
    | some x =>
      if (match b.last with | some m => decide (m < x) | none => false) then .error rDeadline
      else if (match b.defer with | some d => decide (nat.headD x + d < x) | none => false) then .error rNoGuardWindow
      else if x < b.lo || !meetsGuards s e x units then deferWaves s e b others fuel nat units n (nextInstant s e b.z x)
      else match fillWaves s e b others fuel (some x) rNoGuardWindow nat units ⟨[], false, true⟩ with
        | .error 0 => deferWaves s e b others fuel nat units n (nextInstant s e b.z x)
        | r => r

/-- Number of instants a placement looks at: more than the greatest DEFER holds. -/
def placeFuel : Nat := 400000

/-- Number of occurrences of a window a late placement looks at. -/
def lateFuel : Nat := 65536

/-- Earlier accepted events that share a port and are not final (R226). -/
def earlierSharing (s : State) (e : Ev) : List Ev := s.evs.filter fun x => decide (x.aseq < e.aseq) && sharePort x e

/-- An earlier sharing event has no waves yet. -/
def orderBlocked (s : State) (e : Ev) : Bool := (earlierSharing s e).any fun x => decide (x.st < evScheduled)

/-- First domain instant after the last wave of every earlier sharing event. -/
def orderLo (s : State) (e : Ev) : Nat :=
  ((earlierSharing s e).map fun x => (x.waves.map fun w => crossTime s x.dom e.dom w.1 + 1).foldl max 0).foldl max 0

/-- Earliest T0 that can still be armed: 24 µs from now (R222). -/
def armLo (s : State) (e : Ev) : Nat := domNs s e.dom + 24000

/-- Bounds of an event's placement; a started event goes on until the latest T0 that its deadline allows (R227). -/
def boundsOf (s : State) (e : Ev) : Option Bounds :=
  let o := orderLo s e
  let lo := max o (armLo s e)
  let z := if e.late then lateStart s e (max lo e.earliest) else some e.instant
  z.map fun x => ⟨lo, if e.instant < o then rPortBusy else rBudget, x,
    if e.late then none else some (e.req.defer * 100000),
    if e.req.deadline = 0 ∨ 0 < e.started then none else some (e.instant + e.req.deadline * 100000)⟩

/-- A placement within given bounds, of units with their natural instants: deferred as a whole where a wave would miss a window that it
must meet (R196). -/
def placeUnits (s : State) (e : Ev) (nat : List Nat) (units : List SUnit) (b : Bounds) : Except Nat Placement :=
  let others := placedWaves (before e) s
  match fillWaves s e b others placeFuel (some b.z) b.why nat units ⟨[], false, false⟩ with
  | .error 0 => deferWaves s e b others placeFuel nat units placeFuel (some b.z)
  | r => r

/-- A placement within given bounds. -/
def placeFrom (s : State) (e : Ev) (units : List SUnit) (b : Bounds) : Except Nat Placement :=
  placeUnits s e (naturalsOf s e b.z units) units b

/-- The first occurrence of the named window in which all waves of a late event with SPREAD = 0 fit (R228). -/
def laterFit (s : State) (e : Ev) (units : List SUnit) : Nat → Bounds → Except Nat Placement
  | 0, _ => .error rBudget
  | n + 1, b =>
    match placeFrom s e units b with
    | .ok p => .ok p
    | .error r => if r = rDeadline then .error r else laterFit s e units n { b with z := b.z + patOf s e.dom }

/-- A placement of the units of an event; an event that changes nothing has one empty wave. -/
def placementOf (s : State) (e : Ev) (units : List SUnit) : Except Nat Placement :=
  match boundsOf s e with
  | none => .error rNoGuardWindow
  | some b =>
    let us := if units.isEmpty then [⟨0, []⟩] else units
    if e.late && !evOffset e && !e.req.spread then
      if (naturalsOf s e b.z us).length < us.length then .error rBudget else laterFit s e us lateFuel b
    else placeFrom s e us b

/-- A sticky bit of `RS.STATUS` that is no fault cause of an access. -/
def rsStatus (bit : Nat) (s : State) : State := raise0 .rs bit s

/-- A placement delays a wave against the instant it was first given (R226). -/
def delays (e : Ev) (p : Placement) : Bool := p.guard || !e.late && p.waves.any fun w => decide (w.2.1 < w.1)

/-! Waves placed later that must yield (R220, R221, R226). -/

/-- The waves of an event that are not armed yet. -/
def openWaves (e : Ev) : List (Nat × Nat × List SUnit) := e.waves.drop e.armed

/-- The waves of an event that are not armed can stay where they stand: no earlier event that shares a port waits or comes later (R226),
and they fit beside the waves of earlier events (R220, R221). -/
def stands (s : State) (e : Ev) : Bool :=
  let l := placedWaves (before e) s
  let own := (openWaves e).map fun w => (localOf s e.dom w.1, w.2.2.map fun u => (e.aseq, u))
  let lo := orderLo s e
  (openWaves e).isEmpty || (!orderBlocked s e && (openWaves e).all (fun w => decide (lo ≤ w.1)) &&
    own.all fun w => spacingOk s l w.1 && fitsAt s (l ++ own.filter fun v => v.1 != w.1) w.1 w.2)

/-- The placement of the waves of an event that are not armed: an ARMED event keeps its solution and the natural instants of its units,
and goes on after its last armed wave (R14, R221). -/
def placementLeft (s : State) (e : Ev) : Except Nat Placement :=
  let units := ((openWaves e).map (·.2.2)).flatten
  if e.armed = 0 then placementOf s e e.units
  else if e.late then placementOf s e units
  else match boundsOf s e with
    | none => .error rNoGuardWindow
    | some b =>
      let past := (((e.waves.take e.armed).map (·.1)).foldl max 0) + 1
      let nat := ((openWaves e).map fun w => List.replicate w.2.2.length w.2.1).flatten
      placeUnits s e nat units { b with lo := max b.lo past }

/-- An event whose open waves no longer stand beside those of earlier events takes its next instants; one that must wait for an earlier
event again is SOLVED and unplaced. -/
def shiftOne (e : Ev) (s : State) : State :=
  if stands s e then s
  else if e.armed = 0 && orderBlocked s e then evStatus 0 (evGoto { e with st := evSolved, waves := [] } s)
  else match placementLeft s e with
    | .error r => finalise e (if r = rDeadline then evExpired else evFailed) r s
    | .ok p =>
      let e1 := { e with waves := e.waves.take e.armed ++ p.waves, deferred := e.deferred || delays e p }
      showEv e1 0 (evSet e1 (evStatus 3 s))

/-- Events accepted after `aseq` yield to its waves, in acceptance order. -/
def shiftLater (aseq : Nat) (s : State) : State :=
  ((s.evs.filter fun x => decide (aseq < x.aseq)).map (·.aseq)).foldl (fun t a =>
    match evFind t a with
    | some x => if x.st = evScheduled ∨ x.st = evArmed then shiftOne x t else t
    | none => t) s

/-- Place a SOLVED event, or fail it (R216, R220). -/
def placeEv (e : Ev) (s : State) : State :=
  if orderBlocked s e then evStatus 0 s
  else
    match placementOf s e e.units with
    | .error r =>
      if r = rDeadline then
        let e1 := { e with st := evScheduled }
        finalise e1 evExpired r (evGoto e1 s)
      else finalise e evFailed r s
    | .ok p =>
      let s1 := if e.instant < orderLo s e then evStatus 0 s else s
      let s2 := if p.guard then rsStatus 1 s1 else s1
      let s3 := if p.contention then evStatus 3 s2 else s2
      shiftLater e.aseq (evGoto { e with st := evScheduled, waves := p.waves, deferred := e.deferred || delays e p } s3)

/-- An event that may be placed: SOLVED, committed where it belongs to a group (R230, R231), its domain usable (R169). -/
def placeable (s : State) (e : Ev) : Bool := e.st == evSolved && (!e.req.group || e.committed) && domReady s e.dom

/-- Place every event that may be placed, in acceptance order; none in a mode that accepts no events (R14). -/
def placeReady (s : State) : State :=
  if modeActive (modeOf s) then
    ((s.evs.filter (placeable s)).map (·.aseq)).foldl (fun t a =>
      match evFind t a with
      | some e => if placeable t e then placeEv e t else t
      | none => t) s
  else s

end Sys2Proof.Machine
end

