-- ==== Sys2Proof/Machine/EventRows.lean ====
section
/-! DEFINITION. Events (09_events): validation and acceptance, solving, arming, waves, completion, groups, repairs (08
R200, R201) and re-optimisation (R202). -/

namespace Sys2Proof.Machine

/-! Validation and acceptance (R209, R213, R214). -/

/-- A descriptor is well formed; a removal states nothing but OUT (R187, R209). -/
def descOk (d : Nat) : Bool := !dBad d && (dValid d || decide (d < 512))

/-- No two equal items. -/
def distinct : List Nat → Bool
  | [] => true
  | a :: t => !t.contains a && distinct t

/-- Step 3 of R213. -/
def evFormOk (s : State) (r : EvReq) : Bool :=
  let body := if r.kind = 0 then
      decide (1 ≤ r.count) && decide (r.count ≤ 512) && decide (r.len = 32 + 4 * r.count) &&
        decide (r.descs.length = r.count) && r.descs.all descOk && distinct (r.descs.map dOut) &&
        distinct ((r.descs.filter dValid).map dIn)
    else decide (r.kind = 1) && decide (r.len = 32) && (planMap s r.count).isSome
  let grp := if r.group then
      bitN r.members (s.rd R.GLB_MID_MID []) && !(s.evs.any fun e => e.req.group && e.req.gid == r.gid)
    else decide (r.gid = 0) && decide (r.members = 0)
  !r.rsvd && body && grp

/-- Both channels hold their maintenance grants. -/
def bothGrants (s : State) : Bool := s.chA.grant && s.chB.grant

/-- Restricted ports are held dark: both grants are held, or one of them still is (R320). -/
def portsClosed (s : State) : Bool := bothGrants s || s.chA.restr || s.chB.restr

/-- Output ports that descriptors name. -/
def outsOf (l : List Nat) : List Nat := l.map dOut

/-- Earliest schedulable instant in ns of domain `d` for a request that arrived at local `arrival` (R212). -/
def earliestOf (s : State) (d arrival : Nat) (r : EvReq) : Nat :=
  domainOf s d (arrival + 50000 + 100 * (if r.kind = 0 then solveMax r.count else 4000))

/-- Steps 3 to 10 of R213: a reason, or the resolved instant, the earliest schedulable one and the descriptors named. -/
def validateEvent (session arrival : Nat) (r : EvReq) (s : State) : Except Nat (Nat × Nat × List Nat) :=
  if !evFormOk s r then .error rMalformed
  else if !modeActive (modeOf s) then
    .error (if modeOf s = mSafeStop ∨ modeOf s = mLockout then rSafetyLocked else rModeForbids)
  else
    let f := projRoute s (s.jnl.aseq + 1)
    let ds := namedDescs s f r
    let d := inDom r.instant
    let early := earliestOf s d arrival r
    if portsClosed s ∧ (outsOf ds).any (fun n => s.flag R.SAF_SLPCFG_RESTR [n]) then
      .error rPortRestricted
    else if session ≠ 0 ∧ (portsOf ds).any (claimed s) then .error rPlanOverride
    else
      match resolveName s r.instant early with
      | .error x => .error x
      | .ok t =>
        let doms := ((ds ++ impliedOuts f ds).map fun x => (if dValid x then [dDom x] else []) ++
          (match f (dOut x) with | some y => [dDom y.desc] | none => [])).flatten
        if doms.any (fun x => !domReady s x) then .error rDomainUnlocked
        else if 1024 ≤ s.evs.length then .error rBudget
        else if !jnlReady s then .error rJournalFull
        else .ok (t, early, ds)

/-- Acceptance (R214): the journal gives the ASEQ; `extra` follows the request in the entry (R240). -/
def acceptEvent (okA okB : Bool) (session sseq : Nat) (r : EvReq) (v : Nat × Nat × List Nat) (extra : List Nat)
    (s : State) : State :=
  let a := s.jnl.aseq + 1
  let s0 := { s with jnl := { s.jnl with aseq := a } }
  let s1 := (commitV okA okB 0x01 a session 0x05 sseq (evBytes r ++ extra) s0).wr R.JNL_ASEQ [] a
  let tab := allocTab s1
  let e : Ev := ⟨session, sseq, a, r, inDom r.instant, v.1, v.2.1, evAccepted, v.2.2, [], [], 0, 0, 0, 0, 0, false, false,
    false, false, false, none, tab.1, s0.jnl.last + 1⟩
  let s2 := { tab.2 with evs := tab.2.evs ++ [e] }
  showPending (showEv e 0 s2)

/-- A full event table shows (R234). -/
def noteFull (reason : Nat) (s : State) : State :=
  if reason = rBudget ∧ 1024 ≤ s.evs.length then evStatus 4 s else s

/-! Solving (R192 to R198). -/

/-- What an event replaces or removes on its named ports (R226): (port, descriptor or 0). -/
def replacedOn (f : Nat → Option Route) (ds : List Nat) : List (Nat × Nat) :=
  let at' (n : Nat) : Nat := match f n with | some r => r.desc | none => 0
  (ds.map fun d =>
    let inp := if dValid d then
        [(dIn d, match outOfIn f (dIn d) with | some m => at' m | none => 0)] else []
    (512 + dOut d, at' (dOut d)) :: inp).flatten

/-- Solutions in the order of R192. -/
def ranked (s : State) : Nat → List Sol → List Sol
  | 0, _ => []
  | n + 1, l => match lowest (fun x => rankKey s (solChgs x)) l with
    | none => []
    | some x => x :: ranked s n (l.filter fun y => y != x)

/-- A solution's natural placement needs no guard deferral. -/
def needsNoGuard (s : State) (e : Ev) (x : Sol) : Bool :=
  match placementOf s e x.units with
  | .ok p => !p.guard
  | .error r => r != rNoGuardWindow

/-- The solution taken (R192, R196): the lowest; where it moves a GUARDED bystander outside the windows, the lowest that needs no
deferral. -/
def chooseSol (s : State) (e : Ev) (l : List Sol) : Option Sol :=
  match lowest (fun x => rankKey s (solChgs x)) l with
  | none => none
  | some x =>
    if movedOf 1 (solChgs x) = 0 || needsNoGuard s e x then some x
    else some (((ranked s l.length l).find? (needsNoGuard s e)).getD x)

/-- Solutions found for an event (R198): for a single change every one up to the minimum, for a larger change set those that the
candidates make; a change set that needs no path has one without any. -/
def foundSols (s : State) (f : Nat → Option Route) (l : List NChg) (n : Nat) (cands : List Cand) : List Sol :=
  if (l.filter fun x => x.desc.isSome && !x.keep).isEmpty then solsOf s f l n [⟨[], []⟩]
  else if n = 1 then singleSols s f l
  else solsOf s f l n cands

/-- On a port named by both solves the event replaces or removes something else than its previous solve did (R226). -/
def replacesOther (old new : List (Nat × Nat)) : Bool := new.any fun x => old.any fun y => y.1 == x.1 && y.2 != x.2

/-- GROUP_READY to the submitting session (R230). -/
def groupReady (e : Ev) (s : State) : State :=
  if e.req.group ∧ sessOpen s e.session ∧ bitN (s.rd R.JNL_SESS_RIGHTS [e.session]) 0 then
    notifyTo e.session 0x0C (beBytes 4 e.sseq ++ beBytes 4 e.aseq ++ beBytes 4 e.req.gid) s
  else s

/-- An event for which no solution has been found: once every choice of rows has been gone through, a solution that one of them gives is
taken, else the event fails (R193, R195, R198, R219). With neither a failed nor a SUSPECT element in the fabric a route exists. -/
def solveOn (s : State) (e : Ev) (f : Nat → Option Route) (l : List NChg) (n : Nat) : Except Nat Sol :=
  let all := solsOf s f l n (searchCands s f l)
  match chooseSol s e (goodSols all) with
  | some x => .ok x
  | none => .error (noSolution all)

/-- An event takes a solution: it is SOLVED, what it replaces is noted. -/
def takeSol (e : Ev) (rep : List (Nat × Nat)) (x : Sol) (s : State) : State :=
  let e1 := { e with st := evSolved, units := x.units, waves := [], replaced := some rep }
  groupReady e1 (evGoto e1 s)

/-- An event without a solution fails (R193, R195). -/
def failSol (e : Ev) (reason : Nat) (s : State) : State :=
  finalise e evFailed reason (if reason = rRipplePinned then rsStatus 0 s else s)

/-- Solve one event. -/
def solveEv (e : Ev) (cands : List Cand) (exhausted : Bool) (tenths : Nat) (s : State) : State :=
  let f := projRoute s e.aseq
  let ds := namedDescs s f e.req
  let rep := replacedOn f ds
  let s0 := noteSolve tenths (solveMax ds.length) s
  let l := namedChanges f (isReopt e) ds
  let e1 := { e with descs := ds }
  if (match e.replaced with | some x => replacesOther x rep | none => false) then finalise e evFailed rPortBusy s0
  else match chooseSol s e1 (goodSols (foundSols s f l ds.length cands)) with
    | some x => takeSol e1 rep x s0
    | none =>
      if !exhausted then s
      else match solveOn s e1 f l ds.length with
        | .ok x => takeSol e1 rep x s0
        | .error r => if r == rUnroutable && fabricWhole s then s else failSol e r s0

/-- SOLVE_COMPLETE (R192 to R198, R216): Tangram ends its work on the oldest ACCEPTED event; without a solution and
without having shown that none exists, it works on. A waiting repair solve goes first, but not before an event solve that ran when
the repair came (R200). -/
def execSolveComplete (cands : List Cand) (exhausted : Bool) (tenths : Nat) (s : State) :
    Host.Outcome State Fault Refusal :=
  .next (
    if !islOn s 7 || s.jnl.recovering || !modeActive (modeOf s) then s
    else match s.evs.find? fun e => e.st == evAccepted with
    | none => s
    | some e =>
      if !s.repairs.isEmpty && s.solving != some e.aseq then s
      else placeReady (solveEv e cands exhausted tenths { s with solving := none }))

/-! Arming and waves (R222, R223). -/

/-- The next wave of an event. -/
def nextWave (e : Ev) : Option (Nat × Nat × List SUnit) := e.waves[e.armed]?

/-- Arming is possible at all: light may move, power is good, no restart is under way (R222, R382, R401). -/
def mayArm (s : State) : Bool :=
  islOn s 7 && modeActive (modeOf s) && decide (s.armed.length < 2) && !s.jnl.stopped && !s.jnl.protect && !s.jnl.recovering && s.modes.leaving.isNone

/-- Every earlier event that shares a port with an event has its waves before the event's next one (R226). -/
def inOrder (s : State) (e : Ev) : Bool :=
  !orderBlocked s e && (match nextWave e with | some w => decide (orderLo s e ≤ w.1) | none => true)

/-- Events whose next wave stands at local instant `x` and may go. -/
def eventsAt (s : State) (x : Nat) : List Ev :=
  s.evs.filter fun e => (e.st == evScheduled || e.st == evArmed) && inOrder s e &&
    (match nextWave e with | some w => localOf s e.dom w.1 == x | none => false)

/-- Arm the merged wave of some events. -/
def armEvents (dom t0 start : Nat) (es : List Ev) (s : State) : State :=
  let units := (es.map fun e => match nextWave e with
    | some w => w.2.2.map fun u => (e.aseq, u)
    | none => []).flatten
  let s1 := es.foldl (fun t e =>
    let e1 := { e with st := evArmed, armed := e.armed + 1 }
    if e.st = evArmed then evSet e1 t else evGoto e1 t) s
  let r := armWave dom t0 start units s1
  if r.1 then r.2
  else placeReady (es.foldl (fun t e => match evFind t e.aseq with
    | some x => finalise x evFailed rBudget t
    | none => t) r.2)

/-- WAVE_ARM (R222): the next wave of event `aseq`, with every wave that falls on its instant; `aseq` 0 arms the next
repair wave. An event whose waves may not go yet beside earlier events yields (R221, R226); the connections of a repair wave that is
refused wait for the next repair solve (R81, R200). -/
def execWaveArm (aseq : Nat) (s : State) : Host.Outcome State Fault Refusal :=
  .next (
    if !mayArm s then s
    else if aseq = 0 then
      match s.repairWaves with
      | [] => s
      | w :: rest =>
        let r := armWave 0 0 w.1 (w.2.map fun u => (0, u)) { s with repairWaves := rest }
        if r.1 then r.2 else setRepairs (r.2.repairs ++ (plannedRepairs w.2).filter fun x => !(r.2.repairs.any fun y => y.1 == x.1)) r.2
    else match evFind s aseq with
    | none => s
    | some e =>
      match nextWave e with
      | none => s
      | some w =>
        if e.st ≠ evScheduled ∧ e.st ≠ evArmed then s
        else if !inOrder s e then shiftOne e s
        else
          let x := localOf s e.dom w.1
          armEvents e.dom w.1 x (eventsAt s x) s)

/-- The loop of an element is OFF, so its retarget record is discarded (R135). -/
def loopOff (s : State) (e : Nat) : Bool := !islOn s (actIsland e) || decide (s.rd R.LT_LOOP_STATE [e] = 0)

/-- The moves of a wave one by one: state and the elements that did not start. -/
def startMoves (l : List EMove) (s : State) : State × List Nat :=
  l.foldl (fun a m =>
    if loopOff a.1 m.elem then (a.1, a.2 ++ [m.elem])
    else
      let r := kickStart m a.1
      if r.1 then (retarget m r.2, a.2)
      else (if clrActive r.2 (bankOf m.elem) then retargetHeld m r.2 else r.2, a.2 ++ [m.elem])) (s, [])

/-- A change that a wave leaves incomplete (R223); a repair's parked elements do not count. -/
def incomplete (failed : List Nat) (c : Nat × Chg) : Bool :=
  let l := if c.1 = 0 then (movesOf [c.2]).filter fun p => p.2 != 0 else movesOf [c.2]
  l.any fun p => failed.contains p.1

/-- The records and VOAs of one completely moved change. -/
def applyChg (c : Chg) (s : State) : State :=
  if restates c then s
  else
    let s1 := countMove c (putConn c.out c.new s)
    match c.new with
    | some r => if r.routed then s1 else blockVoa (voaLoop 1 c.out) (blockVoa (voaLoop 0 c.out) s1)
    | none => blockVoa (voaLoop 1 c.out) (blockVoa (voaLoop 0 c.out) s1)

/-- An incomplete connection goes to a repair on its new ports; an incomplete removal is a removal (R223). -/
def repairChg (c : Chg) (s : State) : State :=
  match c.new with
  | some r => setRepairs (s.repairs.filter (fun x => x.1 != c.out) ++ [(c.out, r.desc)]) s
  | none => applyChg c s

/-- Changes of a wave with the event they belong to. -/
def evWaveChgs (w : Wave) : List (Nat × Chg) := (w.units.map fun u => u.2.chgs.map fun c => (u.1, c)).flatten

/-- `EDA.LASTWAVE` of the banks that started elements (R86, R217). -/
def noteLastWave (no : Nat) (started : List Nat) (s : State) : State :=
  (span 0 16).foldl (fun t k =>
    let n := (started.filter fun e => bankOf e == k).length
    if n = 0 then t else (t.wr R.EDA_LASTWAVE_WAVE [k] no).wr R.EDA_LASTWAVE_COUNT [k] n) s

/-- What a started wave means to one of its events. -/
def creditEv (w : Wave) (bad : List (Nat × Chg)) (e : Ev) (s : State) : State :=
  let mine := (w.units.filter fun u => u.1 == e.aseq).map (·.2)
  let t := (e.waves[e.started]?.map (·.1)).getD w.t0
  let whole := mine.filter fun u => u.chgs.any (·.named) && !(u.chgs.any fun c => c.named && bad.contains (e.aseq, c))
  let e1 := { e with started := e.started + 1, t0First := if e.started = 0 then t else e.t0First, t0Last := t,
                     nconn := e.nconn + whole.length, failing := e.failing || bad.any fun c => c.1 == e.aseq }
  showEv e1 0 (evSet e1 s)

/-- Each value once, in order of its last place. -/
def nub : List Nat → List Nat
  | [] => []
  | a :: t => if t.contains a then nub t else a :: nub t

/-- ASEQ values of a wave, each once. -/
def waveAseqs (w : Wave) : List Nat := nub (w.units.map (·.1))

/-- Fail the events of a wave that have elements which did not move. -/
def failEvents (l : List Nat) (s : State) : State :=
  l.foldl (fun t a => match evFind t a with
    | some e => finalise e evFailed rElementFailed t
    | none => t) s

/-- A wave starts (R132, R204, R217, R223): moves, WAVE entry, records, VOAs. -/
def startWave (w : Wave) (s : State) : State :=
  let r := startMoves w.moves s
  let chgs := evWaveChgs w
  let bad := chgs.filter (incomplete r.2)
  if !w.moves.isEmpty && decide (r.2.length = w.moves.length) then
    let lost := chgs.filter fun c => !restates c.2
    failEvents (waveAseqs w) (lost.foldl (fun t c => repairChg c.2 t) r.1)
  else
    let no := r.1.rd R.RS_WAVENO_WAVE [] + 1
    let s1 := (noteLastWave no ((w.moves.map (·.elem)).filter fun e => !r.2.contains e) r.1).wr R.RS_WAVENO_WAVE [] no
    let s2 := { s1 with lastT0 := w.start }
    let good := chgs.filter fun c => !bad.contains c
    let s3 := good.foldl (fun t c => applyChg c.2 t) s2
    let shut := (bad.map fun c => [voaLoop 0 c.2.out, voaLoop 1 c.2.out]).flatten
    let s4 := (w.voas.filter fun v => !shut.contains v.1).foldl (fun t v => openVoa v t) s3
    let s5 := commit 0x04 0 0 0 0 (beBytes 4 no ++ beBytes 8 w.start ++ ((waveAseqs w).map (beBytes 4)).flatten) s4
    let rep := (good.filter fun c => c.1 == 0).map fun c => beBytes 4 (s5.rd R.RS_CONN_DESC [c.2.out])
    let s6 := if rep.isEmpty then s5 else commit 0x0C 0 0 0 0 rep.flatten s5
    let s7 := bad.foldl (fun t c => repairChg c.2 t) s6
    let s7 := bad.foldl (fun t c => showFlags c.2.out t) s7
    let s8 := (s7.evs.filter fun e => (waveAseqs w).contains e.aseq).foldl (fun t e => creditEv w bad e t) s7
    failEvents (nub (bad.map (·.1))) s8

/-- WAVE_START (R222, R223): the wave armed first reaches its T0. -/
def execWaveStart (s : State) : Host.Outcome State Fault Refusal :=
  .next (
    match s.armed with
    | [] => s
    | w :: rest => leaveNow (placeReady (reshed (startWave w { s with armed := rest }))))

/-- Restatements take effect when the event is DONE (R190, R204); a repair that waits takes the new descriptor. -/
def applyRestated (e : Ev) (s : State) : State :=
  ((evChgs e).filter restates).foldl (fun t c => match c.new with
    | some r =>
      let t1 := t.wr R.RS_CONN_DESC [c.out] r.desc
      setRepairs (t1.repairs.map fun x => if x.1 = c.out then (c.out, r.desc) else x) t1
    | none => t) s

/-- EVENT_DONE (R217): every wave of the event has started and every element moved. -/
def execEventDone (aseq : Nat) (s : State) : Host.Outcome State Fault Refusal :=
  .next (
    match evFind s aseq with
    | none => s
    | some e =>
      if e.st = evArmed ∧ e.started = e.waves.length ∧ !e.failing then
        placeReady (finalise e evDone 0 (applyRestated e s))
      else s)

/-! Deadlines and deferral (R226, R227). -/

/-- Waves of the event that can no longer start by `limit`: for a started event once that instant has come (R227). -/
def missesBy (s : State) (e : Ev) (limit : Nat) : Bool :=
  if 0 < e.started then decide (limit ≤ domNs s e.dom) && ((e.waves.drop e.started).any fun w => decide (limit < w.1)) ||
      (decide (limit ≤ domNs s e.dom) && decide (e.armed < e.waves.length))
  else (e.waves.drop e.armed).any fun w => decide (limit < w.1) || decide (limit < armLo s e)

/-- EVENT_DEADLINE_EXPIRY (R227). -/
def execEventDeadlineExpiry (aseq : Nat) (s : State) : Host.Outcome State Fault Refusal :=
  .next (
    match evFind s aseq with
    | none => s
    | some e =>
      if evScheduled ≤ e.st ∧ e.req.deadline ≠ 0 ∧ missesBy s e (e.instant + e.req.deadline * 100000) then
        placeReady (finalise e evExpired rDeadline s)
      else s)

/-- The reason of a delay (R226). -/
def delayReason (s : State) (e : Ev) : Nat :=
  if orderBlocked s e || !(earlierSharing s e).isEmpty then rPortBusy
  else if (guardDomains (isReopt e) e.dom (evChgs e)).any fun d => !coincides s e.dom (armLo s e) d then rNoGuardWindow
  else rBudget

/-- DEFERRAL_LIMIT_EXPIRY (R226): a wave that one of the three causes delays can no longer start within the limit: the event waits behind an
earlier one, or the wave was moved from the instant that placement first gave it. -/
def execDeferralLimitExpiry (aseq : Nat) (s : State) : Host.Outcome State Fault Refusal :=
  .next (
    match evFind s aseq with
    | none => s
    | some e =>
      let lim := e.req.defer * 100000
      let late1 := placeable s e && orderBlocked s e && decide (e.instant + lim < armLo s e)
      let late2 := decide (evScheduled ≤ e.st) && (e.waves.drop e.armed).any fun w =>
        decide (w.2.1 < w.1) && decide (w.2.1 + lim < armLo s e)
      if !e.late && (late1 || late2) then placeReady (finalise e evFailed (delayReason s e) s) else s)

/-! Groups (R230 to R232, R375, R376). -/

/-- The commit cutoff is still ahead. -/
def beforeCutoff (s : State) (e : Ev) : Bool := decide (domNs s e.dom + 60000 < e.instant)

/-- A held event of a group. -/
def heldGroup (s : State) (gid : Nat) : Option Ev :=
  s.evs.find? fun e => e.req.group && e.req.gid == gid && e.st == evSolved && !e.committed

/-- COMMIT_ECHO messages on each port with a group address (R363, R376): to that address under the broadcast MAC address, with SESSION 0, the
next echo count, the module's own MID, the body of the commit unchanged and a TAG of zeros. -/
def sendEcho (body : List Nat) (s : State) : State :=
  let n := (s.jnl.echoes + 1) % 2 ^ 32
  [0, 1].foldl (fun t p =>
    let k := t.rd R.NI_CLASSCFG_KCP_PORT [p]
    if t.rd R.NI_IP_GRPADDR [p] = 0 then t
    else enqueue 65531 p (msgLen false body.length)
      (.kcp ⟨false, portAddr t p false, k, t.rd R.NI_IP_GRPADDR [p], k⟩ true (kcpHead t 0xC2 0 false false n 0 0 0 body.length ++ body) none) t)
    { s with jnl := { s.jnl with echoes := n } }

/-- A held event is committed: journaled, its echo sent with the signature of the commit (R231). -/
def noteCommit (okA okB : Bool) (session type seq sig : Nat) (e : Ev) (s : State) : State :=
  let body := beBytes 4 e.req.gid ++ beBytes 8 e.req.members ++ beBytes 8 e.req.instant ++ [0, 0, 0, 0]
  let s1 := commitV okA okB 0x01 e.aseq session type seq body (evSet { e with committed := true } s)
  sendEcho (body ++ beBytes 132 sig) s1

/-- Commit a held event; its waves are placed (R231). -/
def commitGroup (okA okB : Bool) (session type seq sig : Nat) (e : Ev) (s : State) : State :=
  placeReady (noteCommit okA okB session type seq sig e s)

/-- COMMIT_ECHO (R376): the oldest frame of the port's KCP ring, checked against the key of the session that submitted the event held here. -/
def execCommitEcho (port gid members instant : Nat) (sig : GSig) (s : State) : Host.Outcome State Fault Refusal :=
  .next (
    if !kcpUp s ∨ (portGet s (port % 2)).kcp.isEmpty then s
    else
      let s0 := takeRing (port % 2) 0 s
      if s0.rd R.NI_IP_GRPADDR [port % 2] = 0 then s0
      else if !sig.ok then raise0 .jnl 2 (s0.incS R.JNL_SCNT_SIGFAIL [0])
      else match heldGroup s0 gid with
      | some e =>
        if e.req.members = members ∧ e.req.instant = instant ∧ beforeCutoff s0 e then commitGroup true true 0 0xC2 0 sig.bits e s0
        else s0
      | none => s0)

/-- GROUP_COMMIT_CUTOFF (R231): T0 − 60 µs without a commit. -/
def execGroupCommitCutoff (aseq : Nat) (s : State) : Host.Outcome State Fault Refusal :=
  .next (
    match evFind s aseq with
    | none => s
    | some e =>
      if e.req.group ∧ !e.committed ∧ e.st ≤ evSolved ∧ !beforeCutoff s e then
        placeReady (finalise e evFailed rGroupAbort s)
      else s)

/-! Repairs (R200, R201). -/

/-- The live map with the waves of ARMED events and of repairs under way applied. -/
def armedRoute (s : State) (n : Nat) : Option Route :=
  match chgFor (chgsOf (fun e => e.st == evArmed) s ++ repairChgs s) n with
  | some c => c.new
  | none => liveRoute s n

/-- Connections a repair concerns: those that wait and those left UNROUTED, as descriptors in the priority of R200. -/
def repairList (s : State) : List Nat :=
  let un := ((span 0 512).filter fun n =>
    s.flag R.RS_CONN_UNROUTED [n] && !(s.repairs.any fun r => r.1 == n)).map fun n => s.rd R.RS_CONN_DESC [n]
  let cls (k : Nat) : List Nat :=
    ((span 0 512).map fun n => ((s.repairs.filter fun r => r.1 == n && dClass r.2 == k).map (·.2))).flatten ++
      un.filter fun d => dClass d == k
  cls 2 ++ cls 1 ++ cls 0

/-- The change of one concerned connection under a candidate: routed, or left without a path. -/
def repairChange (f : Nat → Option Route) (c : Cand) (d : Nat) : Chg :=
  match choiceFor c.named (dOut d) with
  | some h => ⟨dOut d, f (dOut d), some ⟨d, true, h.rowX, h.rowY⟩, false⟩
  | none => ⟨dOut d, f (dOut d), some ⟨d, false, 0, 0⟩, false⟩

/-- Units of a repair: one for each concerned connection that it routes, with its bystanders. -/
def repairUnits (f : Nat → Option Route) (ds : List Nat) (c : Cand) : List SUnit :=
  (span 0 ds.length).zipWith (fun i d =>
    ⟨i, repairChange f c d :: ((c.moved.filter fun m => m.1 == i).filterMap fun m => routeMoved f m.2)⟩) ds

/-- A repair candidate routes on this fabric, moves no PINNED bystander and has no unit above 8,192 transitions (R191, R200, R219). -/
def repairOk (s : State) (f : Nat → Option Route) (ds : List Nat) (c : Cand) : Bool :=
  let l := ((repairUnits f ds c).map (·.chgs)).flatten
  let outs := ds.map dOut
  let by' := l.filter fun x => !outs.contains x.out
  (repairUnits f ds c).all (fun u => decide (unitSize u ≤ 8192)) && rowsOk l && c.moved.all (fun m => !outs.contains m.2.out) && !usesFailed s l && pathsOk f l &&
    by'.all fun x => match x.old with | some r => dClass r.desc != 2 | none => true

/-- Domains of the GUARDED bystanders that some units of a repair move; `outs` are the outputs concerned. -/
def repairGuards (outs : List Nat) (l : List SUnit) : List Nat :=
  ((l.map (·.chgs)).flatten).filterMap fun x =>
    if outs.contains x.out then none else match x.old with
      | some r => if dClass r.desc = 1 then some (dDom r.desc) else none
      | none => none

/-- A local instant coincides with a window of domain `d`. -/
def coincidesLocal (s : State) (x d : Nat) : Bool := coincides s d (domainOf s d x) d

/-- The waves that a repair must keep clear of: those of ARMED events, and its own. -/
def repairOthers (s : State) (acc : List (Nat × List SUnit)) : List (Nat × List (Nat × SUnit)) :=
  placedWaves (fun e => e.st == evArmed) s ++ acc.map fun w => (w.1, w.2.map fun u => (0, u))

/-- Least of `x` and the instants 20 µs after another wave, from `x` on, that keeps the spacing of R80. -/
def spacedFrom (s : State) (l : List (Nat × List (Nat × SUnit))) (x : Nat) : Nat :=
  let after := ((l.map (·.1)) ++ (s.armed.map (·.start)) ++ [s.lastT0]).map (· + 20000)
  ((ascending (x :: after)).find? fun y => decide (x ≤ y) && spacingOk s l y).getD x

/-- Earliest local instant, from `x` on, at which R80 admits a wave of these units alone (R200). -/
def repairInstant (s : State) (l : List (Nat × List (Nat × SUnit))) (us : List SUnit) : Nat → Nat → Option Nat
  | 0, _ => none
  | n + 1, x =>
    let y := spacedFrom s l x
    if spacingOk s l y && fitsAt s l y (us.map fun u => (0, u)) then some y else repairInstant s l us n (y + 8)

/-- Number of instants that the search for a repair wave looks at. -/
def repairFuel : Nat := 1000000

/-- Earliest local instant, from `x` on, at which a unit that moves GUARDED bystanders may go: inside a window of every one of their
domains (R194, R200). -/
def guardedInstant (s : State) (l : List (Nat × List (Nat × SUnit))) (u : SUnit) (doms : List Nat) : Nat → Nat → Option Nat
  | 0, _ => none
  | n + 1, x =>
    match doms.find? fun d => !coincidesLocal s x d with
    | some d =>
      match slotFrom s d (domainOf s d (x + 8)) with
      | some t => guardedInstant s l u doms n (max (x + 8) (localOf s d t))
      | none => none
    | none =>
      match repairInstant s l [u] repairFuel x with
      | some y => if doms.all (coincidesLocal s y) then some y else guardedInstant s l u doms n y
      | none => none

/-- A unit that gives its connection a path. -/
def isRouted (u : SUnit) : Bool :=
  match u.chgs.head? with
  | some c => (match c.new with | some r => r.routed | none => false)
  | none => false

/-- Waves of a repair (R200, R201): units in order, each wave at the earliest instant that R80 and the arming lead allow beside the waves
of ARMED events, at most four; and the units left for a later repair. -/
def repairFill (s : State) : Nat → List (Nat × List SUnit) → Nat → List SUnit → List (Nat × List SUnit) × List SUnit
  | 0, acc, _, us => (acc, us)
  | n + 1, acc, x, us =>
    if us.isEmpty then (acc, [])
    else
      let l := repairOthers s acc
      match repairInstant s l (us.take 1) repairFuel x with
      | none => (acc, us)
      | some y =>
        let w := takeUnits (fun v => fitsAt s l y (v.map fun u => (0, u))) (us.take 1) (us.drop 1)
        repairFill s n (acc ++ [(y, w)]) (y + 20000) (us.drop w.length)

/-- A unit takes elements that another releases. -/
def takesFrom (u v : SUnit) : Bool :=
  let freed := (v.chgs.map fun c => (optElems c.old).map (·.1)).flatten
  (u.chgs.map fun c => (optElems c.new).map (·.1)).flatten.any freed.contains

/-- Units of a repair that may go at once, and those that wait: a unit waits while it moves a GUARDED bystander outside a window of its
domain at the earliest instant `x`, or takes elements of a unit that waits. -/
def splitWait (s : State) (outs : List Nat) (x : Nat) (l : List SUnit) : List SUnit × List SUnit :=
  l.foldl (fun a u =>
    if (repairGuards outs [u]).any (fun d => !coincidesLocal s x d) || a.2.any (takesFrom u) then (a.1, a.2 ++ [u]) else (a.1 ++ [u], a.2))
    ([], [])

/-- The waiting units of a repair, each in the first wave that coincides (R200); and those for which no window comes. -/
def repairWait (s : State) (outs : List Nat) : List (Nat × List SUnit) → List SUnit → List (Nat × List SUnit) × List SUnit
  | acc, [] => (acc, [])
  | acc, u :: t =>
    let x := (acc.map fun w => w.1 + 20000).foldl max (s.time + 24000)
    match guardedInstant s (repairOthers s acc) u (repairGuards outs [u]) repairFuel x with
    | some y => repairWait s outs (acc ++ [(y, [u])]) t
    | none => let r := repairWait s outs acc t; (r.1, u :: r.2)

/-- The waves of a repair candidate, those that wait for a window after the others; its units left for a later repair; and the outputs
whose connection waits for a window. -/
def repairWavesOf (s : State) (f : Nat → Option Route) (ds : List Nat) (c : Cand) : List (Nat × List SUnit) × List SUnit × List Nat :=
  let outs := ds.map dOut
  let p := splitWait s outs (s.time + 24000) ((repairUnits f ds c).filter isRouted)
  let a := repairFill s 4 [] (s.time + 24000) p.1
  let b := repairWait s outs a.1 p.2
  (b.1, a.2 ++ b.2, p.2.filterMap fun u => u.chgs.head?.map (·.out))

/-- Ranking of a repair: what it leaves unrouted in the order of R200, then R192. -/
def repairKey (s : State) (f : Nat → Option Route) (ds : List Nat) (c : Cand) : List Nat :=
  (ds.map fun d => b2n (choiceFor c.named (dOut d)).isNone) ++ rankKey s (((repairUnits f ds c).map (·.chgs)).flatten)

/-- A connection left without a route (R200): records, VOAs at block, flags. -/
def leaveUnrouted (wait : List Nat) (d : Nat) (s : State) : State :=
  let n := dOut d
  let s1 := putConn n (some ⟨d, false, 0, 0⟩) s
  let s2 := blockVoa (voaLoop 1 n) (blockVoa (voaLoop 0 n) s1)
  let s3 := s2.wr R.RS_CONN_REPAIR_WAIT [n] (b2n (wait.contains n))
  rsStatus 2 (if wait.contains n then rsStatus 4 s3 else s3)

/-- REPAIR_SOLVE (R200, R201): Tangram ends a repair solve with the routings it has found; connections it has not routed
stay in the live map without a path, and those that need a GUARDED bystander moved are dark until the wave in its window. -/
def execRepairSolve (cands : List Cand) (tenths : Nat) (s0 : State) : Host.Outcome State Fault Refusal :=
  .next (
    if !islOn s0 7 || (repairList s0).isEmpty || !modeActive (modeOf s0) then s0
    else
      let s := requeueRepairs [] s0
      let ds := repairList s
      let f := armedRoute s
      let ok := ((⟨[], []⟩ : Cand) :: cands).filter (repairOk s f ds)
      let t0 := rsStatus 3 (noteSolve tenths (min 2800 (400 + 60 * (ds.length - 1))) s)
      match lowest (repairKey s f ds) ok with
      | none => t0
      | some c =>
        let plan := repairWavesOf s f ds c
        let wait := plan.2.2
        let left := ds.filter fun d => (choiceFor c.named (dOut d)).isNone || wait.contains (dOut d)
        let s1 := left.foldl (fun t d => leaveUnrouted wait d t) (setRepairs [] t0)
        let s2 := if left.isEmpty then s1 else commit 0x0C 0 0 0 0 ((left.map (beBytes 4)).flatten) s1
        let s3 := setRepairs (plannedRepairs (plan.2.1.filter fun u => (u.chgs.head?.map fun c => !wait.contains c.out).getD true))
          { s2 with repairWaves := s2.repairWaves ++ plan.1, solving := none }
        keepAndResolve s3)

/-! Re-optimisation (R202, R203). -/

/-- The first slot of a domain at or after `t` that coincides with a window of it (R194). -/
def coincidingSlot (s : State) (d : Nat) : Nat → Nat → Option Nat
  | 0, _ => none
  | n + 1, t =>
    match slotFrom s d t with
    | some x => if coincides s d x d then some x else coincidingSlot s d n (x + 1)
    | none => none

/-- Instant of a re-optimisation event (R202): a slot of the connection's domain in which the move lies in a window; a FREE connection
whose domain has none moves in any wave. -/
def reoptInstant (s : State) (d : Nat) : Option Nat :=
  let early := domainOf s (dDom d) (s.time + 50000 + 40000)
  match coincidingSlot s (dDom d) 64 early with
  | some t => some t
  | none => if dClass d = 0 then some early else none

/-- Request of a re-optimisation event: the connection restated, at an instant of its own domain. -/
def reoptReq (s : State) (d t : Nat) : EvReq :=
  let dom := dDom d
  let o := t - epochNs s dom
  let af := o / 10000000
  let name := dom * 2 ^ 61 + 2 ^ 60 + af / 1024 % 65536 * 2 ^ 40 + af % 1024 * 2 ^ 30 +
    o % 10000000 / patOf s dom * 2 ^ 25 + o % patOf s dom
  ⟨0, false, false, false, 1, name, 0, 0, 0, 0, 36, [d]⟩

/-- SSEQ of the next re-optimisation event: source 2, no number, its count of firings (R242). -/
def reoptSseq (s : State) : Nat := 2 * 2 ^ 30 + (s.plan.reopts + 1) % 2 ^ 24

/-- REOPT_GAP ms have passed since the last acceptance of a re-optimisation event (R202, R206). -/
def reoptDue (s : State) : Bool :=
  match s.plan.reoptAt with
  | some t => decide (t + s.rd R.RS_CTRL_REOPT_GAP [] * 1000000 ≤ s.time)
  | none => true

/-- A connection is on a path with SUSPECT elements, or has none, and its class and claims let it be moved (R202, R243). -/
def reoptWanted (s : State) (out : Nat) : Bool :=
  let d := s.rd R.RS_CONN_DESC [out]
  decide (out < 512) && dValid d && (s.flag R.RS_CONN_UNROUTED [out] || s.flag R.RS_CONN_SUSP [out]) && dClass d != 2 &&
    !claimed s (512 + out) && !claimed s (dIn d)

/-- Background re-optimisation may submit an event: enabled, due, and no solve needs Tangram (R202, R203). -/
def reoptFree (s : State) : Bool :=
  islOn s 7 && s.flag R.RS_CTRL_REOPT_EN [] && reoptDue s && s.repairs.isEmpty && !(s.evs.any fun e => e.st == evAccepted)

/-- REOPTIMISATION (R202, R203): a session-0 event for one connection. -/
def execReoptimisation (out : Nat) (s : State) : Host.Outcome State Fault Refusal :=
  .next (
    if !reoptFree s || !reoptWanted s out then s
    else
      let d := s.rd R.RS_CONN_DESC [out]
      match reoptInstant s d with
      | none => s
      | some t =>
        let r := reoptReq s d t
        match validateEvent 0 s.time r s with
        | .error _ => s
        | .ok v =>
          let s1 := acceptEvent true true 0 (reoptSseq s) r v [] s
          { s1 with plan := { s1.plan with reopts := s1.plan.reopts + 1, reoptAt := some s1.time } })

/-! Events that missed their instants (R14, R228, R382). -/

/-- An event runs late from now on. -/
def makeLate (s : State) (e : Ev) : Ev := { e with late := true, earliest := earliestOf s e.dom s.time e.req }

/-- The waves of an ARMED event that were not armed keep their solution and take its next instants (R14). -/
def moveWaves (e : Ev) (s : State) : State :=
  let e1 := makeLate s e
  match placementLeft s e1 with
  | .ok p => shiftLater e.aseq (evStatus 1 (evGoto { e1 with waves := e.waves.take e.armed ++ p.waves } s))
  | .error r => finalise e1 (if r = rDeadline then evExpired else evFailed) r s

/-- The next wave of an event can no longer be armed in time (R222). -/
def missedArm (s : State) (e : Ev) : Bool :=
  match nextWave e with
  | some w => decide (localOf s e.dom w.1 < s.time + 20000)
  | none => false

/-- One event after an interval in which nothing was armed: with its instant still ahead it runs normally, else late. Later events that
share a port with it yield (R226). -/
def lateOne (e : Ev) (s : State) : State :=
  if !domReady s e.dom || (e.req.group && !e.committed) then s
  else if e.st = evArmed then (if missedArm s e then moveWaves e s else s)
  else if e.instant < domNs s e.dom ∨ missedArm s e then
    shiftLater e.aseq (evStatus 1 (evGoto { makeLate s e with st := evAccepted, units := [], waves := [] } s))
  else s

/-- The pending events that satisfy `p` after such an interval. -/
def lateWhere (p : Ev → Bool) (s : State) : State :=
  ((s.evs.filter p).map (·.aseq)).foldl (fun t a => match evFind t a with
    | some e => lateOne e t
    | none => t) s

/-- Every pending event after such an interval. -/
def lateEvents (s : State) : State := lateWhere (fun _ => true) s

end Sys2Proof.Machine
end

