-- ==== Sys2Proof/Machine/Clock.lean ====
section
/-! DEFINITION. A time domain becomes usable (07_time_domains R169, R170, R180) and what its events then do (09_events R228). -/

namespace Sys2Proof.Machine

/-- The events of a domain that becomes usable: those whose instant has passed run late (R228), those solved are placed. -/
def usableNow (d : Nat) (s : State) : State :=
  if domReady s d ∧ modeActive (modeOf s) then placeReady (lateWhere (fun e => e.dom == d) s) else s

/-- DOMAIN_ESTIMATE (R169, R170): the MP writes an estimate with the transmitter's clockClass; an estimate that the servo
has computed from a message pair (R176) or a pulse (R178) goes before the operand. EST keeps its low 32 bits (DESIGN CHOICE, log entry
90). -/
def execDomainEstimate (dom : Nat) (offset : Int) (cls : Nat) (s : State) : Host.Outcome State Fault Refusal :=
  .next (
    if 8 ≤ dom ∨ !islOn s 6 ∨ s.rd R.TBU_DOM_STATE_STATE [dom] = 0 then s
    else
      let v := servoGet s dom
      let x := v.est.headD offset
      let s1 := ((servoPut s dom { v with est := v.est.drop 1, holdT := s.rd R.TBU_DOM_HOLD_HOLDOVER_T [dom] }).wrS R.TBU_DOM_EST [dom] x).wr
        R.TBU_DOM_STATE_TTCLASS [dom] cls
      let mag := x.natAbs
      let fits := decide (mag ≤ s.rd R.TBU_DOM_CFG_LOCK_THR [dom] * 256) &&
        decide (cls ≤ s.rd R.TBU_DOM_CFG_CLASS_MAX [dom]) && !s.flag R.TBU_DOM_STEP_GO [dom]
      let g := if fits then v.good + 1 else 0
      let b := if 250 * 256 < mag then v.bad + 1 else 0
      let s2 := servoPut s1 dom { servoGet s1 dom with good := min 16 g, bad := min 4 b }
      let st := s.rd R.TBU_DOM_STATE_STATE [dom]
      if st = 2 ∧ 4 ≤ b then domSet dom 1 s2
      else if st = 2 ∧ s.rd R.TBU_DOM_CFG_CLASS_MAX [dom] < cls then domSet dom 3 s2
      else if (st = 1 ∨ st = 3) ∧ 16 ≤ g then usableNow dom (domSet dom 2 s2)
      else s2)

/-- EPOCH_REACHED (R180): domain time reaches the epoch; the domain counts as usable from now on, and its generators
learn from here (R158). -/
def execEpochReached (dom : Nat) (s : State) : Host.Outcome State Fault Refusal :=
  .next (if dom < 8 ∧ domReady s dom then usableNow dom (rcRestart (fun g => s.rd R.CE_RCGEN_DOMAIN [g] == dom) s) else s)

end Sys2Proof.Machine
end

