-- ==== Sys2Proof/Machine/Sense.lean ====
section
/-! DEFINITION. Sensing (04_sensing_light): samples, ranges, correction, input power, light loss; the Safe Limited Power
watchers of the two channels (13 R313, R316). -/

namespace Sys2Proof.Machine

/-! Safe Limited Power. -/

/-- A port trips in a channel: latched, blocked, counted (R313, R317). -/
def slpTrip (c n : Nat) (s : State) : State :=
  let v := chanGet s c
  if v.trips.contains n || !islOn s (chanIsland c) then s
  else
    let v1 := if v.blocks.contains n then v
      else { v with blocks := n :: v.blocks, blkAt := cellSet (fun _ => 0) v.blkAt n (s.time + 1) }
    let s1 := chanPut s c { v1 with trips := n :: v.trips }
    snapTrigger snapSafety (s1.inc (if c = 0 then R.SAF_CNT_SLP_TRIP_A else R.SAF_CNT_SLP_TRIP_B) [])

/-- Channel A's watcher on one output-tap sample (R313). -/
def watchSlp (n p : Nat) (s : State) : State :=
  if !spbOn s.chA R.SAF_SLPCFG_EN [n] || !islOn s 3 then s
  else
    let t := 34816 + p * 512 + n
    let key := 2 * n + p
    if s.flag R.ESA_SAMPLE_SAT [t] then slpTrip 0 n s
    else if !s.flag R.ESA_SAMPLE_VALID [t] then
      let k := cellGet (fun _ => 0) s.chA.novalid key + 1
      let s1 := { s with chA := { s.chA with novalid := cellSet (fun _ => 0) s.chA.novalid key k } }
      if 4 ≤ k then slpTrip 0 n s1 else s1
    else
      let s1 := { s with chA := { s.chA with novalid := cellErase s.chA.novalid key } }
      let sum := s.rd R.ESA_SAMPLE_VALUE [34816 + n] + s.rd R.ESA_SAMPLE_VALUE [35328 + n]
      if 10 ^ (280 + spb s.chA R.SAF_SLPCFG_PLIM [n]) < sum ^ 40 then slpTrip 0 n s1 else s1

/-! Samples (R90 to R102). -/

/-- Rate code of a sensor (R91); an input tap keeps its old one until its next boundary (R94). -/
def sensRate (s : State) (n : Nat) : Nat :=
  if n < 35840 then s.rd R.LT_LOOP_RATE [n]
  else
    let k := cellGet (fun _ => 0) s.osr n
    if k = 0 then s.rd R.ESA_TAPCFG_IN_OSR [] else k - 1

/-- Sample period of a rate code, ns. -/
def ratePeriod (r : Nat) : Nat := 2000 * 2 ^ r

/-- Oversampling ratio of a rate code. -/
def osrOf (r : Nat) : Nat := 128 * 2 ^ r

/-- Number of ways of three equal boxes: the second running sum of ones. -/
def sumOnes (k : Nat) : Nat := (k + 1) * (k + 2) / 2

/-- Weight of bit `i` of a sinc3 window of ratio `m`: three boxes of `m` ones convolved. The window of 3`m` clocks holds 3`m` − 2
weights that are not 0; the last two clocks carry none (DESIGN CHOICE, log entry 84). -/
def sincWeight (m i : Nat) : Nat :=
  if i < m then sumOnes i
  else if i < 2 * m then sumOnes i - 3 * sumOnes (i - m)
  else if i + 2 < 3 * m then sumOnes (3 * m - 3 - i)
  else 0

/-- The sinc3 sum S of a window whose modulator bits are the bits of `w`, the first clock in bit 0 (R90). -/
def sincSum (m w : Nat) : Nat := ((span 0 (3 * m)).map fun i => if bitN w i then sincWeight m i else 0).sum

/-- The raw value of a window: round(S × 2²⁴ / N³), at most 0xFFFFFF (R90). -/
def rawOf (m w : Nat) : Nat := min 0xFFFFFF ((sincSum m w * 2 ^ 25 + m ^ 3) / (2 * m ^ 3))

/-- Offset of a sensor's boundaries on the local grid, ns (R92): EBk at k × 125 ns, PB0 at 0, PB1 at 1 µs, and the phase that selects
one boundary in N / 128. An input tap has the phase of the output taps of its port, since they share a boundary. -/
def gridOfs (s : State) (n : Nat) : Nat :=
  let o := if n < 34816 then bankOf n else if (n - 34816) % 512 < 256 then 0 else 8
  let ph := if n < 35840 then s.rd R.LT_LOOP_PHASE [n] else (n - 35840) % 2 ^ sensRate s n
  125 * (o + 16 * ph)

/-- Time since a sensor's latest boundary, ns. -/
def sinceBoundary (s : State) (n : Nat) : Nat :=
  let p := ratePeriod (sensRate s n)
  (s.time + p - gridOfs s n % p) % p

/-- The last boundary of a sensor: the end of the window of its latest sample. -/
def lastBoundary (s : State) (n : Nat) : Nat := s.time - sinceBoundary s n

/-- The present instant is a boundary of the sensor: local time advances in steps of 8 ns here. -/
def onGrid (s : State) (n : Nat) : Bool := decide (sinceBoundary s n < 8)

/-- dark0 × 2^(d / 2,560) rounded down: the greatest y with y^2,560 at most dark0^2,560 × 2^d. -/
def darkFloor (d0 : Nat) (d : Int) : Nat :=
  lastOk (fun y => decide (y ^ 2560 * 2 ^ (-d).toNat ≤ d0 ^ 2560 * 2 ^ d.toNat)) 64 0 (2 ^ 50)

/-- The power of two gives a whole number of code units. -/
def darkExact (d0 : Nat) (d : Int) : Bool := darkFloor d0 d ^ 2560 * 2 ^ (-d).toNat == d0 ^ 2560 * 2 ^ d.toNat

/-- Dark level at the sensor's temperature (R98). The rule states no rounding: a level between two whole numbers is either of them, which
one is open (log entry 14). -/
def darkLevel (s : State) (n : Nat) : Nat :=
  let d0 := s.rd R.ESA_CORR_DARK0 [n]
  let d := tempOf s n - s.rdS R.ESA_CORR_TCAL [n] * 256
  if d0 = 0 then 0 else darkFloor d0 d + b2n (!darkExact d0 d && Config.darkUp d0 d)

/-- Corrected value of a raw value in a range (R97). -/
def correct (s : State) (n raw g1 : Nat) : Nat :=
  let ofs := if g1 = 1 then s.rdS R.ESA_CORR_OFS1 [n] else s.rdS R.ESA_CORR_OFS0 [n]
  let gain := if g1 = 1 then s.rd R.ESA_CORR_GAIN1 [n] else s.rd R.ESA_CORR_GAIN0 [n]
  clampN 4294967295 (sra (((raw : Int) - ofs) * (gain : Int)) 16 - (darkLevel s n : Int))

/-- A wave that moved the element has its T0 inside the window of a sample at boundary `b` (R90, R101). -/
def moveIn (s : State) (n b per : Nat) : Bool :=
  let m := cellGet (fun _ => 0) s.moved n
  decide (m ≠ 0) && decide (b < m - 1 + 3 * per) && decide (m - 1 ≤ b)

/-- The flag word of a sample in the order VALID, SAT, RCHG, FILL, MOVE, UNDER, GRANGE. -/
def sampleFlags (valid sat rchg fill move under : Bool) (g1 seq : Nat) : Nat :=
  b2n valid * 2 ^ 31 + b2n sat * 2 ^ 30 + b2n rchg * 2 ^ 29 + b2n fill * 2 ^ 28 + b2n move * 2 ^ 27 + b2n under * 2 ^ 26 +
    g1 * 2 ^ 25 + seq % 65536

/-- `ESA.SAMPLE` address of a sensor. -/
def sampleAddr (n : Nat) : Nat := 0x3200000 + 8 * n

/-- The range of a sensor changes at its next boundary. -/
def rangeDue (n : Nat) (s : State) : State :=
  { s with rchg := cellSet (fun _ => 0) s.rchg n (cellGet (fun _ => 0) s.rchg n % 4 + 4), lowRun := cellErase s.lowRun n }

/-- A change of range is due at the next boundary, whatever the flags of this sample (R95); the CAL holds ranges during a run. The
count of a sensor is 4 while its range changes at its next boundary, plus the samples still to carry RCHG. -/
def rangeRule (n raw g1 : Nat) (s : State) : State :=
  if modeOf s = mCalibrate then s
  else if g1 = 1 then
    if 0xB00000 ≤ raw then rangeDue n s else s
  else
    let k := if raw < 0x20000 then cellGet (fun _ => 0) s.lowRun n + 1 else 0
    if 8 ≤ k then rangeDue n s
    else { s with lowRun := cellSet (fun _ => 0) s.lowRun n k }

/-- The correction of a sensor is read (R101): a parity error spoils it. -/
def readCorr (n : Nat) (s0 : State) : State :=
  let hit := injParity .esa 0 s0
  if hit.1 = 0 then hit.2
  else raise .esa 3 ⟨sampleAddr n, 0xFF, 7, 3, 0, true⟩
    { hit.2 with corrBad := if hit.2.corrBad.contains n then hit.2.corrBad else n :: hit.2.corrBad }

/-- A sample's counts move on: range change, filling window, missed boundary, time of the last VALID sample (R95, R96). -/
def sampleCounts (n due fi : Nat) (clip valid : Bool) (s : State) : State :=
  { s with rchg := cellSet (fun _ => 0) s.rchg n (if 4 ≤ due then 2 else due % 4 - 1),
           refill := cellSet (fun _ => 2) s.refill n (if clip then 2 else fi - 1),
           missed := s.missed.filter (· != n),
           validAt := if valid then cellSet (fun _ => 0) s.validAt n (s.time + 1) else s.validAt }

/-- Latch one sample of a sensor: range, correction, flags (R95 to R101). -/
def latchSample (n raw : Nat) (clip : Bool) (s0 : State) : State :=
  let s := readCorr n s0
  let due := cellGet (fun _ => 0) s.rchg n
  let rc := due % 4
  let fi := cellGet (fun _ => 2) s.refill n
  let g0 := s.rd R.ESA_SAMPLE_GRANGE [n]
  let g1 := if rc = 2 then 1 - g0 else g0
  let sat := clip || (g1 == 0 && decide (0xC00000 ≤ raw))
  let valid := rc == 0 && fi == 0 && !s.corrBad.contains n
  let under := g1 == 1 && decide ((raw : Int) - s.rdS R.ESA_CORR_OFS1 [n] < 64)
  let v := if sat then correct s n 0xC00000 0 else correct s n raw g1
  let per := ratePeriod (sensRate s n)
  let fl := sampleFlags valid sat (rc != 0) (fi != 0) (decide (n < 34816) && moveIn s n (lastBoundary s n) per) under g1
    (s.rd R.ESA_SAMPLE_SEQ [n] + 1)
  let s1 := sampleCounts n due fi clip valid s
  let s2 := wrWord (if valid then s1.wr R.ESA_SAMPLE_VALUE [n] v else s1) (sampleAddr n + 4) fl
  let s3 := if sat then raise .esa 0 (Cause.at (sampleAddr n)) s2 else s2
  let s4 := if clip then raise .esa 1 (Cause.at (sampleAddr n)) s3 else s3
  if 4 ≤ due then s4 else rangeRule n raw g1 s4

/-- Record of a tap sample (R359, R360). -/
def tapRecord (n : Nat) (s : State) : State :=
  let w := s.rd R.ESA_SAMPLE_SEQ [n]
  let fl := readN s (sampleAddr n + 4) / 2 ^ 25 * 2
  gather (n + 1024) 2 (s.rd R.EGS_SRCCFG_TAP_DSH []) (beBytes 2 w ++ [fl, 0] ++ beBytes 4 (s.rd R.ESA_SAMPLE_VALUE [n])) s

/-! Input power and light loss (R104, R105). -/

/-- The latest boundary of a sensor gave a VALID sample. -/
def tapValid (s : State) (x : Nat) : Bool := s.flag R.ESA_SAMPLE_VALID [x] && !s.missed.contains x

/-- Power of a port: the sum of both planes' latest values, and whether both are valid. -/
def portPower (s : State) (base n : Nat) : Nat × Bool :=
  (s.rd R.ESA_SAMPLE_VALUE [base + n] + s.rd R.ESA_SAMPLE_VALUE [base + 512 + n],
    tapValid s (base + n) && tapValid s (base + 512 + n))

/-- Port overpower (R104). -/
def overCheck (n pw : Nat) (s : State) : State :=
  let up := if 1000000000 < pw then lightGet s (2048 + n) + 1 else 0
  let dn := if 1000000000 < pw then 0 else lightGet s (2560 + n) + 1
  let s1 := lightPut (2560 + n) (min 4 dn) (lightPut (2048 + n) (min 4 up) s)
  let on := mapBit s1 0x3802080 n
  if 4 ≤ up ∧ !on then notifyAll 0x06 (beBytes 2 n) (raise0 .port 0 (setMapBit s1 0x3802080 n true))
  else if 4 ≤ dn ∧ on then setMapBit s1 0x3802080 n false
  else s1

/-- Total input power in 10 pW. -/
def totalPower (s : State) : Nat := ((span 0 512).map fun n => (portPower s 35840 n).1).sum

/-- Every input tap's latest sample is VALID. -/
def totalValid (s : State) : Bool := (span 0 512).all fun n => (portPower s 35840 n).2

/-- Total overpower (R104). It is evaluated at PB1's boundary, here with the sample of port 511, the last port of PB1; it is skipped
while the latest sample of any port, in either plane, is not VALID (DESIGN CHOICE, log entry 85). -/
def totalCheck (s : State) : State :=
  if !totalValid s then s
  else
    let tooMuch := decide (100000000000 < totalPower s)
    let s1 := { s with totOver := tooMuch }
    if tooMuch && !s.totOver then notifyAll 0x06 [0xFF, 0xFF] (raise0 .port 1 s1) else s1

/-- LOS state of a port: inputs 0 to 511, outputs 512 to 1,023. -/
def losOf (s : State) (k : Nat) : Bool := mapBit s 0x3802000 k

/-- Asserted detectors among FIRST to LAST of a LOS rule. -/
def losCount (s : State) (r : Nat) : Nat :=
  let base := if s.rd R.PLAN_RULE_TTYPE [r] = 1 then 0 else 512
  let a := s.rd R.PLAN_RULE_FIRST [r]
  ((span a (s.rd R.PLAN_RULE_LAST [r] + 1 - a)).filter fun n => losOf s (base + n)).length

/-- A change of LOS: shown, notified, and LOS rules that may fire and whose count rises to NMIN are hit (R105, R236). -/
def losSet (k : Nat) (v : Bool) (s : State) : State :=
  let s1 := setMapBit s 0x3802000 k v
  let s2 := notifyAll 0x04 (beBytes 2 (k % 512) ++ [k / 512, b2n v]) s1
  let tt := if k < 512 then 1 else 2
  let hit (r : Nat) : Bool := s2.rd R.PLAN_RULE_TTYPE [r] == tt && ruleArmed s2 r &&
    decide (losCount s r < s2.rd R.PLAN_RULE_NMIN [r] + 1) && decide (s2.rd R.PLAN_RULE_NMIN [r] + 1 ≤ losCount s2 r)
  if v && islOn s 7 then
    { s2 with plan := { s2.plan with hits := s2.plan.hits ++ (span 0 64).filter hit } }
  else s2

/-- The fields of a detector: EN, ASSERT_N, CLEAR_N, CLR, SET. -/
def losCfg (s : State) (k : Nat) : Bool × Nat × Nat × Nat × Nat :=
  if k < 512 then
    (s.flag R.PORT_LOS_IN_EN [k], s.rd R.PORT_LOS_IN_ASSERT_N [k], s.rd R.PORT_LOS_IN_CLEAR_N [k],
      s.rd R.PORT_LOS_IN_CLR [k], s.rd R.PORT_LOS_IN_SET [k])
  else
    (s.flag R.PORT_LOS_OUT_EN [k - 512], s.rd R.PORT_LOS_OUT_ASSERT_N [k - 512], s.rd R.PORT_LOS_OUT_CLEAR_N [k - 512],
      s.rd R.PORT_LOS_OUT_CLR [k - 512], s.rd R.PORT_LOS_OUT_SET [k - 512])

/-- Hold a detector clear. -/
def losHold (k : Nat) (s : State) : State :=
  let s1 := lightPut (1024 + k) 0 (lightPut k 0 s)
  if losOf s k then losSet k false s1 else s1

/-- One VALID sample of an enabled detector (R105): −50 dBm + 0.25 dB × code is 1,000 × 10^(code / 40) units of 10 pW. -/
def losStep (k pw : Nat) (s : State) : State :=
  let c := losCfg s k
  let below := decide (pw ^ 40 < 10 ^ (120 + c.2.2.2.2))
  let above := decide (10 ^ (120 + c.2.2.2.1) < pw ^ 40)
  let a := if below then lightGet s k + 1 else 0
  let b := if above then lightGet s (1024 + k) + 1 else 0
  let s1 := lightPut (1024 + k) (min 255 b) (lightPut k (min 255 a) s)
  if !losOf s k ∧ c.2.1 ≤ a then losSet k true s1
  else if losOf s k ∧ c.2.2.1 ≤ b then losSet k false s1
  else s1

/-- A VOA transmits block: its line is asserted or its command is 0. -/
def voaBlocked (s : State) (p n : Nat) : Bool := heldDark s n || s.rd R.LT_LOOP_UCMD [voaLoop p n] == 0

/-- Conditions under which an output detector is evaluated (R105). -/
def losOutRuns (s : State) (n : Nat) : Bool :=
  let d := s.rd R.RS_CONN_DESC [n]
  dValid d && !voaBlocked s 0 n && !voaBlocked s 1 n && !losOf s (dIn d)

/-- A detector at a sample of its port: EN = 0 holds it clear from the next sample on, whatever that sample's flags (R106). -/
def losSample (k : Nat) (p : Nat × Bool) (s : State) : State :=
  if !(losCfg s k).1 then losHold k s else if p.2 then losStep k p.1 s else s

/-- What PORT does at the boundary of a port's input taps. -/
def inputBoundary (n : Nat) (s : State) : State :=
  let p := portPower s 35840 n
  let s1 := settleP n (losSample n p (if p.2 then overCheck n p.1 s else s))
  if n = 511 then totalCheck s1 else s1

/-- What PORT and Garnet do at the boundary of an output tap. -/
def outputBoundary (n p : Nat) (s : State) : State :=
  let s1 := if p = 1 then settleP (512 + n) (watchSlp n p s) else watchSlp n p s
  if p = 0 then s1
  else if !losOutRuns s1 n then losHold (512 + n) s1
  else losSample (512 + n) (portPower s1 34816 n) s1

/-- An input tap passes the boundary that a change of `ESA.TAPCFG` waited for (R31, R94): at a new rate its decimator restarts. -/
def settleS (n : Nat) (s : State) : State :=
  let old := cellGet (fun _ => 0) s.osr n
  let s1 := if old = 0 then s
    else { s with osr := cellErase s.osr n,
                  refill := if old - 1 = s.rd R.ESA_TAPCFG_IN_OSR [] then s.refill else cellSet (fun _ => 2) s.refill n 2 }
  if s1.modes.busyS.contains n then
    settle { s1 with modes := { s1.modes with busyS := s1.modes.busyS.filter (· != n) } }
  else s1

/-- A sensor delivers samples: its island is on, and its bank not cold (R102). -/
def sensRuns (s : State) (n : Nat) : Bool :=
  islOn s (sensIsland n) && !(decide (n < 34816) && s.flag R.EDA_CLR_COLD [bankOf n])

/-- SENSOR_SAMPLE (R90 to R106): at a boundary of the sensor's grid its decimator latches the raw value of the window `bits`, none where
a powered sensor misses the boundary; `clip` tells of an integrator clip. Off the grid there is no boundary and nothing happens. Both
planes of a port share a boundary: PORT evaluates it with the plane Y sample. -/
def execSensorSample (sensor : Nat) (bits : Option Nat) (clip : Bool) (s : State) : Host.Outcome State Fault Refusal :=
  .next (
    if 36864 ≤ sensor ∨ !sensRuns s sensor ∨ !onGrid s sensor then s
    else match bits with
    | none => settleS sensor (raise .esa 2 (Cause.at (sampleAddr sensor))
        { s with missed := if s.missed.contains sensor then s.missed else sensor :: s.missed })
    | some w =>
      let s1 := settleS sensor (latchSample sensor (rawOf (osrOf (sensRate s sensor)) w) clip s)
      if sensor < 34816 then s1
      else
        let s2 := tapRecord sensor s1
        let p := (sensor - 34816) % 1024 / 512
        let n := (sensor - 34816) % 512
        if sensor < 35840 then outputBoundary n p s2
        else if p = 1 then inputBoundary n s2 else s2)

/-- COMPARATOR_CROSSING (R108, R310, R313): comparator plane × 512 + port of channel B. A port held dark fails its dark
verification from 2 ms after the block on; else a port with SLP trips. -/
def execComparatorCrossing (comp : Nat) (s : State) : Host.Outcome State Fault Refusal :=
  .next (
    let n := comp % 512
    if 1024 ≤ comp ∨ !islOn s 4 then s
    else if heldDark s n then
      if !darkLong s n then s else
      { s with chB := { s.chB with dver := if s.chB.dver.contains n then s.chB.dver else n :: s.chB.dver,
                                   locks := setBits s.chB.locks 4 1 1 } }
    else if spbOn s.chB R.SAF_SLPCFG_EN [n] then slpTrip 1 n s
    else s)

end Sys2Proof.Machine
end

