-- ==== Sys2Proof/Machine/Loop.lean ====
section
/-! DEFINITION. The loop engine (05_loop_engine): entries, error extraction, compensator laws, command and hold share,
states, engines and clusters, load shedding. -/

namespace Sys2Proof.Machine

/-! Clusters (R137 to R139). -/

/-- A cluster fails (R137, R138). -/
def failCluster (c : Nat) (s : State) : State :=
  if s.away.contains c then s
  else
    let live := setBits (s.rd R.CE_CLSTAT_LIVE []) (8 * c) 8 0
    let s1 := { s.wr R.CE_CLSTAT_LIVE [] live with away := c :: s.away }
    reshed (degOn (degCluster c) (raise0 .ce 2 s1))

/-- CLUSTER_FAIL (R137): two heartbeats missing, a supply fault, or every engine retired. -/
def execClusterFail (cluster : Nat) (s : State) : Host.Outcome State Fault Refusal :=
  .next (if cluster < 4 then modeTick (failCluster cluster s) else s)

/-- DEGRADED ends once every cluster has all engines live and owns its home loops (R139). -/
def clustersWhole (s : State) : State :=
  if s.away = [] ∧ s.rd R.CE_CLSTAT_LIVE [] = 2 ^ 32 - 1 then
    ((span 30 4) ++ (span 100 32)).foldl (fun t k => degOff k t) s
  else s

/-- CLUSTER_OWNERSHIP_RETURN (R139): a re-qualified cluster takes its home loops back. -/
def execClusterOwnershipReturn (cluster : Nat) (s : State) : Host.Outcome State Fault Refusal :=
  .next (
    if s.away.contains cluster ∧ islOn s (8 + cluster) ∧ 0 < liveOf s cluster then
      modeTick (reshed (clustersWhole { s with away := s.away.filter (· != cluster) }))
    else s)

/-- An engine is retired (R136). -/
def retireEngine (e : Nat) (c : Cause) (s : State) : State :=
  let s1 := s.wr R.CE_CLSTAT_LIVE [] (setBits (s.rd R.CE_CLSTAT_LIVE []) e 1 0)
  let s2 := degOn (degEngine e) (raise .ce 1 c (raise .ce 0 c s1))
  if liveOf s2 (e / 8) = 0 then failCluster (e / 8) s2 else reshed s2

/-! The live map as a loop sees it. -/

/-- Loop entry address. -/
def entryAddr (n : Nat) : Nat := 0x1000000 + 64 * n

/-- Route that uses an element, with the state it gives it. -/
def elemUse (s : State) (e : Nat) : Option (Route × Nat) :=
  (span 0 512).findSome? fun n => match liveRoute s n with
    | some r => ((routeElems r).find? fun p => p.1 == e).map fun p => (r, p.2)
    | none => none

/-- A loop has a target (R129). -/
def hasTarget (s : State) (n : Nat) : Bool :=
  if n < 34816 then s.rd R.LT_LOOP_TSTATE [n] != 0 && decide (s.rd R.LT_LOOP_TSTATE [n] < 3)
  else dValid (s.rd R.RS_CONN_DESC [voaPort n]) && !s.flag R.RS_CONN_UNROUTED [voaPort n]

/-- The connected input of a VOA loop is in LOS (R129). -/
def voaLos (s : State) (n : Nat) : Bool :=
  decide (34816 ≤ n) && dValid (s.rd R.RS_CONN_DESC [voaPort n]) && losOf s (dIn (s.rd R.RS_CONN_DESC [voaPort n]))

/-- A clear source or a safety channel holds the loop's actuator (R74, R308). -/
def loopHeld (s : State) (n : Nat) : Bool :=
  if n < 34816 then clrActive s (bankOf n) else heldDark s (voaPort n)

/-! Fields of a loop. -/

def lxGet (s : State) (n : Nat) : LoopX := cellGet (fun _ => LoopX.zero) s.loopX n
def lxPut (s : State) (n : Nat) (x : LoopX) : State := { s with loopX := cellSet (fun _ => LoopX.zero) s.loopX n x }

/-- Coefficient set of an update (R120). -/
def csetOf (s : State) (n : Nat) : Nat :=
  (s.rd R.LT_LOOP_CSET [n] + bandOf s (actIsland n) * s.rd R.CE_CSBAND_STRIDE []) % 256

/-- Quotient of the loop arithmetic; by 0 it is open. -/
def quot (a b : Int) : Int := if b = 0 then Config.zeroQuot a else a / b

def sat32 (x : Int) : Int := satS 32 x
def satQ15 (x : Int) : Int := satS 16 x

/-- The handover bit that the EDA returned with the loop's previous drive command (R126). -/
def inHandover (s : State) (n : Nat) : Bool := decide (n < 34816) && (lxGet s n).ho

/-! Sample use (R123). -/

inductive Use where
  | good | move | bad
  deriving DecidableEq, Repr

/-- How an update uses its sample; one that is missing is unusable. -/
def sampleUse (s : State) (n : Nat) : Use :=
  if s.missed.contains n || !s.flag R.ESA_SAMPLE_VALID [n] || s.flag R.ESA_SAMPLE_SAT [n] then .bad
  else if s.flag R.ESA_SAMPLE_MOVE [n] ||
      (decide (34816 ≤ n) && moveIn s n (lastBoundary s n) (ratePeriod (sensRate s n))) then .move
  else .good

/-! Error (R121, R122). -/

/-- ±1 of a bit of the dither pattern. -/
def ditherSign (s : State) (n : Nat) (i : Int) : Int :=
  if bitN (s.rd R.LT_LOOP_DSEQ [n]) (i % 8).toNat then 1 else -1

/-- The reference of a loop has had a VALID sample since its retarget (R123). -/
def refSeen (s : State) (n : Nat) : Bool :=
  decide (cellGet (fun _ => 0) s.moved n < cellGet (fun _ => 0) s.validAt (s.rd R.LT_LOOP_REFS [n]))

/-- The normalising reference r (R121). -/
def refLevel (s : State) (n : Nat) : Int :=
  let j := csetOf s n
  let fl : Int := (s.rd R.CE_CSET_YFLOOR [j] : Nat)
  if refSeen s n then
    max (sra ((s.rd R.ESA_SAMPLE_VALUE [s.rd R.LT_LOOP_REFS [n]] : Nat) * (s.rd R.CE_CSET_KREF [j] : Nat)) 8) fl
  else fl

/-- Demodulation of one usable sample of an element (R121): YAVG, m and e. Without dither nothing is demodulated. -/
def elemError (s : State) (n : Nat) : Int × Int × Int :=
  let y : Int := (s.rd R.ESA_SAMPLE_VALUE [n] : Nat)
  let ya0 : Int := (s.rd R.LT_LOOP_YAVG [n] : Nat)
  let m0 := s.rdS R.LT_LOOP_DEMOD [n]
  if !s.flag R.LT_LOOP_DITH_EN [n] then (ya0, m0, 0)
  else
    let seq : Int := (s.rd R.ESA_SAMPLE_SEQ [n] : Nat)
    let wl := ditherSign s n (seq - (s.rd R.LT_LOOP_DLAG [n] : Nat))
    let ya := ya0 + sra (y - ya0) 6
    let q := wl * (y - ya)
    let m := sat32 (m0 + sra (q - m0) (s.rd R.LT_LOOP_DSH [n]))
    let g := satQ15 (quot (m * 32768) (refLevel s n))
    let t := toS 16 (s.rd R.LT_LOOP_TARGET [n])
    let d := if s.flag R.LT_LOOP_EXT [n] then g - t else t - g
    (ya, m, satQ15 d)

/-- Error of a VOA (R122). -/
def voaError (s : State) (n : Nat) : Int :=
  let t : Int := (s.rd R.LT_LOOP_TARGET [n] : Nat)
  let y : Int := (s.rd R.ESA_SAMPLE_VALUE [n] : Nat)
  satQ15 (quot ((t - y) * 32768) (max t (s.rd R.CE_CSET_YFLOOR [csetOf s n] : Nat)))

/-! Compensator (R124, R125, R127). -/

def sGet (s : State) (n i : Nat) : Int := s.rdS R.LT_LOOP_S [n, i]
/-- Store a compensator state: one that passes 32 bits saturates (DESIGN CHOICE, log entry 86: R124 and R127 say it of law outputs
only). -/
def sPut (n i : Nat) (v : Int) (s : State) : State := s.wrS R.LT_LOOP_S [n, i] (sat32 v)

def cB (s : State) (j i : Nat) : Int := s.rdS R.CE_CSET_B [j, i]
def cA (s : State) (j i : Nat) : Int := s.rdS R.CE_CSET_A [j, i - 1]

/-- Rounding of a law output to Q8.24 (R124). -/
def rnd28 (x : Int) : Int := sat32 (sra (x + 134217728) 28)

/-- One biquad section: output and its two states. -/
def biquad (s : State) (j n i : Nat) (v : Int) : Int × Int × Int :=
  let c (k : Nat) : Int := s.rdS R.CE_CSET_BQ [j, i, k]
  let y := sat32 (rnd28 (c 0 * v) + sGet s n (2 * i))
  (y, sat32 (rnd28 (c 1 * v - c 3 * y) + sGet s n (2 * i + 1)), rnd28 (c 2 * v - c 4 * y))

/-- The cascade: output and new states of the sections from `i`. -/
def cascade (s : State) (j n : Nat) : Nat → Nat → Int → Int × List Int
  | 0, _, v => (v, [])
  | k + 1, i, v =>
    let b := biquad s j n i v
    let r := cascade s j n k (i + 1) b.1
    (r.1, b.2.1 :: b.2.2 :: r.2)

/-- Law output w for an error, with the states that follow it when `corr` is fed back. -/
def lawOut (s : State) (n j : Nat) (e : Int) : Int × (Int → List Int) :=
  let x := e * 512
  let g (i : Nat) : Int := sGet s n i
  match s.rd R.LT_LOOP_LAW [n] with
  | 0 =>
    let w := rnd28 (cB s j 0 * x + cB s j 1 * g 0 + cB s j 2 * g 1 - cA s j 1 * g 2 - cA s j 2 * g 3)
    (w, fun c => [x, g 0, w + c, g 2, 0, 0, 0, 0])
  | 1 =>
    let w := rnd28 (cB s j 0 * x + cB s j 1 * g 0 + cB s j 2 * g 1 + cB s j 3 * g 2 - cA s j 1 * g 3 - cA s j 2 * g 4 -
      cA s j 3 * g 5)
    (w, fun c => [x, g 0, g 1, w + c, g 3, g 4, 0, 0])
  | _ =>
    let nb := s.rd R.LT_LOOP_NBQ [n]
    let r := cascade s j n (nb + 1) 0 x
    (r.1, fun c => setNth (nthD 0 r.2 (2 * nb) + c) r.2 (2 * nb))

/-- Command units of a law output (R125). -/
def toCommand (s : State) (j : Nat) (w : Int) : Int := sra (w * (s.rd R.CE_CSET_GOUT [j] : Nat) + 8388608) 24

/-- Back-calculation of a clamp by `du` (R127). -/
def backCalc (s : State) (j : Nat) (du : Int) : Int :=
  sra ((s.rd R.CE_CSET_KB [j] : Nat) * sra (du * (s.rd R.CE_CSET_RGOUT [j] : Nat)) 8) 15

/-! Feed-forward (R160). -/

/-- Command of a neighbour: its UCMD, or its clear code while it is off or under a clear. -/
def neighbourU (s : State) (m : Nat) : Nat :=
  if s.rd R.LT_LOOP_STATE [m] = 0 ∨ clrActive s (bankOf m) then s.rd R.EDA_ECFG_PCODE [bankOf m, localIx m]
  else s.rd R.LT_LOOP_UCMD [m]

/-- Contribution of one neighbour. -/
def ffTerm (s : State) (m : Nat) (g : Int) : Int :=
  if m = 0xFFFF then 0
  else
    let u := neighbourU s m
    let p := s.rd R.EDA_ECFG_PCODE [bankOf m, localIx m]
    g * (((u * u / 131072 : Nat) : Int) - ((p * p / 131072 : Nat) : Int))

/-- Filter step of an element: FFS. -/
def ffState (s : State) (n : Nat) : Int :=
  let raw := ffTerm s (s.rd R.CE_FFTAB_NB0 [n]) (s.rdS R.CE_FFTAB_G0 [n]) +
    ffTerm s (s.rd R.CE_FFTAB_NB1 [n]) (s.rdS R.CE_FFTAB_G1 [n]) +
    ffTerm s (s.rd R.CE_FFTAB_NB2 [n]) (s.rdS R.CE_FFTAB_G2 [n]) +
    ffTerm s (s.rd R.CE_FFTAB_NB3 [n]) (s.rdS R.CE_FFTAB_G3 [n])
  let f := s.rdS R.CE_FFTAB_FFS [n]
  f + sra (raw * 64 - f) (s.rd R.CE_CSET_FFSH [csetOf s n])

/-- The filter advances at every update of an element loop that is not OFF, whatever FF_EN. A state that passes 32 bits saturates (DESIGN
CHOICE, log entry 86: R160 states no limit). -/
def ffAdvance (n : Nat) (s : State) : State :=
  if n < 34816 then s.wrS R.CE_FFTAB_FFS [n] (sat32 (ffState s n)) else s

/-- The term ff. -/
def ffOf (s : State) (n : Nat) : Int :=
  if n < 34816 ∧ s.flag R.LT_LOOP_FF_EN [n] then sra (s.rdS R.CE_FFTAB_FFS [n] + 32768) 16 else 0

/-! Repetitive controller (R155 to R158). -/

/-- A generator is active (R158). One whose time domain is OFF has no domain time and is taken as inactive too (DESIGN CHOICE, log
entry 88). -/
def genActive (s : State) (g : Nat) : Bool :=
  s.flag R.CE_RCGEN_EN [g] && domUsable s (s.rd R.CE_RCGEN_DOMAIN [g]) && decide (0 < rcPeriod s g) &&
    (!genSched s g || s.flag R.PLAN_SCTL_RUN [s.rd R.CE_RCGEN_SCHED [g]])

/-- Origin of a generator's periods, ns of the domain whose time they follow. -/
def genOrigin (s : State) (g : Nat) : Nat :=
  if genSched s g then cellGet (fun _ => 0) s.plan.cycStart (s.rd R.CE_RCGEN_SCHED [g])
  else epochNs s (s.rd R.CE_RCGEN_DOMAIN [g])

/-- Phase within the learning period at a local instant. Between the start of its schedule and the first cycle start, which lies ahead, the
periods of a generator are counted backwards from that cycle start (DESIGN CHOICE, log entry 88). -/
def genPhase (s : State) (g x : Nat) : Nat :=
  let t := domainOf s (genDomain s g) x
  let l := rcPeriod s g
  (t + l - genOrigin s g % l) % l

/-- Bin of a local instant. -/
def binAt (s : State) (g x : Nat) : Nat := 64 * genPhase s g x / rcPeriod s g % 64

/-- The present period began after the generator may learn. -/
def genLearns (s : State) (g : Nat) : Bool :=
  decide (cellGet (fun _ => 0) s.rcFrom g + genPhase s g s.time ≤ domainOf s (genDomain s g) s.time)

/-- A bin of the learning memory, by its number (R159). -/
def binGet (s : State) (n b : Nat) : Int :=
  if b % 2 = 0 then s.rdS R.LM_BIN_E [n, b / 2] else s.rdS R.LM_BIN_O [n, b / 2]
def binPut (n b : Nat) (v : Int) (s : State) : State :=
  if b % 2 = 0 then s.wrS R.LM_BIN_E [n, b / 2] v else s.wrS R.LM_BIN_O [n, b / 2] v

/-- Playback is permitted (R157). -/
def plays (s : State) (n : Nat) : Bool :=
  s.flag R.LT_LOOP_RC_EN [n] && s.flag R.CE_RCCTL_PLAY_EN [] && genActive s (s.rd R.CE_CSET_RCGEN [csetOf s n])

/-- Playback term and the state after the bin was read: a parity error reads as 0 and is written back (R156, R159). -/
def playback (s : State) (n : Nat) : Int × State :=
  if !plays s n then (0, s)
  else
    let j := csetOf s n
    let bp := (binAt s (s.rd R.CE_CSET_RCGEN [j]) (lastBoundary s n) + s.rd R.CE_CSET_LEAD [j]) % 64
    let hit := injParity .ce 1 s
    if hit.1 ≠ 0 then (0, wrWord (binPut n bp 0 hit.2) 0x800014 (readN hit.2 0x800014 + 1))
    else (sra (binGet s n bp * (s.rd R.CE_CSET_LRG [j] : Nat)) 16, hit.2)

/-- Learning of one usable sample (R156, R157). -/
def learn (n : Nat) (e : Int) (s : State) : State :=
  let j := csetOf s n
  let g := s.rd R.CE_CSET_RCGEN [j]
  if plays s n && s.flag R.CE_RCCTL_LEARN_EN [] && !inHandover s n && genLearns s g then
    let bl := binAt s g (lastBoundary s n - 3 * ratePeriod (sensRate s n) / 2)
    let l := binGet s n bl
    binPut n bl (satS 16 (l - sra l (s.rd R.CE_CSET_FSH [j]) + sra ((s.rd R.CE_CSET_KL [j] : Nat) * e) 15)) s
  else s

/-! Minimum-select groups (R144 to R148). -/

/-- Candidates of a plane: SLP cap, plane balance if it follows, equalisation, with their WIN codes in the order of ties. -/
def pick (slp : Nat) (pb : Option Nat) (eq : Nat) : Nat × Nat :=
  let m := match pb with | some x => min slp (min x eq) | none => min slp eq
  (m, if m = slp then 1 else if pb = some m then 2 else 0)

/-- The plane that follows (R145): 0 none, 1 X, 2 Y. -/
def followPlane (en : Bool) (pbp tx ty hys : Nat) : Nat :=
  if !en then 0
  else if pbp = 1 then (if tx + hys < ty then 2 else 1)
  else if pbp = 2 then (if ty + hys < tx then 1 else 2)
  else if ty < tx then 1 else if tx < ty then 2 else 0

/-- The ramp of R145 towards a goal. -/
def rampTo (goal ramp rsh : Nat) : Nat := if goal ≤ ramp then goal else min goal (ramp + max (ramp / 2 ^ rsh) 1000)

/-- Tracking of a losing ramp. -/
def trackRamp (ramp win target share : Nat) : Nat := if win = 0 then ramp else min ramp (target * 65536 / share)

/-- The group of output `n` is evaluated (R144). -/
def evalGroup (n : Nat) (s : State) : State :=
  let lx := voaLoop 0 n
  let ly := voaLoop 1 n
  let d := s.rd R.RS_CONN_DESC [n]
  if !dValid d || (s.rd R.LT_LOOP_STATE [lx] != 2 && s.rd R.LT_LOOP_STATE [ly] != 2) then s
  else
    let i := dIn d
    let ix := inTap s 0 i
    let iy := inTap s 1 i
    let fl := groupFloor s n
    let sx := if ix + iy < fl then 32768
      else (clampI 4096 61440 (quot ((ix * 65536 : Nat) : Int) ((ix + iy : Nat) : Int))).toNat
    let sy := 65536 - sx
    let r1 := rampTo (eqGoal s n) (s.rd R.LT_VOA_RAMP [lx]) (s.rd R.LT_VOA_RSH [lx])
    let tx := s.rd R.LT_VOA_TAU [lx]
    let ty := s.rd R.LT_VOA_TAU [ly]
    let en := s.flag R.LT_VOA_PB_EN [lx] && decide (fl ≤ ix) && decide (fl ≤ iy)
    let pbp := followPlane en (s.rd R.LT_VOA_PBP [lx]) tx ty (s.rd R.LT_VOA_PBHYS [lx])
    let cap := slpCap s n
    let px := pick (cap * sx / 65536) (if pbp = 1 then some (ix * ty / 65536) else none) (r1 * sx / 65536)
    let py := pick (cap * sy / 65536) (if pbp = 2 then some (iy * tx / 65536) else none) (r1 * sy / 65536)
    let r2 := trackRamp (trackRamp r1 px.2 px.1 sx) py.2 py.1 sy
    let s1 := (((s.wr R.LT_LOOP_TARGET [lx] px.1).wr R.LT_VOA_WIN [lx] px.2).wr R.LT_LOOP_TARGET [ly] py.1).wr
      R.LT_VOA_WIN [ly] py.2
    ((s1.wr R.LT_VOA_RAMP [lx] r2).wr R.LT_VOA_RAMP [ly] r2).wr R.LT_VOA_PBP [lx] pbp

/-- A loop of the group enters CLOSED: the ramp starts from the level reached (R147). -/
def startRamp (n : Nat) (s : State) : State :=
  let p := voaPort n
  let r := min (eqGoal s p) (outTap s 0 p + outTap s 1 p)
  (s.wr R.LT_VOA_RAMP [voaLoop 0 p] r).wr R.LT_VOA_RAMP [voaLoop 1 p] r

/-- Filtered transmission of a VOA's plane after an update with a usable sample (R146), while the group is evaluated
(R148). -/
def tauStep (n : Nat) (s : State) : State :=
  let d := s.rd R.RS_CONN_DESC [voaPort n]
  let i := inTap s ((n - 34816) / 512) (dIn d)
  let closed (p : Nat) : Bool := s.rd R.LT_LOOP_STATE [voaLoop p (voaPort n)] == 2
  if !dValid d ∨ !(closed 0 || closed 1) ∨ i < groupFloor s (voaPort n) then s
  else
    let y := s.rd R.ESA_SAMPLE_VALUE [n]
    let t : Int := (s.rd R.LT_VOA_TAU [n] : Nat)
    let v := min 65535 (quot ((y * 65536 : Nat) : Int) (i : Int))
    s.wr R.LT_VOA_TAU [n] (clampN 65535 (t + sra (v - t) (s.rd R.LT_VOA_PBSH [voaLoop 0 (voaPort n)])))

/-! Plausibility (R161 to R163). -/

/-- The normalised level of an element (R161). -/
def levOf (s : State) (n : Nat) : Int := satQ15 (quot ((s.rd R.LT_LOOP_YAVG [n] : Nat) * 32768) (refLevel s n))

/-- Level check of an element. -/
def levelBad (s : State) (n : Nat) : Bool :=
  let lev := levOf s n
  if s.flag R.LT_LOOP_EXT [n] then decide (lev < (s.rd R.CE_CSET_LMIN [csetOf s n] : Nat))
  else decide (((s.rd R.CE_CSET_LMAX [csetOf s n] : Nat) : Int) < lev)

/-- Overshoot check of a VOA. -/
def overshoots (s : State) (n : Nat) : Bool :=
  let t := s.rd R.LT_LOOP_TARGET [n]
  decide (t + t * s.rd R.CE_CSET_OVTOL [csetOf s n] / 65536 < s.rd R.ESA_SAMPLE_VALUE [n])

/-- Outputs whose connection uses a loop's actuator. -/
def connsOf (s : State) (n : Nat) : List Nat := if n < 34816 then outputsUsing s (fun e => e == n) else [voaPort n]

/-- The loop is marked SUSPECT (R163): elements are reported to Tangram. -/
def markSuspect (n : Nat) (s : State) : State :=
  if mapBit s 0x800200 n then s
  else
    let s1 := notifyAll 0x08 (beBytes 2 n) (setMapBit s 0x800200 n true)
    if n < 34816 ∧ islOn s 7 then
      (connsOf s1 n).foldl (fun t o => showFlags o t) (setMapBit s1 0x731100 n true)
    else s1

/-- Count PLCNT (R162); `bad` is none where the update leaves it. -/
def countPl (n : Nat) (bad : Option Bool) (s : State) : State :=
  let j := csetOf s n
  let k := s.rd R.LT_LOOP_PLCNT [n]
  if !s.flag R.LT_LOOP_PL_EN [n] then s.wr R.LT_LOOP_PLCNT [n] 0
  else
    let closed := s.rd R.LT_LOOP_STATE [n] == 2
    let k1 := if voaLos s n then max k (s.rd R.CE_CSET_PLTRIP [j])
      else match bad with
      | some true =>
        if closed then min 127 (k + s.rd R.CE_CSET_PLUP [j])
        else if s.rd R.ESA_SAMPLE_SEQ [n] % 256 = 0 then min 127 (k + 1) else k
      | some false => k - 1
      | none => k
    let s1 := s.wr R.LT_LOOP_PLCNT [n] k1
    if k1 = 127 then markSuspect n s1 else s1

/-! States (R128 to R130). -/

/-- FRZ of the connections that a loop carries. -/
def showFrz (n : Nat) (s : State) : State := (connsOf s n).foldl (fun t o => showFlags o t) s

/-- Put a loop's state and HCAUSE, with what entering CLOSED and FROZEN mean (R129, R130, R147). -/
def loopGo (n eng : Nat) (q : Nat × Nat) (s : State) : State :=
  let old := s.rd R.LT_LOOP_STATE [n]
  let s1 := (s.wr R.LT_LOOP_STATE [n] q.1).wr R.LT_LOOP_HCAUSE [n] q.2
  let s2 := if q.1 = 2 ∧ old ≠ 2 ∧ 34816 ≤ n then startRamp n s1 else s1
  let s3 := if q.1 = 0 then s2.wr R.LT_LOOP_PLCNT [n] 0 else s2
  let s4 := if q.1 = 3 ∧ old ≠ 3 then
      showFrz n (notifyAll 0x07 (beBytes 2 n ++ [s3.rd R.LT_LOOP_HCAUSE [n]])
        (raise .ce 5 ⟨entryAddr n, 0x10 + eng, 7, 0, 0, false⟩ (s3.wr R.LT_LOOP_NGOOD [n] 0)))
    else s3
  let s5 := if old = 3 ∧ q.1 ≠ 3 then showFrz n s4 else s4
  if old = 0 ∧ q.1 ≠ 0 then reshed s5 else s5

/-- The loop's entry and tables are loaded (R129). -/
def entryLoaded (s : State) (n : Nat) : Bool :=
  s.image.isSome && (decide (34816 ≤ n) || (bankGet s (bankOf n)).loaded)

/-- CLOSED for a loop with a target, else MODEL_HOLD with cause 0. -/
def closeOr0 (s : State) (n : Nat) : Nat × Nat := if hasTarget s n then (2, 0) else (1, 0)

/-- Closing of a loop with a target: one that is held dark or clear takes cause 1 (R8, R74). -/
def closeH (s : State) (n : Nat) : Nat × Nat :=
  if hasTarget s n && loopHeld s n then (1, 1) else closeOr0 s n

/-- Release of an element towards its model value, or no target. -/
def slewOr0 (s : State) (n : Nat) : Nat × Nat := if hasTarget s n then (1, 6) else (1, 0)

/-- The CAL holds the loop: a calibration run, or DARK (R129). -/
def calHolds (s : State) : Bool := modeOf s == mCalibrate || modeOf s == mDark

/-- The transition of R129 that an update takes: state and HCAUSE. In CALIBRATE every loop that is not OFF is in MODEL_HOLD with cause 3
(R254); cause 4 lasts until DARK is released, whatever mode comes between (R21, R75). HCAUSE is the cause of MODEL_HOLD; in CLOSED and FROZEN it reads 0 (DESIGN CHOICE, log entry 87). -/
def loopNext (s : State) (n : Nat) (u : Use) : Nat × Nat :=
  let st := s.rd R.LT_LOOP_STATE [n]
  let hc := s.rd R.LT_LOOP_HCAUSE [n]
  let held := loopHeld s n
  let voa := decide (34816 ≤ n)
  if !islOn s (actIsland n) || (!voa && elemFailed s n) || modeOf s == mReset then (0, 0)
  else if st = 0 then (if entryLoaded s n then (1, 4) else (0, 0))
  else if modeOf s = mCalibrate then (1, 3)
  else if st = 2 ∨ st = 3 then
    if held then (1, 1)
    else if modeOf s = mDark then (1, 4)
    else if !hasTarget s n then (1, 0)
    else if st = 2 then
      if s.rd R.CE_SUPV_NBADMAX [] ≤ s.rd R.LT_LOOP_NBAD [n] ∨ voaLos s n then (3, 0) else (2, 0)
    else if s.rd R.CE_SUPV_NGOODMIN [] ≤ s.rd R.LT_LOOP_NGOOD [n] ∧ !voaLos s n ∧
        (!s.flag R.LT_LOOP_PL_EN [n] ∨ s.rd R.LT_LOOP_PLCNT [n] ≤ s.rd R.CE_CSET_PLREL [csetOf s n]) then (2, 0)
    else (3, 0)
  else match hc with
  | 1 => if held then (1, 1) else if voa then closeOr0 s n else slewOr0 s n
  | 2 => closeH s n
  | 3 => closeH s n
  | 4 => if modeOf s = mDark || !s.modes.released then (1, 4) else if !voa && !(hasTarget s n && held) then slewOr0 s n else closeH s n
  | 5 => if u = .bad then (1, 5) else closeH s n
  | 6 => if !held && drvSettled s n then (2, 0) else (1, 6)
  | _ => (1, hc)

/-! Commands (R126, R128, R142). -/

/-- Upper end of a loop's command range. -/
def cmdTop (n : Nat) : Int := if n < 34816 then 131071 else 65535

/-- Model command mt. -/
def modelCmd (s : State) (n : Nat) : Nat :=
  modelAt (s.rd R.LT_LOOP_UMOD [n]) (s.rdS R.LT_LOOP_TCO [n]) (s.rdS R.LT_LOOP_TREF [n]) (tempOf s n) (cmdTop n)

/-- Send a command: an element's drive takes it and returns its handover bit; a VOA's driver applies it at the next tick. A B1 step in
progress counts it (R267). -/
def sendCmd (n u : Nat) (dh : Int) (s : State) : State :=
  let s1 := noteUcmd n u (s.wrS R.LT_LOOP_DH [n] dh)
  if n < 34816 then
    let s2 := driveCmd n u dh (s.rd R.LT_LOOP_TSTATE [n]) (s1.wr R.LT_LOOP_UCMD [n] u)
    lxPut s2 n { lxGet s2 n with ho := (drvGet s2 n).ho }
  else voaCommand n u s1

/-- The copy of BCODE in the block stages of a VOA driver (R308): the value that the image or the CAL wrote last, whatever the port's PB
island has lost. -/
def blockCode (s : State) (v : Nat) : Nat :=
  let a := fldAddr R.PORT_VCAL_BCODE [v]
  let held (c : Cells Word) : Bool := c.any fun x => x.1 == a
  let w := if held s.wcal then cellGet resetWord s.wcal a else cellGet resetWord s.wbase a
  bitsN w.toNat 16 16

/-- Heater code that a VOA driver applies (R142, R143): plane × 512 + port. Held dark it drives BCODE whatever the loop commands
(R8); else the code of the last command. -/
def voaHeater (s : State) (v : Nat) : Nat :=
  if heldDark s (v % 512) then blockCode s v else cellGet (fun _ => 0) s.voaOut v

/-- The output port whose line the CAL_OUT diverter holds (R43, R254). -/
def diverted (s : State) (n : Nat) : Bool := s.calx.divert == some (voaPort n)

/-- Command of MODEL_HOLD (R128): mt, or block for a VOA without a target, held dark, waiting for its first close, or in CALIBRATE unless
the diverter holds its output (R254); in C2 every element parks at its present clear code (R254, R255). It is the loop's last command without dither (DESIGN CHOICE, log entry 83). -/
def holdCmd (n : Nat) (s : State) : State :=
  let hc := s.rd R.LT_LOOP_HCAUSE [n]
  let block := decide (34816 ≤ n) && (hc == 0 || hc == 1 || hc == 4 || hc == 3 && !diverted s n)
  let park := decide (n < 34816) && hc == 3 && s.rd R.CAL_RUN_PHASE [] == 2
  let u := if block then 0 else if park then s.rd R.EDA_ECFG_PCODE [bankOf n, localIx n] else modelCmd s n
  sendCmd n u 0 (lxPut s n { lxGet s n with ul := u })

/-- The numbers of one CLOSED update from a law output (R126). -/
structure Command where
  ul : Int
  du : Int
  ucmd : Int
  windowed : Bool
  deriving DecidableEq, Repr

def formCmd (s : State) (n : Nat) (w lr : Int) : Command :=
  let mt : Int := (modelCmd s n : Nat)
  let win : Int := (s.rd R.CE_CSET_WIN [csetOf s n] : Nat)
  let top := cmdTop n
  let uu := mt + toCommand s (csetOf s n) w + ffOf s n + lr
  let ul := clampI (max 0 (mt - win)) (min top (mt + win)) uu
  let wd := ditherSign s n (s.rd R.ESA_SAMPLE_SEQ [n] : Nat)
  let di := if n < 34816 ∧ s.flag R.LT_LOOP_DITH_EN [n] then (s.rd R.LT_LOOP_DAMP [n] : Nat) * wd else 0
  ⟨ul, ul - uu, clampI 0 top (ul + di),
    decide (ul ≠ uu) && ((decide (uu < ul) && decide (0 < mt - win)) || (decide (ul < uu) && decide (mt + win < top)))⟩

/-- Hold correction of an error (R126). -/
def holdShare (s : State) (n : Nat) (e : Int) : Int :=
  if inHandover s n then clampI (-102) 102 (sra (s.rdS R.CE_CSET_KPH [csetOf s n] * e + 4194304) 23) else 0

/-- An update in CLOSED with a clean sample: error, law, learning, command, plausibility. The handover bit of the whole update is the one
that the previous command returned (R126, R157). -/
def closedGood (n : Nat) (s : State) : Int × State :=
  let j := csetOf s n
  let el := elemError s n
  let e := if n < 34816 then el.2.2 else voaError s n
  let s1 := if n < 34816 then (s.wr R.LT_LOOP_YAVG [n] el.1.toNat).wrS R.LT_LOOP_DEMOD [n] el.2.1 else s
  let pb := playback s1 n
  let law := lawOut s1 n j e
  let c := formCmd s1 n law.1 pb.1
  let sts := law.2 (backCalc s1 j c.du)
  let s2 := (span 0 8).foldl (fun t i => sPut n i (nthD 0 sts i) t) pb.2
  let s3 := lxPut s2 n { lxGet s2 n with ul := c.ul.toNat, w := law.1 }
  let s4 := sendCmd n c.ucmd.toNat (holdShare s1 n e) (learn n e s3)
  let bad := (c.windowed && !inHandover s1 n) || (if n < 34816 then levelBad s1 n else overshoots s1 n)
  (e, countPl n (some bad) s4)

/-- An update in CLOSED with a MOVE sample: the compensator output is held, e is 0 for the hold share. -/
def closedMove (n : Nat) (s : State) : State :=
  let pb := playback s n
  let c := formCmd s n (lxGet s n).w pb.1
  let s1 := lxPut pb.2 n { lxGet s n with ul := c.ul.toNat }
  countPl n none (sendCmd n c.ucmd.toNat (holdShare s n 0) s1)

/-- An update in CLOSED without a usable sample: the last command is repeated, ΔH included. -/
def closedBad (n : Nat) (s : State) : State :=
  countPl n none (sendCmd n (s.rd R.LT_LOOP_UCMD [n]) (s.rdS R.LT_LOOP_DH [n]) s)

/-- An update in FROZEN: the last ul, no dither, the last ΔH. -/
def frozenUpd (n : Nat) (u : Use) (s : State) : State :=
  let bad := if u = .good then some (if n < 34816 then levelBad s n else overshoots s n) else none
  countPl n bad (sendCmd n (lxGet s n).ul (s.rdS R.LT_LOOP_DH [n]) s)

/-- A usable sample of a loop comes (R263). -/
def noteGood (n : Nat) (u : Use) (s : State) : State :=
  if u = .bad then s else lxPut s n { lxGet s n with goodAt := s.time + 1 }

/-- Counters NBAD and NGOOD of a loop that is CLOSED or FROZEN (R123, R128, R129). A MOVE sample, VALID as it is, counts as usable for NGOOD,
as it does for leaving cause 5 (DESIGN CHOICE, log entry 123). -/
def countSamples (n : Nat) (u : Use) (s0 : State) : State :=
  let s := noteGood n u s0
  let nb := s.rd R.LT_LOOP_NBAD [n]
  let s1 := match u with
    | .good => s.wr R.LT_LOOP_NBAD [n] 0
    | .move => s
    | .bad => s.wr R.LT_LOOP_NBAD [n] (min 15 (nb + 1))
  if s.rd R.LT_LOOP_STATE [n] = 3 then
    s1.wr R.LT_LOOP_NGOOD [n] (if u = .bad ∨ voaLos s n then 0 else min 7 (s.rd R.LT_LOOP_NGOOD [n] + 1))
  else s1

/-- A loop takes its rate at its boundary at the old one, where its sensor restarts: class rate, shedding, and the lit rate of a loop
that an armed wave moves (R94, R114, R116, R131, R134). -/
def takeRate (n : Nat) (s : State) : State :=
  let r := rateAt s s.shed n
  if s.rd R.LT_LOOP_RATE [n] = r then s
  else
    let s1 := (s.wr R.LT_LOOP_RATE [n] r).wr R.LT_LOOP_PHASE [n] (n % 2 ^ r)
    { s1 with refill := cellSet (fun _ => 2) s1.refill n 2 }

/-- A loop that waited for its boundary after an overlay change has passed it (R31). -/
def settleL (n : Nat) (s : State) : State :=
  if s.modes.busyL.contains n then
    settle { s with modes := { s.modes with busyL := s.modes.busyL.filter (· != n) } }
  else s

/-- Loop trace record (R360): its time is that of its sample boundary. -/
def loopRecord (n : Nat) (e : Int) (s : State) : State :=
  if s.rd R.LT_LOOP_STATE [n] = 0 then s
  else
    let fl := readN s (sampleAddr n + 4) / 2 ^ 25 * 2
    let st := s.rd R.LT_LOOP_STATE [n] * 64 + s.rd R.LT_LOOP_HCAUSE [n] * 8 + b2n (inHandover s n) * 4 +
      (if 34816 ≤ n then s.rd R.LT_VOA_WIN [n] else 0)
    let stamp (d : Nat) : Bool × Nat × Nat :=
      let z := domainOf s d (lastBoundary s n)
      (domUsable s d, z / 1000000000 % 2 ^ 32, z % 1000000000)
    gatherAt stamp n 1 (s.rd R.EGS_SRCCFG_LOOP_DSH []) (beBytes 2 (s.rd R.ESA_SAMPLE_SEQ [n]) ++ [fl, st] ++
      beBytes 4 (s.rd R.ESA_SAMPLE_VALUE [n]) ++ beBytes 2 (ofS 16 e) ++ [s.rd R.LT_LOOP_DH [n]] ++
      beBytes 3 (s.rd R.LT_LOOP_UCMD [n]) ++ [s.rd R.LT_LOOP_PLCNT [n], 0]) s

/-- What the checkers find at an update (R136, R140): none, an entry corrected, an uncorrectable word, a residue mismatch. -/
inductive Check where
  | clean | corrected (synd : Nat) | dead (synd : Nat) (inj : Bool) | residue (synd : Nat) (inj : Bool)
  deriving DecidableEq, Repr

/-- The checkers of one update: loop table, coefficient set, engine residue. -/
def checkUpdate (residueOk : Bool) (s : State) : Check × State :=
  let a := injHit .ce 0 s
  let b := injHit .ce 2 a.2
  let c := injHit .ce 3 b.2
  let m := if a.1 = 0 then b.1 else a.1
  (if 2 ≤ popc m then .dead m true
   else if popc c.1 ≠ 0 then .residue c.1 true
   else if !residueOk then .residue 0 false
   else if popc m = 1 then .corrected m
   else .clean, c.2)

/-- The update proper: sample, transition, command, records. -/
def updateLoop (n eng : Nat) (s : State) : State :=
  let s0 := settleL n (rampTick n s)
  let u := sampleUse s0 n
  let live := decide (2 ≤ s0.rd R.LT_LOOP_STATE [n])
  let s1 := if live then countSamples n u s0 else s0
  let s2 := loopGo n eng (loopNext s1 n u) s1
  let st := s2.rd R.LT_LOOP_STATE [n]
  let s2b := if st = 2 ∧ !live then countSamples n u s2 else s2
  let s3 := if st = 0 then s2b else ffAdvance n s2b
  let r : Int × State :=
    if st = 0 then (0, s3)
    else if st = 1 then (0, holdCmd n s3)
    else if st = 3 then (0, frozenUpd n u s3)
    else match u with
      | .good => closedGood n s3
      | .move => (0, closedMove n s3)
      | .bad => (0, closedBad n s3)
  let s4 := if 34816 ≤ n ∧ st ≠ 0 ∧ u ≠ .bad then tauStep n r.2 else r.2
  let trip := s4.rd R.LT_LOOP_STATE [n] == 2 && s4.flag R.LT_LOOP_PL_EN [n] &&
    decide (s4.rd R.CE_CSET_PLTRIP [csetOf s4 n] ≤ s4.rd R.LT_LOOP_PLCNT [n])
  takeRate n (loopRecord n r.1 (if trip then loopGo n eng (3, 0) s4 else s4))

/-- Updates of a retargeted loop are suppressed until T0 + 2 µs (R132). -/
def suppressed (s : State) (n : Nat) : Bool :=
  s.rd R.LT_LOOP_STATE [n] == 1 && s.rd R.LT_LOOP_HCAUSE [n] == 2 && decide (s.time < cellGet (fun _ => 0) s.moved n + 1999)

/-- LOOP_UPDATE (R112, R121 to R130, R136, R140): a live engine of the cluster that owns the loop updates it once from the
sensor's latest sample; the plane X loop of a port first evaluates its group. -/
def execLoopUpdate (loop engine : Nat) (residueOk : Bool) (s : State) : Host.Outcome State Fault Refusal :=
  .next (
    if 35840 ≤ loop ∨ 32 ≤ engine ∨ !engLive s engine ∨ !islOn s (8 + engine / 8) ∨
        ownerOf s loop ≠ some (engine / 8) ∨ !islOn s (actIsland loop) ∨ s.loopBad.contains loop ∨ suppressed s loop then s
    else
      let c (acc chk sy : Nat) (inj : Bool) : Cause := ⟨entryAddr loop, 0x10 + engine, acc, chk, sy, inj⟩
      let k := checkUpdate residueOk (noteUpdate (engine / 8) (lastBoundary s loop / 125) s)
      match k.1 with
      | .dead sy inj => raise .ce 4 (c 0 2 sy inj) { k.2 with loopBad := loop :: k.2.loopBad }
      | .residue sy inj => modeTick (retireEngine engine (c 7 5 sy inj) k.2)
      | .corrected _ =>
        let s1 := wrWord k.2 0x800014 (readN k.2 0x800014 + 1)
        updateLoop loop engine (if 34816 ≤ loop ∧ loop < 35328 then evalGroup (voaPort loop) s1 else s1)
      | .clean => updateLoop loop engine (if 34816 ≤ loop ∧ loop < 35328 then evalGroup (voaPort loop) k.2 else k.2))

/-! Entries rebuilt (R140, R406). -/

/-- The entry of a loop from the image and the calibration record, with the target of an element: the connection that uses it and
its state there, PARK without one. -/
def entryFor (n : Nat) (use : Option (Route × Nat)) (s : State) : State :=
  let words : List (Nat × Nat) := match s.image with
    | some im => im.base.filter fun (w : Nat × Nat) => decide (entryAddr n ≤ w.1) && decide (w.1 < entryAddr n + 0x14)
    | none => []
  let s1 := words.foldl (fun t w => mergeWord (loadMask w.1) w.1 w.2 t) s
  if 34816 ≤ n then s1.wr R.LT_LOOP_UMOD [n] (s.rd R.LT_LOOP_UMOD [n])
  else
    let st := (use.map (·.2)).getD 0
    let refs := match use with | some x => 35840 + elemPlane n * 512 + dIn x.1.desc | none => 0
    let w (F : Fld) (v : Nat) (t : State) : State := t.wr F [n] v
    w R.LT_LOOP_TSTATE st (w R.LT_LOOP_EXT (b2n (decide (st = stS) && decide (elemPos n < 2)))
      (w R.LT_LOOP_UMOD (calCode s n st) (w R.LT_LOOP_TCO (s.rd R.CAL_EREC_TCO [n])
      (w R.LT_LOOP_TREF (s.rd R.CAL_EREC_TREF [n]) (w R.LT_LOOP_REFS refs
      (w R.LT_LOOP_TARGET 0 (w R.LT_LOOP_DITH_EN (b2n (st != 0)) s1)))))))

/-- The entry of a loop as the live map has it (R140). -/
def rebuildEntry (n : Nat) (s : State) : State := entryFor n (elemUse s n) s

/-- LOOP_ENTRY_REWRITE (R140): the MP rewrites an uncorrectable entry; the loop resumes in MODEL_HOLD with cause 5. -/
def execLoopEntryRewrite (loop : Nat) (s : State) : Host.Outcome State Fault Refusal :=
  .next (
    if s.loopBad.contains loop ∧ !s.modes.mpDown ∧ islOn s (actIsland loop) ∧ loop < nLoop then
      let s1 := rebuildEntry loop { s with loopBad := s.loopBad.filter (· != loop) }
      if s1.rd R.LT_LOOP_STATE [loop] = 0 then s1 else loopGo loop 0 (1, 5) s1
    else s)

/-! Comparator self-test (R108). -/

/-- COMPARATOR_SELF_TEST (R108): a test current for 1 µs. The spec gives its result no reaction: no trip is latched and no
register shows it. -/
def execComparatorSelfTest (_comp : Nat) (_passed : Bool) (s : State) : Host.Outcome State Fault Refusal := .next s

end Sys2Proof.Machine
end

