-- ==== Sys2Proof/Machine/Quality.lean ====
section
/-! DEFINITION. Quality figures of a path (08_connections R204; 11_calibration R263 to R266): leakage and phase error of its elements,
residual extinction error, estimated crosstalk, insertion loss. The rules state real numbers and no rounding: every figure here is
rounded down in its own unit (DESIGN CHOICE, log entry 15). -/

namespace Sys2Proof.Machine

/-! Powers, logarithms and angles in whole numbers. -/

/-- 1,000 log10(a / b) is at least `l`. -/
def logAtLeast (a b : Nat) (l : Int) : Bool :=
  if 0 ≤ l then decide (b ^ 1000 * 10 ^ l.toNat ≤ a ^ 1000) else decide (b ^ 1000 ≤ a ^ 1000 * 10 ^ (-l).toNat)

/-- 10 log10(a / b) in 0.01 dB, for positive `a` and `b`. -/
def centiDb (a b : Nat) : Int := (lastOk (fun k => logAtLeast a b ((k : Int) - 40000)) 20 0 80000 : Nat) - 40000

/-- The terms of 1 − cos from the `k`-th on, in 2⁻⁴⁰; `x` is the square of the angle. -/
def versinFrom (x : Int) : Nat → Int → Int → Int
  | 0, _, _ => 0
  | n + 1, k, t => t - versinFrom x n (k + 1) (t * x / 2 ^ 40 / ((2 * k + 1) * (2 * k + 2)))

/-- 1 − cos of an angle in 10⁻⁵ rad, in 2⁻⁴⁰. -/
def versin (d : Nat) : Int :=
  let x : Int := (d * d * 2 ^ 40 / 10 ^ 10 : Nat)
  versinFrom x 16 1 (x / 2)

/-- δ = 2 asin(sqrt(x)) in 10⁻⁵ rad of `x` in 2⁻³⁰: 1 − cos δ = 2x. -/
def phaseOf (x : Nat) : Nat := lastOk (fun d => decide (versin d ≤ ((x * 2 ^ 11 : Nat) : Int))) 20 0 314160

/-- Square root, rounded down. -/
def rootOf (x : Nat) : Nat := lastOk (fun r => decide (r * r ≤ x)) 40 0 (2 ^ 40)

/-! Elements (R263). -/

/-- The calibrated extinction floor ε0 in 2⁻³⁰: 10^(−code / 40). -/
def floorOf (s : State) (e : Nat) : Nat :=
  let c := s.rd R.CAL_EREC_EPS0 [e]
  lastOk (fun m => decide (m ^ 40 * 10 ^ c ≤ 2 ^ 1200)) 32 0 (2 ^ 30 + 1)

/-- ε in 2⁻³⁰ and δ of an element as its loop measures them now; an argument of the arcsine above 1 counts as 1. -/
def figuresNow (s : State) (e : Nat) : Nat × Nat :=
  let r := quot (levOf s e * 2 ^ 30) (s.rd R.CAL_EREC_LSPAN [e] : Nat)
  let x := if s.flag R.LT_LOOP_EXT [e] then 2 ^ 30 - r else r
  let f := floorOf s e
  let eps := max x.toNat f
  (eps, phaseOf (min (2 ^ 30) (eps - f)))

/-- The loop has had a usable sample in the last 10 ms. -/
def freshSample (s : State) (e : Nat) : Bool :=
  let g := (lxGet s e).goodAt
  decide (g ≠ 0) && decide (s.time < g + 10000000)

/-- Refresh of an element: without a usable sample it keeps its last ε and δ. -/
def refreshElem (e : Nat) (s : State) : State :=
  if freshSample s e then
    { s with calx := { s.calx with eps := cellSet (fun _ => (0, 0)) s.calx.eps e (figuresNow s e) } }
  else s

/-- ε and δ of an element; one that has had no usable sample yet stands at its calibrated ε0 (DESIGN CHOICE, log entry 15). -/
def figuresOf (s : State) (e : Nat) : Nat × Nat :=
  let x := cellGet (fun _ => (0, 0)) s.calx.eps e
  if x.1 = 0 then (floorOf s e, 0) else x

/-! Paths (R264 to R266). -/

/-- Splitter and combiner of each node of a path. -/
def nodePairs : List (Nat × Nat) → List (Nat × Nat)
  | a :: b :: t => (a.1, b.1) :: nodePairs t
  | _ => []

/-- The other splitter of a splitter's node. -/
def otherSplitter (e : Nat) : Nat := if elemPos e = 0 then e + 1 else e - 1

/-- REE of a path: the root mean square of δ in 0.1 mrad. -/
def reeOf (s : State) (l : List (Nat × Nat)) : Nat := rootOf ((l.map fun p => (figuresOf s p.1).2 ^ 2).sum / 3400)

/-- Σ ε_c × ε_o of a path in 2⁻⁶⁰; `live` are the elements that carry light. -/
def leakOf (s : State) (live : List Nat) (l : List (Nat × Nat)) : Nat :=
  ((nodePairs l).map fun n =>
    let o := otherSplitter n.1
    (figuresOf s n.2).1 * (if live.contains o then (figuresOf s o).1 else floorOf s o)).sum

/-- XT of a path in 0.01 dB; the logarithm of 0 is open. -/
def xtOf (s : State) (live : List Nat) (p n k : Nat) (l : List (Nat × Nat)) : Int :=
  let x := leakOf s live l
  if x = 0 then ((Config.quality 1 p n k : Nat) : Int) else centiDb x (2 ^ 60)

/-- IL of a path in plane `p` to output `n`, in 0.01 dB: the VOA's nominal loss is taken out and both fixed losses are added (R142, R266).
A tap without a reading, and a VOA at block, which has no nominal loss, leave it open. -/
def ilOf (s : State) (p n k : Nat) (r : Route) : Nat :=
  let i := inTap s p (dIn r.desc)
  let o := outTap s p n
  let t := s.rd R.LT_LOOP_UCMD [voaLoop p n]
  if i = 0 ∨ o = 0 ∨ t = 0 then Config.quality 0 p n k
  else
    let a : Int := (4000 * (65536 - t) / 65536 : Nat)
    clampN 65535 (centiDb i o - a + (s.rd R.CAL_FIXLOSS_IN [dIn r.desc] : Nat) + (s.rd R.CAL_FIXLOSS_OUT [n] : Nat))

/-- Refresh of one path with its elements' figures; AGE counts from it (R204). -/
def refreshPath (live : List Nat) (n p : Nat) (s : State) : State :=
  match liveRoute s n with
  | some r =>
    if r.routed then
      let k := s.rd R.RS_PATH_UPD [n, p] + 1
      let l := planeElems r p
      let s1 := ((s.wr R.RS_PATH_IL [n, p] (ilOf s p n k r)).wrS R.RS_PATH_XT [n, p] (xtOf s live p n k l)).wr R.RS_PATH_REE [n, p] (reeOf s l)
      let s2 := s1.wr R.RS_PATH_UPD [n, p] k
      { s2 with pathAt := cellSet (fun _ => 0) s2.pathAt (2 * n + p) (s2.time + 1) }
    else s
  | none => s

/-- Elements that carry light: those of the live paths. -/
def liveElems (s : State) : List Nat := ((span 0 512).map fun n => (optElems (liveRoute s n)).map (·.1)).flatten

/-- PATH_QUALITY_REFRESH (R204): every 10 ms. -/
def execPathQualityRefresh (s : State) : Host.Outcome State Fault Refusal :=
  .next (
    if islOn s 7 then
      let live := liveElems s
      (span 0 512).foldl (fun t n => refreshPath live n 1 (refreshPath live n 0 t)) (live.foldl (fun t e => refreshElem e t) s)
    else s)

end Sys2Proof.Machine
end

