-- ==== Sys2Proof/Machine/Plan.lean ====
section
/-! DEFINITION. Stored plans (10_stored_plans): rules, claims, cyclic schedules. -/

namespace Sys2Proof.Machine

/-! Names (R183, R239). -/

/-- Name of a domain instant in window `w` (KIND WINDOW, NEXT = 0). -/
def windowName (s : State) (d t w : Nat) : Nat :=
  let o := t - epochNs s d
  let af := o / 10000000
  d * 2 ^ 61 + af / 1024 % 65536 * 2 ^ 40 + af % 1024 * 2 ^ 30 + o % 10000000 / patOf s d * 2 ^ 25 + w * 2 ^ 16

/-- The window of a domain whose slot 0 lies at an instant. -/
def windowAt (s : State) (d t : Nat) : Nat :=
  ((span 0 32).find? fun w => eventWindow s d w &&
    (t - epochNs s d) % patOf s d == s.rd R.TBU_DOM_GW_OFS [d, w] + 250).getD 0

/-- A rule's own instant name. -/
def ruleInstant (s : State) (r : Nat) : Nat := s.rd R.PLAN_RULE_INSTANT [r, 0] + s.rd R.PLAN_RULE_INSTANT [r, 1] * 2 ^ 32

/-! Triggers (R236). -/

/-- The rule may fire now (R236): a TIME or AFPOS rule only with its domain LOCKED or in HOLDOVER. -/
def ruleReady (s : State) (r : Nat) : Bool :=
  let tt := s.rd R.PLAN_RULE_TTYPE [r]
  ruleArmed s r && ((tt != 4 && tt != 5) || domReady s (s.rd R.PLAN_RULE_DOMAIN [r]))

/-- Domain time plus the rule's lead. -/
def leadTime (s : State) (r : Nat) : Nat := domNs s (s.rd R.PLAN_RULE_DOMAIN [r]) + s.rd R.PLAN_RULE_LEAD [r] * 1000

/-- Instant of a TIME rule: the full number nearest to the present hyperframe (R183). -/
def timeInstant (s : State) (r : Nat) : Nat :=
  match resolveName s (ruleInstant s r) 0 with
  | .ok t => t
  | .error _ => 0

/-- Newest instant of an AFPOS rule that its lead has reached, if any; an AFN of AFMOD or more names none. -/
def afposInstant (s : State) (r : Nat) : Option Nat :=
  let i := ruleInstant s r
  let d := s.rd R.PLAN_RULE_DOMAIN [r]
  let m := max 1 (s.rd R.PLAN_RULE_AFMOD [r])
  let z := epochNs s d + inAfn i * 10000000 + nameOffset s i
  let p := m * 10000000
  if m ≤ inAfn i ∨ leadTime s r < z then none else some (z + (leadTime s r - z) / p * p)

/-- The firing point of an instant, its lead before it, came at local time `x` or later. -/
def pointSince (s : State) (r t x : Nat) : Bool :=
  decide (domainOf s (s.rd R.PLAN_RULE_DOMAIN [r]) x + s.rd R.PLAN_RULE_LEAD [r] * 1000 ≤ t)

/-- The firing point of an instant came while its rule met the conditions of R236: by local time, or by the time of its domain where
that began before the last RESET (R249). -/
def pointMet (s : State) (r t : Nat) : Bool :=
  if s.plan.earlier.contains r then
    decide (cellGet (fun _ => 0) s.plan.armedDom r + s.rd R.PLAN_RULE_LEAD [r] * 1000 ≤ t)
  else pointSince s r t (cellGet (fun _ => 0) s.plan.armedAt r)

/-- A TIME or AFPOS instant whose firing point has come while the rule could fire, and that has not fired (R236). -/
def dueInstant (s : State) (r : Nat) : Option Nat :=
  if s.rd R.PLAN_RULE_TTYPE [r] = 4 then
    let t := timeInstant s r
    if s.plan.timeFired.contains r ∨ t = 0 ∨ leadTime s r < t ∨ !pointMet s r t then none else some t
  else match afposInstant s r with
    | some x => if cellGet (fun _ => 0) s.plan.afLast r < x ∧ pointMet s r x then some x else none
    | none => none

/-- Remember that an instant has been dealt with. -/
def noteInstant (r t : Nat) (s : State) : State :=
  if s.rd R.PLAN_RULE_TTYPE [r] = 4 then { s with plan := { s.plan with timeFired := r :: s.plan.timeFired } }
  else { s with plan := { s.plan with afLast := cellSet (fun _ => 0) s.plan.afLast r t } }

/-! Events of session 0 (R241). -/

/-- Start of the 1 µs tick, the arrival stamp of what PLAN submits in it (R237). -/
def tickStart (s : State) : Nat := s.time / 1000 * 1000

/-- Submit an event for a plan: accepted, or rejected with its reason. -/
def submitPlan (sseq : Nat) (r : EvReq) (extra : List Nat) (s : State) : Except Nat State :=
  match validateEvent 0 (tickStart s) r s with
  | .ok v => .ok (acceptEvent true true 0 sseq r v extra s)
  | .error x => .error x

/-- A rejection: journaled, shown, notified. -/
def planReject (num reason : Nat) (s : State) : State :=
  notifyAll 0x0A [num, reason] (raise0 .plan 1 (commit 0x0B 0 0 0 0 [3, num, reason] (noteFull reason s)))

/-- The request of a rule of action 0 (R239). -/
def ruleReq (s : State) (r : Nat) (due : Nat) : EvReq :=
  let d := s.rd R.PLAN_RULE_DOMAIN [r]
  let tt := s.rd R.PLAN_RULE_TTYPE [r]
  let req (i : Nat) : EvReq := ⟨1, false, s.flag R.PLAN_RULE_SPREAD [r], false, s.rd R.PLAN_RULE_ARG [r], i,
    s.rd R.PLAN_RULE_DEFER [r], s.rd R.PLAN_RULE_DEADLINE [r], 0, 0, 32, []⟩
  if tt = 4 then req (ruleInstant s r)
  else if tt = 5 then
    let af := (due - epochNs s d) / 10000000
    let i := ruleInstant s r
    req (i / 2 ^ 56 * 2 ^ 56 + af / 1024 % 65536 * 2 ^ 40 + af % 1024 * 2 ^ 30 + i % 2 ^ 30)
  else
    let early := earliestOf s d (tickStart s) (req 0)
    let w := if s.flag R.PLAN_RULE_WSEL [r] then some (s.rd R.PLAN_RULE_WIDX [r]) else none
    match slotZeroFrom s d early w with
    | some t => req (windowName s d t (match w with | some x => x | none => windowAt s d t))
    | none => req (d * 2 ^ 61 + s.rd R.PLAN_RULE_WIDX [r] * 2 ^ 16)

/-! Schedules (R246 to R248). -/

/-- Lead of a step: 50 µs, the solve maximum of its map, 10 µs. -/
def stepLead : Nat := 460000

/-- Pattern periods of the first `k` steps. -/
def stepsLen (s : State) (x k : Nat) : Nat := ((span 0 k).map fun i => s.rd R.PLAN_SCHED_LEN [x, i]).sum

/-- Slot 0 instant of step number `i` counted from the start. -/
def stepInstant (s : State) (x i : Nat) : Nat :=
  let d := s.rd R.PLAN_SCHED_DOMAIN [x]
  let n := s.rd R.PLAN_SCHED_NSTEPS [x] + 1
  cellGet (fun _ => 0) s.plan.cycStart x + (i / n * stepsLen s x n + stepsLen s x (i % n)) * patOf s d +
    s.rd R.TBU_DOM_GW_OFS [d, s.rd R.PLAN_SCHED_WIDX [x]] + 250

/-- Start of the first aligned air frame at least the lead ahead. -/
def alignedStart (s : State) (x : Nat) : Nat :=
  let d := s.rd R.PLAN_SCHED_DOMAIN [x]
  let a := max 1 (s.rd R.PLAN_SCHED_ALIGN [x]) * 10000000
  let e := epochNs s d
  e + (domNs s d + stepLead - e + a - 1) / a * a

/-- A schedule stands in the image (R250). -/
def schedPresent (s : State) (k : Nat) : Bool :=
  match s.image with
  | some im => im.plan.any fun w => decide (0x4403000 + 0x80 * k ≤ w.1) && decide (w.1 < 0x4403000 + 0x80 * (k + 1))
  | none => false

/-- A schedule of the image starts (R243, R247, R250). -/
def startSched (x : Nat) (s : State) : State :=
  let d := s.rd R.PLAN_SCHED_DOMAIN [x]
  if 8 ≤ x ∨ !schedPresent s x ∨ s.flag R.PLAN_SCTL_RUN [x] ∨ !modeActive (modeOf s) ∨ !domReady s d ∨ !islOn s 7 then s
  else
    let t := alignedStart s x
    let p := s.plan
    let s1 := { s with plan := { p with cycStart := cellSet (fun _ => 0) p.cycStart x t,
                                        submitted := cellErase p.submitted x,
                                        claims := if p.claims.contains x then p.claims else x :: p.claims } }
    let s2 := commit 0x0B 0 0 0 0 ([2, x, 1] ++ beBytes 8 t) (((s1.wr R.PLAN_SCTL_RUN [x] 1).wr R.PLAN_SCTL_STEP [x] 0).wr R.PLAN_SCTL_CYCLES [x] 0)
    let s3 := rcRestart (fun g => genSched s2 g && s2.rd R.CE_RCGEN_SCHED [g] == x) s2
    claimPorts (schedPorts s3 x) true (displace (schedPorts s3 x) s3)

/-- SCHEDULE_START (R247). -/
def execScheduleStart (sched : Nat) (s : State) : Host.Outcome State Fault Refusal := .next (startSched sched s)

/-- SCHEDULE_STOP (R248). -/
def execScheduleStop (sched : Nat) (s : State) : Host.Outcome State Fault Refusal :=
  .next (if sched < 8 then stopSched sched false s else s)

/-- Start of step number `i` counted from the start of the schedule. -/
def stepBoundary (s : State) (x i : Nat) : Nat :=
  let n := s.rd R.PLAN_SCHED_NSTEPS [x] + 1
  cellGet (fun _ => 0) s.plan.cycStart x + (i / n * stepsLen s x n + stepsLen s x (i % n)) * patOf s (s.rd R.PLAN_SCHED_DOMAIN [x])

/-- The first step whose boundary lies at least its lead after domain time `t` (R249). -/
def firstAhead (s : State) (x t : Nat) : Option Nat :=
  let n := s.rd R.PLAN_SCHED_NSTEPS [x] + 1
  let l := stepsLen s x n * patOf s (s.rd R.PLAN_SCHED_DOMAIN [x])
  let c := (t + stepLead - cellGet (fun _ => 0) s.plan.cycStart x) / l
  (span (c * n) (n + 1)).find? fun i => decide (t + stepLead ≤ stepBoundary s x i)

/-- The next step of a schedule: in sequence, but past an interval in which plans were inactive at the first boundary that lay its lead
ahead (R249). -/
def nextStep (s : State) (x : Nat) : Nat :=
  let i := cellGet (fun _ => 0) s.plan.submitted x
  let t := domainOf s (s.rd R.PLAN_SCHED_DOMAIN [x]) s.plan.activeFrom
  if t + stepLead ≤ stepBoundary s x i then i else max i ((firstAhead s x t).getD i)

/-- Submit one step (R247, R248). -/
def submitStep (x i : Nat) (s : State) : State :=
  let d := s.rd R.PLAN_SCHED_DOMAIN [x]
  let n := s.rd R.PLAN_SCHED_NSTEPS [x] + 1
  let f := cellGet (fun _ => 0) s.plan.fires x + 1
  let p := s.plan
  let s1 := { s with plan := { p with submitted := cellSet (fun _ => 0) p.submitted x (i + 1),
                                      fires := cellSet (fun _ => 0) p.fires x f } }
  let r : EvReq := ⟨1, false, false, false, s.rd R.PLAN_SCHED_MAP [x, i % n],
    windowName s d (stepInstant s x i) (s.rd R.PLAN_SCHED_WIDX [x]), 0, 0, 0, 0, 32, []⟩
  match submitPlan (2 ^ 30 + x * 2 ^ 24 + f % 2 ^ 24) r [64 + x, 0] s1 with
  | .ok t =>
    let q := t.plan
    { t with plan := { q with stepsOut := cellUpd (fun _ => 0) q.stepsOut x (· + 1),
                              stepEvs := cellSet (fun _ => 0) q.stepEvs t.jnl.aseq i } }
  | .error z =>
    let t := planReject x z s1
    if t.flag R.PLAN_SCHED_STOP_ON_FAIL [x] then stopSched x true t else t

/-- The next step of a schedule, if its lead has come; at most two step events are pending (R247). -/
def dueStep (x : Nat) (s : State) : State :=
  if !s.flag R.PLAN_SCTL_RUN [x] ∨ 2 ≤ cellGet (fun _ => 0) s.plan.stepsOut x ∨ !plansRun s ∨ !islOn s 7 then s
  else if stepInstant s x (nextStep s x) ≤ domNs s (s.rd R.PLAN_SCHED_DOMAIN [x]) + stepLead then submitStep x (nextStep s x) s
  else s

/-- SCHEDULE_STEP_SUBMIT (R237, R247): the steps due of the schedules before it go first. -/
def execScheduleStepSubmit (sched : Nat) (s : State) : Host.Outcome State Fault Refusal :=
  .next (if 8 ≤ sched then s else dueStep sched ((span 0 sched).foldl (fun t x => dueStep x t) s))

/-! Firing (R236 to R245). -/

/-- A change of a rule's state: shown and journaled (R240). -/
def ruleState (r st : Nat) (s : State) : State :=
  let s1 := if st = 1 then rulesFrom (· == r) s else s
  commit 0x0B 0 0 0 0 [1, r, st] (s1.wr R.PLAN_RCTL_STATE [r] st)

/-- A rule of action 0: claim, event, notification. -/
def fireMap (r due : Nat) (s : State) : State :=
  let ports := mapPorts s (s.rd R.PLAN_RULE_ARG [r])
  let s1 := if s.flag R.PLAN_RULE_CLAIM [r] then
      claimPorts ports true ((displace ports s).wr R.PLAN_RCTL_CLAIMED [r] 1) else s
  let sseq := r * 2 ^ 24 + s1.rd R.PLAN_RCTL_FIRES [r]
  match submitPlan sseq (ruleReq s1 r due) [r, s1.rd R.PLAN_RULE_TTYPE [r]] s1 with
  | .ok t => notifyAll 0x09 ([r] ++ beBytes 4 t.jnl.aseq) t
  | .error x => planReject r x s1

/-- The action of a rule (R238). -/
def ruleAction (r due : Nat) (s : State) : State :=
  let a := s.rd R.PLAN_RULE_ARG [r]
  let told (t : State) : State := notifyAll 0x09 [r, 0, 0, 0, 0] t
  match s.rd R.PLAN_RULE_ACTION [r] with
  | 0 => fireMap r due s
  | 1 => if a = mRun ∨ a = mEco then modeTickBy 0x08 0x0B (told (s.wr R.PWR_MODE_RESTING [] a)) else told s
  | 2 => told (startSched a s)
  | _ => told (if a < 8 then stopSched a false s else s)

/-- A rule fires. -/
def fireRule (r due : Nat) (s : State) : State :=
  let s1 := raise0 .plan 0 (s.inc R.PLAN_RCTL_FIRES [r])
  let s2 := ruleState r 2 s1
  let s3 := if s2.flag R.PLAN_RULE_ONESHOT [r] then s2 else ruleState r 3 s2
  ruleAction r due s3

/-- A trigger that passed while plans were inactive and can no longer be met (R249). -/
def missRule (r t : Nat) (s : State) : State :=
  raise0 .plan 2 (commit 0x0B 0 0 0 0 [4, r] (noteInstant r t s))

/-- The point of an instant passed while plans were inactive, and the instant now lies before the earliest schedulable one (R249). -/
def pointMissed (s : State) (r t : Nat) : Bool :=
  !pointSince s r t s.plan.activeFrom &&
    decide (t < earliestOf s (s.rd R.PLAN_RULE_DOMAIN [r]) (tickStart s) (ruleReq s r t))

/-- One rule in a PLAN tick: it fires if its trigger holds and the present mode lets it (R13, R236, R249). -/
def evalRule (rule : Nat) (s : State) : State :=
  let tt := s.rd R.PLAN_RULE_TTYPE [rule]
  if tt = 4 ∨ tt = 5 then
    if !ruleReady s rule then s
    else match dueInstant s rule with
    | none => s
    | some t => if pointMissed s rule t then missRule rule t s else fireRule rule t (noteInstant rule t s)
  else if s.plan.hits.contains rule then
    let s1 := { s with plan := { s.plan with hits := s.plan.hits.filter (· != rule) } }
    if ruleArmed s1 rule then fireRule rule 0 s1 else s1
  else s

/-- What goes before rule `r` in a PLAN tick: the schedule steps due, then the rules below it (R237). -/
def planBefore (r : Nat) (s : State) : State :=
  (span 0 r).foldl (fun t x => evalRule x t) ((span 0 8).foldl (fun t x => dueStep x t) s)

/-- RULE_FIRE (R236, R237, R249): the PLAN tick in which the rule fires. -/
def execRuleFire (rule : Nat) (s : State) : Host.Outcome State Fault Refusal :=
  .next (if 64 ≤ rule then s else evalRule rule (planBefore rule s))

/-- TRIG_EDGE (R236, R459): a filtered edge of a TRIG pin; edges while plans are inactive are not kept. -/
def execTrigEdge (pin : Nat) (rising : Bool) (s : State) : Host.Outcome State Fault Refusal :=
  .next (
    let hit (r : Nat) : Bool := s.rd R.PLAN_RULE_TTYPE [r] == 3 && s.rd R.PLAN_RULE_PIN [r] == pin &&
      (s.rd R.PLAN_RULE_EDGE [r] == 2 || s.rd R.PLAN_RULE_EDGE [r] == (if rising then 0 else 1)) && ruleReady s r
    { s with plan := { s.plan with hits := s.plan.hits ++ (span 0 64).filter hit } })

/-- RULE_HOLDOFF_EXPIRY (R240, R243): a LOS rule returns only once its count is below NMIN; the rule is re-armed, which ends
its claim. -/
def execRuleHoldoffExpiry (rule : Nat) (s : State) : Host.Outcome State Fault Refusal :=
  .next (
    let tt := s.rd R.PLAN_RULE_TTYPE [rule]
    if 64 ≤ rule ∨ s.rd R.PLAN_RCTL_STATE [rule] ≠ 3 then s
    else if (tt = 1 ∨ tt = 2) ∧ s.rd R.PLAN_RULE_NMIN [rule] + 1 ≤ losCount s rule then s
    else ruleState rule 1 (releaseRule rule s))

/-- A rule is re-armed by a write (R240, R243). -/
def rearm (r : Nat) (s : State) : State :=
  if 64 ≤ r ∨ !islOn s 7 then s
  else
    let s1 := releaseRule r s
    if s1.rd R.PLAN_RCTL_STATE [r] = 2 then ruleState r 1 s1 else s1

/-- REARM (R240). -/
def execRearmRule (rule : Nat) (s : State) : Host.Outcome State Fault Refusal := .next (rearm rule s)

/-- A claim is released by a write (R243). -/
def releaseWrite (r : Nat) (s : State) : State :=
  if 64 ≤ r ∨ !islOn s 7 then s
  else if s.flag R.PLAN_RCTL_CLAIMED [r] then commit 0x0B 0 0 0 0 [5, r, 0] (releaseRule r s) else s

/-- RELEASE (R243). -/
def execReleaseClaim (rule : Nat) (s : State) : Host.Outcome State Fault Refusal := .next (releaseWrite rule s)

/-- EN of a rule is written (R240): a disabled rule keeps no trigger; one of TTYPE 0 cannot be enabled (R250). -/
def enableRule (r : Nat) (on : Bool) (s : State) : State :=
  if 64 ≤ r ∨ !islOn s 7 then s
  else
    let s1 := if on ∧ s.rd R.PLAN_RULE_TTYPE [r] = 0 then s else s.wr R.PLAN_RCTL_EN [r] (b2n on)
    let st := s1.rd R.PLAN_RCTL_STATE [r]
    if s1.flag R.PLAN_RCTL_EN [r] ∧ on ∧ st = 0 then ruleState r 1 s1
    else if !on then
      let s2 := { s1 with plan := { s1.plan with hits := s1.plan.hits.filter (· != r) } }
      if st ≠ 0 then ruleState r 0 s2 else s2
    else s1

/-- RULE_ENABLE (R240). -/
def execRuleEnable (rule : Nat) (on : Bool) (s : State) : Host.Outcome State Fault Refusal := .next (enableRule rule on s)

/-- A LOS rule that may fire and whose count already reaches NMIN. -/
def losHit (s : State) (r : Nat) : Bool :=
  (s.rd R.PLAN_RULE_TTYPE [r] == 1 || s.rd R.PLAN_RULE_TTYPE [r] == 2) && ruleArmed s r &&
    decide (s.rd R.PLAN_RULE_NMIN [r] + 1 ≤ losCount s r)

/-- Triggers after a recovery (R249): edges and entries are not replayed, LOS triggers are evaluated afresh, at once or when
plans are next active, which the mark 64 among the hits notes. -/
def losAfresh (s : State) : State :=
  { s with plan := { s.plan with hits := if modeActive (modeOf s) then (span 0 64).filter (losHit s) else [64] } }

/-- Plans are active again. -/
def losResume (s : State) : State :=
  if s.plan.hits.contains 64 then
    { s with plan := { s.plan with hits := s.plan.hits.filter (· != 64) ++ (span 0 64).filter (losHit s) } }
  else s

end Sys2Proof.Machine
end

