-- ==== Sys2Proof/Machine/Channels.lean ====
section
/-! DEFINITION. The safety channels Garnet and Jasper (12_safety_channels_and_io, 13_safety_functions_and_telegrams):
demands, evaluation, cross-link, guards, outputs, telegrams, the deliberate reset and the SAF mirror. -/

namespace Sys2Proof.Machine

/-! A channel and its guards. -/

/-- A channel runs: out of RESET, its island on, its oscillator running (R279). -/
def chanOn (s : State) (c : Nat) : Bool :=
  decide (0 < modeOf s) && islOn s (chanIsland c) && !(chanGet s c).clkLost

def guardGet (v : Chan) (x : Nat) : Guard := cellGet (fun _ => Guard.open) v.guards x
def guardPut (x : Nat) (g : Guard) (v : Chan) : Chan :=
  { v with guards := cellSet (fun _ => Guard.open) v.guards x g }

/-- Change one guard input of one channel. -/
def guardUpd (c x : Nat) (f : Guard → Guard) (s : State) : State :=
  let v := chanGet s c
  chanPut s c (guardPut x (f (guardGet v x)) v)

/-- An input as the partner last told it. -/
def heardIn (v : Chan) (x : Nat) : HeardIn := v.heard.ins[x]?.getD HeardIn.none

/-- A guard input is enabled (R286). -/
def giEn (v : Chan) (x : Nat) : Bool := spbOn v R.SAF_GICFG_EN [x]

/-- An input demands (R287): OPEN, LOCKED or FAULT. While the start-up open test holds both supplies low every contact reads open,
and so it does until the filters have followed the restore (R293): then only LOCKED and FAULT count. -/
def guardDemands (s : State) (v : Chan) (x : Nat) : Bool :=
  let g := guardGet v x
  giEn v x && (if v.testing || decide (s.time < v.quiet) then decide (2 ≤ g.st) else g.st != 1)

/-- An input acts as SDP: by its function, or bypassed while both grants are held (R307, R321). -/
def guardIsSdp (v : Chan) (x : Nat) : Bool :=
  spbOn v R.SAF_GIMAP_FN [x] || (spbOn v R.SAF_GIMAP_MBYP [x] && v.grant && v.heard.grant)

/-- Telegrams are in use (R326). -/
def telOn (v : Chan) : Bool := spbOn v R.SAF_TELCFG_EN []

/-- The watchdog function is SDP on every output port. -/
def wdSdp (v : Chan) : Bool := spbOn v R.SAF_TELCFG_WDFN []

/-! Demands of a channel (R307). -/

/-- SOS demands of a channel's own sources. -/
def ownSos (s : State) (v : Chan) : Bool :=
  ((span 0 8).any fun x => guardDemands s v x && !guardIsSdp v x) || v.maintDem ||
    (telOn v && (v.stop || (v.wd && !wdSdp v))) || v.locks != 0 || v.vsafe || v.xbad

/-- SOS demand with what the partner sent over a healthy cross-link (R284). -/
def sosDemand (s : State) (v : Chan) : Bool := ownSos s v || (!v.xbad && v.heard.sos)

/-- Connectors of guard SDPs that are latched (R312). -/
def sdpConns (v : Chan) : Nat :=
  ((span 0 8).filter fun x => (guardGet v x).sdp).foldl (fun m x => Nat.lor m (spb v R.SAF_GIMAP_OCONN [x])) 0

/-- A port is demanded dark by SDP (R307, R320). -/
def sdpPort (v : Chan) (n : Nat) : Bool :=
  bitN (sdpConns v) (n / 32) || (telOn v && (v.dark.contains n || (wdSdp v && (v.wd || v.boot)))) ||
    (v.restr && spbOn v R.SAF_SLPCFG_RESTR [n])

/-- A port is demanded dark by the channel's own sources. -/
def ownPort (v : Chan) (n : Nat) : Bool := sdpPort v n || v.trips.contains n

/-- A channel demands output `y` by its own sources (R307). -/
def ownOut (s : State) (v : Chan) (y : Nat) : Bool :=
  ((span 0 8).any fun x => bitN (spb v R.SAF_SOCFG_GI [y]) x && (guardDemands s v x || (guardGet v x).sdp)) ||
    (v.maintDem && spbOn v R.SAF_SOCFG_MAINT [y]) ||
    (telOn v && ((v.stop && spbOn v R.SAF_SOCFG_STOP [y]) || (!v.dark.isEmpty && spbOn v R.SAF_SOCFG_SDP [y]) ||
      (!bitN v.permit y && spbOn v R.SAF_SOCFG_PERMIT [y]) || ((v.wd || v.boot) && spbOn v R.SAF_SOCFG_TELWD [y]))) ||
    (!v.trips.isEmpty && spbOn v R.SAF_SOCFG_SLP [y]) || v.locks != 0 || v.xbad || v.vsafe || bitN v.sofault y

/-- A channel's demand on output `y`, the partner's over a healthy cross-link included (R284, R285). -/
def outDemand (s : State) (v : Chan) (y : Nat) : Bool := ownOut s v y || (!v.xbad && bitN v.heard.outs y)

/-- A channel's parameter block checks and agrees with the value that the partner sent (R281). -/
def blocksAgree (v : Chan) : Bool := v.crcOk && decide (v.heard.crc = v.crc)

/-- A channel may close its switch of output `y` (R297). -/
def mayClose (s : State) (v : Chan) (y : Nat) : Bool :=
  s.modes.released && modeOf s != mLockout && v.startOk && blocksAgree v && !outDemand s v y

/-- Bits 3:0 of a set of outputs. -/
def outMask (p : Nat → Bool) : Nat := ((span 0 4).map fun y => b2n (p y) * 2 ^ y).sum

/-- An input trips into LOCKED or FAULT; the open and the close that end it come after. -/
def tripTo (now st : Nat) (g : Guard) : Guard :=
  { g with st := st, openAt := if g.fA || g.fB then none else some now, wide := none, openFor := none }

/-- An input in FAULT: its healthy checks start afresh. -/
def faultTo (now : Nat) (g : Guard) : Guard := { tripTo now 3 g with susp := 0, okA := 0, okB := 0 }

/-! Evaluation (R280, R284, R309 to R312). -/

/-- Adopt what the partner sent: lockout causes and discrepancy trips, over a healthy cross-link (R284). -/
def adopt (c : Nat) (s : State) : State :=
  let v := chanGet s c
  if v.xbad then s
  else
    let l := Nat.lor v.locks v.heard.fresh
    let hit := v.heard.locked.filter fun x => giEn v x && decide ((guardGet v x).st < 2)
    let v1 := hit.foldl (fun (w : Chan) x => guardPut x (tripTo s.time 2 (guardGet w x)) w) v
    chanPut s c { v1 with locks := l, told := Nat.lor v1.told v1.heard.fresh,
                          heard := { v1.heard with fresh := 0, locked := [] } }

/-- The maintenance grant is released at a leave request (R303); restricted ports follow the grants (R320). -/
def keepGrant (c : Nat) (s : State) : State :=
  let v := chanGet s c
  let leave := match s.modes.leaving with
    | some (op, _) => op == 3 && s.armed.isEmpty
    | none => false
  let s1 := chanPut s c { v with grant := v.grant && !leave }
  let w := chanGet s1 c
  chanPut s1 c { w with restr := (w.grant && w.heard.grant) || ((w.grant || w.heard.grant) && w.restr) }

/-- A guard SDP is latched (R312). -/
def latchSdp (c : Nat) (s : State) : State :=
  let v := chanGet s c
  chanPut s c (((span 0 8).filter fun x => guardDemands s v x && guardIsSdp v x).foldl
    (fun w x => guardPut x { guardGet w x with sdp := true } w) v)

/-- Commands, port blocks and counts of an evaluation. `sos` is the SOS demand. A switch under test stays open; a demand
abandons the test (R299, R300). -/
def applyDemands (c : Nat) (sos : Bool) (s : State) : State :=
  let v := chanGet s c
  let want := outMask (mayClose s v)
  let drop := match v.testOut with | some y => !bitN want y | none => false
  let cmd := match v.testOut with | some y => setBits want y 1 0 | none => want
  let hot (n : Nat) : Bool := ownPort v n || (!v.xbad && v.heard.ports.contains n)
  let bl := (span 0 512).filter hot
  let since (n : Nat) : Nat := if v.blocks.contains n then cellGet (fun _ => 0) v.blkAt n else s.time + 1
  let sdp := decide (sdpConns v ≠ 0) || (telOn v && (!v.dark.isEmpty || (wdSdp v && v.wd))) || v.restr
  let s1 := chanPut s c { v with cmd := cmd, blocks := bl, blkAt := (bl.map fun n => (n, since n)).filter fun w => decide (w.2 ≠ 0),
                                 sosOn := sos, sdpOn := sdp, force := v.force || sos,
                                 forceAt := if sos && !v.force then s.time + 1 else v.forceAt,
                                 testOut := if drop then none else v.testOut }
  let s2 := if drop then (s1.wr R.SAF_SO_LASTTEST [v.testOut.getD 0] 3).inc R.SAF_CNT_TEST_ABAND [] else s1
  let s3 := if c = 0 ∧ sos ∧ !v.sosOn then s2.inc R.SAF_CNT_SOS [] else s2
  let s4 := if c = 0 ∧ sdp ∧ !v.sdpOn then s3.inc R.SAF_CNT_SDP [] else s3
  let s5 := if sos ∧ !v.force then clrSet (1 + c) s4 else s4
  if (sos ∧ !v.sosOn) ∨ (sdp ∧ !v.sdpOn) then snapTrigger snapSafety s5 else s5

/-- The conditions SAFE_STOP and LOCKOUT come on by the channel's dedicated line (R19, R309, R318). -/
def signalPwr (c : Nat) (sos : Bool) (s : State) : State :=
  let v := chanGet s c
  let s1 := if sos then s.wr R.PWR_MODE_C_STOP [] 1 else s
  let s2 := if v.locks ≠ 0 then s1.wr R.PWR_MODE_C_LOCKOUT [] 1 else s1
  if sos ∨ v.locks ≠ 0 then modeTickBy 0x11 (if v.maintDem then 0x0F else 0x0B) s2 else s2

/-- One evaluation of a channel. Before DARK a channel only holds its switches open (R12). -/
def evalChan (c : Nat) (s : State) : State :=
  if !chanOn s c then s
  else if modeOf s < 2 then chanPut s c { chanGet s c with cmd := 0 }
  else
    let s1 := latchSdp c (keepGrant c (adopt c s))
    let sos := sosDemand s1 (chanGet s1 c)
    leaveNow (signalPwr c sos (applyDemands c sos s1))

/-- GARNET_CYCLE (R280, R328): the 1 ms evaluation cycle of channel A; AGE counts its milliseconds. -/
def execGarnetCycle (s : State) : Host.Outcome State Fault Refusal :=
  .next (evalChan 0 (if chanOn s 0 then s.incS R.SAF_TELSTAT_AGE [] else s))

/-- JASPER_CYCLE (R280): the 125 µs evaluation cycle of channel B. -/
def execJasperCycle (s : State) : Host.Outcome State Fault Refusal := .next (evalChan 1 s)

/-! The SAF mirror (R305, R328). -/

/-- Word `w` of a bit map over ports. -/
def portWord (p : Nat → Bool) (w : Nat) : Nat := ((span 0 32).map fun i => b2n (p (32 * w + i)) * 2 ^ i).sum

/-- One guard input in the mirror. -/
def mirrorGuard (s : State) (x : Nat) : State :=
  let a := guardGet s.chA x
  let b := guardGet s.chB x
  wrWord s (0x4300100 + 4 * x)
    (b2n (s.flag R.SAF_GICFG_EN [x]) * 2 ^ 31 + a.st * 2 ^ 29 + b.st * 2 ^ 27 + b2n (a.hold || b.hold) * 2 ^ 26 + b2n a.fA * 2 ^ 25 +
      b2n a.fB * 2 ^ 24 + b2n b.fA * 2 ^ 23 + b2n b.fB * 2 ^ 22 + b2n (a.susp != 0 || b.susp != 0) * 2 ^ 21 +
      min 511 a.dcnt * 2 ^ 10 + min 511 b.dcnt)

/-- Levels of an output's pins as a channel last read them (R298): the high side, and the low side. -/
def pinH (v : Chan) (y : Nat) : Bool := bitN v.pins y
def pinL (v : Chan) (y : Nat) : Bool := bitN v.pins (4 + y)

/-- A channel knows output `y` energised: both switches are commanded closed and its pins read so. -/
def readsOn (v : Chan) (y : Nat) : Bool := pinH v y && !pinL v y

/-- One output in the mirror; LASTTEST is kept. -/
def mirrorOut (s : State) (y : Nat) : State :=
  let a := s.chA
  let b := s.chB
  let f := bitN a.sofault y || bitN b.sofault y
  wrWord s (0x4300200 + 4 * y)
    (b2n (bitN a.cmd y && bitN b.cmd y && readsOn a y && readsOn b y) * 2 ^ 31 + b2n (bitN a.cmd y) * 2 ^ 30 +
      b2n (bitN b.cmd y) * 2 ^ 29 + b2n (pinH a y) * 2 ^ 28 + b2n (pinL a y) * 2 ^ 27 + b2n (pinH b y) * 2 ^ 26 +
      b2n (pinL b y) * 2 ^ 25 + b2n f * 2 ^ 24 + s.rd R.SAF_SO_LASTTEST [y] * 2 ^ 22)

/-- The mirror is refreshed from the channels' state messages. -/
def mirror (s : State) : State :=
  let s1 := (span 0 4).foldl mirrorOut ((span 0 8).foldl mirrorGuard s)
  let a := s1.chA
  let b := s1.chB
  let ok := b2n (!a.xbad && !b.xbad && chanOn s1 0 && chanOn s1 1)
  let pins := b2n (!a.vsafe && !b.vsafe) * 2 ^ 9 + b2n (bitN a.tp 1 && bitN b.tp 1) * 2 ^ 8 +
    b2n (bitN a.tp 0 && bitN b.tp 0) * 2 ^ 7 + b2n b.grant * 2 ^ 6 + b2n a.grant * 2 ^ 5 + b2n b.maintLow * 2 ^ 4 +
    b2n a.maintLow * 2 ^ 3 + b2n b.srstLow * 2 ^ 2 + b2n a.srstLow * 2 + b2n (a.startOk && b.startOk)
  let s2 := wrWord (wrWord (wrWord (wrWord s1 0x4300310 pins) 0x4300304 a.crc) 0x4300308 b.crc)
    0x4300300 (ok * 2 ^ 31 + s1.rd R.SAF_XLINK_ITEM [])
  let tel := b2n a.wd * 2 ^ 31 + b2n b.wd * 2 ^ 30 + b2n a.stop * 2 ^ 29 + b2n a.resync * 2 ^ 28 + a.permit % 16 * 2 ^ 16 +
    s2.rd R.SAF_TELSTAT_AGE []
  let s3 := wrWord (wrWord (wrWord s2 0x4300510 tel) 0x4300514 a.last) 0x4300520 (b.locks % 256 * 2 ^ 8 + a.locks % 256)
  let dk (n : Nat) : Bool := heldDark s3 n
  let tr (n : Nat) : Bool := a.trips.contains n || b.trips.contains n
  (span 0 16).foldl (fun t w => wrWord (wrWord t (0x4300600 + 4 * w) (portWord dk w)) (0x4300640 + 4 * w) (portWord tr w)) s3

/-! Guard inputs: their states (R287, R292, R294, R296). -/

/-- Note an open of both contacts, its end, and the close that follows it within DISC_T. -/
def noteOpen (now quick : Nat) (g : Guard) : Guard :=
  if !g.fA && !g.fB then { g with openAt := some (g.openAt.getD now), wide := none, openFor := none }
  else
    let h := match g.openAt with
      | some t => { g with openAt := none, wide := some (now - t) }
      | none => g
    match h.wide with
    | some n => if h.fA && h.fB then { h with wide := none, openFor := if h.dcnt ≤ quick then some n else none } else h
    | none => h

/-- A full open of at least `n` ns and its close have been seen. -/
def openSeen (n : Nat) (o : Option Nat) : Bool :=
  match o with
  | some k => decide (n ≤ k)
  | none => false

/-- The state of an input (R287): a hold ends after 50 ms open (R294), LOCKED after DEB open (R296), FAULT after any full open and two
healthy checks of each supply (R292), each with its close, and each seen by both channels. -/
def settleGuard (c x : Nat) (s : State) : State :=
  let v := chanGet s c
  if v.testing then guardUpd c x (fun g => { g with st := if 2 ≤ g.st then g.st else b2n (g.fA && g.fB && !g.hold) }) s
  else
    let g := noteOpen s.time (spb v R.SAF_GICFG_DISC_T [x]) (guardGet v x)
    let p := heardIn v x
    let shut := g.fA && g.fB
    let both (n : Nat) : Bool := shut && openSeen n g.openFor && openSeen n p.openFor
    let hold := g.hold && !both 50000000
    let well := decide (2 ≤ g.okA) && decide (2 ≤ g.okB) && p.well
    let stays := (g.st == 2 && !both (spb v R.SAF_GICFG_DEB [x] * 1000000)) || (g.st == 3 && !(well && both 1))
    guardUpd c x (fun _ => { g with hold := hold, st := if stays then g.st else b2n (shut && !hold) }) s

/-- Every enabled input of a channel. -/
def settleAll (c : Nat) (s : State) : State :=
  (span 0 8).foldl (fun t x => if giEn (chanGet t c) x then settleGuard c x t else t) s

/-! Cross-link (R282 to R284). -/

/-- The state of an input once a trip that the partner sent is adopted. -/
def effSt (v : Chan) (x : Nat) : Nat :=
  let g := guardGet v x
  if v.heard.locked.contains x && giEn v x && decide (g.st < 2) then 2 else g.st

/-- The state message of a channel (R282): its demands, the causes not yet told, the trips into LOCKED whose clearing open has not
been seen, and all that its partner compares. -/
def message (s : State) (c : Nat) (periodic : Bool) : Heard :=
  let v := chanGet s c
  let one (x : Nat) : HeardIn :=
    let g := guardGet v x
    ⟨g.st, effSt v x, g.dcnt, g.openFor, decide (2 ≤ g.okA) && decide (2 ≤ g.okB)⟩
  ⟨periodic, v.seq, ownSos s v, outMask (ownOut s v), (span 0 512).filter (ownPort v), outMask (outDemand s v), v.cmd, v.pins,
    v.maintLow, v.grant, v.accepted, v.startOk, v.crc, v.locks, v.heard.fresh,
    (span 0 8).foldl (fun m i => if bitN v.locks i && !bitN v.told i then m + 2 ^ i else m) 0,
    (span 0 8).filter fun x => let g := guardGet v x; g.st == 2 && g.wide.isNone && g.openFor.isNone,
    (span 0 8).map one, v.sofault, v.dver.isEmpty⟩

/-- A message of `c` reaches its partner; causes once sent are told, and a block value that differs is reported (R281). -/
def deliver (c : Nat) (periodic : Bool) (s : State) : State :=
  let m := message s c periodic
  let p := chanGet s (1 - c)
  let beats := if periodic then s.time :: p.beats.filter fun b => decide (s.time < b + 100000000) else p.beats
  let s1 := chanPut s (1 - c) { p with heard := { m with fresh := Nat.lor m.fresh p.heard.fresh }, heardAt := s.time, beats := beats }
  let s2 := chanPut s1 c { chanGet s1 c with told := (chanGet s1 c).locks, seq := (chanGet s1 c).seq + 1 }
  if m.crc = p.crc then s2 else raise0 .saf 9 s2

/-- An item of `SAF.XLINK.ITEM` is in disagreement as channel `c` sees it (R283): adopted demands, trips and causes, and those still to be
adopted, are left out (R284). -/
def itemDiffers (s : State) (c item : Nat) : Bool :=
  let v := chanGet s c
  let h := v.heard
  match item with
  | 1 => (span 0 8).any fun x => giEn v x && effSt v x != (heardIn v x).eff
  | 2 => outMask (outDemand s { v with xbad := false }) != h.dem
  | 3 => v.pins != h.pins
  | 4 => v.maintLow != h.maintLow
  | 5 => v.startOk != h.startOk
  | 6 => v.crc != h.crc
  | 7 => Nat.lor v.locks h.fresh != Nat.lor h.locks h.due
  | 8 => decide (v.heardAt + 20000000 ≤ s.time)
  | 9 => let n := (v.beats.filter fun b => decide (s.time < b + 100000000)).length
         decide (n < 98) || decide (102 < n)
  | _ => false

/-- A channel finds no cross-check fault: every compared item agrees and messages arrive at their rate (R283). -/
def itemsAgree (s : State) (c : Nat) : Bool := (span 1 9).all fun i => !itemDiffers s c i

/-- The fault of the receiver ends when it finds none any more (R283). -/
def relink (c : Nat) (s : State) : State :=
  let p := chanGet s (1 - c)
  if p.xbad && itemsAgree s (1 - c) then chanPut s (1 - c) { p with xbad := false } else s

/-- What a channel's own receivers read at a message (R289, R298): the output pins, and the levels of TPA and TPB. A supply that both
channels read low outside its own pulse is a fault. -/
def takeReads (r : Reads) (s : State) : State :=
  let v := chanGet s r.chan
  let low (high : Bool) (k till : Nat) : Nat := b2n (!high && !v.testing && s.pulse != k && decide (till ≤ s.time)) * k
  let m := low r.tpa 1 v.blankA + low r.tpb 2 v.blankB
  let o := (chanGet s (1 - r.chan)).tpLow
  let s1 := chanPut s r.chan { v with pins := r.pins % 256, tp := b2n r.tpa + 2 * b2n r.tpb, tpLow := m }
  if Nat.land m o ≠ 0 ∧ Nat.land m o ≠ Nat.land v.tpLow o then raise0 .saf 4 s1 else s1

/-- A message of a running channel: it carries what its receivers read; a running partner takes it. -/
def sendState (r : Reads) (periodic : Bool) (s : State) : State :=
  let s1 := takeReads r s
  if chanOn s1 (1 - r.chan) then settleAll (1 - r.chan) (deliver r.chan periodic s1) else s1

/-- XLINK_PERIODIC_MSG (R282, R305): the receiver takes the sender's state and the mirror is refreshed. -/
def execXlinkPeriodicMsg (sender : Reads) (s : State) : Host.Outcome State Fault Refusal :=
  .next (
    if sender.chan < 2 ∧ chanOn s sender.chan then
      let s1 := sendState sender true s
      mirror (if chanOn s1 (1 - sender.chan) then relink sender.chan s1 else s1)
    else s)

/-- XLINK_CHANGE_MSG (R282, R284): the receiver adopts trips and causes at once. -/
def execXlinkChangeMsg (sender : Reads) (s : State) : Host.Outcome State Fault Refusal :=
  .next (
    if sender.chan < 2 ∧ chanOn s 0 ∧ chanOn s 1 then adopt (1 - sender.chan) (sendState sender false s) else s)

/-- Hold a lockout cause in a channel (R318). -/
def holdCause (c bit : Nat) (s : State) : State :=
  let v := chanGet s c
  chanPut s c { v with locks := setBits v.locks bit 1 1 }

/-- CROSS_CHECK_FAULT (R283): a demand on every output, every forced-dark line, and a lockout cause. The item has disagreed for 20 ms, and
still does. -/
def execCrossCheckFault (chan item : Nat) (s : State) : Host.Outcome State Fault Refusal :=
  .next (
    if chan < 2 ∧ chanOn s chan ∧ itemDiffers s chan item then
      let s1 := holdCause chan 0 (chanPut s chan { chanGet s chan with xbad := true })
      raise0 .saf 0 (s1.wr R.SAF_XLINK_ITEM [] item)
    else s)

/-! Guard inputs (R286 to R296). -/

/-- GUARD_CONTACT_CHANGE (R286): a pin changes level; both channels' filters start. Pin 0 is contact A, 1 contact B. -/
def execGuardContactChange (input pin : Nat) (level : Bool) (s : State) : Host.Outcome State Fault Refusal :=
  .next (
    if 8 ≤ input ∨ 2 ≤ pin then s
    else
      let f (g : Guard) : Guard := if pin = 0 then { g with pinA := level } else { g with pinB := level }
      guardUpd 1 input f (guardUpd 0 input f s))

/-- GUARD_FILTER_EXPIRY (R286, R287): a pin has read one level for DEB; it takes that filtered level. In the blanking window of its
supply the filter does not advance. -/
def execGuardFilterExpiry (chan input pin : Nat) (s : State) : Host.Outcome State Fault Refusal :=
  .next (
    let v := chanGet s chan
    if 2 ≤ chan ∨ 8 ≤ input ∨ 2 ≤ pin ∨ !chanOn s chan ∨ !giEn v input ∨ s.time < (if pin = 0 then v.blankA else v.blankB) then s
    else
      let f (g : Guard) : Guard := if pin = 0 then { g with fA := g.pinA } else { g with fB := g.pinB }
      settleGuard chan input (guardUpd chan input f s))

/-- One input at a discrepancy tick (R295). -/
def discStep (c x : Nat) (s : State) : State :=
  let v := chanGet s c
  let g := guardGet v x
  let limit := spb v R.SAF_GICFG_DISC_T [x]
  if !giEn v x then s
  else if g.fA == g.fB then
    let s1 := guardUpd c x (fun h => { h with dcnt := 0 }) s
    if c = 0 ∧ 0 < g.dcnt ∧ g.dcnt ≤ limit then
      notifyAll 0x0E ([x] ++ beBytes 2 g.dcnt) s1 else s1
  else
    let k := min 511 (g.dcnt + 1)
    let s1 := guardUpd c x (fun h => { h with dcnt := k }) s
    let s2 := if k = 1 then raise0 .saf 1 s1 else s1
    if k ≠ limit + 1 then s2
    else if g.st = 3 then guardUpd c x (fun h => { h with wide := none }) s2
    else raise0 .saf 2 (guardUpd c x (tripTo s.time 2) s2)

/-- DISCREPANCY_TICK (R295): a channel's 1 ms tick; during the start-up open test nothing is counted (R293). -/
def execDiscrepancyTick (chan : Nat) (s : State) : Host.Outcome State Fault Refusal :=
  .next (
    if 2 ≤ chan ∨ !chanOn s chan ∨ (chanGet s chan).testing then s
    else (span 0 8).foldl (fun t x => discStep chan x t) s)

/-! Test pulses (R289 to R291). -/

/-- The blanking window of a supply begins in both channels (R286): 700 µs from its falling edge. -/
def blankFor (tpb : Bool) (s : State) : State :=
  let f (v : Chan) : Chan := if tpb then { v with blankB := s.time + 700000 } else { v with blankA := s.time + 700000 }
  { s with chA := f s.chA, chB := f s.chB }

/-- TPA_PULSE (R289): Garnet drives TPA low; pulses that overlap are a supply fault. -/
def execTpaPulse (s : State) : Host.Outcome State Fault Refusal :=
  .next (
    if !chanOn s 0 ∨ s.chA.testing then s
    else { blankFor false (if s.pulse = 2 then raise0 .saf 4 s else s) with pulse := 1 })

/-- TPB_PULSE (R289): Jasper drives TPB low. -/
def execTpbPulse (s : State) : Host.Outcome State Fault Refusal :=
  .next (
    if !chanOn s 1 ∨ s.chB.testing then s
    else { blankFor true (if s.pulse = 1 then raise0 .saf 4 s else s) with pulse := 2 })

/-- TPA_LOSS (R289): Jasper has seen no TPA pulse for 40 ms; it runs TPB on its own cycle. -/
def execTpaLoss (s : State) : Host.Outcome State Fault Refusal :=
  .next (if chanOn s 1 ∧ !s.chB.testing then raise0 .saf 4 s else s)

/-- Findings of a check (R290), as suspect patterns of `Guard.susp`; 0 is healthy. `own` and `other` are the levels of the contact of
the pulsed supply and of the other one. -/
def findings (tpb own other : Bool) : Nat :=
  (if tpb then 4 else 1) * (b2n own + 2 * b2n (!other))

/-- Findings `f` confirm the waiting patterns `p` (R291): the same pattern is seen again, or a short that both supplies reveal shows at the
check of the other one. -/
def confirms (tpb : Bool) (p f : Nat) : Bool :=
  f != 0 && (Nat.land p f != 0 || Nat.land p (if tpb then 3 else 12) != 0)

/-- Patterns that wait after a check without confirmation: its findings, or one that a short to VSAFE on the other supply may have given,
which this check cannot reveal. -/
def nextSusp (tpb : Bool) (p f : Nat) : Nat := if f != 0 then f else Nat.land p (if tpb then 1 else 4)

/-- One input at a check in one channel: its filtered contacts are both high, and it is CLOSED or in FAULT. -/
def checkGuard (c x : Nat) (tpb : Bool) (levels : List Bool) (s : State) : State :=
  let v := chanGet s c
  let g := guardGet v x
  if !giEn v x || !(g.fA && g.fB) || (g.st != 1 && g.st != 3) then s
  else
    let a := nthD false levels (2 * x)
    let b := nthD false levels (2 * x + 1)
    let f := if tpb then findings true b a else findings false a b
    let n (k : Nat) : Nat := if f = 0 then min 2 (k + 1) else 0
    let s1 := guardUpd c x (fun h => { h with okA := if tpb then h.okA else n h.okA, okB := if tpb then n h.okB else h.okB }) s
    if g.st = 3 then settleGuard c x s1
    else if confirms tpb g.susp f then raise0 .saf 3 (holdCause c 1 (guardUpd c x (faultTo s.time) s1))
    else guardUpd c x (fun h => { h with susp := nextSusp tpb h.susp f }) s1

/-- TEST_PULSE_CHECK (R290, R291): both channels check; `levels` holds the pins, contacts A and B of each input in turn. -/
def execTestPulseCheck (pulse : Nat) (levels : List Bool) (s : State) : Host.Outcome State Fault Refusal :=
  .next (
    if 2 ≤ pulse ∨ s.pulse ≠ pulse + 1 then s
    else
      let one (c : Nat) (t : State) : State :=
        if chanOn t c then (span 0 8).foldl (fun u x => checkGuard c x (pulse == 1) levels u) t else t
      { one 1 (one 0 s) with pulse := 0 })

/-- After the start-up open test, both contacts of an input that read open only count as open from `at0` on: until then the filters
still follow the test (R293). -/
def openFrom (at0 : Nat) (g : Guard) : Guard :=
  if g.fA || g.fB then g else if g.hold || 2 ≤ g.st then { g with openAt := some at0 } else g

/-- STARTUP_OPEN_TEST_RESTORE (R293): `levels` tells which contacts read high while both supplies were low. -/
def execStartupOpenTestRestore (levels : List Bool) (s : State) : Host.Outcome State Fault Refusal :=
  .next (
    let high (x : Nat) : Bool := nthD false levels (2 * x) || nthD false levels (2 * x + 1)
    let one (c : Nat) (t : State) : State :=
      let v := chanGet t c
      let fails := (span 0 8).filter fun x => giEn v x && high x
      if !chanOn t c || !v.testing then t
      else
        let t1 := (span 0 8).foldl (fun u x => guardUpd c x (openFrom (t.time + 5800000)) u) t
        let t2 := fails.foldl (fun u x => guardUpd c x (faultTo (t.time + 5800000)) u) t1
        let t3 := if fails.isEmpty then t2 else raise0 .saf 8 (holdCause c 2 t2)
        chanPut t3 c { chanGet t3 c with testing := false, startOk := fails.isEmpty, quiet := t.time + 5800000,
                                         blankA := t.time + 200000, blankB := t.time + 200000 }
    let s1 := one 1 (one 0 s)
    s1.wr R.SAF_PINS_START_OK [] (b2n (s1.chA.startOk && s1.chB.startOk)))

/-! Safety outputs (R298 to R301). -/

/-- An output fault in a channel: its switch opens, the fault is held with its lockout cause (R298). -/
def outputFault (c y : Nat) (s : State) : State :=
  let v := chanGet s c
  let s1 := chanPut s c { v with cmd := setBits v.cmd y 1 0, sofault := setBits v.sofault y 1 1,
                                 testOut := if v.testOut = some y then none else v.testOut }
  raise0 .saf 5 (holdCause c 3 (s1.wr R.SAF_SO_FAULT [y] 1))

/-- The pins of output `y` as a channel reads them are not those that both commands lead it to expect (R298): the high side follows its
own switch, the low side reads high only with the high side closed and the low side open. -/
def readsOdd (s : State) (c y : Nat) : Bool :=
  let v := chanGet s c
  let hi := bitN (if c = 0 then v.cmd else v.heard.cmd) y
  let lo := bitN (if c = 0 then v.heard.cmd else v.cmd) y
  pinH v y != hi || pinL v y != (hi && !lo)

/-- SO_READBACK_FAULT (R298): a level differs from the expected one for more than 2 ms, outside the channel's own test. -/
def execSoReadbackFault (chan output : Nat) (s : State) : Host.Outcome State Fault Refusal :=
  .next (
    if chan < 2 ∧ output < 4 ∧ chanOn s chan ∧ readsOdd s chan output ∧ (chanGet s chan).testOut ≠ some output
      then outputFault chan output s else s)

/-- A test is abandoned (R300). -/
def abandonTest (c y : Nat) (s : State) : State :=
  (chanPut s c { chanGet s c with testOut := none } |>.wr R.SAF_SO_LASTTEST [y] 3).inc R.SAF_CNT_TEST_ABAND []

/-- OUTPUT_TEST_START (R299, R300): a channel opens its switch of an energised output; no test while the output is off, and
a demand present abandons it. -/
def execOutputTestStart (chan output : Nat) (s : State) : Host.Outcome State Fault Refusal :=
  .next (
    if 2 ≤ chan ∨ 4 ≤ output ∨ !chanOn s chan ∨ !bitN s.chA.cmd output ∨ !bitN s.chB.cmd output ∨
        s.chA.testOut.isSome ∨ s.chB.testOut.isSome then s
    else
      let v := chanGet s chan
      if outDemand s v output then abandonTest chan output s
      else chanPut s chan { v with cmd := setBits v.cmd output 1 0, testOut := some output })

/-- OUTPUT_TEST_PASS (R299): the pin reaches its expected level; the switch closes again unless the other one opened. -/
def execOutputTestPass (chan : Nat) (s : State) : Host.Outcome State Fault Refusal :=
  .next (
    match (chanGet s chan).testOut with
    | none => s
    | some y =>
      if 2 ≤ chan ∨ !chanOn s chan then s
      else
        let v := chanGet s chan
        if !bitN (chanGet s (1 - chan)).cmd y || outDemand s v y then abandonTest chan y s
        else
          let s1 := chanPut s chan { v with cmd := setBits v.cmd y 1 1, testOut := none }
          (s1.wr R.SAF_SO_LASTTEST [y] (1 + chan)).inc R.SAF_CNT_TEST_PASS [])

/-- OUTPUT_TEST_TIMEOUT (R299): at 300 µs the test fails; both channels open their switches of the output. -/
def execOutputTestTimeout (chan : Nat) (s : State) : Host.Outcome State Fault Refusal :=
  .next (
    match (chanGet s chan).testOut with
    | none => s
    | some y =>
      if 2 ≤ chan ∨ !chanOn s chan then s
      else if !bitN (chanGet s (1 - chan)).cmd y || outDemand s (chanGet s chan) y then abandonTest chan y s
      else outputFault (1 - chan) y (outputFault chan y s))

/-- VSAFE_FAULT (R301). -/
def execVsafeFault (chan : Nat) (s : State) : Host.Outcome State Fault Refusal :=
  .next (
    if chan < 2 ∧ chanOn s chan then raise0 .saf 7 (chanPut s chan { chanGet s chan with vsafe := true }) else s)

/-- VSAFE_RECOVER (R301): VSAFE has been back in range for 100 ms. -/
def execVsafeRecover (chan : Nat) (s : State) : Host.Outcome State Fault Refusal :=
  .next (if chan < 2 ∧ chanOn s chan then chanPut s chan { chanGet s chan with vsafe := false } else s)

/-! SRST_N and MAINT_N (R302 to R304, R317, R319). -/

/-- SRST_N_PRESS_START (R302): the filtered falling edge. -/
def execSrstNPressStart (chan : Nat) (s : State) : Host.Outcome State Fault Refusal :=
  .next (
    if chan < 2 ∧ chanOn s chan then chanPut s chan { chanGet s chan with srstLow := true, srstSeen := true } else s)

/-- SRST_N_PRESS_RELEASE (R302): a press of 100 ms to 5 s is accepted; any other, or the release of a pin that was low at
reset, is rejected. -/
def execSrstNPressRelease (chan ms : Nat) (s : State) : Host.Outcome State Fault Refusal :=
  .next (
    if 2 ≤ chan ∨ !chanOn s chan then s
    else
      let v := chanGet s chan
      let ok := v.srstLow && v.srstSeen && decide (100 ≤ ms) && decide (ms ≤ 5000)
      let s1 := chanPut s chan { v with srstLow := false, srstSeen := true, accepted := ok || v.accepted }
      if ok then s1 else raise0 .saf 6 s1)

/-- SRST_N_ACCEPT_TIMEOUT (R302): the other channel has not told within 20 ms that it accepts the press. -/
def execSrstNAcceptTimeout (chan : Nat) (s : State) : Host.Outcome State Fault Refusal :=
  .next (
    if chan < 2 ∧ (chanGet s chan).accepted ∧ !(chanGet s chan).heard.accepted then
      raise0 .saf 6 (chanPut s chan { chanGet s chan with accepted := false })
    else s)

/-- Ports of a bank without power, of which channel A has no samples, stay tripped (R316). -/
def keepsTrip (s : State) (c n : Nat) : Bool := c == 0 && !islOn s (28 + n / 256) && spbOn (chanGet s c) R.SAF_SLPCFG_EN [n]

/-- Steps 1 and 2 of R319 in one channel: SLP latches, guard SDPs whose guard is CLOSED in both channels, a watchdog demand
followed by three accepted pairs, and the latched MAINT_N demand. -/
def pressChan (c : Nat) (s : State) : State :=
  let v := chanGet s c
  let closed (x : Nat) : Bool := (guardGet v x).st == 1 && (heardIn v x).st == 1
  let v1 := ((span 0 8).filter closed).foldl (fun w x => guardPut x { guardGet w x with sdp := false } w) v
  chanPut s c { v1 with trips := v.trips.filter (keepsTrip s c), accepted := false, maintDem := false,
                        wd := v1.wd && decide (v1.pairs < 3) }

/-- The channels tell each other what the press has changed (R282). -/
def rehear (s : State) : State := deliver 1 false (deliver 0 false s)

/-- The forced-dark lines are released. -/
def unforce (s : State) : State :=
  clrRelease 2 (clrRelease 1 { s with chA := { s.chA with force := false, forceAt := 0, sosOn := false },
                                      chB := { s.chB with force := false, forceAt := 0, sosOn := false } })

/-- SAFE_STOP or LOCKOUT goes off: DARK, cause 0x12 (R15, R19). -/
def stopOver (s : State) : State :=
  unforce (enterMode mDark 0x12 ((s.wr R.PWR_MODE_C_STOP [] 0).wr R.PWR_MODE_C_LOCKOUT [] 0))

/-- No channel holds a cause and PWR holds none (R318). -/
def noCause (s : State) : Bool :=
  s.chA.locks == 0 && s.chB.locks == 0 && !s.modes.noImage && s.modes.latched.isEmpty

/-- DELIBERATE_RESET (R302, R319): a press that both channels have accepted, as each has told the other. -/
def execDeliberateReset (s : State) : Host.Outcome State Fault Refusal :=
  .next (
    if !s.chA.accepted || !s.chB.accepted || !s.chA.heard.accepted || !s.chB.heard.accepted then s
    else
      let s1 := rehear (pressChan 1 (pressChan 0 s))
      let s2 := if (modeOf s1 = mSafeStop ∨ modeOf s1 = mLockout) ∧ noCause s1 ∧ !ownSos s1 s1.chA ∧ !ownSos s1 s1.chB
        then stopOver s1 else s1
      evalChan 1 (evalChan 0 s2))

/-- MAINT_N_CHANGE (R303, R304): a channel reads MAINT_N low and grants, or high; while it holds its grant that is a demand,
latched until a press, and MAINTAIN goes off. `level` is true for high. -/
def execMaintNChange (chan : Nat) (level : Bool) (s : State) : Host.Outcome State Fault Refusal :=
  .next (
    if 2 ≤ chan ∨ !chanOn s chan then s
    else
      let v := chanGet s chan
      if !level then evalChan chan (chanPut s chan { v with maintLow := true, grant := true })
      else if v.grant then
        let s1 := chanPut s chan { v with maintLow := false, grant := false, maintDem := true }
        evalChan chan (s1.wr R.PWR_MODE_C_MAINT [] 0)
      else chanPut s chan { v with maintLow := false })

/-! Dark verification and lockout causes (R310, R318). -/

/-- Channel A's check of a blocked port: both plane output taps VALID below −35 dBm, or UNDER (v² < 10⁹ in 10 pW). -/
def tapsDark (s : State) (n : Nat) : Bool :=
  let one (t : Nat) : Bool := s.flag R.ESA_SAMPLE_UNDER [t] ||
    (s.flag R.ESA_SAMPLE_VALID [t] && decide (s.rd R.ESA_SAMPLE_VALUE [t] ^ 2 < 1000000000))
  one (34816 + n) && one (35328 + n)

/-- DARK_VERIFY (R310): a check from 2 ms after the block on; `dark` is what channel B's comparators report. -/
def execDarkVerify (chan port : Nat) (dark : Bool) (s : State) : Host.Outcome State Fault Refusal :=
  .next (
    if 2 ≤ chan ∨ 512 ≤ port ∨ !chanOn s chan ∨ !heldDark s port ∨ !darkLong s port then s
    else
      let v := chanGet s chan
      let ok := if chan = 0 then tapsDark s port else dark
      let l := v.dver.filter (· != port)
      if ok then chanPut s chan { v with dver := l }
      else holdCause chan 4 (chanPut s chan { v with dver := port :: l }))

/-- A cause is gone as a channel sees it in itself and in what the partner told (R318). -/
def causeGone (s : State) (c cause : Nat) : Bool :=
  let v := chanGet s c
  let healed := (span 0 8).all fun x => (guardGet v x).st != 3 && (heardIn v x).st != 3
  let off (y : Nat) : Bool := !bitN v.cmd y && !bitN v.heard.cmd y &&
    !pinH v y && !pinL v y && !bitN v.heard.pins y && !bitN v.heard.pins (4 + y)
  match cause with
  | 0 => !v.xbad && itemsAgree s c
  | 1 => healed
  | 2 => healed
  | 3 => (span 0 4).all fun y => !bitN (Nat.lor v.sofault v.heard.sofault) y || off y
  | 4 => v.dver.isEmpty && v.heard.darkOk
  | _ => false

/-- LOCKOUT_CAUSE_CLEAR (R318): a cause whose condition has held is released; an output fault is then no longer held. -/
def execLockoutCauseClear (chan cause : Nat) (s : State) : Host.Outcome State Fault Refusal :=
  .next (
    let v := chanGet s chan
    if 2 ≤ chan ∨ 5 ≤ cause ∨ !chanOn s chan ∨ !causeGone s chan cause then s
    else
      let v1 := { v with locks := setBits v.locks cause 1 0, told := setBits v.told cause 1 0,
                         heard := { v.heard with fresh := setBits v.heard.fresh cause 1 0 } }
      if cause = 3 then
        let s1 := chanPut s chan { v1 with sofault := 0 }
        (span 0 4).foldl (fun t y => t.wr R.SAF_SO_FAULT [y] (b2n (bitN t.chA.sofault y || bitN t.chB.sofault y))) s1
      else chanPut s chan v1)

/-! Twin-path telegrams (R323 to R327). -/

/-- A copy is valid (R324). -/
def copyValid (s : State) (v : Chan) (b : List Nat) : Bool :=
  let at8 (i : Nat) : Nat := nthD 0 b i
  b.length == 128 && ofBe (b.drop 124) == crc32c (b.take 124) && at8 0 == 1 && at8 1 == 1 &&
    ofBe ((b.drop 2).take 2) == spb v R.SAF_TELCFG_SRCID [] && at8 4 == s.rd R.GLB_MID_MID [] &&
    ofBe ((b.drop 12).take 4) == v.crc && bitsN (at8 16) 4 3 == 0 &&
    ((b.drop 5).take 3 ++ (b.drop 17).take 3 ++ (b.drop 84).take 40).all (· == 0)

def copySeq (b : List Nat) : Nat := ofBe ((b.drop 8).take 4)

/-- Ports that a telegram names dark. -/
def copyDark (b : List Nat) : List Nat :=
  (span 0 512).filter fun n => bitN (nthD 0 b (20 + n / 8)) (7 - n % 8)

/-- SEQ newer than LAST (R324, R325). -/
def copyNewer (v : Chan) (b : List Nat) : Bool :=
  let d := (copySeq b + 2 ^ 32 - v.last) % 2 ^ 32
  v.resync || (decide (1 ≤ d) && decide (d ≤ 2 ^ 31 - 1))

/-- A count that only channel A's view steps (R328). -/
def countA (c : Nat) (F : Fld) (s : State) : State := if c = 0 then s.inc F [] else s

/-- A newer single copy adds its demands (R325). -/
def addDemands (v : Chan) (b : List Nat) : Chan :=
  { v with stop := v.stop || bitN (nthD 0 b 16) 7,
           dark := (span 0 512).filter fun n => v.dark.contains n || bitN (nthD 0 b (20 + n / 8)) (7 - n % 8),
           permit := Nat.land v.permit (nthD 0 b 16 % 16) }

/-- A pair is accepted: its content is in force, LAST is set and the watchdog restarts (R324 to R326). -/
def acceptPair (c : Nat) (v : Chan) (b : List Nat) (s : State) : State :=
  let s1 := chanPut s c { v with last := copySeq b, resync := false, stop := bitN (nthD 0 b 16) 7,
                                 dark := copyDark b, permit := nthD 0 b 16 % 16, boot := false, wdRun := true,
                                 pairs := min 3 (v.pairs + 1) }
  if c = 0 then (s1.inc R.SAF_CNT_TEL_PAIR []).wr R.SAF_TELSTAT_AGE [] 0 else s1

/-- A valid copy meets the oldest one of 5 ms at most that waits from the other port and agrees with it in every byte; one that shares its
SEQ only differs from it; without either it waits itself (R324). -/
def pairCopy (c port : Nat) (b : List Nat) (s : State) : State :=
  let v := chanGet s c
  let v1 := if copyNewer v b then addDemands v b else v
  let near := v.half.filter fun e => e.1 != port && decide (s.time ≤ e.2.1 + 5000000)
  match near.find? fun e => e.2.2 == b with
  | some e =>
    let w := { v1 with half := v.half.erase e }
    if copyNewer v b then acceptPair c w b s
    else countA c R.SAF_CNT_TEL_REPLAY (chanPut s c { w with pairs := 0 })
  | none =>
    match near.find? fun e => copySeq e.2.2 == copySeq b with
    | some e => countA c R.SAF_CNT_TEL_MISMATCH (chanPut s c { v1 with half := v.half.erase e, pairs := 0 })
    | none => chanPut s c { v1 with half := v.half ++ [(port, s.time, b)] }

/-- A channel takes the oldest frame of a SAFETY ring that it has not taken; a buffer that both have taken is returned
(R337). -/
def takeSafety (c : Nat) : List RxHeld → Option (List RxHeld)
  | [] => none
  | f :: t =>
    if if c = 0 then f.takenA else f.takenB then (takeSafety c t).map (f :: ·)
    else
      let g := if c = 0 then { f with takenA := true } else { f with takenB := true }
      some (if g.takenA && g.takenB then t else g :: t)

/-- TELEGRAM_COPY_RX (R324, R325): a channel reads a copy from a port's SAFETY ring; with EN = 0 it is ignored. -/
def execTelegramCopyRx (chan port : Nat) (bytes : List Nat) (s : State) : Host.Outcome State Fault Refusal :=
  .next (
    if 2 ≤ chan ∨ 2 ≤ port ∨ !chanOn s chan ∨ !islOn s 5 then s
    else match takeSafety chan (portGet s port).safety with
    | none => s
    | some l =>
      let s1 := ringSet port 2 l s
      if !telOn (chanGet s1 chan) then s1
      else if copyValid s1 (chanGet s1 chan) bytes then evalChan chan (pairCopy chan port bytes s1)
      else countA chan R.SAF_CNT_TEL_BAD s1)

/-- TELEGRAM_PARTNER_TIMEOUT (R324): the oldest waiting copy has been without a partner for 5 ms. -/
def execTelegramPartnerTimeout (chan : Nat) (s : State) : Host.Outcome State Fault Refusal :=
  .next (
    match (chanGet s chan).half with
    | [] => s
    | e :: t =>
      if chan < 2 ∧ chanOn s chan ∧ e.2.1 + 5000000 ≤ s.time then
        countA chan R.SAF_CNT_TEL_SINGLE (chanPut s chan { chanGet s chan with half := t })
      else s)

/-- TELEGRAM_WATCHDOG_EXPIRY (R326): TWD without an accepted pair. -/
def execTelegramWatchdogExpiry (chan : Nat) (s : State) : Host.Outcome State Fault Refusal :=
  .next (
    if chan < 2 ∧ chanOn s chan ∧ telOn (chanGet s chan) ∧ (chanGet s chan).wdRun then
      let v := chanGet s chan
      let s1 := chanPut s chan { v with wd := true, wdRun := false, pairs := 0, resync := true }
      evalChan chan (countA chan R.SAF_CNT_TEL_WD s1)
    else s)

/-- Guard states, 2 bits per input, input 7 first. -/
def guardStates (st : Nat → Nat) : Nat := ((span 0 8).map fun x => st x * 4 ^ x).sum

/-- The 128 bytes of a status telegram (R327), as Garnet forms it: Jasper's part as last told. -/
def statusBytes (s : State) : List Nat :=
  let a := s.chA
  let on := outMask fun y => bitN a.cmd y && bitN a.heard.cmd y && readsOn a y
  let dk := (span 0 64).map fun i => ((span 0 8).map fun j => b2n (heldDark s (8 * i + j)) * 2 ^ (7 - j)).sum
  let b := [1, 2] ++ beBytes 2 (spb a R.SAF_TELCFG_STID []) ++ [s.rd R.GLB_MID_MID [], 0, 0, 0] ++ beBytes 4 s.statusSeq ++
    beBytes 4 a.crc ++ [if islOn s 1 then modeOf s else mLockout,
      (Nat.lor a.sofault a.heard.sofault) % 16 * 16 + on] ++ beBytes 2 (guardStates fun x => (guardGet a x).st) ++ dk ++
    beBytes 4 a.locks ++ beBytes 4 a.last ++ beBytes 2 (guardStates fun x => (heardIn a x).st) ++ beBytes 4 a.heard.locks ++
    List.replicate 26 0
  b ++ beBytes 4 (crc32c b)

/-- STATUS_TELEGRAM_TX (R327): one payload, sent as both copies from queue 65,534; SEQ rises once per cycle. -/
def execStatusTelegramTx (s : State) : Host.Outcome State Fault Refusal :=
  .next (
    if !chanOn s 0 then s
    else
      let b := statusBytes s
      let s1 := enqueue 65534 1 146 (.telegram b) (enqueue 65534 0 146 (.telegram b) s)
      { s1 with statusSeq := (s.statusSeq + 1) % 2 ^ 32 })

/-- SAFETY_CHANNEL_CLOCK_LOSS (R279): a channel without its oscillator drives no switch. -/
def execSafetyChannelClockLoss (chan : Nat) (s : State) : Host.Outcome State Fault Refusal :=
  .next (
    if chan < 2 ∧ chanOn s chan then
      chanPut s chan { chanGet s chan with clkLost := true, cmd := 0, testOut := none }
    else s)

end Sys2Proof.Machine
end

