-- ==== Sys2Proof/Machine/Power.lean ====
section
/-! DEFINITION. Power islands, the Thermal Monitor and the Precision Converter (18_power_thermal_housekeeping). -/

namespace Sys2Proof.Machine

/-! The thermal event log (R417). -/

/-- One log entry: kind, island (0xFF for a sensor entry), sensor, reading. -/
def logEvent (kind isl sensor : Nat) (temp : Int) (s0 : State) : State :=
  let s := crcHit .thm 0 s0
  let n := s.rd R.THM_LOGSEQ [] + 1
  let j := s.jnl.last
  let ws := [n % 2 ^ 32, s.rd R.GLB_BOOT [] * 2 ^ 16 + kind * 2 ^ 8 + isl % 256, sensor % 256 * 2 ^ 24 + ofS 16 temp,
    s.time % 2 ^ 32, s.time / 2 ^ 32 % 2 ^ 32, j % 2 ^ 32, j / 2 ^ 32 % 2 ^ 32]
  let crc := crc32c (ws.map (leBytes 4)).flatten
  let base := 0x4110000 + 32 * (n % 1024)
  ((ws ++ [crc]).zip (span 0 8)).foldl (fun t w => wrWord t (base + 4 * w.2) w.1) (s.wr R.THM_LOGSEQ [] n)

/-- Sensors of an island (R411). -/
def islSensors (i : Nat) : List Nat :=
  match i with
  | 0 => [7, 8] | 1 => [23, 24] | 2 => [55, 56, 199, 200] | 3 => [39, 40] | 4 => [215, 216] | 5 => [71, 72, 183, 184]
  | 6 => [87, 88] | 7 => [103, 104]
  | _ =>
    if i < 12 then [16 * (i - 1) + 7, 16 * (i - 1) + 8]
    else if i < 28 then span (16 * (i - 12)) 16
    else ((span (8 * (i - 28)) 8).map fun r => [16 * r, 16 * r + 15]).flatten

/-- A log entry about an island, with its hottest sensor and temperature. -/
def logIsland (kind i : Nat) (s : State) : State :=
  logEvent kind i (s.rd R.THM_ISL_HOTSENS [i]) (s.rdS R.THM_ISL_HOT [i]) s

/-! Switching islands (R404 to R407). -/

/-- A word whose content is lost with an island. The records that a recovery rebuilds stay (R205); CE control is lost with
the last cluster. -/
def wordLost (s : State) (i a : Nat) : Bool :=
  if 8 ≤ i ∧ i ≤ 11 then (addrIslands a).contains i && !((addrIslands a).any fun k => k != i && islOn s k)
  else i != 0 && i != 1 && addrIslands a == [i] && !durableWord a

/-- Loops of an actuator island. -/
def loopOf (i n : Nat) : Bool := decide (n < 35840) && actIsland n == i
/-- Sensors of a sensor island. -/
def sensorOf (i n : Nat) : Bool := decide (n < 36864) && sensIsland n == i

/-- What loops, drives and sensors keep beside registers goes with their island. -/
def loseCells (i : Nat) (s : State) : State :=
  { s with drv := cellDrop (fun e => decide (i < 28) && loopOf i e) s.drv
           banks := cellDrop (fun k => 12 + k == i) s.banks
           loopX := cellDrop (loopOf i) s.loopX
           moved := cellDrop (loopOf i) s.moved
           voaOut := cellDrop (fun v => loopOf i (34816 + v)) s.voaOut
           corr := cellDrop (loopOf i) s.corr
           ramps := cellDrop (loopOf i) s.ramps
           loopBad := s.loopBad.filter fun n => !loopOf i n
           corrBad := s.corrBad.filter fun n => !sensorOf i n
           refill := cellDrop (sensorOf i) s.refill
           osr := cellDrop (sensorOf i) s.osr
           missed := s.missed.filter fun n => !sensorOf i n
           validAt := cellDrop (sensorOf i) s.validAt
           rchg := cellDrop (sensorOf i) s.rchg
           lowRun := cellDrop (sensorOf i) s.lowRun
           latch := cellDrop (fun a => addrIslands a == [i]) s.latch
           modes := { s.modes with
             busyL := s.modes.busyL.filter fun n => !loopOf i n, busyS := s.modes.busyS.filter fun n => !sensorOf i n,
             busyP := s.modes.busyP.filter fun k => decide (1024 ≤ k) || !sensorOf i (34816 + k % 512) } }

/-- Of the requests whose answer is not formed yet, a query is lost with the MP; a MODE request is journaled and stays (R369, R382). -/
def lateKept (l : Option (Hdr × Req)) : Option (Hdr × Req) :=
  match l with
  | some (_, .query _ _ _) => none
  | x => x

/-- The MP is interrupted: requests that it holds in reorder windows are lost with it; a recovery follows (R383). -/
def mpStops (s : State) : State :=
  if s.modes.mpDown then s
  else
    let drop (v : Sess) : Sess := { v with held := [], late := lateKept v.late }
    let l := (s.sess.map fun v => (v.1, drop v.2)).filter fun v => decide (v.2 ≠ Sess.closed)
    { s with modes := { s.modes with mpDown := true, downAt := s.time }, sess := l, jnl := { s.jnl with recovering := true } }

/-- The islands of the network ports, time base, solver, clusters, banks and port banks go off: what stops with each
(R404). -/
def islandEffects (i : Nat) (s : State) : State :=
  match i with
  | 2 => mpStops s
  | 3 => { s with chA := Chan.reset }
  | 4 => { s with chB := Chan.reset }
  | 5 => { s with netA := { NetPort.idle with failed := s.netA.failed }, netB := { NetPort.idle with failed := s.netB.failed },
                  egs := ⟨[], [], [], [], [], [], [], 0⟩ }
  | 6 =>
    let s1 := (span 0 8).foldl (fun t d => if domUsable t d then domSet d 1 t else t) s
    { s1 with cnt := [], servo := [], phase := [], ppsOut := false }
  | 7 =>
    let s1 := requeueRepairs (armedRepairs s) s
    { s1 with armed := [], rsLost := true }
  | _ =>
    if 8 ≤ i ∧ i ≤ 11 then failCluster (i - 8) s
    else if 12 ≤ i ∧ i ≤ 27 then loseElems (bankElemList (i - 12)) (loseCells i s)
    else if 28 ≤ i ∧ i ≤ 29 then
      ((span (256 * (i - 28)) 256).filter fun n => spbOn s.chA R.SAF_SLPCFG_EN [n]).foldl (fun t n => slpTrip 0 n t) (loseCells i s)
    else s

/-- Bits of a lost word that outlive its island: FAIL of an element (R83) and the SUSPECT marks (R163) clear only at RESET or
when a calibration run qualifies the actuator. -/
def outlives (a : Nat) : Nat :=
  if 0x2000000 ≤ a ∧ a < 0x3000000 ∧ 0x40000 ≤ a % 0x100000 ∧ a % 0x100000 < 0x44400 ∧ a % 8 = 4 then 2 ^ 28
  else if 0x800200 ≤ a ∧ a < 0x801380 then 4294967295
  else 0

/-- A word after its island has gone off. -/
def wordAfter (s : State) (i a : Nat) (w : Word) : Word :=
  if wordLost s i a then maskIn (resetWord a) (BitVec.ofNat 32 (outlives a)) w else w

/-- Time since which an island has been out of service (R262). -/
def noteLost (i : Nat) (s : State) : State :=
  if cellGet (fun _ => 0) s.calx.lost i ≠ 0 then s
  else { s with calx := { s.calx with lost := cellSet (fun _ => 0) s.calx.lost i (s.time + 1) } }

/-- An island is back in service. -/
def noteBack (i : Nat) (s : State) : State := { s with calx := { s.calx with lost := cellErase s.calx.lost i } }

/-- An island is switched off; `st` is its new STATE. -/
def islandDown (i st : Nat) (s : State) : State :=
  let s1 := noteLost i ((islandEffects i (if i = 1 ∨ i = 7 then saveHist s else s)).wr R.PWR_ISL_STATE [i] st)
  settle (reshed { s1 with regs := cellMap resetWord (fun a w => wordAfter s1 i a w) s1.regs })

/-- Configuration, overlay and calibration of an island's words are written again. -/
def restoreWords (i : Nat) (s : State) : State :=
  let own (a : Nat) : Bool := (addrIslands a).contains i && !durableWord a
  let s1 := (s.wbase.filter fun c => own c.1).foldl (fun t c => wrWord t c.1 c.2.toNat) s
  let named := ((overlayOf s (modeOf s)).map fun f => (mirrored f.1).map fun a => (a, f.2)).flatten
  let s2 := (named.filter fun f => own f.1).foldl (fun t f => mergeWord f.2.1 f.1 f.2.2 t) s1
  fieldHooks s ((s.wbase.filter fun c => own c.1).map (·.1))
    ((s.wcal.filter fun c => own c.1).foldl (fun t c => mergeWord (calMask c.1) c.1 c.2.toNat t) s2)

/-- Availability and suspicion of elements as the solver takes them over at its start, and the connections that await a
repair (R199, R200). -/
def reportElems (s : State) : State :=
  let off (e : Nat) : Bool := !islServing s (12 + bankOf e) || elemFailed s e
  let s1 := (span 0 1088).foldl (fun t w => wrWord t (0x730000 + 4 * w)
    (((span 0 32).map fun b => b2n (off (32 * w + b)) * 2 ^ b).sum)) s
  let s2 := (span 0 1088).foldl (fun t w => wrWord t (0x731100 + 4 * w) (readN t (0x800200 + 4 * w))) s1
  let hit := (outputsUsing s2 (unavailable s2)).filter fun n => !(s2.repairs.any fun r => r.1 == n)
  setRepairs (s2.repairs ++ hit.map fun n => (n, s2.rd R.RS_CONN_DESC [n])) s2

/-- Connections that wait for a route are solved again (R200, R407). -/
def retryRoutes (s : State) : State :=
  let l := (span 0 512).filter fun n => (s.flag R.RS_CONN_UNROUTED [n] || s.flag R.RS_CONN_REPAIR_WAIT [n]) &&
    !(s.repairs.any fun r => r.1 == n)
  setRepairs (s.repairs ++ l.map fun n => (n, s.rd R.RS_CONN_DESC [n])) s

/-- The ports' MAC addresses, from the OTP (R335). -/
def showMacs (s : State) : State :=
  [(0, s.otp.macA), (1, s.otp.macB)].foldl (fun t m =>
    (t.wr R.NI_MACADDR_ADDR_LO [m.1] m.2).wr R.NI_MACADDR_ADDR_HI [m.1] (m.2 / 2 ^ 32)) s

/-- An island is switched on: STARTING, its memories at reset and its tables restored (R406); PI00 never lost them (R404). A bank parks itself (R79);
whatever clear source is in force holds it (R72), its loops start with target PARK; its sensors start as `loseCells` left them, with two
FILL samples (R102). -/
def islandUp (i : Nat) (s : State) : State :=
  let s0 := s.wr R.PWR_ISL_STATE [i] 1
  let s1 := if i = 0 then s0 else restoreWords i s0
  match i with
  | 2 => mpStops s1
  | 5 => showMacs (clearRings 1 (clearRings 0 s1))
  | 6 => enableDomains s1
  | 7 => reportElems { s1 with jnl := { s1.jnl with recovering := true } }
  | 0 => s1.wr R.PCV_CTRL_REFBUF_EN [] 1
  | _ =>
    if 12 ≤ i ∧ i ≤ 27 then
      let s2 := bankPut s1 (i - 12) ⟨true, true, true, 0⟩
      let s3 := wrWord s2 (0x2000110 + 0x100000 * (i - 12)) (s2.modes.clr + 1)
      (bankElemList (i - 12)).foldl (fun t e => entryFor e none t) s3
    else s1

/-- The MP may switch PI05 to PI29, PWR PI02 (R404). -/
def restartable (i : Nat) : Bool := i == 0 || i == 2 || (decide (5 ≤ i) && decide (i < 30))

/-- The THERMAL_SHED condition holds while a shed island is not back in service (R406, R418). -/
def showShed (s : State) : State := s.wr R.PWR_MODE_C_SHED [] (b2n (s.modes.shedIsl.any fun i => decide (i < 100)))

/-- Start-up of an island has ended (R406): the recovery of PI02 and PI07, the parking of a bank. -/
def startedUp (i : Nat) (s : State) : Bool :=
  if i = 2 ∨ i = 7 then !s.modes.mpDown && !s.jnl.recovering
  else !(decide (12 ≤ i) && decide (i ≤ 27) && s.flag R.EDA_CLR_COLD [i - 12])

/-- ISLAND_BACK_IN_SERVICE (R406, R407): start-up ends; `engines` is the byte of a cluster's engines that passed their
self-check (R139). -/
def execIslandBackInService (island engines : Nat) (s : State) : Host.Outcome State Fault Refusal :=
  .next (
    if 30 ≤ island ∨ islState s island ≠ 1 ∨ !startedUp island s then s
    else
      let s1 := noteBack island (degOff (degIsland island) (raise0 .pwr 3 (s.wr R.PWR_ISL_STATE [island] 0)))
      let s2 := showShed { s1 with modes := { s1.modes with shedIsl := s1.modes.shedIsl.filter (· % 100 != island) },
                                   therm := { s1.therm with tries := cellErase s1.therm.tries island } }
      let s3 := if 8 ≤ island ∧ island ≤ 11 then
          s2.wr R.CE_CLSTAT_LIVE [] (setBits (s2.rd R.CE_CLSTAT_LIVE []) (8 * (island - 8)) 8 engines)
        else if 12 ≤ island ∧ island ≤ 27 ∧ islOn s2 7 then
          retryRoutes ((bankElemList (island - 12)).foldl (fun t e => setMapBit t 0x730000 e (elemFailed t e)) s2)
        else s2
      modeTick s3)

/-- The two conditions of a restart after a shed (R418). -/
def mayRestart (i : Nat) (s : State) : Bool :=
  (match cellGet (fun _ => []) s.therm.sheds i with
    | t :: _ => decide (t + 10000000000 ≤ s.time)
    | [] => true) &&
  decide (s.rdS R.THM_ISL_HOT [i] < 24320) && !((islSensors i).any fun x => s.flag R.THM_TEMP_BROKEN [x])

/-- A restart begins: logged. -/
def beginRestart (i : Nat) (s : State) : State := islandUp i (logIsland 0x04 i s)

/-- A restart is abandoned or fails. -/
def restartFail (i : Nat) (s : State) : State := raise0 .pwr 4 (logIsland 0x05 i s)

/-- Island i may restart at a RESTART write (R418). -/
def restartOk (i : Nat) (s : State) : Bool := decide (i < 30) && islState s i == 3 && mayRestart i s

/-- A write of `PWR.ISL[i].RESTART` (R418, R419): AUTO_SUSP clears at that write. -/
def restartWrite (i : Nat) (s : State) : State :=
  if restartOk i s then beginRestart i (s.wr R.PWR_ISL_AUTO_SUSP [i] 0) else s

def execIslandRestartWrite (island : Nat) (s : State) : Host.Outcome State Fault Refusal := .next (restartWrite island s)

/-- ISLAND_RESTART_ATTEMPT (R405): 1 s after a supply fault; after three failures the island stays off. A FAILED island that
was shed needs the conditions of R418 too. -/
def execIslandRestartAttempt (island : Nat) (ok : Bool) (s : State) : Host.Outcome State Fault Refusal :=
  .next (
    let k := cellGet (fun _ => 0) s.therm.tries island
    if islState s island ≠ 5 ∨ !restartable island ∨ 3 ≤ k ∨ (island ≠ 2 ∧ s.modes.mpDown) ∨
        (s.modes.shedIsl.contains (100 + island) ∧ !mayRestart island s) then s
    else if ok then beginRestart island s
    else restartFail island { s with therm := { s.therm with tries := cellSet (fun _ => 0) s.therm.tries island (k + 1) } })

/-- AUTO_SUSPEND_EXPIRY (R419): 10 minutes after the third shed, for PI02 and PI05. -/
def execAutoSuspendExpiry (island : Nat) (s : State) : Host.Outcome State Fault Refusal :=
  .next (
    let past : Bool := match cellGet (fun _ => []) s.therm.sheds island with
      | t :: _ => decide (t + 600000000000 ≤ s.time)
      | [] => true
    if (island = 2 ∨ island = 5) ∧ past then s.wr R.PWR_ISL_AUTO_SUSP [island] 0 else s)

/-- ISLAND_REQUALIFY_RESTART (R139): the MP switches a cluster that failed or has a retired engine off and on. -/
def execIslandRequalifyRestart (island : Nat) (s : State) : Host.Outcome State Fault Refusal :=
  .next (
    if island < 8 ∨ 11 < island ∨ islState s island ≠ 0 ∨ s.modes.mpDown ∨
        (!s.away.contains (island - 8) ∧ liveOf s (island - 8) = 8) then s
    else modeTick (islandUp island (islandDown island 2 s)))

/-! The phases of a calibration run (R254). -/

/-- Longest duration of a phase, s. -/
def phaseMax (p : Nat) : Nat := nthD 0 [0, 5, 2, 15, 600, 100, 60, 60, 10] p

/-- C1 is over: REFX has settled since REFBUF_EN, and every island has been steady for 1 s. -/
def phaseReady (s : State) : Bool := s.flag R.PCV_CTRL_REF_OK [] && decide (s.calx.since + 1000000000 ≤ s.time)

/-- The hottest sensor of every island over the time since `since`: steady within 0.5 °C, or observed afresh. -/
def noteSteady (s : State) : State :=
  let hot (i : Nat) : Int := s.rdS R.THM_ISL_HOT [i]
  let old (i : Nat) : Int × Int := cellGet (fun _ => (0, 0)) s.calx.span i
  let new (i : Nat) : Int × Int := if s.calx.span.isEmpty then (hot i, hot i) else (min (old i).1 (hot i), max (old i).2 (hot i))
  let steady := (span 0 30).all fun i => decide ((new i).2 - (new i).1 ≤ 128)
  let kept : Cells (Int × Int) := (span 0 30).map fun i => (i, if steady then new i else (hot i, hot i))
  { s with calx := { s.calx with since := if steady then s.calx.since else s.time, span := kept } }

/-- The Pinwheel map as it reads now. -/
def pinMap (s : State) : List (Nat × Int) := (span 0 256).map fun x => (x, s.rdS R.THM_TEMP_TEMP [x])

/-- The words of `THM.TEMP` as they read now, with their addresses. -/
def heatMap (s : State) : List (Nat × Nat) := (span 0 256).map fun x => (fldAddr R.THM_TEMP_TEMP [x], readN s (fldAddr R.THM_TEMP_TEMP [x]))

/-- C2 parks every element at its present clear code (R254). -/
def calPark (s : State) : State := (span 0 16).foldl (fun t k => if islOn t (12 + k) then clearBank k t else t) s

/-- The next phase begins, C2 with every element parked; the map is kept at the end of C2 and of C4 (R254, R255, R273). -/
def nextPhase (s : State) : State :=
  let p := s.rd R.CAL_RUN_PHASE []
  let s1 := { s with calx := { s.calx with start := s.time, pins := if p = 4 then pinMap s else s.calx.pins,
                                           heat2 := if p = 2 then heatMap s else s.calx.heat2, heat4 := if p = 4 then heatMap s else s.calx.heat4 } }
  (if p = 1 then calPark s1 else s1).wr R.CAL_RUN_PHASE [] (p + 1)

/-- Ports in turn over a phase (R254, R255). -/
def portTurn (s : State) (p : Nat) : Nat := min 511 ((s.time - s.calx.start) * 512 / (phaseMax p * 1000000000))

/-- PROGRESS and the branches of both trees: the injection tree feeds the ports in turn from C3 to C7, the pick-off in C6 and C7. -/
def showPhase (s : State) : State :=
  let p := s.rd R.CAL_RUN_PHASE []
  let past := ((span 1 (p - 1)).map phaseMax).sum * 1000000000 + min (s.time - s.calx.start) (phaseMax p * 1000000000)
  let turn := portTurn s p
  let s1 := s.wr R.CAL_RUN_PROGRESS [] (min 65535 (past * 65536 / 852000000000))
  { s1 with calx := { s1.calx with inject := if 3 ≤ p ∧ p ≤ 7 then some turn else none,
                                   divert := if p = 6 ∨ p = 7 then some turn else none } }

/-- The sequencer at a thermal round (R254). The rule gives each phase a longest duration: here C1 ends once its preconditions hold and every
other phase lasts its longest (DESIGN CHOICE, log entry 93). -/
def runPhases (s : State) : State :=
  let p := s.rd R.CAL_RUN_PHASE []
  if p = 0 ∨ !islServing s 0 then s
  else
    let s1 := if p = 1 then noteSteady s else s
    let done := if p = 1 then phaseReady s1 else decide (s.calx.start + phaseMax p * 1000000000 ≤ s.time)
    showPhase (if done && decide (p < 8) then nextPhase s1 else s1)

/-! Thermal rounds (R409 to R416). -/

/-- A count converted: 25 °C + (n − n0) × k, in 2⁻⁸ °C rounded to nearest (R409); none for a count of zero. The trims n0 and k, k in
2⁻²⁴ °C per count, are those of the OTP (DESIGN CHOICE, log entry 98). -/
def pinReading (s : State) (x n : Nat) : Option Int :=
  let c := ((s.otp.pinTrim.find? fun p => p.1 == x).map (·.2)).getD (0, 0)
  if n = 0 then none else some (6400 + (((n : Int) - c.1) * c.2 + 32768) / 65536)

/-- The readings of a round. -/
def pinReadings (s : State) (counts : List Nat) : List (Option Int) :=
  (counts.zip (span 0 counts.length)).map fun c => pinReading s c.2 c.1

/-- One sensor of a round: `v` is its reading in 2⁻⁸ °C, none for a count of zero. Readings of the neighbours that are
not broken are those of the same round. -/
def sensorRound (old : State) (all : List (Option Int)) (x : Nat) (s : State) : State :=
  let look (c : Nat) : Option Int := if old.flag R.THM_TEMP_BROKEN [c] then none else nthD none all c
  let v := nthD none all x
  let inr := match v with | some t => decide (-14080 ≤ t) && decide (t ≤ 38400) | none => false
  let near := (cellNeighbours x).filterMap look
  let far := match v with
    | some t => !near.isEmpty && decide (20 * 256 * near.length < (t * (near.length : Int) - near.sum).natAbs)
    | none => false
  let k := cellGet (fun _ => (0, 0, 0)) s.therm.sens x
  let a := if inr then 0 else min 2 (k.1 + 1)
  let b := if far then min 16 (k.2.1 + 1) else 0
  let g := if inr && !far then min 250 (k.2.2 + 1) else 0
  let was := s.flag R.THM_TEMP_BROKEN [x]
  let now := if was then decide (g < 250) else decide (2 ≤ a) || decide (16 ≤ b)
  let t := v.getD 0
  let s1 := { s with therm := { s.therm with sens := cellSet (fun _ => (0, 0, 0)) s.therm.sens x (a, b, g) } }
  let w := b2n (!now && inr) * 2 ^ 31 + b2n now * 2 ^ 30 + (s.rd R.THM_ROUND [] % 2 ^ 14) * 2 ^ 16 +
    (if now then 0x7FFF else if inr then ofS 16 t else s.rd R.THM_TEMP_TEMP [x])
  let s2 := wrWord s1 (0x4102000 + 4 * x) w
  if now == was then s2 else raise0 .thm 3 (logEvent (if now then 0x07 else 0x08) 0xFF x t s2)

/-- The highest valid reading of an island, with its sensor. -/
def hottest (s : State) : List Nat → Option (Int × Nat)
  | [] => none
  | x :: t =>
    let r := hottest s t
    if cellValid s x then
      match r with
      | some (u, y) => if s.rdS R.THM_TEMP_TEMP [x] < u then some (u, y) else some (s.rdS R.THM_TEMP_TEMP [x], x)
      | none => some (s.rdS R.THM_TEMP_TEMP [x], x)
    else r

/-- Highest band whose threshold a temperature reaches (R412), in 2⁻⁸ °C. -/
def bandAt (t : Int) : Nat := if 17920 ≤ t then 3 else if 12800 ≤ t then 2 else if 7680 ≤ t then 1 else 0

/-- The new band of an island. -/
def nextBand (band : Nat) (h : Int) (broken : Bool) : Nat :=
  if broken then 3
  else if band < bandAt h then bandAt h
  else if h < nthD 0 [0, 7680, 12800, 17920] band - 512 ∧ 0 < band then bandAt (h + 512)
  else band

/-- Temperature, band and WARN of an island at a publication (R411 to R414). -/
def islandRound (i : Nat) (s : State) : State :=
  let l := islSensors i
  let all := l.all fun x => s.flag R.THM_TEMP_BROKEN [x]
  let any := l.any fun x => s.flag R.THM_TEMP_BROKEN [x]
  let h := match hottest s l with | some p => p | none => (s.rdS R.THM_ISL_HOT [i], s.rd R.THM_ISL_HOTSENS [i])
  let b0 := s.rd R.THM_ISL_BAND [i]
  let b := nextBand b0 h.1 any
  let w0 := s.flag R.THM_ISL_WARN [i]
  let w := decide (24320 ≤ h.1) || any || (w0 && decide (23808 ≤ h.1))
  let s1 := wrWord s (0x4100200 + 4 * i) (b * 2 ^ 30 + b2n w * 2 ^ 29 + b2n all * 2 ^ 28 + h.2 * 2 ^ 16 + ofS 16 h.1)
  let s2 := if b == b0 then s1 else raise0 .thm 4 s1
  if w == w0 then s2 else raise0 .thm 0 (logIsland (if w then 0x01 else 0x02) i s2)

/-- A calibration run ends with result `res` (R253, R262, R415). A recalibration returns to MAINTAIN, or to the mode that outranks it
at the end of the tick (R25). -/
def stopRun (res : Nat) (s : State) : State :=
  if s.rd R.CAL_RUN_PHASE [] = 0 then s
  else
    let s1 := (s.wr R.CAL_RUN_RESULT [] res).wr R.CAL_RUN_PHASE [] 0
    let s2 := { s1 with modes := { s1.modes with ran := true, lastOk := decide (res = 1), crpd := false },
                        calx := { s1.calx with inject := none, divert := none, crpdAt := none } }
    if modeOf s2 ≠ mCalibrate then s2
    else if s2.flag R.PWR_MODE_C_LOCKOUT [] || s2.flag R.PWR_MODE_C_STOP [] then modeTick s2
    else if s2.modes.calFrom = mMaintain ∧ s2.flag R.PWR_MODE_C_MAINT [] then
      let m := modeByRank s2
      lateEvents (enterMode m (if m = mMaintain then 0x05 else causeOn m) s2)
    else enterMode mDark 0x05 s2

/-- PI00 is shed: CAL and PCV are suspended, the island stays powered (R415). -/
def suspendHk (s : State) : State :=
  stopRun 3 (raise0 .pcv 3 (((s.wr R.PWR_ISL_STATE [0] 3).wr R.PCV_CTRL_REFBUF_EN [] 0).wr R.PCV_CTRL_REF_OK [] 0))

/-- The third shed within 10 minutes suspends the automatic restart (R419). -/
def noteShed (i : Nat) (s : State) : State :=
  let l := (s.time :: cellGet (fun _ => []) s.therm.sheds i).take 3
  let s1 := { s with therm := { s.therm with sheds := cellSet (fun _ => []) s.therm.sheds i l } }
  if l.length = 3 ∧ s.time ≤ (l.getLast?).getD 0 + 600000000000 then
    raise0 .pwr 5 (logIsland 0x09 i (s1.wr R.PWR_ISL_AUTO_SUSP [i] 1))
  else s1

/-- A shed (R415). An island that is off for another cause keeps its state and does not remain SHED; R418 governs its restart, which
the mark 100 + i notes. A restart in progress is abandoned. -/
def shedIsland (i : Nat) (s : State) : State :=
  let s1 := raise0 .thm 1 (logIsland 0x03 i s)
  if 2 ≤ islState s i then
    noteShed i { s1 with modes := { s1.modes with shedIsl := (100 + i) :: s1.modes.shedIsl.filter (· % 100 != i) } }
  else
    let s2 := if islState s i = 1 then restartFail i s1 else s1
    let s3 := raise0 .pwr 1 (s2.incS R.PWR_ISL_SHEDS [i])
    let s4 := if i = 0 then suspendHk s3 else islandDown i 3 s3
    let s5 := noteShed i { s4 with modes := { s4.modes with shedIsl := i :: s4.modes.shedIsl.filter (· % 100 != i) } }
    s5.wr R.PWR_MODE_C_SHED [] 1

/-- A latch of PI01, PI03 or PI04 (R416): logged, both channels hold LATCH, the switch opens, LOCKOUT. -/
def latchIsland (i : Nat) (s : State) : State :=
  let s1 := holdCause 1 5 (holdCause 0 5 (raise0 .pwr 2 (raise0 .thm 2 (logIsland 0x06 i s))))
  let s2 := islandDown i 4 s1
  { s2 with modes := { s2.modes with latched := i :: s2.modes.latched.filter (· != i) } }.wr R.PWR_MODE_C_LOCKOUT [] 1

/-- Limits of an island at a publication (R415, R416): PI01, PI03 and PI04 are latched, the others shed. -/
def limitRound (i : Nat) (s : State) : State :=
  let latches := i == 1 || i == 3 || i == 4
  let lim : Int := if latches then 29440 else 28160
  let all := s.flag R.THM_ISL_ALLBROKEN [i]
  let h0 := cellGet (fun _ => 0) s.therm.hot i
  let d0 := cellGet (fun _ => 0) s.therm.dead i
  let h := if !all && decide (lim ≤ s.rdS R.THM_ISL_HOT [i]) then min 2 (h0 + 1) else 0
  let d := if all then min 2 (d0 + 1) else 0
  let s1 := { s with therm := { s.therm with hot := cellSet (fun _ => 0) s.therm.hot i h,
                                             dead := cellSet (fun _ => 0) s.therm.dead i d } }
  if ¬(h0 < 2 ∧ h = 2) ∧ ¬(d0 < 2 ∧ d = 2) then s1
  else if latches then (if s1.modes.latched.contains i then s1 else latchIsland i s1)
  else if islState s1 i = 3 then s1
  else shedIsland i s1

/-- Automatic restart of a shed island (R418, R419). -/
def autoRestart (i : Nat) (s : State) : State :=
  if islState s i = 3 ∧ (s.flag R.PWR_ISL_AUTO [i] ∨ i = 2 ∨ i = 5) ∧ !s.flag R.PWR_ISL_AUTO_SUSP [i] ∧ mayRestart i s then
    beginRestart i s
  else s

/-- Thermal record of a sensor (R359, R360). -/
def thermRecord (x : Nat) (s : State) : State :=
  let w := readN s (0x4102000 + 4 * x)
  gather (37888 + x) 3 (s.rd R.EGS_SRCCFG_THM_DSH []) ([x, bitsN w 30 2 * 64] ++ beBytes 2 (w % 2 ^ 16)) s

/-- THERMAL_ROUND_PUBLISH (R409 to R419): the 256 counts are converted and published together; then temperatures, bands, WARN, limits,
restarts and records. -/
def execThermalRoundPublish (counts : List Nat) (s : State) : Host.Outcome State Fault Refusal :=
  .next (
    let s1 := (span 0 256).foldl (fun t x => sensorRound s (pinReadings s counts) x t) (s.inc R.THM_ROUND [])
    let s2 := (span 0 30).foldl (fun t i => islandRound i t) s1
    let s3 := (span 0 30).foldl (fun t i => limitRound i t) s2
    let s4 := runPhases ((span 0 30).foldl (fun t i => autoRestart i t) s3)
    modeTick ((span 0 256).foldl (fun t x => thermRecord x t) s4))

/-! Precision converter (R420 to R423). -/

/-- The converter runs: RUN set and PI00 not suspended. -/
def pcvRuns (s : State) : Bool := s.flag R.PCV_CTRL_RUN [] && decide (islState s 0 ≤ 1)

/-- Corrected result of a channel (R422). -/
def pcvCorrect (s : State) (ch : Nat) (raw : Int) : Int :=
  satS 24 (sra ((satS 24 raw - s.rdS R.PCV_CHCAL_OFS [ch]) * (s.rd R.PCV_CHCAL_GAIN [ch] : Nat) + 2097152) 22)

/-- Reserved channels read 0 with VALID = 0. -/
def pcvReserved (ch : Nat) : Bool := ch == 11 || ch == 14 || ch == 15 || (decide (48 ≤ ch) && decide (ch ≤ 55))

/-- PCV record of an entry (R359, R360). -/
def pcvRecord (e : Nat) (s : State) : State :=
  let w := readN s (0x4200300 + 4 * e)
  gather (38144 + e) 4 (s.rd R.EGS_SRCCFG_PCV_DSH []) ([e, bitsN w 30 2 * 64, 0, 0] ++ beBytes 4 (ofS 32 (toS 24 w))) s

/-- The CAL asks for conversions of its entries: during a run, a B3 step, or the watch of DARK (R23, R421). -/
def crpdWanted (s : State) : Bool :=
  s.rd R.CAL_RUN_PHASE [] != 0 || modeOf s == mDark || (s.flag R.CAL_BGCFG_EN [] && s.flag R.CAL_BGCFG_SRC_EN [])

/-- The responsivity of a CRPD at the wavelength that the image states (R251, R252). -/
def crpdResp (s : State) (p : Nat) : Nat :=
  let w := (s.image.map (·.calWave)).getD 0
  ((s.otp.crpdResp.find? fun r => r.1 == p && r.2.1 == w).map (·.2.2)).getD 0

/-- A CRPD reading (R253, R421): shown in `CAL.SRC`, VALID in a run or a B3 step; during a run one below −12 dBm or unsettled ends it. -/
def crpdReading (p : Nat) (c : Int) (unsettled : Bool) (s : State) : State :=
  let pw := Config.crpdPower p (crpdResp s p) c
  let s1 := (s.wr R.CAL_SRC_VALID [p] (b2n (modeOf s != mDark))).wrS R.CAL_SRC_PWR [p] pw
  if s1.rd R.CAL_RUN_PHASE [] ≠ 0 ∧ (pw < -1200 ∨ unsettled) then stopRun 2 (raise0 .cal 0 s1) else s1

/-! Set-point inputs (R151, R152). -/

/-- round(num / den), halves upward. -/
def roundQ (num den : Int) : Int := (2 * num + den) / (2 * den)

/-- A PWM measurement: `a` high time, `b` period in 10 ns; valid or not, and its value (R151). -/
def setptPwm (a b : Nat) : Option Nat :=
  if b < 10000 ∨ 1000000 < b ∨ a * 100 < b * 5 ∨ b * 95 < a * 100 then none
  else some (clampN 65535 (roundQ ((10 * (a : Int) - b) * 65535) (8 * b)))

/-- A PFM measurement: `a` edges, `b` time from the first to the last rising edge in 10 ns, limits in kHz. -/
def setptPfm (lo hi a b : Nat) : Option Nat :=
  let f := (a - 1) * 100000
  if a < 2 ∨ b = 0 ∨ 2 * f < lo * b ∨ 2 * hi * b < f ∨ hi ≤ lo then none
  else some (clampN 65535 (roundQ (((f : Int) - (lo * b : Nat)) * 65535) ((b * (hi - lo) : Nat) : Int)))

/-- An ANALOG measurement: the corrected result against REFX of 2.5 V (R420), so that the input is 2.5 V × c / 2²³. -/
def setptAnalog (c : Int) : Option Nat :=
  let v := 20 * c
  if v < 8388608 ∨ 19 * 8388608 < v then none
  else some (clampN 65535 (roundQ ((10 * c - 8388608) * 65535) (8 * 8388608)))

/-- A conversion of channel 56 + k is the measurement of set-point input k in mode ANALOG; a result with VALID = 0, OVR or
REF_UNSETTLED is an invalid one (R151, R422). -/
def setptConversion (ch : Nat) (ok : Bool) (c : Int) (s : State) : State :=
  let k := ch - 56
  if 56 ≤ ch ∧ setptRuns s k ∧ s.rd R.PORT_SETPT_MODE [k] = 3 then setptTake k (if ok then setptAnalog c else none) s else s

/-! Conversions. -/

/-- Channel and rate of an entry as one number. -/
def convOf (s : State) (entry : Nat) : Nat := s.rd R.PCV_SEQ_CH [entry] * 8 + s.rd R.PCV_SEQ_RATE [entry] + 1

/-- A conversion that ends now began before REF_OK (R423): it takes one period of its rate, or five where channel or rate differ from
the previous one (R421). -/
def unsettled (s : State) (entry : Nat) : Bool :=
  let per := 1000000 / 2 ^ s.rd R.PCV_SEQ_RATE [entry]
  !s.flag R.PCV_CTRL_REF_OK [] ||
    decide (s.time - (if s.therm.conv = convOf s entry then per else 5 * per) < s.therm.refAt)

/-- One entry's conversion: `raw` is the rounded ratio before clamping. -/
def pcvConvert (entry : Nat) (raw : Int) (s : State) : State :=
  let ch := s.rd R.PCV_SEQ_CH [entry]
  let res := pcvReserved ch
  let ovr := !res && decide (satS 24 raw ≠ raw)
  let uns := unsettled s entry
  let c := if res then 0 else pcvCorrect s ch raw
  let valid := !res && !s.therm.refxBad
  let w := b2n valid * 2 ^ 31 + b2n uns * 2 ^ 30 + b2n ovr * 2 ^ 29 + (s.rd R.PCV_RESULT_CNT [entry] + 1) % 32 * 2 ^ 24 +
    ofS 24 c
  let s1 := wrWord { s with therm := { s.therm with conv := convOf s entry } } (0x4200300 + 4 * entry) w
  let s2 := if ovr then raise0 .pcv 0 s1 else s1
  let s3 := if uns then raise0 .pcv 2 s2 else s2
  let s4 := setptConversion ch (valid && !ovr && !uns) c (pcvRecord entry s3)
  if 30 ≤ entry then crpdReading (entry - 30) c uns s4 else s4

/-- The sequencer converts an entry: it runs, and the entry is enabled, or the CAL asks for its own (R421). -/
def pcvTurn (s : State) (entry : Nat) : Bool :=
  pcvRuns s && (if entry < 30 then s.flag R.PCV_SEQ_EN [entry] else decide (entry < 32) && crpdWanted s)

/-- PCV_CONVERSION (R420 to R423): `raw` is the rounded ratio before clamping. -/
def execPcvConversion (entry : Nat) (raw : Int) (s : State) : Host.Outcome State Fault Refusal :=
  .next (if pcvTurn s entry then pcvConvert entry raw s else s)

/-- The sequence entry of a channel. -/
def seqEntry (s : State) (ch : Nat) : Option Nat :=
  (span 0 30).find? fun e => s.flag R.PCV_SEQ_EN [e] && s.rd R.PCV_SEQ_CH [e] == ch

/-- SETPT_MEASUREMENT (R151, R152): one period, one gate, or the conversion of the input's own entry with raw result `a`. -/
def execSetptMeasurement (input a b : Nat) (s : State) : Host.Outcome State Fault Refusal :=
  .next (
    if !setptRuns s input then s
    else match s.rd R.PORT_SETPT_MODE [input] with
    | 1 => setptTake input (setptPwm a b) s
    | 2 => setptTake input (setptPfm (s.rd R.PORT_SETPT_FLO [input]) (s.rd R.PORT_SETPT_FHI [input]) a b) s
    | _ =>
      match seqEntry s (56 + input) with
      | some e => if pcvTurn s e then pcvConvert e (a : Int) s else s
      | none => s)

/-- SETPT_LOS_TIMEOUT (R152): LOST ms without any measurement; the run of valid measurements starts afresh. -/
def execSetptLosTimeout (input : Nat) (s : State) : Host.Outcome State Fault Refusal :=
  .next (
    if setptRuns s input then
      let c := setptGet s input
      setptShow input (setptLos input true (setptPut s input (c.1, 0, c.2.2)))
    else s)

/-- REFX in µV from a corrected result against the 1.2 V bandgap behind the divider of 4: 4,800,000 × c / 2²³, which lies between two whole
numbers as the free rounding has it (log entry 16). -/
def refxUv (c : Int) : Nat :=
  (c * 4800000 / 8388608).toNat + b2n (c * 4800000 % 8388608 != 0 && Config.refxUp c)

/-- REFX_CHECK (R421): outside 2.500 V ± 1 % every result is invalid until a check passes. -/
def execRefxCheck (raw : Int) (s : State) : Host.Outcome State Fault Refusal :=
  .next (
    if !pcvRuns s then s
    else
      let c := pcvCorrect s 6 raw
      let ok := decide (2475000 * 8388608 ≤ c * 4800000) && decide (c * 4800000 ≤ 2525000 * 8388608)
      let s1 := (s.wr R.PCV_REFX_VALID [] 1).wr R.PCV_REFX_UV [] (refxUv c)
      let s2 := { s1 with therm := { s1.therm with refxBad := !ok, conv := 53 } }
      if ok then s2 else raise0 .pcv 1 s2)

/-- REF_OK_SET (R423): 5 ms after REFBUF_EN was set. -/
def execRefOkSet (s : State) : Host.Outcome State Fault Refusal :=
  .next (
    if s.flag R.PCV_CTRL_REFBUF_EN [] then { s.wr R.PCV_CTRL_REF_OK [] 1 with therm := { s.therm with refAt := s.time } } else s)

end Sys2Proof.Machine
end

