-- ==== Sys2Proof/Machine/Checks.lean ====
section
/-! DEFINITION. Value ranges of single registers that both the loader (R392) and a KCP WRITE (R371) hold a new value to. -/

namespace Sys2Proof.Machine

/-- A field lies under a mask. -/
def hits (F : Fld) (mask : Nat) : Bool := Nat.land F.mask mask != 0

/-- A field of a word lies within bounds where the mask names it. -/
def within (F : Fld) (mask w lo hi : Nat) : Bool :=
  !hits F mask || (decide (lo ≤ bitsN w F.lo F.width) && decide (bitsN w F.lo F.width ≤ hi))

/-- `EDA.SLEW` (R58, R87). -/
def slewOk (s : State) (k mask w : Nat) : Bool :=
  within R.EDA_SLEW_RSTEP mask w 1 65535 && within R.EDA_SLEW_HSTEP mask w 1 7386 &&
    (!hits R.EDA_SLEW_HSTEP mask ||
      (decide (54614 + w % 2 ^ 16 ≤ s.rd R.EDA_RANGE_THR_UP [k]) && decide (s.rd R.EDA_RANGE_THR_DN [k] + w % 2 ^ 16 ≤ 65535)))

/-- A LOS register (R106). -/
def losOk (mask w : Nat) : Bool :=
  within R.PORT_LOS_IN_ASSERT_N mask w 1 15 && within R.PORT_LOS_IN_CLEAR_N mask w 1 255 &&
    (!(hits R.PORT_LOS_IN_SET mask || hits R.PORT_LOS_IN_CLR mask) || decide (w % 256 + 4 ≤ w / 256 % 256))

/-- A word of `PORT.SETPT` (R154). -/
def setptOk (o mask w : Nat) : Bool :=
  if o = 0 then within R.PORT_SETPT_LOST mask w 1 255 && within R.PORT_SETPT_LOSN mask w 1 15 && within R.PORT_SETPT_CLRN mask w 1 255
  else if o = 4 then within R.PORT_SETPT_PHI mask w 0 5500 && within R.PORT_SETPT_PLO mask w 0 5500
  else if o = 8 then
    within R.PORT_SETPT_FHI mask w 1 200 && within R.PORT_SETPT_FLO mask w 1 200 &&
      (!(hits R.PORT_SETPT_FHI mask || hits R.PORT_SETPT_FLO mask) || decide (w % 256 < w / 256 % 256))
  else true

/-- `EGS.QCFG` (R361). -/
def queueOk (o mask w : Nat) : Bool :=
  if o = 0 then
    !(hits R.EGS_QCFG_RATE mask || hits R.EGS_QCFG_SHAPE mask) || !(decide (w % 2 ^ 24 = 0) && bitN w 25)
  else within R.EGS_QCFG_BURST mask w 1 16384

/-- `EGS.SAMP` (R361). -/
def sampOk (o mask w : Nat) : Bool :=
  if o = 0 then !(hits R.EGS_SAMP_FIRST mask || hits R.EGS_SAMP_LAST mask) || decide (w / 2 ^ 16 ≤ w % 2 ^ 16)
  else within R.EGS_SAMP_PERIOD mask w 1 32767 && within R.EGS_SAMP_TQ mask w 38176 65519

/-- Four bytes of a word, each under the mask at least `lo` and at most `hi`. -/
def bytesOk (mask w lo hi : Nat) : Bool :=
  (span 0 4).all fun i => decide (bitsN mask (8 * i) 8 = 0) || (decide (lo ≤ bitsN w (8 * i) 8) && decide (bitsN w (8 * i) 8 ≤ hi))

end Sys2Proof.Machine
end

