-- ==== Sys2Proof/Machine/Verify.lean ====
section
/-! DEFINITION. Verification of an image (17_boot_images_and_security R392): its items, and the load-time checks that the
manual lays down elsewhere, there or as what Pelon refuses (R27, R28, R58, R65, R66, R68, R106, R118, R119, R149 to R151, R154, R160,
R164, R181, R186, R235, R239, R246, R314, R321, R358, R424). -/

namespace Sys2Proof.Machine

/-! Overlay-eligible fields (R28). -/

/-- Address ranges of the overlay-eligible fields, each with the bits that are eligible: EDA.SLEW and HO_TIME (R87), the
ESA.TAPCFG and PORT.LOS registers (R103), CE.RATECFG, SUPV, CSBAND and RCCTL (R141), PORT.SETPT words 0 to 2 (R154), RS.CTRL
(R206), CAL.BGCFG, BGINT and RECCFG (R277), RATE, BURST, SHAPE and EN of EGS.QCFG, EGS.SRCCFG and EGS.SAMP (R361), JNL.CFG.IDLE_T
and EXP_EN (R387), THM.SCRUBINT (R425), SNP.CTRL and FCLASS (R437). -/
def eligibleBits (a : Nat) : Nat :=
  if 0x2000000 ≤ a ∧ a < 0x3000000 ∧ (a % 0x100000 = 0x100 ∨ a % 0x100000 = 0x104) then 0xFFFFFFFF
  else if a = 0x3000100 then 0x3
  else if 0x3801000 ≤ a ∧ a < 0x3802000 then 0xF8FFFFFF
  else if a = 0x800100 then 0x333
  else if a = 0x800104 then 0x70F
  else if a = 0x800108 then 0x3F
  else if a = 0x800130 then 0x3
  else if 0x3803000 ≤ a ∧ a < 0x3803080 then
    (if a % 16 = 0 then 0xF8FFF0FF else if a % 16 = 4 ∨ a % 16 = 8 then 0xFFFFFFFF else 0)
  else if a = 0x700100 then 0x800000FF
  else if a = 0x4000110 then 0xC0000000
  else if a = 0x4000114 then 0xFFFFFFFF
  else if a = 0x4000118 then 0xFF
  else if 0x680000 ≤ a ∧ a < 0x6FFF80 then (if a % 8 = 0 then 0x82FFFFFF else 0xFFFE0000)
  else if a = 0x600100 then 0xFFFF
  else if 0x631000 ≤ a ∧ a < 0x631080 then 0xFFFFFFFF
  else if a = 0x300130 then 0x8FFF0000
  else if a = 0x4100100 then 0xFFFFFFFF
  else if a = 0x4500100 then 0x3F00FFFF
  else if a = 0x4500104 then 0x3FFFF
  else 0

/-- A power of two from 1 to 1,024. -/
def pow2Ok (n : Nat) : Bool := (span 0 11).any fun i => n == 2 ^ i

/-- Overlays: slots 0 and 1 empty (R27), only eligible fields named (R28). -/
def overlaysOk (im : Image) : Bool :=
  im.overlays.all fun o => (decide (2 ≤ o.1) || o.2.isEmpty) &&
    o.2.all fun f => Nat.land f.2.1 (eligibleBits f.1) == f.2.1

/-! Checks of the base configuration. -/

/-- Words of an image's BASE and PLAN sections at every address that they reach (R65, R87). -/
def imageWords (im : Image) : List (Nat × Nat) :=
  ((im.base ++ im.plan).map fun w => (mirrored w.1).map fun a => (a, w.2)).flatten

/-- A state whose registers hold an image's base and plan words and its safety parameter block. -/
def imageRegs (im : Image) : State :=
  im.safety.foldl (fun t w => mergeWord (fieldMask w.1) w.1 w.2 t)
    ((imageWords im).foldl (fun t w => mergeWord (loadMask w.1) w.1 w.2 t) State.reset)

/-- Instances of an array that the image writes: base address, stride, count. -/
def listed (im : Image) (base stride count : Nat) : List Nat :=
  (im.base.filter fun w => decide (base ≤ w.1) && decide (w.1 < base + stride * count)).map fun w => (w.1 - base) / stride

/-- Range thresholds and slew step (R58) of every bank. -/
def rangeOk (s : State) : Bool :=
  (span 0 16).all fun k =>
    let up := s.rd R.EDA_RANGE_THR_UP [k]
    let dn := s.rd R.EDA_RANGE_THR_DN [k]
    let st := s.rd R.EDA_SLEW_HSTEP [k]
    decide (54614 + st ≤ up) && decide (dn + st ≤ 65535) && decide (dn + 1024 ≤ up)

/-- Every overlay keeps the conditions of R58. -/
def overlaySteps (im : Image) (s : State) : Bool :=
  im.overlays.all fun o => rangeOk (o.2.foldl (fun t f => putMasked f.1 f.2.1 f.2.2 t) s)

/-- Every element the image configures has a KSCALE of at least 0x40 (R66). -/
def scalesOk (im : Image) (s : State) : Bool :=
  (span 0 16).all fun k => (listed im (0x2020000 + 0x100000 * k) 4 2176).all fun i => decide (0x40 ≤ s.rd R.EDA_ECFG_KSCALE [k, i])

/-- Feed-forward neighbours are elements (R160). -/
def neighboursOk (im : Image) (s : State) : Bool :=
  (listed im 0x900000 16 34816).all fun n =>
    [s.rd R.CE_FFTAB_NB0 [n], s.rd R.CE_FFTAB_NB1 [n], s.rd R.CE_FFTAB_NB2 [n], s.rd R.CE_FFTAB_NB3 [n]].all fun x =>
      decide (x < 34816) || x == 0xFFFF

/-- Sum of the samples of a kick-table entry. -/
def kickSum (s : State) (k j : Nat) : Nat :=
  ((span 0 32).map fun m => s.rd R.EDA_KTAB_SAMPLE_E [k, j, m] + s.rd R.EDA_KTAB_SAMPLE_O [k, j, m]).sum

/-- Kick tables (R68): CHARGE is recomputed and HOLD0 is at most 102. -/
def kicksOk (im : Image) (s : State) : Bool :=
  (span 0 16).all fun k => (listed im (0x2010000 + 0x100000 * k) 0x100 64).all fun j =>
    s.rd R.EDA_KTAB_CHARGE [k, j] == kickSum s k j && decide (s.rd R.EDA_KTAB_HOLD0 [k, j] ≤ 102)

/-- Loop entries (R118); state code 3 is no state (R45). -/
def entriesOk (im : Image) (s : State) : Bool :=
  (listed im 0x1000000 64 35840).all fun n =>
    let dith := s.flag R.LT_LOOP_DITH_EN [n]
    decide (s.rd R.LT_LOOP_LAW [n] ≠ 3) && decide (s.rd R.LT_LOOP_TSTATE [n] ≠ 3) && (s.rd R.LT_LOOP_NBQ [n] == 0 || s.rd R.LT_LOOP_LAW [n] == 2) &&
      !(dith && isVoa n) && (!dith || popc (s.rd R.LT_LOOP_DSEQ [n]) == 4) &&
      (isVoa n || s.rd R.LT_LOOP_TARGET [n] / 65536 == 0)

/-- Coefficient sets (R119, R164): RGOUT = round(2³² / GOUT), GOUT at least 2, and the ranges of the supervision words. -/
def csetsOk (im : Image) (s : State) : Bool :=
  (listed im 0x810000 128 256).all fun j =>
    let g := s.rd R.CE_CSET_GOUT [j]
    decide (2 ≤ g) && s.rd R.CE_CSET_RGOUT [j] == (2 ^ 33 + g) / (2 * g) && decide (4 ≤ s.rd R.CE_CSET_FSH [j]) &&
      decide (s.rd R.CE_CSET_PLREL [j] < s.rd R.CE_CSET_PLTRIP [j]) && decide (s.rd R.CE_CSET_PLTRIP [j] ≤ 126) &&
      decide (0 < s.rd R.CE_CSET_PLUP [j])

/-- VOA entries (R149): every one of the 1,024 is checked. -/
def voasOk (s : State) : Bool :=
  (span 34816 1024).all fun n => decide (s.rd R.LT_VOA_EQV [n] ≤ 5500) && decide (4 ≤ s.rd R.LT_VOA_RSH [n]) &&
    decide (s.rd R.LT_VOA_EQSRC [n] ≠ 3)

/-- Enabled windows of a domain in index order, as (offset, length, class). -/
def windowsOf (s : State) (d : Nat) : List (Nat × Nat × Nat) :=
  ((span 0 32).filter fun w => s.flag R.TBU_DOM_GW_EN [d, w]).map fun w =>
    (s.rd R.TBU_DOM_GW_OFS [d, w], s.rd R.TBU_DOM_GW_LEN [d, w], s.rd R.TBU_DOM_GW_CLASS [d, w])

/-- Windows lie in ascending order, none begins before `lo`, none overlaps, each ends within the period (R181). -/
def windowsOk (per : Nat) : Nat → List (Nat × Nat × Nat) → Bool
  | _, [] => true
  | lo, (ofs, len, cl) :: t =>
    decide (lo ≤ ofs) && decide (ofs + len ≤ per) && decide (cl ≤ 2) && (cl == 1 || decide (1100 ≤ len)) &&
      windowsOk per (ofs + len) t

/-- Domains (R181, R186). -/
def domainsOk (s : State) : Bool :=
  let on := (span 0 8).filter fun d => s.flag R.TBU_DOM_CFG_EN [d]
  ((span 0 8).all fun d => windowsOk (patOf s d) 0 (windowsOf s d)) &&
    (on.all fun d =>
      let p := s.rd R.TBU_DOM_CFG_PTPDOM [d]
      decide (24 ≤ p) && decide (p ≤ 43) && !(on.any fun e => e != d && s.rd R.TBU_DOM_CFG_PTPDOM [e] == p)) &&
    (span 0 8).all fun d => decide (10 ≤ s.rd R.TBU_DOM_CFG_LOCK_THR [d]) && decide (s.rd R.TBU_DOM_CFG_LOCK_THR [d] ≤ 200) &&
      (decide (d < 2) || s.rd R.TBU_DOM_PPSCFG_PPSMODE [d] == 0)

/-- Some output port has SLP enabled. -/
def anySlp (s : State) : Bool := (span 0 512).any fun n => s.flag R.SAF_SLPCFG_EN [n]

/-- With SLP in use neither the base nor an overlay runs VOAs below 125 kS/s (R314). -/
def slpRateOk (im : Image) (s : State) : Bool :=
  !anySlp s || (decide (s.rd R.CE_RATECFG_VOA [] ≠ 3) &&
    im.overlays.all fun o => decide ((o.2.foldl (fun t f => putMasked f.1 f.2.1 f.2.2 t) s).rd R.CE_RATECFG_VOA [] ≠ 3))

/-- The `PORT.LOS`, `PORT.SETPT` and `EGS.SAMP` words that the base or an overlay names keep their ranges (R106, R154, R358). -/
def portWordsOk (l : List (Nat × Nat)) (s : State) : Bool :=
  l.all fun f =>
    let a := f.1
    let w := readN s a
    if 0x3801000 ≤ a ∧ a < 0x3802000 then losOk f.2 w
    else if 0x3803000 ≤ a ∧ a < 0x3803080 then setptOk (a % 16) f.2 w
    else if 0x631000 ≤ a ∧ a < 0x631080 ∧ a % 8 = 4 then within R.EGS_SAMP_TQ f.2 w 38176 65519
    else true

/-- These words in the base and in every overlay. -/
def portsOk (im : Image) (s : State) : Bool :=
  portWordsOk (im.base.map fun w => (w.1, 0xFFFFFFFF)) s &&
    im.overlays.all fun o => portWordsOk (o.2.map fun f => (f.1, f.2.1)) (o.2.foldl (fun t f => putMasked f.1 f.2.1 f.2.2 t) s)

/-- Wave limits of a bank are at most their maxima (03 `EDA.VPIN_CFG`). -/
def waveLimitsOk (s : State) : Bool :=
  (span 0 16).all fun k => decide (s.rd R.EDA_VPIN_CFG_HMAX [k] ≤ 180) && decide (s.rd R.EDA_VPIN_CFG_QMAX [k] ≤ 500)

/-- The cap of every class that an SLP-enabled port uses lies 1.0 dB or more below the port's limit (R150): cap ≤ 10^(7 + (PLIM - 4) / 40)
in 10 pW units. -/
def capsOk (s : State) : Bool :=
  (span 0 512).all fun n => !s.flag R.SAF_SLPCFG_EN [n] ||
    [34816 + n, 35328 + n].all fun v =>
      decide (s.rd R.PORT_SLPCAP [s.rd R.LT_VOA_SLPCLS [v]] ^ 40 * 10 ^ 4 ≤ 10 ^ (280 + s.rd R.SAF_SLPCFG_PLIM [n]))

/-- Enabled entries of the PCV sequence in order. -/
def seqEntries (s : State) : List Nat := (span 0 30).filter fun e => s.flag R.PCV_SEQ_EN [e]

/-- Time of one sequence in 62.5 µs: five periods of an entry's rate where its channel or rate differs from the one before it, else one
(R421). -/
def seqTime (s : State) : Nat :=
  let l := seqEntries s
  let one (e p : Nat) : Nat :=
    (if s.rd R.PCV_SEQ_CH [e] = s.rd R.PCV_SEQ_CH [p] ∧ s.rd R.PCV_SEQ_RATE [e] = s.rd R.PCV_SEQ_RATE [p] then 1 else 5) *
      (16 / 2 ^ s.rd R.PCV_SEQ_RATE [e])
  ((l.zip (l.drop (l.length - 1) ++ l)).map fun x => one x.1 x.2).sum

/-- The PCV sequence: no refused rate, and every analogue set-point is converted within its timeout, the CAL entries and a REFX check
counted (R151, R424). -/
def seqOk (s : State) : Bool :=
  ((span 0 30).all fun e => decide (s.rd R.PCV_SEQ_RATE [e] ≤ 4)) &&
    (span 0 8).all fun k => decide (s.rd R.PORT_SETPT_MODE [k] ≠ 3) ||
      ((seqEntries s).any (fun e => s.rd R.PCV_SEQ_CH [e] == 56 + k) && decide (seqTime s + 15 ≤ 16 * s.rd R.PORT_SETPT_LOST [k]))

/-- Gate lists have a cycle code that is not refused (15 `EGS.GCTL`). -/
def gatesOk (s : State) : Bool := (span 0 2).all fun p => decide (s.rd R.EGS_GCTL_CYC [p] ≤ 4)

/-- TIME and AFPOS rules (R239): the instant lies in the rule's domain, AFMOD is a power of two, and a map is fired at least 50 µs and
its solve maximum ahead, which R212 puts at 400 µs for every map. -/
def rulesOk (s : State) : Bool :=
  (span 0 64).all fun r =>
    let tt := s.rd R.PLAN_RULE_TTYPE [r]
    (tt != 4 && tt != 5) || (s.rd R.PLAN_RULE_INSTANT [r, 1] / 2 ^ 29 == s.rd R.PLAN_RULE_DOMAIN [r] &&
      pow2Ok (s.rd R.PLAN_RULE_AFMOD [r]) && (s.rd R.PLAN_RULE_ACTION [r] != 0 || decide (450 ≤ s.rd R.PLAN_RULE_LEAD [r])))

/-- Schedules of the image (R246). -/
def schedsOk (im : Image) (s : State) : Bool :=
  (span 0 8).all fun k =>
    !(im.plan.any fun w => decide (0x4403000 + 0x80 * k ≤ w.1) && decide (w.1 < 0x4403000 + 0x80 * (k + 1))) ||
      (let d := s.rd R.PLAN_SCHED_DOMAIN [k]
       let w := s.rd R.PLAN_SCHED_WIDX [k]
       s.flag R.TBU_DOM_GW_EN [d, w] && decide (s.rd R.TBU_DOM_GW_CLASS [d, w] ≠ 1) && pow2Ok (s.rd R.PLAN_SCHED_ALIGN [k]) &&
         (span 0 (s.rd R.PLAN_SCHED_NSTEPS [k] + 1)).all fun i =>
           im.maps.all fun m => m.1 != s.rd R.PLAN_SCHED_MAP [k, i] || m.2.partialMap)

/-- A guard that a maintenance grant bypasses has FN = SOS and names only connectors whose ports are all restricted (R321). -/
def bypassOk (s : State) : Bool :=
  (span 0 8).all fun x => !s.flag R.SAF_GIMAP_MBYP [x] || (!s.flag R.SAF_GIMAP_FN [x] &&
    (span 0 512).all fun n => !bitN (s.rd R.SAF_GIMAP_OCONN [x]) (n / 32) || s.flag R.SAF_SLPCFG_RESTR [n])

/-- Stored maps (R188, R209, R235). -/
def mapsOk (im : Image) : Bool :=
  im.maps.all fun m => decide (m.1 < 64) && decide (1 ≤ m.2.descs.length) && decide (m.2.descs.length ≤ 512) &&
    (m.2.descs.all fun d => !dBad d && (dValid d || (m.2.partialMap && decide (d < 512)))) &&
    decide (m.2.descs.map dOut).Nodup && decide ((m.2.descs.filter dValid).map dIn).Nodup

/-- Every load-time check on the content (R392 item 6). -/
def contentOk (im : Image) : Bool :=
  let s := imageRegs im
  overlaysOk im && mapsOk im && rangeOk s && overlaySteps im s && scalesOk im s && neighboursOk im s && kicksOk im s && entriesOk im s && csetsOk im s && domainsOk s && voasOk s && slpRateOk im s &&
    bypassOk s && portsOk im s && waveLimitsOk s && capsOk s && seqOk s && gatesOk s && rulesOk s && schedsOk im s

/-- An image fails an item of R392: what only the outside can tell (section table, hashes, signatures) is `failItem`; the rest
is checked against the one-time programmable memory and the content. -/
def failsItem (o : Otp) (im : Image) (k : Nat) : Bool :=
  im.failItem == k ||
    (match k with
      | 1 => decide (62914560 < im.total)
      | 2 => !bitN o.uikProg im.uikSlot || bitN o.uikRev im.uikSlot || decide (4 ≤ im.uikSlot)
      | 3 => decide (im.svn < o.imgSvn)
      | 5 => decide (im.fwSvn < o.fwSvn)
      | 6 => !contentOk im
      | _ => false)

/-- The first item that fails, 0 when the image verifies (R392). -/
def verifyImage (o : Otp) (im : Image) : Nat := ((span 1 6).find? (failsItem o im)).getD 0

end Sys2Proof.Machine
end

