-- ==== Sys2Proof/Machine/Boot.lean ====
section
/-! DEFINITION. RESET, LOAD, DARK and calibration runs (01_architecture_and_modes, 11_calibration R251 to R262,
17_boot_images_and_security). -/

namespace Sys2Proof.Machine

/-! RESET (R19, R20, R33, R467). -/

/-- Words that no reset clears: the thermal log (R417); a PWR internal reset also keeps the latched MID (R444). -/
def keptWord (porst : Bool) (a : Nat) : Bool :=
  a == 0x4100108 || (decide (0x4110000 ≤ a) && decide (a < 0x4118000)) || (!porst && a == 0x108)

/-- A channel after reset: the contacts keep their levels, and a latch that survives is held again (R318, R416). -/
def resetChan (latched : List Nat) (v : Chan) : Chan :=
  let pins (g : Guard) : Guard := { Guard.open with pinA := g.pinA, pinB := g.pinB }
  let l := (v.guards.map fun g => (g.1, pins g.2)).filter fun g => decide (g.2 ≠ Guard.open)
  { Chan.reset with guards := l, locks := if latched.any fun i => i == 1 || i == 3 || i == 4 then 32 else 0 }

/-- Entry to RESET with its cause (R19, R33). Journal, one-time programmable memory, flash and the thermal log survive; a slot
being written is INVALID (R399); a latch survives a PWR internal reset (R416). -/
def enterReset (porst supplies : Bool) (s : State) : State :=
  let fl := (abandonUpdate s).flash
  let hist := (saveHist s).jnl.hist
  let cause := if porst then 1 else 2
  let latched := if porst then [] else s.modes.latched
  let new := { State.reset with
    regs := s.regs.filter fun c => keptWord porst c.1
    jnl := { State.reset.jnl with
      copyA := s.jnl.copyA, copyB := s.jnl.copyB, hist := hist, last := s.jnl.last, aseq := s.jnl.aseq, recovering := true }
    modes := { ModeSt.reset with
      resetCause := cause, supplies := supplies, latched := latched, porst := porst,
      resetFrom := if modeOf s = mReset then s.modes.resetFrom else modeOf s
      downAt := if modeOf s = mReset then s.modes.downAt else s.time }
    chA := resetChan latched s.chA
    chB := resetChan latched s.chB
    otp := s.otp
    flash := fl
    pending := s.pending }
  let n := s.rd R.GLB_BOOT [] + if modeOf s = mReset then 0 else 1
  let s1 := (new.wr R.GLB_BOOT [] n).wr R.PWR_MODE_CAUSE [] cause
  let s2 := latched.foldl (fun t i => t.wr R.PWR_ISL_STATE [i] 4) s1
  let s3 := if latched.isEmpty then s2 else s2.wr R.PWR_MODE_C_LOCKOUT [] 1
  if bitN s.modes.clr 3 then clrSet 3 s3 else s3

/-- PORST_N_ASSERT (R19, R72): RESET at once. -/
def execPorstNAssert (s : State) : Host.Outcome State Fault Refusal :=
  .next (if s.modes.porst && decide (modeOf s = mReset) then s else enterReset true true s)

/-! Loading (R397, R398). -/

/-- Hardware shows words: reserved bits take no value (R5). -/
def showWords (l : List (Nat × Nat)) (s : State) : State := l.foldl (fun t w => mergeWord (fieldMask w.1) w.1 w.2 t) s

/-- The loader writes words of an image: it sets RW, RWC and RWR fields and no others (R5, R6). -/
def loadWords (l : List (Nat × Nat)) (s : State) : State := l.foldl (fun t w => mergeWord (loadMask w.1) w.1 w.2 t) s

/-- 32-bit words of a byte list that lies in the register space: the byte at the lowest address in bits 7:0 (R4). -/
def wordsOf : Nat → List Nat → List Nat
  | 0, _ => []
  | n + 1, l => ofLe (l.take 4) :: wordsOf n (l.drop 4)

/-- The working base (R29) with the words of an image in it. -/
def baseWith (l : List (Nat × Nat)) (c : Cells Word) : Cells Word :=
  l.foldl (fun c w => cellSet resetWord c w.1
    (maskIn (cellGet resetWord c w.1) (BitVec.ofNat 32 (loadMask w.1)) (BitVec.ofNat 32 w.2))) c

/-- What the OTP holds is shown: identity, keys, counters, addresses, losses, converter calibration (R393, R422). -/
def showOtp (s : State) : State :=
  let o := s.otp
  let ids := (span 0 4).map fun i => (0x200110 + 4 * i, o.devid / 2 ^ (32 * i) % 2 ^ 32)
  let keys := o.bfkRev % 4 * 2 ^ 30 + o.uikRev % 16 * 2 ^ 12 + o.uikProg % 16 * 2 ^ 8 + b2n o.jtagLock
  let macs := [(0x500110, o.macA % 2 ^ 32), (0x500114, o.macA / 2 ^ 32 % 2 ^ 16), (0x508110, o.macB % 2 ^ 32),
    (0x508114, o.macB / 2 ^ 32 % 2 ^ 16)]
  let cert := ((wordsOf ((o.cert.length + 3) / 4) o.cert).take 768).zip (span 0 768) |>.map fun w => (0x201000 + 4 * w.2, w.1)
  let s1 := showWords (ids ++ [(0x200120, keys)] ++ macs ++ cert ++ o.fixloss.map (fun w => (0x4900000 + 4 * w.1, w.2)) ++
    o.chcal.map fun w => (0x4200400 + 4 * w.1, w.2)) s
  ((s1.wr R.GLB_ID_GRADE [] o.grade).wr R.GLB_ID_STEP [] o.step).wr R.CL_BOOT_OTPSVN [] o.imgSvn

/-- The OTP is latched (R397); REFBUF_EN is set and the converter runs (R423). -/
def latchOtp (s : State) : State :=
  let s2 := showOtp s
  (s2.wr R.PCV_CTRL_REFBUF_EN [] 1).wr R.PCV_CTRL_RUN [] 1

/-- A PENDING slot whose trial is over becomes INVALID (R398). -/
def dropTried (s : State) : State :=
  [false, true].foldl (fun t b => if slotState t b = 3 ∧ (slotDir t.flash).trial ≠ 0 then setSlot b 4 t else t) s

/-- Slots in the order of R398. -/
def slotOrder (s : State) : List Bool :=
  let having (k : Nat) : List Bool := [false, true].filter fun b => slotState s b == k
  having 3 ++ having 2 ++ having 1

/-- Addresses of the mirror registers of the safety parameter block, in its layout (R281). -/
def safetyAddrs : List Nat :=
  ((span 0 8).map fun i => 0x4300180 + 4 * i) ++ ((span 0 8).map fun i => 0x4300400 + 4 * i) ++
    ((span 0 4).map fun i => 0x4300220 + 4 * i) ++ [0x4300500, 0x4300504, 0x4300508] ++
    ((span 0 512).map fun n => fldAddr R.SAF_SLPCFG_EN [n])

/-- CRC-32C over the 2,140 bytes of a channel's block. -/
def safetyCrc (v : Chan) : Nat :=
  crc32c (safetyAddrs.map fun a => beBytes 4 (cellGet resetWord v.block a).toNat).flatten

/-- The CL writes the block into a channel, which checks it (R281); inputs with STM wait for a manual test after PORST_N (R294). -/
def loadChannel (c : Nat) (im : Image) (s : State) : State :=
  let v := { chanGet s c with block := s.regs.filter fun w => safetyAddrs.contains w.1 }
  let crc := safetyCrc v
  let hold := (span 0 8).filter fun x => decide (s.modes.resetCause = 1) && giEn v x && spbOn v R.SAF_GICFG_STM [x]
  let v1 := hold.foldl (fun w x => guardPut x { guardGet w x with hold := true } w) v
  let s1 := chanPut s c { v1 with crc := crc, crcOk := decide (im.safetyCrc = crc) }
  if im.safetyCrc = crc then s1 else raise0 .saf 9 s1

/-- A candidate with the region it lies in (2: the image), that is bound to this module and verifies (R275). -/
def candidates (s : State) (im : Option Image) : List (CalRec × Nat) :=
  let one (r : Option CalRec) (k : Nat) : List (CalRec × Nat) :=
    (r.toList.filter fun x => x.ok && x.devid == s.otp.devid).map fun x => (x, k)
  one s.flash.cr0 0 ++ one s.flash.cr1 1 ++ one (im.bind (·.calib)) 2

/-- The candidate with the highest sequence number. -/
def newestRec : List (CalRec × Nat) → Option (CalRec × Nat)
  | [] => none
  | r :: t =>
    match newestRec t with
    | some b => if r.1.seq < b.1.seq then some b else some r
    | none => some r

/-- `CAL.RECORD` of the record in force. -/
def showRecord (r : CalRec × Nat) (s : State) : State :=
  ((((s.wr R.CAL_RECORD_VALID [] 1).wr R.CAL_RECORD_IMPORTED [] (b2n (r.2 == 2))).wr R.CAL_RECORD_REGION [] (b2n (r.2 == 1))).wr
    R.CAL_RECORD_DIRTY [] 0).wr R.CAL_RECORD_SEQ [] r.1.seq

/-- The model fields of an element's loop entry follow its calibration, for the target that the entry holds (R48, R117). -/
def setModel (e : Nat) (s : State) : State :=
  ((s.wr R.LT_LOOP_UMOD [e] (calCode s e (s.rd R.LT_LOOP_TSTATE [e]))).wr R.LT_LOOP_TCO [e] (s.rd R.CAL_EREC_TCO [e])).wr
    R.LT_LOOP_TREF [e] (s.rd R.CAL_EREC_TREF [e])

/-- Elements whose codes are among the words of a record. -/
def recElems (fields : List (Nat × Nat × Nat)) : List Nat :=
  nub (fields.filterMap fun f =>
    if 0x4800000 ≤ f.1 ∧ f.1 < 0x4888000 then some ((f.1 - 0x4800000) / 16)
    else if 0x20000 ≤ f.1 % 0x100000 ∧ f.1 % 0x100000 < 0x40000 ∧ 0x2000000 ≤ f.1 ∧ f.1 < 0x3000000 then
      some (elemOfLocal ((f.1 - 0x2000000) / 0x100000) ((f.1 % 0x100000 - 0x20000) / 4))
    else none)

/-- A mark of the record (R275): `CE.SUSPECT`, `CAL.EREC.SUSPECT` and Tangram's list. -/
def restoreMark (x : Nat) (s : State) : State :=
  let s1 := setMapBit s 0x800200 x true
  if x < 34816 then setMapBit (s1.wr R.CAL_EREC_SUSPECT [x] 1) 0x731100 x true else s1

/-- The tables, marks, Pinwheel map and C7 losses of a record come into force (R273, R275). -/
def putRecord (r : CalRec) (s : State) : State :=
  let s1 := (recElems r.fields).foldl (fun t e => setModel e t) (putCal r.fields s)
  let s2 := (r.marks.filter fun x => decide (x < 35840)).foldl (fun t x => restoreMark x t) s1
  let s3 := (r.insusp.filter fun b => decide (b < 1024)).foldl (fun t b => setMapBit t 0x4000200 b true) s2
  { s3 with calx := { s3.calx with pins := r.pins, c7 := r.c7.foldl (fun c x => cellSet (fun _ => 0) c x.1 x.2) [] } }

/-- The calibration record is chosen and loaded (R275). -/
def loadRecord (im : Image) (s : State) : State :=
  match newestRec (candidates s (some im)) with
  | some r => showRecord r (putRecord r.1 s)
  | none => s

/-- Host keys of an image (R365). -/
def loadKeys (im : Image) (s : State) : State :=
  let s1 := (span 0 31).foldl (fun t k => wrWord t (0x300600 + 4 * k) 0) s
  im.keys.foldl (fun t k => (t.wr R.JNL_HKEY_VALID [k.slot] 1).wr R.JNL_HKEY_RIGHTS [k.slot] k.rights) s1

/-- Identity of the image in force. -/
def showImage (b : Bool) (im : Image) (s : State) : State :=
  let s1 := ((s.wr R.CL_BOOT_SLOT [] (b2n b)).wr R.CL_BOOT_SVN [] im.svn).wr R.CL_IMGSEQ_LO [] im.imgSeq
  { wrWord (s1.wr R.CL_IMGSEQ_HI [] (im.imgSeq / 2 ^ 32)) 0x104 im.fwVer with image := some im }

/-- Stored maps are shown; a rule is ARMED or OFF as its EN says (R235, R240). -/
def loadPlan (im : Image) (s : State) : State :=
  let s1 := (span 0 64).foldl (fun t k => wrWord t (0x4400100 + 4 * k) 0) s
  let s2 := im.maps.foldl (fun t m => wrWord t (0x4400100 + 4 * m.1)
    (2 ^ 31 + b2n m.2.partialMap * 2 ^ 30 + m.2.descs.length)) s1
  (span 0 64).foldl (fun t r => t.wr R.PLAN_RCTL_STATE [r] (t.rd R.PLAN_RCTL_EN [r])) s2

/-- Every section is written into its block (R392), the configuration of a bank slice into all of them (R65, R87). -/
def applyImage (b : Bool) (im : Image) (s : State) : State :=
  let words := imageWords im
  let s1 := showWords im.safety (loadWords words (showImage b im s))
  let s2 := { s1 with wbase := baseWith words [] }
  let s3 := loadRecord im (loadKeys im (loadPlan im (loadChannel 1 im (loadChannel 0 im s2))))
  let s4 := (span 0 16).foldl (fun t k => bankPut t k { bankGet t k with loaded := true }) s3
  fieldHooks s (im.base.map (·.1)) ((clearRings 1 (clearRings 0 s4)).wr R.CE_CLSTAT_LIVE [] (2 ^ 32 - 1))

/-- Slots are tried in order; one that fails becomes INVALID (R398). -/
def tryLoad : List Bool → Bool → State → State
  | [], _, s => { s with modes := { s.modes with noImage := true } }
  | b :: t, first, s =>
    let s1 := if slotState s b = 3 then setTrial 1 s else s
    match slotImage s b with
    | some im =>
      let k := verifyImage s.otp im
      if s.flash.capable && k == 0 then applyImage b im (if first then s1 else raise .cl 0 (slotCause b) s1)
      else tryLoad t false (raise .cl 1 (slotCause b) ((setSlot b 4 s1).wr R.CL_BOOT_FAILITEM [] k))
    | none => tryLoad t false (raise .cl 1 (slotCause b) ((setSlot b 4 s1).wr R.CL_BOOT_FAILITEM [] 1))

/-- RESET to LOAD (R19): the cause is kept. With PI01 latched nothing can load, and LOCKOUT holds (R416). -/
def startLoad (s : State) : State :=
  if s.modes.latched.contains 1 then enterMode mLockout 0x0C s
  else
    let s1 := latchOtp (enterMode mLoad s.modes.resetCause s)
    let s2 := dropTried ((s1.wr R.CL_BOOT_STATE_A [] (slotState s1 false)).wr R.CL_BOOT_STATE_B [] (slotState s1 true))
    tryLoad (slotOrder s2) true s2

/-- PORST_N_RELEASE (R397, R444): MID is latched. `otp` and `flash` are new contents that provisioning has left while the
module was held in RESET (R394). With the supplies outside their limits the module stays in RESET. -/
def execPorstNRelease (mid : Nat) (supplies : Bool) (otp : Option Otp) (flash : Option Flash) (s : State) :
    Host.Outcome State Fault Refusal :=
  .next (
    if !s.modes.porst then s
    else
      let s1 := { s with otp := otp.getD s.otp, flash := flash.getD s.flash,
                         modes := { s.modes with porst := false, supplies := supplies } }
      let s2 := s1.wr R.GLB_MID_MID [] mid
      if supplies then startLoad s2 else s2)

/-- PWR_INTERNAL_RESET (R467): RESET, then LOAD as soon as every supply is within its limits. -/
def execPwrInternalReset (supplies : Bool) (s : State) : Host.Outcome State Fault Refusal :=
  .next (
    if s.modes.porst then s
    else
      let s1 := if modeOf s = mReset then { s with modes := { s.modes with supplies := supplies } } else enterReset false supplies s
      if supplies then startLoad s1 else s1)

/-- LOAD_COMPLETE (R397): DARK, or the condition that outranks it at the end of the tick (R16, R25), once a slot has verified, else LOCKOUT with cause 0x13, held by both channels (R318). Enabled
domains go to UNLOCKED (R170). -/
def execLoadComplete (ms : Nat) (s : State) : Host.Outcome State Fault Refusal :=
  .next (
    if modeOf s ≠ mLoad then s
    else
      let s1 := s.wr R.CL_BOOT_LOADMS [] (min 255 (ms / 2))
      if s1.modes.noImage then
        enterMode mLockout 0x13 ((holdCause 1 6 (holdCause 0 6 s1)).wr R.PWR_MODE_C_LOCKOUT [] 1)
      else
        let s2 := enableDomains s1
        if s2.flag R.PWR_MODE_C_LOCKOUT [] then enterMode mLockout 0x0C s2
        else if s2.flag R.PWR_MODE_C_STOP [] then enterMode mSafeStop 0x0B s2
        else enterMode mDark 0x03 s2)

/-- MID_STRAP_CHANGE (R444): after the latch a change is shown and ignored. -/
def execMidStrapChange (mid : Nat) (s : State) : Host.Outcome State Fault Refusal :=
  .next (if !s.modes.porst ∧ mid % 64 ≠ s.rd R.GLB_MID_MID [] then raise0 .glb 1 s else s)

/-! DARK (R21, R54, R19). -/

/-- The highest input tap reading. -/
def brightest (s : State) : Nat :=
  (span 35840 1024).foldl (fun m t => if s.flag R.ESA_SAMPLE_VALID [t] then max m (s.rd R.ESA_SAMPLE_VALUE [t]) else m) 0

/-- Every output tap of both planes reads at least 45 dB below the brightest input, or lies at the floor of its range (R54):
v² × 10⁹ ≤ b². -/
def fabricDark (s : State) : Bool :=
  let b := brightest s
  (span 34816 1024).all fun t => s.flag R.ESA_SAMPLE_UNDER [t] ||
    (s.flag R.ESA_SAMPLE_VALID [t] && decide (s.rd R.ESA_SAMPLE_VALUE [t] ^ 2 * 1000000000 ≤ b ^ 2))

/-- DARK_CHECK (R21, R54): after parking, and never without a calibration record (R78). -/
def execDarkCheck (s : State) : Host.Outcome State Fault Refusal :=
  .next (
    if modeOf s = mDark ∧ s.modes.parked then
      { s with modes := { s.modes with dark := s.flag R.CAL_RECORD_VALID [] && fabricDark s } }
    else s)

/-- A calibration run is due (R23). -/
def runDue (s : State) : Bool :=
  let valid := s.flag R.CAL_RECORD_VALID []
  let demand := match s.image with | some im => im.calDemand | none => false
  (demand && !s.modes.ran) || (!valid && !s.modes.ran) || (!valid && s.modes.ran && s.modes.crpd)

/-- A safety channel has released: its start-up test has passed, its block agrees, and nothing it knows demands SOS, the start-up
demand of a watchdog with the SOS function included, and the test shows in no filtered contact any more (R293, R297, R326). -/
def chanReleases (s : State) (c : Nat) : Bool :=
  let v := chanGet s c
  chanOn s c && v.startOk && blocksAgree v && decide (v.quiet ≤ s.time) && !sosDemand s v && !(telOn v && v.boot && !wdSdp v)

/-- DARK may be left (R19, R21 to R23): dark confirmed, calibration valid and none due, start-up tests passed, both channels
released, recovery ended (R383). -/
def mayRelease (s : State) : Bool :=
  modeOf s == mDark && s.modes.dark && s.flag R.CAL_RECORD_VALID [] && !runDue s && chanReleases s 0 && chanReleases s 1 &&
    !s.jnl.recovering && !s.modes.mpDown

/-- BFK slots that a REVOKE section revokes: never the last one not revoked (R396). -/
def revokeBfks : List Nat → Nat → Nat
  | [], rev => rev
  | k :: t, rev =>
    let new := setBits rev k 1 1
    if 2 ≤ k ∨ new % 4 = 3 then revokeBfks t rev else revokeBfks t new

/-- OTP changes of a confirmed image (R395, R396): counters raised, keys revoked; never the key that signed it. -/
def burnOtp (o : Otp) (im : Image) : Otp :=
  let u := (im.revokeUik.filter fun k => decide (k < 4) && k != im.uikSlot).foldl (fun m k => setBits m k 1 1) o.uikRev
  let o1 := { o with uikRev := u, bfkRev := revokeBfks im.revokeBfk o.bfkRev }
  if im.raiseSvn then { o1 with imgSvn := max o.imgSvn im.svn, fwSvn := max o.fwSvn im.fwSvn } else o1

/-- A PENDING slot is confirmed (R395, R396, R398): ACTIVE, the former ACTIVE slot VALID; revocations are journaled. -/
def confirmSlot (b : Bool) (s : State) : State :=
  if slotState s b ≠ 3 then s
  else
    let s1 := setSlot b 2 (if slotState s (!b) = 2 then setSlot (!b) 1 s else s)
    match slotImage s b with
    | none => s1
    | some im =>
      let h := injHit .cl 0 s1
      let s1 := if popc h.1 = 0 then h.2 else raise .cl 4 ⟨0, 1, 0, min 2 (popc h.1), h.1, true⟩ h.2
      let s2 := showOtp { s1 with otp := burnOtp s1.otp im }
      if s2.otp.uikRev = s1.otp.uikRev ∧ s2.otp.bfkRev = s1.otp.bfkRev then s2
      else commit 0x05 0 0 0 0 (beBytes 4 0x200120 ++ beBytes 4 0xC000F000 ++ beBytes 4 (readN s2 0x200120)) s2

/-- DARK_RELEASE (R19): the mode of R15, cause 0x06; PARK is cleared; loops close at their updates (R129). A PENDING slot is
confirmed (R398). -/
def execDarkRelease (s : State) : Host.Outcome State Fault Refusal :=
  .next (
    if mayRelease s then
      let s1 := losResume (lateEvents (enterMode (modeByRank s) 0x06 (clrRelease 4 s)))
      confirmSlot (s1.flag R.CL_BOOT_SLOT []) { s1 with modes := { s1.modes with released := true } }
    else s)

/-! Calibration runs (R23, R253, R254, R259 to R262). -/

/-- CAL_RUN_START (R23, R254): from DARK, confirmed dark unless no record is in force (R54, R78), when a run is due. -/
def execCalRunStart (s : State) : Host.Outcome State Fault Refusal :=
  .next (
    if modeOf s = mDark ∧ (s.modes.dark ∨ !s.flag R.CAL_RECORD_VALID []) ∧ runDue s ∧ s.rd R.CAL_RUN_PHASE [] = 0 ∧ islServing s 0 ∧ s.modes.leaving = none then startRun 0x04 s
    else s)

/-! Restarts by always-on logic (R24, R404, R405). -/

/-- MP_WATCHDOG_EXPIRY (R24, R428): DEGRADED in hardware, ALERT_N held, PI02 restarts. -/
def execMpWatchdogExpiry (s : State) : Host.Outcome State Fault Refusal :=
  .next (
    if modeOf s < 2 ∨ !islOn s 2 then s
    else
      let s1 := islandUp 2 (degOn degMp (raise0 .pwr 6 s))
      modeTick s1)

/-- A PI03 or PI04 that is off leaves the module in LOCKOUT (R404). -/
def channelLost (i : Nat) (s : State) : State :=
  if i = 3 ∨ i = 4 then s.wr R.PWR_MODE_C_LOCKOUT [] 1 else s

/-- ISLAND_SUPPLY_FAULT (R405): the switch opens, the island is FAILED; PI00 and PI01 reset the module. -/
def execIslandSupplyFault (island : Nat) (s : State) : Host.Outcome State Fault Refusal :=
  .next (
    if 30 ≤ island ∨ modeOf s = mReset ∨ !islOn s island then s
    else
      let s1 := raise0 .pwr 0 (logIsland 0x0A island s)
      if island ≤ 1 then enterReset false false s1
      else
        let s2 := (islandDown island 5 s1).inc R.PWR_ISL_FAILS [island]
        let k := cellGet (fun _ => 0) s2.therm.tries island + 1
        let s3 := { s2 with therm := { s2.therm with
          tries := if islServing s island then cellErase s2.therm.tries island else cellSet (fun _ => 0) s2.therm.tries island k } }
        modeTick (channelLost island (degOn (degIsland island) s3)))

end Sys2Proof.Machine
end

