-- ==== Sys2Proof/Machine/CalRun.lean ====
section
/-! DEFINITION. What a calibration run measures and how it ends (11_calibration R251 to R262), its records (R273, R274), and the watch for
light in DARK (R23). Where the rules state no rounding, a mean and a quotient are rounded to the nearest whole number, halves upward
(DESIGN CHOICE, log entry 94). -/

namespace Sys2Proof.Machine

/-! Agreement (R259). -/

/-- Phases agree within 0.02 rad, in 10⁻⁴ rad. -/
def phaseAgree (a b : Int) : Bool := decide ((a - b).natAbs ≤ 200)
/-- Losses agree within 0.05 dB, in 0.01 dB. -/
def lossAgree (a b : Int) : Bool := decide ((a - b).natAbs ≤ 5)
/-- Powers agree within 0.05 dB: their ratio is at most 10^(1 / 200). -/
def powerAgree (a b : Int) : Bool := decide (max a.toNat b.toNat ^ 200 ≤ 10 * min a.toNat b.toNat ^ 200)
/-- Disagreement of two numbers. -/
def gapOf (a b : Int) : Nat := (a - b).natAbs
/-- Disagreement of two powers: their ratio in 2⁻³⁰, rounded down; past every ratio where one of them is 0. -/
def ratioOf (a b : Int) : Nat :=
  if min a.toNat b.toNat = 0 then 2 ^ 80 else max a.toNat b.toNat * 2 ^ 30 / min a.toNat b.toNat

/-- Measurements as numbers. -/
def triesMap {α β : Type} (f : α → β) (t : Tries α) : Tries β :=
  ⟨(f t.one.1, f t.one.2), (f t.two.1, f t.two.2), (f t.three.1, f t.three.2)⟩

/-- The pair that counts, the attempts it took, and whether it agrees; without agreement the pair with the smallest disagreement. -/
def pairOf {α : Type} (agree : α → α → Bool) (gap : α → α → Nat) (t : Tries α) : (α × α) × Nat × Bool :=
  let ok (p : α × α) : Bool := agree p.1 p.2
  let g (p : α × α) : Nat := gap p.1 p.2
  if ok t.one then (t.one, 1, true)
  else if ok t.two then (t.two, 2, true)
  else if ok t.three then (t.three, 3, true)
  else
    let best := if g t.two < g t.one then t.two else t.one
    (if g t.three < g best then t.three else best, 3, false)

/-- The value of a quantity: the mean of its pair, with attempts and agreement. -/
def settled (agree : Int → Int → Bool) (gap : Int → Int → Nat) (t : Tries Int) : Int × Nat × Bool :=
  let p := pairOf agree gap t
  (roundQ (p.1.1 + p.1.2) 2, p.2)

/-- A quantity for which the rule names no limit: its first attempt agrees. -/
def anyAgree (_ _ : Int) : Bool := true

/-! The words a run sets. -/

/-- A field of a table as a correction of its word. -/
def asField (F : Fld) (ix : List Nat) (v : Nat) : Nat × Nat × Nat := (fldAddr F ix, F.mask, v % 2 ^ F.width * 2 ^ F.lo)

/-- A Pinwheel reading in whole °C, 8-bit signed. -/
def wholeDeg (t : Int) : Nat := ofS 8 (satS 8 (roundQ t 256))

/-- The Pinwheel map as it stood at the end of a phase. -/
def heatAt (l : List (Nat × Nat)) (s : State) : State := l.foldl (fun t w => wrWord t w.1 w.2) s

/-- C2 of a sensor (R255): means of 64 samples, and TCAL from the cell above it as it read in C2. -/
def sensFields (s : State) (m : SensMeas) : List (Nat × Nat × Nat) × Nat × Bool :=
  let o0 := settled anyAgree gapOf (triesMap (fun x => roundQ x 64) m.ofs0)
  let o1 := settled anyAgree gapOf (triesMap (fun x => roundQ x 64) m.ofs1)
  let d := settled powerAgree ratioOf (triesMap (fun x => roundQ x 64) m.dark)
  let v := heatAt s.calx.heat2 s
  ([asField R.ESA_CORR_OFS0 [m.sens] (ofS 16 (satS 16 o0.1)), asField R.ESA_CORR_OFS1 [m.sens] (ofS 16 (satS 16 o1.1)),
    asField R.ESA_CORR_DARK0 [m.sens] (clampN 65535 d.1), asField R.ESA_CORR_TCAL [m.sens] (wholeDeg (tempOf v m.sens))], d.2)

/-- Power in 10 pW of a level in 0.01 dBm, rounded down. -/
def powerOf (c : Int) : Nat := lastOk (fun p => decide (p ^ 1000 ≤ 10 ^ (8000 + c).toNat)) 40 0 (2 ^ 40)

/-- A power less a loss in 0.01 dB, rounded down. -/
def lessLoss (p : Nat) (l : Int) : Nat :=
  lastOk (fun x => decide (x ^ 1000 * 10 ^ l.toNat ≤ p ^ 1000 * 10 ^ (-l).toNat)) 50 0 (2 ^ 50)

/-- The gain with which a raw reading gives a power (R97). -/
def gainFor (s : State) (tap g1 : Nat) (raw : Int) (power : Nat) : Int :=
  let ofs := if g1 = 1 then s.rdS R.ESA_CORR_OFS1 [tap] else s.rdS R.ESA_CORR_OFS0 [tap]
  let num : Int := ((power + darkLevel s tap) * 2 ^ 16 : Nat)
  quot (2 * num + (raw - ofs)) (2 * (raw - ofs))

/-- Gains of a tap in both ranges; `power` reads the reference. -/
def tapFields (s : State) (power : Int → Nat) (m : TapMeas) : List (Nat × Nat × Nat) × Nat × Bool :=
  let g (k : Nat) (t : Tries (Int × Int)) := settled powerAgree ratioOf (triesMap (fun r => gainFor s m.tap k r.1 (power r.2)) t)
  let a := g 0 m.g0
  let b := g 1 m.g1
  ([asField R.ESA_CORR_GAIN0 [m.tap] (clampN (2 ^ 24 - 1) a.1), asField R.ESA_CORR_GAIN1 [m.tap] (clampN (2 ^ 24 - 1) b.1)],
    max a.2.1 b.2.1, a.2.2 && b.2.2)

/-- Power at an input tap from a CRPD result: less the fixed loss to the injection point of its port (R251, R255). -/
def injPower (s : State) (tap : Nat) (c : Int) : Nat :=
  let p := (tap - 35840) / 512
  let loss := ((s.otp.injLoss.find? fun r => r.1 == tap - 35840).map (·.2)).getD 0
  powerOf (Config.crpdPower p (crpdResp s p) c - (loss : Nat))

/-- The lowest-power code of a phase (R55, R256): the heater phase is proportional to U² and KPI × 65,536 gives π. -/
def phaseCode (kpi phase : Int) : Nat := min 131071 ((rootOf ((4 * (kpi * 65536 * (phase % 62832) / 31416)).toNat) + 1) / 2)

/-- Every quantity of an element (R256, R257): φ_T lies π above φ_S. KSCALE compares the mean of the four shifts, both hold codes on both
segments, with the image's; an element without all four is not in agreement. TREF is the reading at the end of C4. -/
def elemFields (s : State) (m : ElemMeas) : List (Nat × Nat × Nat) × Nat × Bool :=
  let a := settled phaseAgree gapOf m.phiS
  let b := settled phaseAgree gapOf m.phiP
  let k := settled anyAgree gapOf m.kpi
  let low := settled lossAgree gapOf m.low
  let w := settled anyAgree gapOf m.swing
  let sh := m.shifts.map (settled phaseAgree gapOf)
  let sum := (sh.map (·.1)).sum
  let nom : Int := ((s.image.map (·.kickShift)).getD 0 : Nat)
  let ks := quot (2 * 128 * nom * (sh.length : Int) + sum) (2 * sum)
  let g := (m.gains.map (settled anyAgree gapOf)).map fun x => ofS 8 (satS 8 x.1)
  let kpi := max 1 (min 65535 k.1)
  let e := m.elem
  let att := ([a.2.1, b.2.1, low.2.1] ++ sh.map (·.2.1)).foldl max 1
  let ok := a.2.2 && b.2.2 && low.2.2 && sh.length == 4 && sh.all (·.2.2) && decide (0x40 ≤ ks) && decide (ks ≤ 0xFF)
  ([asField R.CAL_EREC_TREF [e] (wholeDeg (tempOf (heatAt s.calx.heat4 s) e)), asField R.CAL_EREC_UMOD_S [e] (phaseCode kpi a.1),
    asField R.CAL_EREC_UMOD_T [e] (phaseCode kpi (a.1 + 31416)), asField R.CAL_EREC_KPI [e] kpi.toNat,
    asField R.CAL_EREC_EPS0 [e] (clampN 255 (roundQ low.1 25)), asField R.CAL_EREC_LSPAN [e] (clampN 65535 w.1),
    asField R.CAL_EREC_ATTEMPTS [e] att, asField R.EDA_ECFG_PCODE [bankOf e, localIx e] (phaseCode kpi b.1),
    asField R.EDA_ECFG_KSCALE [bankOf e, localIx e] (clampI 0x40 0xFF ks).toNat] ++
    ([R.CE_FFTAB_G0, R.CE_FFTAB_G1, R.CE_FFTAB_G2, R.CE_FFTAB_G3].zip g).map (fun x => asField x.1 [e] x.2), att, ok)

/-- Mean heater code of a VOA point; its two losses must agree. -/
def pointOf (t : Tries (Int × Int)) : Nat × Nat × Bool :=
  let p := pairOf (fun a b => lossAgree a.2 b.2) (fun a b => gapOf a.2 b.2) t
  (clampN 65535 (roundQ (p.1.1.1 + p.1.2.1) 2), p.2)

/-- A table point meets the nominal loss of its code, (16 − j) × 2.5 dB above the minimum (R142), within 0.05 dB in both measurements that
count. -/
def pointMeets (j : Nat) (t : Tries (Int × Int)) : Bool :=
  let p := pairOf (fun a b => lossAgree a.2 b.2) (fun a b => gapOf a.2 b.2) t
  let nom : Int := (250 * (16 - j) : Nat)
  lossAgree p.1.1.2 nom && lossAgree p.1.2.2 nom

/-- The transmission table of a VOA (R257): 17 points at the nominal losses, and BCODE of at least 45 dB. -/
def voaFields (m : VoaMeas) : List (Nat × Nat × Nat) × Nat × Bool :=
  let v := m.voa - 34816
  let pts := (m.points.take 17).map pointOf
  let b := pairOf (fun x y => lossAgree x.2 y.2) (fun x y => gapOf x.2 y.2) m.block
  let put (j : Nat) (c : Nat) : Nat × Nat × Nat :=
    if j % 2 = 0 then asField R.PORT_VCAL_P_E [v, j / 2] c else asField R.PORT_VCAL_P_O [v, j / 2] c
  (asField R.PORT_VCAL_BCODE [v] (clampN 65535 (roundQ (b.1.1.1 + b.1.2.1) 2)) ::
      ((span 0 17).zip pts).map (fun x => put x.1 x.2.1),
    (pts.map (·.2.1)).foldl max b.2.1,
    pts.length == 17 && pts.all (·.2.2) && ((span 0 17).zip m.points).all (fun x => pointMeets x.1 x.2) && b.2.2 && decide (9000 ≤ b.1.1.2 + b.1.2.2))

/-- The C7 loss of a path in 0.01 dB. -/
def lossOf (m : PathMeas) : Int × Nat × Bool := settled lossAgree gapOf m.loss

/-- The output tap reads below the dark-port figure of R49 and R50: more than 55 dB under what a connected output of the plane with its
VOA at minimum carries from the same input light, which the best path of C7 shows ((o × i′)² × 10¹¹ < (o′ × i)²; DESIGN CHOICE, log entry 94:
which connected output). -/
def pathDark (l : List PathMeas) (m : PathMeas) : Bool :=
  l.any fun r => r.plane == m.plane && decide ((m.outp * r.inp) ^ 2 * 10 ^ 11 < (r.outp * m.inp) ^ 2)

/-- Actuators that a path's verification marks (R258): its VOA, and with a dark output tap the stage 16 combiner too. -/
def pathMarks (l : List PathMeas) (m : PathMeas) : List Nat :=
  let v := voaLoop m.plane m.out
  if pathDark l m then [v, elemIx m.plane 16 (m.out / 2) (2 + m.out % 2)] else if (lossOf m).2.2 then [] else [v]

/-- Power at an output tap with its VOA at minimum: the input tap's less the loss of C7 (R257). -/
def outPower (l : List PathMeas) (tap : Nat) (c : Int) : Nat :=
  let m := l.find? fun x => 34816 + x.plane * 512 + x.out == tap
  lessLoss c.toNat ((m.map fun x => (lossOf x).1).getD 0)

/-! The end of a run. -/

/-- An actuator that failed agreement is marked (R260): loops, elements in their record, input taps in `CAL.INSUSP`. -/
def suspectMark (x : Nat) (s : State) : State :=
  if 36864 ≤ x then s
  else if 35840 ≤ x then
    notifyAll 0x0D ([1] ++ beBytes 2 ((x - 35840) % 512)) (setMapBit s 0x4000200 (x - 35840) true)
  else
    let s1 := markSuspect x (raise0 .cal 1 s)
    if x < 34816 then putCal [asField R.CAL_EREC_SUSPECT [x] 1, asField R.CAL_EREC_QUAL [x] 0] s1 else s1

/-- An actuator that qualifies (R261): EDA FAIL, SUSPECT marks and PLCNT are cleared; an input tap loses its mark. -/
def qualify (x : Nat) (s : State) : State :=
  if 35840 ≤ x then setMapBit s 0x4000200 (x - 35840) false
  else
    let s1 := setMapBit (s.wr R.LT_LOOP_PLCNT [x] 0) 0x800200 x false
    if x < 34816 then
      let s2 := (putCal [asField R.CAL_EREC_SUSPECT [x] 0, asField R.CAL_EREC_QUAL [x] 1] s1).wr R.EDA_RB_FAIL [bankOf x, localIx x] 0
      if islOn s2 7 then setMapBit (setMapBit s2 0x731100 x false) 0x730000 x (!islServing s2 (12 + bankOf x)) else s2
    else s1

/-- What the sensors measured in a run before the gains are set: C2. -/
def darkFields (s : State) (m : CalMeas) : List (Nat × Nat × Nat) := (m.sens.map fun x => (sensFields s x).1).flatten

/-- The words of C3 to C6, with the offsets and dark levels of C2 in force. -/
def runFields (s : State) (m : CalMeas) : List (Nat × Nat × Nat) :=
  ((m.inTaps.map fun x => (tapFields s (injPower s x.tap) x).1) ++ (m.elems.map fun x => (elemFields s x).1) ++
    (m.voas.map fun x => (voaFields x).1) ++ (m.outTaps.map fun x => (tapFields s (outPower m.paths x.tap) x).1)).flatten

/-- Actuators and input taps that a run has measured. -/
def measuredOf (m : CalMeas) : List Nat :=
  nub (m.sens.map (·.sens) ++ m.inTaps.map (·.tap) ++ m.elems.map (·.elem) ++ m.voas.map (·.voa) ++ m.outTaps.map (·.tap))

/-- Those of which every quantity has been measured (R261): an element with its sensor, a VOA with its output tap and its path, an input tap
with its dark level. -/
def wholeOf (m : CalMeas) (x : Nat) : Bool :=
  let sens := m.sens.any fun y => y.sens == x
  if x < 34816 then sens && m.elems.any fun y => y.elem == x
  else if x < 35840 then
    sens && (m.voas.any fun y => y.voa == x) && (m.outTaps.any fun y => y.tap == x) && m.paths.any fun y => voaLoop y.plane y.out == x
  else sens && m.inTaps.any fun y => y.tap == x

/-- Those without agreement within three attempts, or out of their limits (R258, R259): a sensor stands for its actuator. An element
in which the read-back round has found a heater resistance fault during the run is among them. -/
def suspectsOf (s : State) (m : CalMeas) : List Nat :=
  let bad (l : List (Nat × Bool)) : List Nat := (l.filter fun x => !x.2).map (·.1)
  nub (bad (m.sens.map fun x => (x.sens, (sensFields s x).2.2)) ++
    bad (m.inTaps.map fun x => (x.tap, (tapFields s (injPower s x.tap) x).2.2)) ++
    bad (m.elems.map fun x => (x.elem, (elemFields s x).2.2)) ++ s.calx.rbHres ++
    bad (m.voas.map fun x => (x.voa, (voaFields x).2.2)) ++
    bad (m.outTaps.map fun x => (x.tap, (tapFields s (outPower m.paths x.tap) x).2.2)) ++ (m.paths.map (pathMarks m.paths)).flatten)

/-- Marks and qualification at the end of a valid run (R260, R261): the wholly measured ones that agree and in which the read-back round
found no fault during the run qualify; `faults` are those in which it did. -/
def markRun (faults measured suspects : List Nat) (s : State) : State :=
  let failed := nub (faults ++ s.calx.rbBad)
  let good := measured.filter fun x => !failed.contains x && !suspects.contains x
  let s1 := good.foldl (fun t x => qualify x t) s
  let s2 := (failed.filter fun x => decide (x < 34816)).foldl (fun t x => t.wr R.CAL_EREC_QUAL [x] 0) s1
  let s3 := suspects.foldl (fun t x => suspectMark x t) s2
  ((span 0 512).filter fun o => dValid (s3.rd R.RS_CONN_DESC [o])).foldl (fun t o => showFlags o t) s3

/-- Elements SUSPECT or failed exceed 1 % (R262). -/
def qualityCheck (s : State) : State :=
  let bad := (span 0 34816).filter fun e => mapBit s 0x800200 e || elemFailed s e
  if 349 < bad.length then notifyAll 0x0D [0, 0, 0] (raise0 .cal 6 s) else s

/-- A record is written into the region that does not hold the newest valid one (R274). -/
def targetRegion (s : State) : Nat :=
  match newestRec (candidates s none) with
  | some r => 1 - r.2
  | none => 0

/-- Sequence number of a new record: above every candidate's. -/
def nextRecSeq (s : State) : Nat :=
  match newestRec (candidates s s.image) with
  | some r => (r.1.seq + 1) % 2 ^ 32
  | none => 1

/-- The record of the values in force (R273). -/
def recordNow (s : State) : CalRec where
  seq := nextRecSeq s
  imported := false
  ok := true
  devid := s.otp.devid
  fields := s.wcal.map fun c => (c.1, 0xFFFFFFFF, c.2.toNat)
  marks := (span 0 35840).filter (mapBit s 0x800200)
  insusp := (span 0 1024).filter (mapBit s 0x4000200)
  crpd := (s.rdS R.CAL_SRC_PWR [0], s.rdS R.CAL_SRC_PWR [1])
  wave := (s.image.map (·.calWave)).getD 0
  pins := s.calx.pins
  c7 := s.calx.c7

/-- Write a record into its region and show it. -/
def storeRecord (s0 : State) : State :=
  let s := crcHit .cal 0 s0
  let k := targetRegion s
  let r := recordNow s
  let s1 := { s with flash := if k = 0 then { s.flash with cr0 := some r } else { s.flash with cr1 := some r },
                     calx := { s.calx with recAt := s.time, recDue := false, recWait := none } }
  showRecord (r, k) s1

/-- A record failed its verification twice (R274, R276): the region it was written into is no longer valid; the next write is due a period later. -/
def failRecord (s0 : State) : State :=
  let s := crcHit .cal 0 s0
  let s1 := { s with flash := if targetRegion s = 0 then { s.flash with cr0 := none } else { s.flash with cr1 := none },
                     calx := { s.calx with recAt := s.time, recDue := false, recWait := none } }
  raise0 .cal 5 s1

/-- The values of a run come into force (R255 to R258): the tables, the model fields, the losses of C7, the map at the end of C4. -/
def bringRun (m : CalMeas) (s : State) : State :=
  let s1 := putCal (darkFields s m) s
  let s2 := putCal (runFields s1 m) s1
  let s3 := (m.elems.map (·.elem)).foldl (fun t e => setModel e t) s2
  let c7 := m.paths.foldl (fun c x => cellSet (fun _ => 0) c (x.plane * 512 + x.out) (lossOf x).1.toNat) s3.calx.c7
  { s3 with calx := { s3.calx with c7 := c7, pins := if s3.rd R.CAL_RUN_PHASE [] ≤ 4 then pinMap s3 else s3.calx.pins } }

/-- A bank or a port bank has been out of service for 60 s (R262). -/
def bankLost (s : State) : Bool :=
  (span 12 18).any fun i => !islServing s i && (let t := cellGet (fun _ => 0) s.calx.lost i; t != 0 && decide (t - 1 + 60000000000 ≤ s.time))

/-- A run may end with a result (R262): valid and record failed in C8 only, abandoned with SAFE_STOP or LOCKOUT coming, bank lost after
60 s. -/
def mayEnd (outcome : Nat) (s : State) : Bool :=
  match outcome with
  | 1 | 5 => s.rd R.CAL_RUN_PHASE [] == 8
  | 2 => true
  | 3 => s.flag R.PWR_MODE_C_STOP [] || s.flag R.PWR_MODE_C_LOCKOUT []
  | 4 => bankLost s
  | _ => false

/-- CAL_RUN_END (R262): `outcome` as `CAL.RUN.RESULT` has it. A valid run brings its values into force and writes its record. -/
def execCalRunEnd (outcome : Nat) (meas : CalMeas) (failed : List Nat) (s : State) : Host.Outcome State Fault Refusal :=
  .next (
    if s.rd R.CAL_RUN_PHASE [] = 0 ∨ !mayEnd outcome s then s
    else if outcome = 1 then
      let s1 := putCal (darkFields s meas) s
      let s2 := storeRecord (markRun failed ((measuredOf meas).filter (wholeOf meas)) (suspectsOf s1 meas) (bringRun meas s))
      stopRun 1 (qualityCheck (s2.wr R.CAL_RUN_PROGRESS [] 65535))
    else stopRun outcome (if outcome = 2 then raise0 .cal 0 s else if outcome = 5 then failRecord s else s))

/-! The watch for light (R23). -/

/-- Both CRPDs read at least −12 dBm with REFX settled. -/
def crpdsLit (s : State) : Bool :=
  decide (-1200 ≤ s.rdS R.CAL_SRC_PWR [0]) && decide (-1200 ≤ s.rdS R.CAL_SRC_PWR [1]) && s.flag R.PCV_CTRL_REF_OK []

/-- Note since when both have been lit; a run may start after 1 s. -/
def noteLight (s : State) : State :=
  let from0 := if crpdsLit s then some (s.calx.crpdAt.getD s.time) else none
  let steady := match from0 with | some t => decide (t + 1000000000 ≤ s.time) | none => false
  { s with calx := { s.calx with crpdAt := from0 }, modes := { s.modes with crpd := steady } }

/-- CAL_LIGHT_WATCH (R23): once per second in DARK without a record and without a run the CAL has entries 30 and 31 converted; `rawX` and
`rawY` are their rounded ratios before clamping. -/
def execCalLightWatch (rawX rawY : Int) (s : State) : Host.Outcome State Fault Refusal :=
  .next (
    if modeOf s = mDark ∧ !s.flag R.CAL_RECORD_VALID [] ∧ s.rd R.CAL_RUN_PHASE [] = 0 ∧ pcvRuns s then
      noteLight (pcvConvert 31 rawY (pcvConvert 30 rawX s))
    else s)

end Sys2Proof.Machine
end

