-- ==== Sys2Proof/Machine/Calib.lean ====
section
/-! DEFINITION. Background calibration and its corrections (11_calibration R267 to R276). -/

namespace Sys2Proof.Machine

/-! Where a step or a correction may act (R270, R271). -/

/-- Neighbours named by an element's `CE.FFTAB` entry, by loop index (R160). -/
def neighboursOf (s : State) (e : Nat) : List Nat :=
  [s.rd R.CE_FFTAB_NB0 [e], s.rd R.CE_FFTAB_NB1 [e], s.rd R.CE_FFTAB_NB2 [e], s.rd R.CE_FFTAB_NB3 [e]].filter (· < 34816)

/-- Domains of the connections an actuator touches (R270). -/
def touched (s : State) (n : Nat) : List Nat :=
  let own (e : Nat) : List Nat := match elemUse s e with | some u => [dDom u.1.desc] | none => []
  if 35840 ≤ n then []
  else if 34816 ≤ n then (match liveRoute s (voaPort n) with | some r => [dDom r.desc] | none => [])
  else nub (own n ++ ((neighboursOf s n).map own).flatten)

/-- A window of class CAL or EVENT+CAL. -/
def calWindow (s : State) (d w : Nat) : Bool :=
  s.flag R.TBU_DOM_GW_EN [d, w] && (s.rd R.TBU_DOM_GW_CLASS [d, w] == 1 || s.rd R.TBU_DOM_GW_CLASS [d, w] == 2)

/-- An armed wave, a repair wave included, has its T0 in the window occurrence that starts at domain time `z`. -/
def holdsArmed (s : State) (d w z : Nat) : Bool :=
  s.armed.any fun v =>
    let t := domainOf s d v.start
    decide (z ≤ t) && decide (t < z + s.rd R.TBU_DOM_GW_LEN [d, w])

/-- The present instant is a boundary of one domain: inside an enabled CAL or EVENT+CAL window, 250 ns from its ends, and no window
that contains it holds an armed wave (R271). -/
def boundaryOf (s : State) (d : Nat) : Bool :=
  let t := domNs s d
  let k := (t - epochNs s d) / patOf s d
  let start (w : Nat) : Nat := periodStart s d k + s.rd R.TBU_DOM_GW_OFS [d, w]
  let inside (w : Nat) : Bool := decide (start w + 250 ≤ t) && decide (t + 250 ≤ start w + s.rd R.TBU_DOM_GW_LEN [d, w])
  domReady s d && ((span 0 32).any fun w => calWindow s d w && inside w) &&
    (span 0 32).all fun w => !(s.flag R.TBU_DOM_GW_EN [d, w] && inside w && holdsArmed s d w (start w))

/-- The present instant is a boundary of every touched domain (R271). -/
def atBoundary (s : State) (n : Nat) : Bool := (touched s n).all (boundaryOf s)

/-- A touched domain has no enabled CAL window, or is UNLOCKED: no B2 step (R270). -/
def noCalWindow (s : State) (n : Nat) : Bool :=
  (touched s n).any fun d => !domUsable s d || !((span 0 32).any (calWindow s d))

/-- An armed wave names the element or the VOA. -/
def namedArmed (s : State) (n : Nat) : Bool :=
  s.armed.any fun w => (w.moves.any fun m => m.elem == n) || (w.voas.any fun v => v.1 == n)

/-! Results. -/

/-- Local time from which an actuator's correction has been ready. -/
def readyAt (s : State) (n : Nat) : Nat := cellGet (fun _ => 0) s.calx.ready n - 1

/-- A correction is ready (R271, R272): without touched domains, or in CALIBRATE or DARK, it is in force at once; while a ramp runs it
becomes the ramp's new target. Fields of one that still waits stay beside it, from their own readiness (DESIGN CHOICE, log entry 94). -/
def correctionReady (n : Nat) (fields : List (Nat × Nat × Nat)) (s : State) : State :=
  let put (t : State) : State :=
    { t with corr := cellSet (fun _ => []) t.corr n (mergeFields (corrFields t n) fields), ramps := cellErase t.ramps n,
             calx := { t.calx with ready := if (corrGet t n).isEmpty then cellSet (fun _ => 0) t.calx.ready n (t.time + 1) else t.calx.ready } }
  if calHolds s ∨ (touched s n).isEmpty then corrApply n (put s)
  else if s.ramps.any fun r => r.1 == n then rampStart n fields s
  else put s

/-- The end of a background step (R267): its result is used if it agrees; three that do not in a row mark the actuator. -/
def stepEnd (n : Nat) (agrees : Bool) (fields : List (Nat × Nat × Nat)) (s : State) : State :=
  let s1 := s.incS R.CAL_STEPS []
  if agrees then correctionReady n fields { s1 with bgFail := cellErase s1.bgFail n }
  else
    let k := cellGet (fun _ => 0) s1.bgFail n + 1
    if k < 3 then { s1 with bgFail := cellSet (fun _ => 0) s1.bgFail n k }
    else suspectMark n { s1 with bgFail := cellErase s1.bgFail n }

/-- An actuator that background steps visit: a lit element or a connected VOA. -/
def visited (s : State) (n : Nat) : Bool :=
  if n < 34816 then (elemUse s n).isSome else decide (n < 35840) && (liveRoute s (voaPort n)).isSome

/-! B1: the model (R267). -/

/-- The mean of 64 commands, rounded to the nearest. -/
def meanOf (sum : Nat) : Nat := (sum + 32) / 64

/-- TCO of the last 16 results where they span at least 5 °C: the least-squares slope, Q8.8 per °C (the rule names no method: DESIGN
CHOICE, log entry 94). -/
def tcoFit (l : List (Nat × Int × Nat)) : Option Int :=
  let ts := l.map fun x => x.2.1
  let us : List Int := l.map fun x => (x.2.2 : Int)
  let num := 16 * ((ts.zip us).map fun p => p.1 * p.2).sum - ts.sum * us.sum
  let den := 16 * (ts.map fun t => t * t).sum - ts.sum * ts.sum
  let lo := ts.foldl min (ts.headD 0)
  let hi := ts.foldl max (ts.headD 0)
  if l.length = 16 ∧ 1280 ≤ hi - lo ∧ 0 < den then some (satS 16 (roundQ (num * 65536) den)) else none

/-- Two heater commands of an element lie within 0.02 rad: KPI × 65,536 of U² gives π. -/
def codesAgree (s : State) (e a b : Nat) : Bool :=
  decide ((((a * a : Nat) : Int) - (b * b : Nat)).natAbs * 31416 ≤ 200 * (s.rd R.CAL_EREC_KPI [e] * 65536))

/-- Two transmission codes of a VOA lie within 0.05 dB: 1,638.4 codes per dB (R142). -/
def transAgree (a b : Nat) : Bool := decide (((a : Int) - b).natAbs * 100 ≤ 8192)

/-- The results that count for TCO, with a new one: those of the present target, an element's state or a VOA's TARGET (DESIGN CHOICE, log
entry 94). -/
def b1Results (s : State) (n mean : Nat) : List (Nat × Int × Nat) :=
  let st := if n < 34816 then s.rd R.LT_LOOP_TSTATE [n] else s.rd R.LT_LOOP_TARGET [n]
  ((st, tempOf s n, mean) :: (cellGet (fun _ => []) s.calx.b1 n).filter fun x => x.1 == st).take 16

/-- The command at TREF whose model value at the present reading is the mean: TREF stays, and the mean is referred back to it through TCO
(DESIGN CHOICE, log entry 94: R267 does not say whether TREF moves to the present reading). -/
def umodFrom (s : State) (n mean : Nat) (tco : Int) : Nat :=
  clampN (cmdTop n).toNat ((mean : Int) - sra (tco * (tempOf s n - s.rdS R.LT_LOOP_TREF [n] * 256)) 16)

/-- UMOD and TCO of an actuator in its loop entry, and in its record for an element. -/
def umodFields (s : State) (n u : Nat) (tco : Int) : List (Nat × Nat × Nat) :=
  [asField R.LT_LOOP_UMOD [n] u, asField R.LT_LOOP_TCO [n] (ofS 16 tco)] ++
    if 34816 ≤ n then []
    else [asField R.CAL_EREC_TCO [n] (ofS 16 tco),
      if s.rd R.LT_LOOP_TSTATE [n] = stS then asField R.CAL_EREC_UMOD_S [n] u else asField R.CAL_EREC_UMOD_T [n] u]

/-- Two commands of an actuator agree (R259, R267). -/
def cmdsAgree (s : State) (n a b : Nat) : Bool := if n < 34816 then codesAgree s n a b else transAgree a b

/-- The result of a B1 step. -/
def b1Step (n sum : Nat) (s : State) : State :=
  let mean := meanOf sum
  let l := b1Results s n mean
  let tco := (tcoFit l).getD (s.rdS R.LT_LOOP_TCO [n])
  let u := umodFrom s n mean tco
  let ok := cmdsAgree s n u (s.rd R.LT_LOOP_UMOD [n])
  let s1 := if ok then { s with calx := { s.calx with b1 := cellSet (fun _ => []) s.calx.b1 n l } } else s
  stepEnd n ok (umodFields s n u tco) s1

/-- The 64 updates of a B1 step are complete, and `sum` is the sum of their commands. -/
def b1Whole (n sum : Nat) (s : State) : Bool := (ucsOf s n).length == 64 && (ucsOf s n).sum == sum

/-- BG_B1_MODEL (R267 to R269): `sum` is the sum of UCMD over the 64 updates that the step has counted. -/
def execBgB1Model (loop sum : Nat) (s : State) : Host.Outcome State Fault Refusal :=
  .next (
    if !bgRuns s ∨ !visited s loop ∨ !islOn s (actIsland loop) ∨ !visitDue s loop 1 ∨ !b1Whole loop sum s then s
    else if namedArmed s loop then stepAbort (noteVisit loop 1 (ucsPut loop [] s))
    else b1Step loop sum (noteVisit loop 1 (ucsPut loop [] s)))

/-! B2: the curvature (R267). -/

/-- The result of a B2 step: KPI, ε0 as a loss in 0.01 dB and LSPAN, and the command and dark level that may come with them. -/
def b2Step (e kpi low swing : Nat) (umod dark : Option Nat) (s : State) : State :=
  let ok := lossAgree (low : Int) (25 * (s.rd R.CAL_EREC_EPS0 [e] : Nat)) &&
    umod.all (fun u => codesAgree s e u (s.rd R.LT_LOOP_UMOD [e])) &&
    dark.all (fun d => powerAgree (d : Int) (s.rd R.ESA_CORR_DARK0 [e] : Nat))
  let more := (umod.map fun u => umodFields s e u (s.rdS R.LT_LOOP_TCO [e])).getD [] ++
    (dark.map fun d => asField R.ESA_CORR_DARK0 [e] (min 65535 d)).toList
  stepEnd e ok ([asField R.CAL_EREC_KPI [e] (min 65535 kpi), asField R.CAL_EREC_EPS0 [e] (clampN 255 (roundQ (low : Int) 25)),
    asField R.CAL_EREC_LSPAN [e] (min 65535 swing)] ++ more) s

/-- BG_B2_CURVATURE (R267 to R270): only at a boundary of every touched domain. -/
def execBgB2Curvature (elem kpi low swing : Nat) (umod dark : Option Nat) (s : State) : Host.Outcome State Fault Refusal :=
  .next (
    if !bgRuns s ∨ nElem ≤ elem ∨ !visited s elem ∨ !islOn s (actIsland elem) ∨ !visitDue s elem 2 then s
    else if noCalWindow s elem then raise0 .cal 3 s
    else if namedArmed s elem then stepAbort (noteVisit elem 2 s)
    else if atBoundary s elem then b2Step elem kpi low swing umod dark (noteVisit elem 2 s)
    else s)

/-! B3: an input tap (R253, R267). -/

/-- Gains of one plane's input tap from its raw readings, against the CRPD reading in `CAL.SRC`; whether they agree with those in force. -/
def b3Gains (s : State) (input p : Nat) (raw0 raw1 : Int) : List (Nat × Nat × Nat) × Bool :=
  let tap := 35840 + p * 512 + input
  let loss := ((s.otp.injLoss.find? fun r => r.1 == p * 512 + input).map (·.2)).getD 0
  let pw := powerOf (s.rdS R.CAL_SRC_PWR [p] - (loss : Nat))
  let g0 := clampN (2 ^ 24 - 1) (gainFor s tap 0 raw0 pw)
  let g1 := clampN (2 ^ 24 - 1) (gainFor s tap 1 raw1 pw)
  ([asField R.ESA_CORR_GAIN0 [tap] g0, asField R.ESA_CORR_GAIN1 [tap] g1],
    powerAgree (g0 : Int) (s.rd R.ESA_CORR_GAIN0 [tap] : Nat) && powerAgree (g1 : Int) (s.rd R.ESA_CORR_GAIN1 [tap] : Nat))

/-- The result of a B3 step: each plane's tap on its own. -/
def b3Step (input : Nat) (taps : List (Int × Int)) (s : State) : State :=
  [0, 1].foldl (fun t p =>
    let r := nthD (0, 0) taps p
    let g := b3Gains t input p r.1 r.2
    stepEnd (35840 + p * 512 + input) g.2 g.1 t) s

/-- BG_B3_INPUT_TAP (R253, R267, R268): CAL_IN light into an input that carries no connection; `rawX`, `rawY` are the conversions of the
CRPDs, `taps` the raw readings of the port's input taps in G0 and G1, plane X first. -/
def execBgB3InputTap (input : Nat) (rawX rawY : Int) (taps : List (Int × Int)) (s : State) : Host.Outcome State Fault Refusal :=
  .next (
    if !bgRuns s ∨ !s.flag R.CAL_BGCFG_SRC_EN [] ∨ 512 ≤ input ∨ (outOfIn (liveRoute s) input).isSome ∨
        !islOn s (sensIsland (35840 + input)) ∨ !pcvRuns s ∨ !visitDue s (35840 + input) 3 then s
    else
      let s1 := noteVisit (35840 + input) 3 (pcvConvert 31 rawY (pcvConvert 30 rawX s))
      if s1.rdS R.CAL_SRC_PWR [0] < -1200 ∨ s1.rdS R.CAL_SRC_PWR [1] < -1200 then raise0 .cal 0 s1
      else if !s.flag R.PCV_CTRL_REF_OK [] then s1
      else b3Step input taps s1)

/-! Corrections and records. -/

/-- CORRECTION_IN_FORCE (R271): at a boundary of the touched domains within 50 ms of readiness. -/
def execCorrectionInForce (loop : Nat) (s : State) : Host.Outcome State Fault Refusal :=
  .next (
    if calHolds s ∨ (atBoundary s loop ∧ s.time ≤ readyAt s loop + 50000000) then
      (if (s.ramps.any fun r => r.1 == loop) then s else corrApply loop s)
    else s)

/-- CORRECTION_GRADUAL_START (R271, R272): 50 ms without a boundary. -/
def execCorrectionGradualStart (loop : Nat) (s : State) : Host.Outcome State Fault Refusal :=
  .next (
    let l := corrGet s loop
    if l.isEmpty ∨ nLoop ≤ loop ∨ s.time < readyAt s loop + 50000000 then s
    else raise0 .cal 4 ((rampStart loop l s).incS R.CAL_GRADUAL []))

/-- A record of background corrections is due (R276): PERIOD hours after the last one, or since MAINTAIN was entered. -/
def recordDue (s : State) : Bool :=
  s.calx.recDue || decide (s.calx.recAt + s.rd R.CAL_RECCFG_PERIOD [] * 3600000000000 ≤ s.time)

/-- The corrections since the last write are written; `ok` tells whether a region verified, at the second try at the latest (R276). -/
def writeRecord (ok : Bool) (s : State) : State := if ok then storeRecord s else failRecord s

/-- CAL_RECORD_WRITE (R274, R276): a write that is due while the UPDATE condition is on waits until it goes off. -/
def execCalRecordWrite (ok : Bool) (s : State) : Host.Outcome State Fault Refusal :=
  .next (
    if !s.flag R.CAL_RECORD_DIRTY [] ∨ !recordDue s ∨ !islServing s 0 then s
    else if s.flag R.PWR_MODE_C_UPD [] then { s with calx := { s.calx with recDue := true, recWait := some ok } }
    else writeRecord ok s)

/-- A write that has waited for the end of UPDATE takes place (R276). -/
def waitedRecord (s : State) : State :=
  match s.calx.recWait with
  | some ok => if s.flag R.PWR_MODE_C_UPD [] then s else writeRecord ok s
  | none => s

end Sys2Proof.Machine
end

