-- ==== Sys2Proof/Machine/Net.lean ====
section
/-! DEFINITION. The network ports NETA and NETB (14_network_ports): links, received frames and rings, PAUSE, counters. -/

namespace Sys2Proof.Machine

/-! Counters (R340, R341). -/

def cntAddr (p i : Nat) : Nat := 0x501000 + 0x8000 * p + 4 * i

/-- The most significant bit of counter `i` has changed. -/
def cntHalf (p i : Nat) (s : State) : State :=
  raise0 (niBlk p) 6 (s.wr R.NI_CNTHALF_HALF [p] (setBits (s.rd R.NI_CNTHALF_HALF [p]) i 1 1))

/-- Add to a 32-bit counter. -/
def cntAdd (p i n : Nat) (s : State) : State :=
  let v := readN s (cntAddr p i)
  let s1 := wrWord s (cntAddr p i) (v + n)
  if bitN v 31 != bitN ((v + n) % 2 ^ 32) 31 then cntHalf p i s1 else s1

/-- Count one. -/
def cntUp (p i : Nat) (s : State) : State := cntAdd p i 1 s

/-- Add to a 48-bit octet counter: low word at `i`, bits 47:32 at `i + 1`. -/
def octAdd (p i n : Nat) (s : State) : State :=
  let v := readN s (cntAddr p i) + readN s (cntAddr p (i + 1)) % 2 ^ 16 * 2 ^ 32
  let w := (v + n) % 2 ^ 48
  let s1 := wrWord (wrWord s (cntAddr p i) (w % 2 ^ 32)) (cntAddr p (i + 1)) (w / 2 ^ 32)
  if bitN v 47 != bitN w 47 then cntHalf p i s1 else s1

/-! Links (R331, R332). -/

/-- The port exists, is powered and enabled. -/
def portOn (s : State) (p : Nat) : Bool := decide (p < 2) && islOn s 5 && s.flag R.NI_CFG_EN [p]

/-- Show the PCS status of a port. -/
def showLink (p : Nat) (up hiBer lf rf : Bool) (s : State) : State :=
  (((s.wr R.NI_LINK_UP [p] (b2n up)).wr R.NI_LINK_HI_BER [p] (b2n hiBer)).wr R.NI_LINK_LFAULT [p] (b2n lf)).wr
    R.NI_LINK_RFAULT [p] (b2n rf)

/-- LINK_UP (R331): the latency constants of the mode go to the TBU (R175). -/
def execLinkUp (port rxlat txlat : Nat) (s : State) : Host.Outcome State Fault Refusal :=
  .next (
    if !portOn s port then s
    else
      let s1 := showLink port true false false false s
      if islOn s1 6 then (s1.wr R.TBU_RXLAT [port] rxlat).wr R.TBU_TXLAT [port] txlat else s1)

/-- Queues that hold frames. -/
def heldQueues (s : State) : List Nat := s.egs.queues.map (·.1)

/-- LINK_DOWN (R331, R345): the frame being sent is lost, frames for the port are discarded. -/
def execLinkDown (port : Nat) (hiBer lfault rfault : Bool) (s : State) : Host.Outcome State Fault Refusal :=
  .next (
    if !portOn s port ∨ !linkUp s port then s
    else
      let s1 := raise0 (niBlk port) 4 (showLink port false hiBer lfault rfault s)
      let s2 := portPut s1 port { portGet s1 port with tx := none }
      (heldQueues s2).foldl (fun t q => showDepth q (leaveRound port q (dropDown port q (qGet t q).frames.length t))) s2)

/-- A port counts as failed: a single-part fault (R332). What KCP and PTP frames it holds are discarded: the other port carries them alone. -/
def failPort (p : Nat) (s : State) : State :=
  let s1 := degOn (degPort p) (raise0 (niBlk p) 5 (portPut s p { portGet s p with failed := true }))
  (heldQueues s1).foldl (fun t q => match headFor (qGet t q) p with
    | some f => if kcpPtp f.body then showDepth q (leaveRound p q (dropDown p q (qGet t q).frames.length t)) else t
    | none => t) s1

/-- PORT_FAIL (R332): down for more than 1 s, or an uncorrectable memory error. -/
def execPortFail (port : Nat) (memErr : Bool) (s : State) : Host.Outcome State Fault Refusal :=
  .next (
    if !portOn s port ∨ (!memErr ∧ linkUp s port) then s
    else
      modeTick (failPort port (if memErr then raise0 (niBlk port) 0 s else s)))

/-- PORT_RESTORED (R332): up for 1 s without error. -/
def execPortRestored (port : Nat) (s : State) : Host.Outcome State Fault Refusal :=
  .next (
    if port < 2 ∧ linkUp s port ∧ (portGet s port).failed then
      modeTick (degOff (degPort port) (portPut s port { portGet s port with failed := false }))
    else s)

/-! PAUSE (R338, R339). -/

/-- The pause timer is loaded with a time in quanta; 0 stops it. -/
def pauseLoad (p quanta : Nat) (s : State) : State :=
  let s1 := (s.wr R.NI_LINK_PAUSED [p] (b2n (quanta != 0))).wr R.NI_LINK_PREM [p] quanta
  portPut s1 p { portGet s1 p with pauseAt := s1.time }

/-- A PAUSE frame has been verified. -/
def pauseRx (p quanta : Nat) (s : State) : State :=
  let s1 := cntUp p 12 s
  if !s1.flag R.NI_CFG_PAUSE_HONOUR [p] then cntUp p 13 s1
  else
    let cap := s1.rd R.NI_CFG_PAUSE_CAP [p]
    if cap ≠ 0 ∧ cap < quanta then pauseLoad p cap (raise0 (niBlk p) 2 (cntUp p 14 s1)) else pauseLoad p quanta s1

/-- PAUSE_FRAME (R338, R339). -/
def execPauseFrame (port quanta : Nat) (s : State) : Host.Outcome State Fault Refusal :=
  .next (if portOn s port && linkUp s port then pauseRx port (quanta % 2 ^ 16) s else s)

/-- PAUSE_EXPIRY (R339): the port may start frames again. -/
def execPauseExpiry (port : Nat) (s : State) : Host.Outcome State Fault Refusal :=
  .next (if port < 2 then pauseLoad port 0 s else s)

/-! Received frames (R334 to R338, R356). -/

/-- What a destination address is to a port (R335): 0 its unicast address, 1 broadcast, 2 and 6 the PTP multicast addresses, 3 33-33-00-00-00-01 or
the solicited-node address of one of its IPv6 addresses, 5 the address of PAUSE frames (R338), 4 none of these. -/
def dstKind (s : State) (p : Nat) (a : Nat) : Nat :=
  let low (F : Fld) : Nat := s.rd F [p, 3] % 2 ^ 24
  let some6 (F : Fld) : Bool := (span 0 4).any fun i => s.rd F [p, i] != 0
  let own := s.rd R.NI_MACADDR_ADDR_HI [p] * 2 ^ 32 + s.rd R.NI_MACADDR_ADDR_LO [p]
  if a = own then 0
  else if a = 2 ^ 48 - 1 then 1
  else if a = 0x011B19000000 then 2
  else if a = 0x0180C200000E then 6
  else if a = 0x0180C2000001 then 5
  else if a = 0x333300000001 then 3
  else if some6 R.NI_IP_V6ADDR0 && a == 0x3333FF000000 + low R.NI_IP_V6ADDR0 then 3
  else if some6 R.NI_IP_V6ADDR1 && a == 0x3333FF000000 + low R.NI_IP_V6ADDR1 then 3
  else 4

/-- The check of R334 that a frame fails first, as the counter it is discarded in; rows 4 to 6 for frames that are no MAC control. -/
def rxDrop (s : State) (p : Nat) (f : RxFrame) : Option Nat :=
  if !f.fcsOk then some 6
  else if f.len < 64 then some 7
  else if 9216 < f.len then some 8
  else if f.etype = 0x8808 then none
  else if dstKind s p f.dst = 4 ∨ dstKind s p f.dst = 5 then some 10
  else if f.manyTags then some 9
  else match f.vid with
    | none => none
    | some v => if v = 0 ∨ v = s.rd R.NI_CLASSCFG_VID [p] then none else some 9

/-- An address that the port answers for: V4ADDR, or one of its IPv6 addresses (R362); 0 is none. -/
def ownIp (s : State) (p : Nat) (v6 : Bool) (ip : Nat) : Bool :=
  let six (F : Fld) : Nat := (span 0 4).foldl (fun a i => a * 2 ^ 32 + s.rd F [p, i]) 0
  ip != 0 && (if v6 then ip == six R.NI_IP_V6ADDR0 || ip == six R.NI_IP_V6ADDR1 else ip == s.rd R.NI_IP_V4ADDR [p])

/-- A configured address of the port; GRPADDR counts as one (R362, R376). -/
def portIp (s : State) (p : Nat) (v6 : Bool) (ip : Nat) : Bool :=
  ownIp s p v6 ip || (!v6 && ip != 0 && ip == s.rd R.NI_IP_GRPADDR [p])

/-- The MP takes frames from the rings. -/
def mpReads (s : State) : Bool := !s.modes.mpDown && islOn s 2

/-- The MP answers ARP for V4ADDR and Neighbor Discovery for both IPv6 addresses, from queue 65,532 (R362): an ARP reply of 64 bytes, a
Neighbor Advertisement of 90 (DEDUCED; log entry 95). -/
def answerAsk (p : Nat) (f : RxFrame) (s : State) : State :=
  if f.ask && mpReads s && ownIp s p f.v6 f.ip then enqueue 65532 p (if f.v6 then 90 else 64) (.other 0) s else s

/-- Ring of an accepted frame (R336). -/
def ringOf (s : State) (p : Nat) (f : RxFrame) : Nat :=
  if f.etype = s.rd R.SAF_TELCFG_ETYPE [] ∧ dstKind s p f.dst = 0 then 2
  else if f.etype = 0x88F7 ∧ f.vid = none ∧ (dstKind s p f.dst = 2 ∨ dstKind s p f.dst = 6) then 1
  else if f.udp ∧ portIp s p f.v6 f.ip ∧ f.dport = s.rd R.NI_CLASSCFG_KCP_PORT [p] then 0
  else 3

/-- Policer of a KCP frame (R356). -/
def policerOf (s : State) (k : Nat) : Nat := if 1 ≤ k ∧ k ≤ 31 ∧ sessOpen s k then k else 0

/-- The MP uses a PTP message: Sync, Follow_Up, Delay_Resp and Announce; it discards every other as it comes (R174). -/
def ptpUsed (f : RxFrame) : Bool := f.ptpType == 0 || f.ptpType == 8 || f.ptpType == 9 || f.ptpType == 11

/-- What the NI keeps with a PTP frame: the counter of the domain whose PTPDOM matches, of the eight that it latched (R175). -/
def ptpTag (f : RxFrame) (s : State) : PtpTag :=
  let d := (span 0 8).find? fun d => s.flag R.TBU_DOM_CFG_EN [d] && s.rd R.TBU_DOM_CFG_PTPDOM [d] == f.ptpDom
  ⟨f.ptpType, f.ptpDom, f.dst == 0x0180C200000E, match d with | some d => domCnt s d / 2 ^ 28 | none => 0, f.ptpOk⟩

/-- A ring has no buffers for a frame: they are allocated as its bytes arrive (R337). -/
def ringFull (s : State) (p r : Nat) (f : RxFrame) : Bool :=
  decide (ringSize r < ringUsed (ringGet (portGet s p) r) + (f.len - 4 + 255) / 256)

/-- A frame lost to a full ring (R337). A PTP frame loses its stamp with it (R185; DESIGN CHOICE, log entry 91: the stamps of PTP frames queue
with the frames). -/
def ringDrop (p r : Nat) (s : State) : State :=
  let s1 := raise0 (niBlk p) 1 (cntUp p 11 s)
  if r = 1 then raise0 .tbu 6 s1 else s1

/-- Deliver a frame to its ring, without its FCS (R334, R337). The MP takes OTHER frames as they come while it reads. Messages
that R174 does not support are discarded, and counted where they match no enabled domain. -/
def deliverRing (p r : Nat) (f : RxFrame) (s : State) : State :=
  let ecc := eccHit (niBlk p) 0 0 0 4 1 (cntUp p (20 + r) s)
  let s1 := if ecc.1 then modeTick (failPort p ecc.2) else ecc.2
  let tag := if r = 1 then some (ptpTag f s) else none
  if r == 3 && mpReads s then s1
  else if r == 1 && !ptpUsed f then (if (ptpDomain s1 p f.ptpDom (f.dst == 0x0180C200000E)).isNone then noDomain s1 else s1)
  else ringSet p r (ringGet (portGet s1 p) r ++ [⟨f.len - 4, s.time, f.session, false, false, tag, f.vid⟩]) s1

/-- Codewords of the FEC; modes 2 and 3 have none (R330, R340). -/
def countFec (p : Nat) (f : RxFrame) (s : State) : State :=
  if 2 ≤ s.rd R.NI_CFG_MODE [p] then s
  else
    let s1 := cntAdd p 16 f.corr s
    if f.uncorr = 0 then s1 else raise0 (niBlk p) 3 (cntAdd p 17 f.uncorr s1)

/-- An accepted frame in ring `r` (R332, R336, R337, R356): a port that counts as failed carries neither KCP nor PTP; a KCP frame that has found its
buffers is policed. -/
def acceptFrame (port r : Nat) (f : RxFrame) (s : State) : State :=
  if r < 2 ∧ (portGet s port).failed then s
  else if ringFull s port r f then ringDrop port r s
  else if r = 0 then
    let g := police (policerOf s f.session) f.len s
    if g.1 then deliverRing port 0 f g.2 else g.2
  else
    let s1 := deliverRing port r f s
    if r = 3 then answerAsk port f s1 else s1

/-- FRAME_RX (R331, R334 to R338, R356). -/
def execFrameRx (port : Nat) (f : RxFrame) (s : State) : Host.Outcome State Fault Refusal :=
  .next (
    if !portOn s port ∨ !linkUp s port then s
    else
      let inj := injHit (niBlk port) 1 s
      let s1 := countFec port f inj.2
      match rxDrop s1 port { f with fcsOk := f.fcsOk && f.uncorr == 0 && popc inj.1 == 0 } with
      | some i => cntUp port i s1
      | none =>
        if f.etype = 0x8808 then
          if f.opcode = 1 ∧ (dstKind s1 port f.dst = 0 ∨ dstKind s1 port f.dst = 5) then pauseRx port (f.quanta % 2 ^ 16) s1
          else cntUp port 15 s1
        else
          let s2 := octAdd port 1 f.len (cntUp port 0 s1)
          acceptFrame port (ringOf s2 port f) f s2)

/-- SAFETY_BUFFER_TIMEOUT (R337): 10 ms after delivery. -/
def execSafetyBufferTimeout (port : Nat) (s : State) : Host.Outcome State Fault Refusal :=
  .next (if port < 2 then takeRing port 2 s else s)

/-- FRAME_TX_COMPLETE (R333, R340): frames are padded to 64 bytes. -/
def execFrameTxComplete (port : Nat) (s : State) : Host.Outcome State Fault Refusal :=
  .next (
    if 2 ≤ port then s
    else match (portGet s port).tx with
      | none => s
      | some (q, f) =>
        let s1 := portPut s port { portGet s port with tx := none }
        let s2 := octAdd port 4 (max 64 f.len) (cntUp port 3 s1)
        showDepth q (bumpEgs R.EGS_TC_TX [port, s2.rd R.EGS_QCFG_TC [q]] s2))

end Sys2Proof.Machine
end

