-- ==== Sys2Proof/Machine/Snap.lean ====
section
/-! DEFINITION. Fault sets as hosts see them, checkers met by an access, the scrubber (18 R413, 19 R426 to R432), and snapshots
(19 R433 to R436). -/

namespace Sys2Proof.Machine

/-! Checkers (R431, checkers by SEL). -/

/-- A word that a checker covers: block, SEL, and whether it is SECDED (else parity). -/
def checkerOf (a : Nat) : Option (Blk × Nat × Bool) :=
  if !inRegion a then none
  else if a < 0x100000 then some (.glb, 0, false)
  else if a < 0x200000 then some (.pwr, 0, false)
  else if a < 0x400000 then none
  else if a < 0x500000 then some (.tbu, 0, false)
  else if a < 0x710000 then none
  else if a < 0x730000 then some (.rs, 0, true)
  else if a < 0x810000 then none
  else if a < 0x818000 then some (.ce, 2, true)
  else if a < 0x1000000 then none
  else if a < 0x1800000 then some (.ce, 0, true)
  else if a < 0x2000000 then some (.ce, 1, false)
  else if a < 0x3000000 then
    let k := (a - 0x2000000) / 0x100000
    let o := a % 0x100000
    if 0x10000 ≤ o ∧ o < 0x20000 then some (.eda k, 1, false)
    else if 0x20000 ≤ o ∧ o < 0x40000 then some (.eda k, 0, false) else none
  else if 0x3100000 ≤ a ∧ a < 0x3200000 then some (.esa, 0, false)
  else if 0x3810000 ≤ a ∧ a < 0x4000000 then some (.port, 0, false)
  else if 0x4200000 ≤ a ∧ a < 0x4300000 then some (.pcv, 0, false)
  else if 0x4300000 ≤ a ∧ a < 0x4400000 then some (.saf, 0, false)
  else if 0x4400000 ≤ a ∧ a < 0x4500000 then some (.plan, 0, false)
  else if 0x4500000 ≤ a ∧ a < 0x4600000 then some (.snp, 0, false)
  else none

/-- What follows an error that a checker cannot correct: its STATUS bit where the block has one (else ERR_COUNT alone, which the SAF mirror
has not, R426), and the reaction of its chapter (R68, R100, R140, R159, R205, R435, R443). Each learning bin has its own parity bit: only the bin at the address accessed is written
back as 0, and an access to a whole word meets the error in its first bin (DESIGN CHOICE, log entry 89). -/
def wordError (b : Blk) (sel : Nat) (c : Cause) (s : State) : State :=
  match b, sel with
  | .glb, _ => raise .glb 0 c s
  | .rs, _ => raise .rs 6 c s
  | .ce, 0 =>
    let n := (c.addr - 0x1000000) / 64
    raise .ce 4 c { s with loopBad := if s.loopBad.contains n then s.loopBad else n :: s.loopBad }
  | .ce, 1 => binPut ((c.addr - 0x1800000) / 128) (c.addr % 128 / 2) 0 (countOnly .ce s)
  | .ce, 2 => raise .ce 4 c s
  | .eda k, _ => raise (.eda k) 6 c s
  | .esa, _ =>
    let n := (c.addr - 0x3100000) / 16
    raise .esa 3 { c with addr := sampleAddr n } { s with corrBad := if s.corrBad.contains n then s.corrBad else n :: s.corrBad }
  | .snp, _ => if 0x4520000 ≤ c.addr then raise .snp 2 c s else countOnly .snp s
  | .saf, _ => s
  | b, _ => countOnly b s

/-- An access of `master` to a word through its checker: `flips` bits of the stored word are wrong, and an armed injection adds
its own (R431). -/
def touch (a master acc flips : Nat) (s : State) : State :=
  match checkerOf a with
  | none => s
  | some (b, sel, ecc) =>
    let h := if ecc then injHit b sel s else injParity b sel s
    let n := flips + popc h.1
    let c : Cause := ⟨a, master, acc, if ecc then 2 else 3, if ecc then h.1 else 0, popc h.1 != 0⟩
    if n = 0 then h.2
    else if ecc && n == 1 then countOnly b h.2
    else wordError b sel c h.2

/-- SCRUB_ACCESS (R413): master 0x07 reads and corrects one word of an island that is on. -/
def execScrubAccess (addr flips : Nat) (s : State) : Host.Outcome State Fault Refusal :=
  .next (if regOn s addr then touch addr 7 4 flips s else s)

/-! Fault-set writes (R427, R429, R431, R432). -/

/-- A block by its number in the list of fault sets. -/
def blkAt (i : Nat) : Option Blk := allBlks[i]?

/-- The block's registers can be reached. -/
def blkOn (b : Blk) (s : State) : Bool := regOn s b.base

/-- Clear STATUS bits. -/
def clearStatus (b : Blk) (mask : Nat) (s : State) : State :=
  wrWord s b.base (Nat.land (readN s b.base) (4294967295 - mask % 2 ^ 32))

/-- Free first-error capture. -/
def clearFirst (b : Blk) (s : State) : State := wrWord s (b.base + 0xC) (setBits (readN s (b.base + 0xC)) 15 1 0)

/-- ARM is written: it stays only where the block has a checker for SEL. -/
def armInject (b : Blk) (s : State) : State :=
  let w := readN s (b.base + 0x18)
  wrWord s (b.base + 0x18) (setBits w 31 1 (b2n (hasChecker b (bitsN w 24 3))))

/-- STATUS_CLEAR (R427). -/
def execStatusClear (blk mask : Nat) (s : State) : Host.Outcome State Fault Refusal :=
  .next (match blkAt blk with
    | some b => if blkOn b s then clearStatus b mask s else s
    | none => s)

/-- FIRST_INFO_CLEAR (R429). The SAF mirror has no capture (R426). -/
def execFirstInfoClear (blk : Nat) (s : State) : Host.Outcome State Fault Refusal :=
  .next (match blkAt blk with
    | some b => if blkOn b s && decide (b ≠ .saf) then clearFirst b s else s
    | none => s)

/-- INJECT_ARM (R431, R432): only in MAINTAIN. -/
def execInjectArm (blk sel mask : Nat) (s : State) : Host.Outcome State Fault Refusal :=
  .next (match blkAt blk with
    | some b =>
      if blkOn b s && modeOf s == mMaintain then
        armInject b (wrWord s (b.base + 0x18) (setBits (setBits (readN s (b.base + 0x18)) 24 3 sel) 0 16 mask))
      else s
    | none => s)

/-! Snapshots (R433 to R436). -/

/-- SNAP_PIN (R433, R459). -/
def execSnapPin (s : State) : Host.Outcome State Fault Refusal := .next (snapTrigger (2 ^ 24) s)

/-- No scheduled trigger is pending. -/
def snapUnschedule (s : State) : State :=
  { ((s.wr R.SNP_SCHED [0] 0).wr R.SNP_SCHED [1] 0).wr R.SNP_STATE_SCHED_ARMED [] 0 with snapAt := 0 }

/-- The pending instant name. -/
def snapName (s : State) : Nat := s.rd R.SNP_SCHED [0] + s.rd R.SNP_SCHED [1] * 2 ^ 32

/-- A trigger is scheduled; it replaces a pending one (R434). -/
def snapSchedule (name at_ : Nat) (s : State) : State :=
  { ((s.wr R.SNP_SCHED [0] name).wr R.SNP_SCHED [1] (name / 2 ^ 32)).wr R.SNP_STATE_SCHED_ARMED [] 1 with snapAt := at_ }

/-- SNAPSHOT_SCHEDULED_TRIGGER (R433, R434): the instant has come; with its domain OFF or UNLOCKED nothing fires. -/
def execSnapshotScheduledTrigger (s : State) : Host.Outcome State Fault Refusal :=
  .next (
    let d := inDom (snapName s)
    if !s.flag R.SNP_STATE_SCHED_ARMED [] || !islOn s 1 then s
    else if !domUsable s d || !islOn s 6 then raise0 .snp 1 (snapUnschedule s)
    else if s.snapAt ≤ domNs s d then snapTrigger (2 ^ 26) (snapUnschedule s)
    else s)

/-- The snapshot is released. -/
def snapRelease (s : State) : State := s.wr R.SNP_STATE_STATE [] 0

/-- The 68-byte records of an export: an offset and the 64 bytes from it (R436). -/
def exportRecord (s : State) (i : Nat) : List Nat :=
  beBytes 4 (64 * i) ++ ((span 0 16).map fun k => leBytes 4 (snapWord s.pic (64 * i + 4 * k))).flatten

/-- The time of the snapshot's trigger in domain `d`, as its header has it (R360, R435). -/
def snapStamp (s : State) (d : Nat) : Bool × Nat × Nat :=
  let w (k : Nat) : Nat := snapWord s.pic (0x40 + 16 * d + 4 * k)
  (decide (2 ≤ bitsN (w 0) 30 2), w 1, w 2)

/-- The buffer goes into the export queue; a HELD snapshot is being exported from then on (R436). -/
def snapExport (s : State) : State :=
  if s.rd R.SNP_STATE_STATE [] = 2 then s
  else
    let q := s.rd R.SNP_CTRL_EXPQ []
    let s1 := if s.rd R.SNP_STATE_STATE [] = 1 then s.wr R.SNP_STATE_STATE [] 2 else s
    (span 0 13440).foldl (fun t i => addRecordAt (snapStamp s) q 6 (exportRecord s i) t) s1

/-- SNAPSHOT_EXPORT_END (R434): released with AUTOREL, else HELD again. -/
def execSnapshotExportEnd (s : State) : Host.Outcome State Fault Refusal :=
  .next (
    if s.rd R.SNP_STATE_STATE [] ≠ 2 then s
    else s.wr R.SNP_STATE_STATE [] (b2n (!s.flag R.SNP_CTRL_AUTOREL [])))

end Sys2Proof.Machine
end

