-- ==== Sys2Proof/Machine/Access.lean ====
section
/-! DEFINITION. Register access by KCP READ and WRITE (16_kcp R370, R371; 00_scope R5, R6; 20_register_summary R438 to R442). -/

namespace Sys2Proof.Machine

/-- An aligned address inside a block region (R370). -/
def addrOk (a : Nat) : Bool := decide (a % 4 = 0) && inRegion a

/-! Reads. -/

/-- Words that a read of `a` latches, and whether the latch serves one read only (R101, R110, R168, R340; JSEQ, TIME, IMGSEQ). -/
def latchGroup (a : Nat) : List Nat × Bool :=
  if a = 0x110 ∨ a = 0x300110 ∨ a = 0x200104 then ([a + 4], true)
  else if a = 0x501004 ∨ a = 0x501010 ∨ a = 0x509004 ∨ a = 0x509010 then ([a + 4], true)
  else if 0x3200000 ≤ a ∧ a < 0x3248000 ∧ a % 8 = 0 then ([a + 4], true)
  else if 0x1000000 ≤ a ∧ a < 0x1230000 ∧ a % 64 = 0 then ((span 1 15).map fun i => a + 4 * i, false)
  else if 0x401010 ≤ a ∧ a < 0x403000 ∧ (a - 0x401010) % 0x400 = 0 then ([a + 4, a + 8, a + 12, a + 16], false)
  else ([], false)

/-- What a word reads as, the load of a cluster included (R113). -/
def readView (s : State) (a : Nat) : Nat :=
  if 0x800120 ≤ a ∧ a < 0x800130 ∧ regOn s a then
    let c := (a - 0x800120) / 4
    setBits (setBits (readN s a) (R.CE_LOADSTAT_CAP).lo (R.CE_LOADSTAT_CAP).width (750 * liveOf s c))
      (R.CE_LOADSTAT_PEAK).lo (R.CE_LOADSTAT_PEAK).width (peakSeen s c)
  else viewWord s a

/-- The read of a word clears its RC fields; a low-water mark starts again at the buffers free now (R6, R342). -/
def readClear (a : Nat) (s : State) : State :=
  let m := accMask .rc (fieldsAt a)
  if m = 0 then s
  else if 0x500000 ≤ a ∧ a < 0x510000 then
    wrWord s a (setBits (readN s a) (R.NI_RING_LOW).lo (R.NI_RING_LOW).width (bitsN (readN s a) (R.NI_RING_FREE).lo (R.NI_RING_FREE).width))
  else wrWord s a (Nat.land (readN s a) (4294967295 - m))

/-- Read one word as the MP does for KCP (R370): a latched word, else the present one; then its latches and clears. -/
def readWord (a : Nat) (s : State) : Nat × State :=
  if !regOn s a then (0, s)
  else
    let l := cellGet (fun _ => 0) s.latch a
    let v := if l = 0 then readView s a else l - 1
    let single := (latchGroup (a - 4)).2 && decide (4 ≤ a)
    let c0 := if single then cellErase s.latch a else s.latch
    let c1 := (latchGroup a).1.foldl (fun c x => cellSet (fun _ => 0) c x (readView s x + 1)) c0
    (v, touch a 0 0 0 (readClear a { s with latch := c1 }))

/-- Read words in order. -/
def readWordsIn : List Nat → State → List Nat × State
  | [], s => ([], s)
  | a :: t, s =>
    let r := readWord a s
    let q := readWordsIn t r.2
    (r.1 :: q.1, q.2)

/-- A word holds an RC field. -/
def isRc (a : Nat) : Bool := accMask .rc (fieldsAt a) != 0

/-- Addresses of a READ body, none for a malformed one (R370). -/
def readAddrs (count mode : Nat) (addrs : List Nat) : Option (List Nat) :=
  if count = 0 ∨ 256 < count then none
  else if mode = 0 then (if addrs.length = count then some addrs else none)
  else if mode = 1 then
    match addrs with
    | [a] => some ((span 0 count).map fun i => a + 4 * i)
    | _ => none
  else none

/-- Index of the first item that fails a test. -/
def firstBad {α : Type} (ok : α → Bool) : List α → Nat → Option Nat
  | [], _ => none
  | x :: t, i => if ok x then firstBad ok t (i + 1) else some i

/-! Validation of writes (R371). -/

/-- The word that an item would leave. -/
def merged (s : State) (a mask v : Nat) : Nat :=
  (maskIn (BitVec.ofNat 32 (readN s a)) (BitVec.ofNat 32 mask) (BitVec.ofNat 32 v)).toNat

/-- Check 5 of R371: every new value lies within the range that its chapter gives. `w` is the word the item would leave. -/
def valueOk (s : State) (a mask w : Nat) : Bool :=
  if 0x2000000 ≤ a ∧ a < 0x3000000 then
    (if a % 0x100000 = 0x100 then slewOk s ((a - 0x2000000) / 0x100000) mask w
     else if a % 0x100000 = 0x104 then bytesOk mask w 8 200 else true)
  else if 0x3801000 ≤ a ∧ a < 0x3802000 then losOk mask w
  else if 0x3803000 ≤ a ∧ a < 0x3803080 then setptOk (a % 16) mask w
  else if a = 0x800100 then !(hits R.CE_RATECFG_VOA mask) || !(decide (bitsN w 8 2 = 3) && anySlp s)
  else if a = 0x800104 then within R.CE_SUPV_NGOODMIN mask w 1 7 && within R.CE_SUPV_NBADMAX mask w 2 15
  else if 0x401000 ≤ a ∧ a < 0x403000 ∧ a % 0x400 = 4 then within R.TBU_DOM_HOLD_HOLDOVER_T mask w 100 60000
  else if a = 0x700100 then within R.RS_CTRL_REOPT_GAP mask w 1 255
  else if 0x4402000 ≤ a ∧ a < 0x4402100 then
    !(hits R.PLAN_RCTL_EN mask) || !bitN w 31 || decide (s.rd R.PLAN_RULE_TTYPE [(a - 0x4402000) / 4] ≠ 0)
  else if 0x4404000 ≤ a ∧ a < 0x4404020 then
    !(hits R.PLAN_SCTL_RUN mask) || !bitN w 31 || schedPresent s ((a - 0x4404000) / 4)
  else if a = 0x4000114 then bytesOk mask w 10 255
  else if a = 0x4000118 then within R.CAL_RECCFG_PERIOD mask w 1 24
  else if a = 0x500104 ∨ a = 0x508104 then
    within R.NI_CLASSCFG_VID mask w 0 4094 && within R.NI_CLASSCFG_KCP_PORT mask w 1 65535
  else if 0x680000 ≤ a ∧ a < 0x700000 then queueOk (a % 8) mask w
  else if 0x631000 ≤ a ∧ a < 0x631080 then sampOk (a % 8) mask w
  else if a = 0x300130 then within R.JNL_CFG_IDLE_T mask w 10 3600
  else if a = 0x4100100 then bytesOk mask w 1 255
  else true

/-- The address is the INJECT register of a fault set. -/
def injectBlk (a : Nat) : Option Blk := allBlks.find? fun b => a == b.base + 0x18

/-- Check 6 of R371: conditions of mode or state (R418, R432). -/
def stateReason (s : State) (a mask v : Nat) : Option Nat :=
  if (injectBlk a).isSome && mask != 0 && modeOf s != mMaintain then some rModeForbids
  else if 0x100200 ≤ a ∧ a < 0x100278 ∧ bitN (Nat.land mask v) 27 ∧ !restartOk ((a - 0x100200) / 4) s then some rNotPermitted
  else none

/-- The present mode's overlay names a field that the mask covers (R29). -/
def overlayHit (s : State) (a mask : Nat) : Bool :=
  (overlayOf s (modeOf s)).any fun f => (mirrored f.1).contains a && Nat.land f.2.1 mask != 0

/-- `CE.RATECFG` once every item is applied. -/
def rateWord (s : State) (items : List (Nat × Nat × Nat)) : Nat :=
  (items.filter fun f => f.1 == 0x800100).foldl (fun w f =>
    (maskIn (BitVec.ofNat 32 w) (BitVec.ofNat 32 f.2.1) (BitVec.ofNat 32 f.2.2)).toNat) (readN s 0x800100)

/-- The load check of R115: every element, whatever its loop does, at the higher of its lit and dark rates, which is the smaller
code. -/
def capacityOk (s : State) (w : Nat) : Bool :=
  fullPower s || loadOk s (span 0 35840) fun n => if 34816 ≤ n then bitsN w 8 2 else min (bitsN w 4 2) (bitsN w 0 2)

/-- Words whose fields are all RO to KCP whatever the same offset holds elsewhere: the configuration of the fixed queues (R361), and the SAF
mirror but for its STATUS (R305). -/
def roWord (a : Nat) : Bool :=
  (decide (0x6FFF80 ≤ a) && decide (a < 0x700000)) || (decide (0x4300000 < a) && decide (a < 0x4400000))

/-- The reason for which one item is rejected (R371), none when it passes every check. -/
def itemReason (s : State) (all : List (Nat × Nat × Nat)) (f : Nat × Nat × Nat) : Option Nat :=
  let a := f.1
  let mask := f.2.1 % 2 ^ 32
  let v := f.2.2 % 2 ^ 32
  let l := fieldsAt a
  let rwr := l.filter fun F => F.acc == .rwr
  let free := Nat.lor (Nat.lor (accMask .rwr l) (accMask .w1c l)) (accMask .w1s l)
  if !addrOk a then some rMalformed
  else if !regOn s a then some rNotPermitted
  else if Nat.land mask free ≠ mask ∨ (roWord a ∧ mask ≠ 0) then some rNotPermitted
  else if rwr.any fun F => hits F mask && Nat.land F.mask mask != F.mask then some rMalformed
  else if !valueOk s a mask (merged s a (Nat.land mask (accMask .rwr l)) v) then some rMalformed
  else match stateReason s a mask v with
    | some r => some r
    | none =>
      if overlayHit s a mask then some rOverlayConflict
      else if a = 0x800100 ∧ mask ≠ 0 ∧ !capacityOk s (rateWord s all) then some rEngineCapacity
      else none

/-- The first item that is rejected, with its index and reason. -/
def firstReject (s : State) (all : List (Nat × Nat × Nat)) : List (Nat × Nat × Nat) → Nat → Option (Nat × Nat)
  | [], _ => none
  | f :: t, i =>
    match itemReason s all f with
    | some r => some (i, r)
    | none => firstReject s all t (i + 1)

/-! Application of writes (R29, R31, R371). -/

/-- Bits of a `PLAN.RCTL` write (R240, R243). -/
def writeRctl (r mask v : Nat) (s : State) : State :=
  let s1 := if bitN mask 31 then enableRule r (bitN v 31) s else s
  let s2 := if bitN (Nat.land mask v) 30 then rearm r s1 else s1
  if bitN (Nat.land mask v) 29 then releaseWrite r s2 else s2

/-- What a write of a word sets going beside its value. `old` is the word before it. -/
def writeHook (a mask v old : Nat) (s : State) : State :=
  let one (i : Nat) : Bool := bitN (Nat.land mask v) i
  if a = 0x800100 ∨ a = 0x3000100 ∨ (0x3801000 ≤ a ∧ a < 0x3803080) then fieldHook a old s
  else if 0x401000 ≤ a ∧ a < 0x403000 ∧ a % 0x400 = 0x30 then (if one 31 then stepGo ((a - 0x401000) / 0x400) s else s)
  else if 0x4404000 ≤ a ∧ a < 0x4404020 then
    let k := (a - 0x4404000) / 4
    if one 31 then startSched k s else if bitN mask 31 then stopSched k false s else s
  else if 0x4402000 ≤ a ∧ a < 0x4402100 then writeRctl ((a - 0x4402000) / 4) mask v s
  else if 0x100200 ≤ a ∧ a < 0x100278 then (if one 27 then restartWrite ((a - 0x100200) / 4) s else s)
  else if a = 0x4500100 then
    let s1 := if one 31 then snapRelease s else s
    if one 30 then snapExport s1 else s1
  else if a = 0x500100 ∨ a = 0x508100 then
    (if bitN mask 28 && !bitN v 28 then pauseLoad ((a - 0x500100) / 0x8000) 0 s else s)
  else match injectBlk a with
    | some b => if one 31 then armInject b s else s
    | none => s

/-- Fields whose value the hook itself writes. -/
def hookOwned (a : Nat) : Bool :=
  (decide (0x4402000 ≤ a) && decide (a < 0x4402100)) || (decide (0x4404000 ≤ a) && decide (a < 0x4404020))

/-- Apply one accepted item by master 0x02: RWR bits take their values and become the working base (R29), W1C bits written
with 1 clear, W1S bits act. -/
def applyItem (f : Nat × Nat × Nat) (s : State) : State :=
  let a := f.1
  let mask := f.2.1 % 2 ^ 32
  let v := f.2.2 % 2 ^ 32
  let l := fieldsAt a
  let m := Nat.land mask (accMask .rwr l)
  let c := Nat.land (Nat.land mask v) (accMask .w1c l)
  let old := readN s a
  let s1 := if m = 0 ∨ hookOwned a then s else putMasked a m v s
  let base := if m = 0 then s1.wbase else
    (mirrored a).foldl (fun w x =>
      cellSet resetWord w x (maskIn (cellGet resetWord w x) (BitVec.ofNat 32 m) (BitVec.ofNat 32 v))) s1.wbase
  let s2 := if c = 0 then s1 else wrWord s1 a (Nat.land (readN s1 a) (4294967295 - c))
  if mask = 0 then s else touch a 2 1 0 (writeHook a mask v old { s2 with wbase := base })

/-- Items in the entries of the journal: seven per entry (R371). -/
def writeChunks : Nat → List (Nat × Nat × Nat) → List (List Nat)
  | 0, _ => []
  | n + 1, l =>
    let one (f : Nat × Nat × Nat) : List Nat := beBytes 4 f.1 ++ beBytes 4 f.2.1 ++ beBytes 4 f.2.2
    if l.length ≤ 7 then [(l.map one).flatten] else ((l.take 7).map one).flatten :: writeChunks n (l.drop 7)

end Sys2Proof.Machine
end

