-- ==== Sys2Proof/Machine/Kcp.lean ====
section
/-! DEFINITION. KCP requests (16_kcp_and_journal R362 to R377, R381, R384; 17_boot R399, R400; 19 R436): addressing, authentication,
sequence handling, and what each request does. -/

namespace Sys2Proof.Machine

/-! Answers. -/

/-- A header within the widths of its fields. -/
def normHdr (h : Hdr) : Hdr :=
  { h with port := h.port % 2, mid := h.mid % 64, session := h.session % 32, seq := h.seq % 2 ^ 32 }

def ackOf (r : Req) (body : List Nat) : Ans := ⟨r.type + 0x80, 0, 0, 0, false, body⟩
def rejOf (type reason index : Nat) : Ans := ⟨Nat.lor type 0x80, 1, reason, index, false, []⟩
def staleOf (type : Nat) : Ans := ⟨Nat.lor type 0x80, 2, 0, 0, false, []⟩

/-- What a request comes to: an answer formed now, one formed later (R372), or no journal to consume its SEQ in (R369). -/
inductive Reply where
  | now (a : Ans)
  | later
  | full
  deriving DecidableEq, Repr

/-- A message that failed authentication (R365). -/
def sigFail (k : Nat) (s : State) : State := raise0 .jnl 2 (s.incS R.JNL_SCNT_SIGFAIL [k])

/-- Types marked journaled (R364). -/
def journaledType (t : Nat) : Bool := !(t == 0x03 || t == 0x07 || t == 0x0B || t == 0x0C) && decide (t ≤ 0x0E) && t != 0

/-- The words of a READ body include one with an RC field (R369). -/
def readsRc : Req → Bool
  | .read count mode addrs => ((readAddrs count mode addrs).getD []).any isRc
  | _ => false

/-- The request is answered only with the journal at hand (R7, R10, R369, R379). -/
def needsJournal (s : State) (r : Req) : Bool :=
  journaledType r.type || readsRc r || (r.type == 0x0B && !islOn s 1)

/-- Journal entry kinds of a request (R369, R378): its acceptance, and its rejection. -/
def accepted (h : Hdr) (type : Nat) (payload : List Nat) (s : State) : State :=
  commitV h.verA h.verB 0x01 0 h.session type h.seq payload s
def rejected (h : Hdr) (type reason index : Nat) (s : State) : State :=
  commitV h.verA h.verB 0x06 0 h.session type h.seq (beBytes 4 h.seq ++ [type, reason] ++ beBytes 2 index) s

/-- A request is turned away with a reason. -/
def refuse (h : Hdr) (r : Req) (reason index : Nat) (s : State) : Reply × State :=
  (.now (rejOf r.type reason index), if journaledType r.type then rejected h r.type reason index s else s)

/-! Sessions (R365 to R367). -/

/-- A session is closed: requests held in its reorder window go. -/
def closeSess (k : Nat) (s : State) : State :=
  sessPut (s.wr R.JNL_SESS_OPEN [k] 0) k { sessGet s k with held := [] }

/-- SESSION entry (R366): open or close, key slot, rights, key. -/
def sessEntry (h : Hdr) (type op : Nat) (k slot rights key : Nat) (s : State) : State :=
  commitV h.verA h.verB 0x08 0 k type h.seq ([op, slot, rights] ++ beBytes 64 key) s

/-- A header for what the module does by itself. -/
def ownHdr (k : Nat) : Hdr := ⟨0, 0, k, 0, false, true, true, true, 1, 0, Peer.none, none⟩

/-- The header breaks R363: a reserved bit set, VER other than 1, LEN above 8,192. The answer to the last two is that to the first (DESIGN
CHOICE, log entry 126). -/
def badHdr (h : Hdr) : Bool := h.rsvd || h.ver != 1 || decide (8192 < h.len)

/-- The host key of a slot in the image in force. -/
def hostKey (s : State) (slot : Nat) : Nat :=
  match s.image with
  | some im => ((im.keys.find? fun k => k.slot == slot).map (·.key)).getD 0
  | none => 0

/-- OPEN answer body (R365). -/
def openBody (s : State) (k modNonce : Nat) : List Nat :=
  let b := beBytes 133 (Config.modulePub modNonce) ++ beBytes 32 modNonce ++ beBytes 4 (s.rd R.JNL_SESS_NEXT [k]) ++
    beBytes 4 (s.rd R.JNL_SESS_CSEQ [k]) ++ [s.rd R.JNL_SESS_RIGHTS [k]]
  b ++ beBytes 132 (Config.signature b)

/-- Completions held for a session leave (R366, R367, R373). -/
def sendHeld (k : Nat) (s : State) : State :=
  let v := sessGet s k
  let s1 := sessPut s k { v with waiting := [], sent := (v.waiting.reverse ++ v.sent).take 1024 }
  v.waiting.foldl (fun t c => sendCompletion false c t) s1

/-- The session of an accepted OPEN from `peer`: with RESUME by its own key slot only the key is new (R366). -/
def openSess (k slot : Nat) (resume planobs : Bool) (key : Nat) (peer : Peer) (s : State) : State :=
  let v := sessGet s k
  let s1 := s.wr R.JNL_SESS_OPEN [k] 1
  if resume then sessPut s1 k { v with key := key, hkey := hostKey s slot, peer := peer }
  else
    let s2 := (s1.wr R.JNL_SESS_PLANOBS [k] (b2n planobs)).wr R.JNL_SESS_KEYSLOT [k] slot
    sessPut ((s2.wr R.JNL_SESS_NEXT [k] 1).wr R.JNL_SESS_RIGHTS [k] (s.rd R.JNL_HKEY_RIGHTS [slot])) k
      { v with key := key, hkey := hostKey s slot, window := [], held := [], waiting := [], peer := peer, late := none }

/-- An OPEN that has passed its checks (R365, R366). -/
def acceptOpen (h : Hdr) (slot : Nat) (resume planobs : Bool) (openId key modNonce : Nat) (s : State) : State :=
  let k := h.session
  let own := resume && decide ((sessGet s k).openAns.type ≠ 0) && decide (s.rd R.JNL_SESS_KEYSLOT [k] = slot)
  let s1 := openSess k slot own planobs key h.peer s
  let s2 := sessEntry h 0x01 1 k slot (s1.rd R.JNL_SESS_RIGHTS [k]) key s1
  let a : Ans := ⟨0x81, 0, 0, 0, false, openBody s2 k modNonce⟩
  let s3 := sendAnswer h false a (sessPut s2 k { sessGet s2 k with openId := openId, openAns := a })
  if own then sendHeld k s3 else s3

/-! Journal at hand. -/

/-- Entries for this request will verify in a live copy; a live copy that would not is retired (R379). -/
def journalTakes (h : Hdr) (s : State) : Bool × State :=
  if !jnlReady s then (false, s)
  else if (copyLive s 0 && h.verA) || (copyLive s 1 && h.verB) then (true, s)
  else
    let s1 := saveHist s
    let s2 := if copyLive s1 0 then retireCopy 0 s1 else s1
    (false, if copyLive s2 1 then retireCopy 1 s2 else s2)

/-! Requests that read. -/

/-- READ (R370). -/
def doRead (h : Hdr) (r : Req) (count mode : Nat) (addrs : List Nat) (s : State) : Reply × State :=
  match readAddrs count mode addrs with
  | none => refuse h r rMalformed 0 s
  | some l =>
    match firstBad addrOk l 0 with
    | some i => refuse h r rMalformed i s
    | none =>
      let q := readWordsIn l s
      let s1 := if l.any isRc then
          commitV h.verA h.verB 0x07 0 h.session 0x03 h.seq
            ((l.zipWith (fun a v => beBytes 4 a ++ beBytes 4 v) q.1).flatten) q.2
        else q.2
      (.now (ackOf r (q.1.map (beBytes 4)).flatten), s1)

/-- The live copy that is read. -/
def readCopy (s : State) : Cells Entry :=
  if copyLive s 0 then s.jnl.copyA else if copyLive s 1 then s.jnl.copyB else []

/-- The newest entry with a property. -/
def newestEntry (s : State) (p : Entry → Bool) : Option Entry :=
  (readCopy s).foldl (fun b c =>
    if p c.2 then (match b with
      | some x => if x.jseq < c.2.jseq then some c.2 else some x
      | none => some c.2) else b) none

/-- The FINAL entry of an event by session and SSEQ (`key` 0) or by ASEQ. -/
def finalEntry (s : State) (key session num : Nat) : Option Entry :=
  newestEntry s fun e => e.kind == 3 && (if key = 0 then e.session == session && e.seq == num else e.aseq == num)

/-- The pending event that a QUERY or CANCEL names. -/
def pendingBy (s : State) (key session num : Nat) : Option Ev :=
  s.evs.find? fun e => if key = 0 then e.session == session && e.sseq == num else e.aseq == num

/-- An event was a group member, by its ACCEPT record (R208). -/
def wasGroup (s : State) (aseq : Nat) : Bool :=
  match newestEntry s fun e => (e.kind == 1 || e.kind == 0x0E) && e.aseq == aseq && e.type == 5 && decide (e.part ≤ 1) with
  | some e => bitN (nthD 0 e.payload 1) 7
  | none => false

/-- The `RS.EVTAB` entry image of a final event, rebuilt from its FINAL entry (R234). -/
def imageOf (s : State) (e : Entry) : List Nat :=
  let b (i : Nat) : Nat := nthD 0 e.payload i
  [b 0 * 16 + b 2 / 4 % 2 * 8 + b 2 / 2 % 2 * 4 + b 2 % 2 * 2 + b2n (wasGroup s e.aseq), b 1, 0, e.session] ++
    beBytes 4 e.seq ++ beBytes 4 e.aseq ++ beBytes 4 (b 3 * 2 ^ 24 + (b 12 * 256 + b 13) % 1024)

/-- The event-table entry as it stands. -/
def tabImage (s : State) (i : Nat) : List Nat := ((span 0 4).map fun w => beBytes 4 (readN s (0x790000 + 16 * i + 4 * w))).flatten

/-- A completion that the event table still shows (R234). -/
def keptCompl (s : State) (key session num : Nat) : Option (Nat × Compl) :=
  s.shown.find? fun c => if key = 0 then c.2.session == session && c.2.sseq == num else c.2.aseq == num

/-- The event's FINAL entry waits for a copy that takes it (R466). -/
def owesFinal (s : State) (key session num : Nat) : Bool :=
  s.jnl.owed.any fun c => if key = 0 then c.2.1.session == session && c.2.1.sseq == num else c.2.1.aseq == num

/-- The body of a QUERY answer for an event whose FINAL entry is not owed: the event table's entry, with the completion of a final event; from
the journal once the entry has been reused; STATE 0 for an event found nowhere (R234, R466). -/
def queryBody (s : State) (key session num : Nat) : List Nat :=
  match pendingBy s key session num with
  | some e => tabImage s e.tab
  | none =>
    match keptCompl s key session num with
    | some c => tabImage s c.1 ++ complBytes c.2
    | none =>
      match finalEntry s key session num with
      | some e => imageOf s e ++ e.payload.take 44
      | none => List.replicate 16 0

/-- QUERY (R234, R466): of an event whose FINAL entry is not committed yet it is answered once it is. -/
def doQuery (h : Hdr) (r : Req) (key session num : Nat) (s : State) : Reply × State :=
  if 1 < key then refuse h r rMalformed 0 s
  else if owesFinal s key session num then (.later, s)
  else (.now (ackOf r (queryBody s key session num)), s)

/-- Queries that waited for FINAL entries are answered (R466). -/
def answerQueries (s : State) : State :=
  (span 1 31).foldl (fun t k =>
    match (sessGet t k).late with
    | some (h, .query key session num) =>
      if owesFinal t key session num then t else answerLate h (ackOf (.query key session num) (queryBody t key session num)) t
    | _ => t) s

/-- ATTEST (R377). -/
def doAttest (r : Req) (nonce : Nat) (s : State) : Reply × State :=
  let digest := match s.image with | some im => im.digest | none => 0
  let b := [s.rd R.GLB_MID_MID [], modeOf s, s.rd R.CL_BOOT_SLOT []] ++ beBytes 64 digest ++
    beBytes 4 (s.rd R.CAL_RECORD_SEQ []) ++ beBytes 8 s.jnl.last ++ beBytes 4 s.jnl.aseq ++ beBytes 32 nonce
  (.now (ackOf r (b ++ beBytes 132 (Config.signature b))), s)

/-- JREAD (R381): committed entries from a JSEQ, or from the oldest still held. -/
def doJread (h : Hdr) (r : Req) (jseq count : Nat) (s : State) : Reply × State :=
  if count = 0 ∨ 64 < count then refuse h r rMalformed 0 s
  else
    let first := max jseq (oldestJ s)
    let l := if islOn s 1 then (span first count).filterMap (entryAt s) else []
    (.now { ackOf r (l.map entryBytes).flatten with trunc := decide (max 1 jseq < oldestJ s) }, s)

/-! Requests that write. -/

/-- WRITE (R371): one entry per seven items. -/
def doWrite (h : Hdr) (r : Req) (items : List (Nat × Nat × Nat)) (s : State) : Reply × State :=
  if items.isEmpty ∨ 64 < items.length then refuse h r rMalformed 0 s
  else match firstReject s items items 0 with
    | some (i, reason) => refuse h r reason i s
    | none =>
      let s1 := commitEntries h.verA h.verB (partEntries 0x05 0 h.session 0x04 h.seq (writeChunks 10 items)) s
      (.now (ackOf r []), items.foldl (fun t f => applyItem f t) s1)

/-! Events and groups. -/

/-- EVENT (R213, R214). -/
def doEvent (h : Hdr) (r : Req) (e : EvReq) (arrival : Nat) (s : State) : Reply × State :=
  match validateEvent h.session arrival e s with
  | .error x => refuse h r x 0 (noteFull x s)
  | .ok v => (.now (ackOf r (beBytes 4 (s.jnl.aseq + 1))), acceptEvent h.verA h.verB h.session h.seq e v [] s)

/-- CANCEL (R229). -/
def doCancel (h : Hdr) (r : Req) (session sseq : Nat) (s : State) : Reply × State :=
  let body := [session, 0, 0, 0] ++ beBytes 4 sseq
  if session ≠ h.session then refuse h r rNotPermitted 0 s
  else match pendingBy s 0 session sseq with
    | some e =>
      if e.req.group then refuse h r rNotPermitted 0 s
      else if evArmed ≤ e.st then refuse h r rTimePassed 0 s
      else (.now (ackOf r []), placeReady (finalise e evCancelled 0 (accepted h 0x06 body s)))
    | none =>
      match keptCompl s 0 session sseq with
      | some c => (.now (ackOf r []), sendCompletion true c.2 (accepted h 0x06 body s))
      | none =>
        match finalEntry s 0 session sseq with
        | some e =>
          (.now (ackOf r []), sendBody true session (ofBe ((e.payload.drop 44).take 4)) (e.payload.take 44) (accepted h 0x06 body s))
        | none => if owesFinal s 0 session sseq then (.now (ackOf r []), accepted h 0x06 body s) else refuse h r rMalformed 0 s

/-- The pending event of a group. -/
def groupEv (s : State) (gid : Nat) : Option Ev := s.evs.find? fun e => e.req.group && e.req.gid == gid

/-- GROUP_COMMIT (R231, R375). A second receipt of the same commit before the cutoff is acknowledged and does nothing. -/
def doGroupCommit (h : Hdr) (r : Req) (gid members instant : Nat) (sig : GSig) (s : State) : Reply × State :=
  if !sig.ok then refuse h r rSignature 0 (sigFail h.session s)
  else match groupEv s gid with
    | none => refuse h r rMalformed 0 s
    | some e =>
      if e.req.members ≠ members ∨ e.req.instant ≠ instant ∨ (!e.committed ∧ e.st ≠ evSolved) then refuse h r rMalformed 0 s
      else if !beforeCutoff s e then refuse h r rTimePassed 0 s
      else if e.committed then
        (.now (ackOf r []), accepted h 0x09 (beBytes 4 gid ++ beBytes 8 members ++ beBytes 8 instant ++ [0, 0, 0, 0]) s)
      else (.now (ackOf r []), commitGroup h.verA h.verB h.session 0x09 h.seq sig.bits e s)

/-- The journal holds the commit of a group: from a host, or from an echo. -/
def wasCommitted (s : State) (gid : Nat) : Bool :=
  (newestEntry s fun e => e.kind == 1 && (e.type == 0x09 || e.type == 0xC2) && e.payload.take 4 == beBytes 4 gid).isSome

/-- GROUP_ABORT (R231, R375); one that comes after a commit is counted, the event final or not. -/
def doGroupAbort (h : Hdr) (r : Req) (gid : Nat) (s : State) : Reply × State :=
  match groupEv s gid with
  | none =>
    if wasCommitted s gid then (.now (ackOf r []), evStatus 6 (accepted h 0x0A (beBytes 4 gid) s)) else refuse h r rMalformed 0 s
  | some e =>
    let s1 := accepted h 0x0A (beBytes 4 gid) s
    (.now (ackOf r []), if e.committed then evStatus 6 s1 else placeReady (finalise e evFailed rGroupAbort s1))

/-! MODE (R372). -/

def doMode (h : Hdr) (r : Req) (op arg rsvd : Nat) (s : State) : Reply × State :=
  let m := modeOf s
  let s1 := accepted h 0x08 ([op, arg] ++ beBytes 2 rsvd) s
  let waits := s.modes.leaving.isSome
  if rsvd ≠ 0 ∨ op = 0 ∨ 4 < op ∨ (op = 1 ∧ arg ≠ 4 ∧ arg ≠ 5) ∨ (op ≠ 1 ∧ arg ≠ 0) then refuse h r rMalformed 0 s
  else if op = 1 ∧ m < mDark then refuse h r rModeForbids 0 s
  else if op = 1 then
    let s2 := modeTickBy 0x07 0x0B (s1.wr R.PWR_MODE_RESTING [] arg)
    (.now (ackMode s2), s2)
  else if op = 2 then
    if (m = mRun ∨ m = mEco ∨ m = mDegraded) ∧ bothGrants s then
      let s2 := modeTickBy 0x07 0x0B (s1.wr R.PWR_MODE_C_MAINT [] 1)
      (.now (ackMode s2), s2)
    else refuse h r rModeForbids 0 s
  else if (m = mMaintain ∨ (op = 4 ∧ m = mDark ∧ !s.flag R.CAL_RECORD_VALID [])) ∧ !waits then
    (.later, { s1 with modes := { s1.modes with leaving := some (op, h) } })
  else refuse h r rModeForbids 0 s

/-! SNAPSHOT (R433, R434, R436). -/

def doSnapshot (h : Hdr) (r : Req) (op instant : Nat) (s : State) : Reply × State :=
  let body := [op, 0, 0, 0] ++ beBytes 8 instant
  let ack (met : Bool) (t : State) : Reply × State := (.now (ackOf r (beBytes 4 (t.rd R.SNP_SNAPSEQ []) ++ [b2n met])), t)
  let on (i : Nat) : Bool := bitN (s.rd R.SNP_CTRL_SRC_EN []) (i - 24)
  if op = 1 then
    if !on 25 then refuse h r rNotPermitted 0 s
    else ack (decide (s.rd R.SNP_STATE_STATE [] ≠ 0) && !snapJoins s) (snapTrigger (2 ^ 25) (accepted h 0x0D body s))
  else if op = 2 then
    if !on 26 then refuse h r rNotPermitted 0 s
    else match resolveName s instant (domNs s (inDom instant)) with
      | .error x => refuse h r x 0 s
      | .ok t => ack false (snapSchedule instant t (accepted h 0x0D body s))
  else if op = 3 then ack false (snapUnschedule (accepted h 0x0D body s))
  else if op = 4 then ack false (snapRelease (accepted h 0x0D body s))
  else if op = 5 then ack false (snapExport (accepted h 0x0D body s))
  else refuse h r rMalformed 0 s

/-! UPDATE (R399, R400). -/

/-- The session owns the update. -/
def ownsUpdate (h : Hdr) (s : State) : Bool := s.flag R.CL_UPD_OWNED [] && s.rd R.CL_UPD_SESSION [] == h.session

/-- What a slot holds. -/
def putSlot (b : Bool) (im : Option Image) (s : State) : State :=
  { s with flash := if b then { s.flash with slotB := im } else { s.flash with slotA := im } }

/-- Add a range to ranges that are ascending and apart. -/
def addRange (a b : Nat) : List (Nat × Nat) → List (Nat × Nat)
  | [] => [(a, b)]
  | x :: t =>
    if b < x.1 then (a, b) :: x :: t
    else if x.2 < a then x :: addRange a b t
    else addRange (min a x.1) (max b x.2) t

/-- A range meets bytes already programmed. -/
def meetsRange (a b : Nat) (l : List (Nat × Nat)) : Bool := l.any fun x => decide (x.1 < b) && decide (a < x.2)

/-- Bytes programmed. -/
def rangeBytes (l : List (Nat × Nat)) : Nat := (l.map fun x => x.2 - x.1).sum

/-- The UPDATE condition goes off and the owner is cleared; a record write that has waited for it takes place (R276). -/
def endUpdate (cause : Nat) (s : State) : State :=
  waitedRecord <| modeTickBy cause 0x0B ((s.wr R.PWR_MODE_C_UPD [] 0).wr R.CL_UPD_OWNED [] 0)

def doUpdBegin (h : Hdr) (r : Req) (total : Nat) (s : State) : Reply × State :=
  if modeOf s ≠ mRun ∧ modeOf s ≠ mEco ∧ !s.flag R.CL_UPD_OWNED [] then refuse h r rModeForbids 0 s
  else if s.flag R.CL_UPD_OWNED [] then refuse h r rNotPermitted 0 s
  else
    let b := inactiveSlot s
    let s1 := putSlot b none (setSlot b 4 (accepted h 0x0E ([1, 0, 0, 0] ++ beBytes 4 total) s))
    let s2 := ((s1.wr R.CL_UPD_OWNED [] 1).wr R.CL_UPD_SESSION [] h.session).wr R.CL_UPD_KIB [] 0
    let s3 := { s2.wr R.PWR_MODE_C_UPD [] 1 with updTotal := total, updRanges := [] }
    (.now (ackOf r []), modeTickBy 0x07 0x0B s3)

def doUpdData (h : Hdr) (r : Req) (offset len digest : Nat) (differs : Bool) (s : State) : Reply × State :=
  if !ownsUpdate h s then refuse h r rNotPermitted 0 s
  else if len = 0 ∨ 8000 < len ∨ s.updTotal < offset + len ∨ (differs ∧ meetsRange offset (offset + len) s.updRanges) then
    refuse h r rMalformed 0 s
  else
    let s1 := accepted h 0x0E ([2, 0, 0, 0] ++ beBytes 4 offset ++ beBytes 2 len ++ [0, 0] ++ beBytes 16 digest) s
    let l := addRange offset (offset + len) s.updRanges
    (.now (ackOf r []), { s1.wr R.CL_UPD_KIB [] (rangeBytes l / 1024) with updRanges := l })

def doUpdFinish (h : Hdr) (r : Req) (content : Option Image) (s : State) : Reply × State :=
  if !ownsUpdate h s then refuse h r rNotPermitted 0 s
  else
    let b := inactiveSlot s
    let s1 := putSlot b content (accepted h 0x0E [3, 0, 0, 0] s)
    let k := match content with | some im => verifyImage s1.otp im | none => 1
    (.now (ackOf r []),
      if k = 0 then endUpdate 0x10 (setSlot b 1 s1)
      else endUpdate 0x11 (raise .cl 2 (slotCause b) ((setSlot b 4 s1).wr R.CL_BOOT_FAILITEM [] k)))

/-- Both images allow a hold-through restart (R400). -/
def holdAllowed (s : State) (im : Image) : Bool :=
  match s.image with
  | some x => x.holdOk && im.holdOk && x.holdKey == im.holdKey
  | none => false

/-- ACTIVATE: with HOW 1 or 2 the MP reads no further request until the reset or the restart that follows. -/
def doUpdActivate (h : Hdr) (r : Req) (how : Nat) (s : State) : Reply × State :=
  let b := inactiveSlot s
  if s.flag R.PWR_MODE_C_UPD [] then refuse h r rModeForbids 0 s
  else match slotImage s b with
    | none => refuse h r rMalformed 0 s
    | some im =>
      if slotState s b ≠ 1 ∨ 2 < how ∨ (how = 2 ∧ !holdAllowed s im) then refuse h r rMalformed 0 s
      else if how = 2 ∧ modeOf s ≠ mRun ∧ modeOf s ≠ mEco then refuse h r rModeForbids 0 s
      else
        let s2 := setTrial 0 (setSlot b 3 (accepted h 0x0E [4, 0, 0, 0, how] s))
        (.now (ackOf r []), if how = 0 then s2 else { s2 with jnl := { s2.jnl with stopped := true } })

def doUpdAbandon (h : Hdr) (r : Req) (s : State) : Reply × State :=
  if !ownsUpdate h s then refuse h r rNotPermitted 0 s
  else (.now (ackOf r []), modeTickBy 0x11 0x0B (abandonUpdate (accepted h 0x0E [5, 0, 0, 0] s)))

/-! Processing (R364, R368, R369). -/

/-- CLOSE (R366, R367). -/
def doClose (h : Hdr) (r : Req) (s : State) : Reply × State :=
  let k := h.session
  (.now (ackOf r []),
    closeSess k (sessEntry h 0x02 2 k (s.rd R.JNL_SESS_KEYSLOT [k]) (s.rd R.JNL_SESS_RIGHTS [k]) (sessGet s k).key s))

/-- The session lacks the right that a request needs (R364). -/
def lacksRight (s : State) (h : Hdr) (r : Req) : Bool :=
  match r.right with
  | some i => !bitN (s.rd R.JNL_SESS_RIGHTS [h.session]) i
  | none => false

/-- What a request does. A header that breaks R363 is turned away before the rights are looked at (DESIGN CHOICE, log entry 126: R213 and R364
do not order the two). -/
def perform (h : Hdr) (r : Req) (s : State) : Reply × State :=
  if badHdr h then refuse h r rMalformed 0 s
  else if lacksRight s h r then refuse h r rNotPermitted 0 s
  else match r with
    | .close => doClose h r s
    | .read count mode addrs => doRead h r count mode addrs s
    | .write items => doWrite h r items s
    | .event e arrival => doEvent h r e arrival s
    | .cancel session sseq => doCancel h r session sseq s
    | .query key session num => doQuery h r key session num s
    | .mode op arg rsvd => doMode h r op arg rsvd s
    | .groupCommit gid members instant sig => doGroupCommit h r gid members instant sig s
    | .groupAbort gid => doGroupAbort h r gid s
    | .attest nonce => doAttest r nonce s
    | .jread jseq count => doJread h r jseq count s
    | .snapshot op instant => doSnapshot h r op instant s
    | .updBegin total => doUpdBegin h r total s
    | .updData offset len digest differs => doUpdData h r offset len digest differs s
    | .updFinish content => doUpdFinish h r content s
    | .updActivate how => doUpdActivate h r how s
    | .updAbandon => doUpdAbandon h r s
    | .unknown _ => refuse h r rMalformed 0 s

/-- With the journal needed and not at hand the request is rejected and consumes nothing (R10, R369). -/
def attempt (h : Hdr) (r : Req) (s : State) : Reply × State :=
  if needsJournal s r then
    let j := journalTakes h s
    if j.1 then perform h r j.2 else (.full, j.2)
  else perform h r s

/-- Process the request whose turn has come: NEXT advances once its answer is formed (R368). -/
def serve (h : Hdr) (r : Req) (s : State) : State :=
  let q := attempt h r s
  match q.1 with
  | .now a => answerCopies h a (sendAnswer h false a (consume h r a q.2))
  | .later => leaveNow (sessPut q.2 h.session { sessGet q.2 h.session with late := some (h, r) })
  | .full => sendAnswer h false (rejOf r.type rJournalFull 0) q.2

/-- Held requests whose turn has come are processed in SEQ order (R368). -/
def drainHeld : Nat → Nat → State → State
  | 0, _, s => s
  | n + 1, k, s =>
    let v := sessGet s k
    let next := s.rd R.JNL_SESS_NEXT [k]
    match v.held.find? fun x => x.1 == next with
    | none => s
    | some x =>
      if v.late.isSome then s else
      let rest := v.held.erase x
      let s1 := serve x.2.1 x.2.2 (sessPut s k { v with held := rest })
      if s1.rd R.JNL_SESS_NEXT [k] = next then s1 else drainHeld n k s1

/-- A request whose duplicate is executed afresh (R369). -/
def freshType (r : Req) : Bool := !journaledType r.type && !readsRc r

/-- A duplicate (R368, R369): answered from the journal, or executed afresh. -/
def serveDup (h : Hdr) (r : Req) (a : Ans) (s : State) : State :=
  let s1 := s.incS R.JNL_SCNT_DUPS [h.session]
  if freshType r then
    let q := attempt h r s1
    match q.1 with
    | .now b => sendAnswer h true b q.2
    | .later => q.2
    | .full => sendAnswer h true (rejOf r.type rJournalFull 0) q.2
  else sendAnswer h true a s1

/-- The request is a copy of the one whose answer is not formed yet (R368). -/
def isLate (s : State) (h : Hdr) : Bool :=
  match (sessGet s h.session).late with
  | some (g, _) => g.seq == h.seq
  | none => false

/-- Sequence handling (R368). -/
def bySeq (h : Hdr) (r : Req) (s : State) : State :=
  let k := h.session
  let v := sessGet s k
  let d := (h.seq + 2 ^ 32 - s.rd R.JNL_SESS_NEXT [k]) % 2 ^ 32
  if isLate s h then sessPut s k { v with held := v.held ++ [(h.seq, h, r)] }
  else if d = 0 then drainHeld 16 k (serve h r s)
  else if d < 16 then sessPut s k { v with held := v.held ++ [(h.seq, h, r)] }
  else if d < 2 ^ 31 then s.incS R.JNL_SCNT_GAPDROP [k]
  else match v.window.find? fun x => x.1 == h.seq with
    | some x => serveDup h x.2.1 x.2.2 s
    | none => sendAnswer h false (staleOf r.type) (s.incS R.JNL_SCNT_STALE [k])

/-- The oldest KCP frame of the port is the request: its arrival stamp (R337). -/
def kcpStamp (s : State) (p default : Nat) : Nat :=
  match (portGet s p).kcp with
  | x :: _ => x.stamp
  | [] => default

/-- A request is read from its port's KCP ring: addressee (R363), session (R367), TAG (R365), sequence. With the ring empty there is none to
read (R336). -/
def kcp (h0 : Hdr) (r0 : Req) (s : State) : State :=
  let h := normHdr h0
  if !kcpUp s ∨ (portGet s h.port).kcp.isEmpty then s
  else
    let r := h.odd.getD r0
    let s1 := drainHeld 16 h.session (takeRing h.port 0 s)
    if h.mid ≠ s1.rd R.GLB_MID_MID [] then cntUp h.port 10 s1
    else if h.session = 0 ∨ !sessOpen s1 h.session then sendAnswer h false (rejOf r.type rSessionInvalid 0) s1
    else if !h.tagOk then sendAnswer h false (rejOf r.type rSignature 0) (sigFail h.session s1)
    else modeTick (bySeq h r s1)

/-! The requests as commands. -/

/-- An OPEN is rejected: journaled before it is answered (R366, R369). -/
def rejectOpen (h : Hdr) (reason : Nat) (s : State) : State :=
  let j := journalTakes h s
  if j.1 then sendAnswer h false (rejOf 0x01 reason 0) (rejected h 0x01 reason 0 j.2)
  else sendAnswer h false (rejOf 0x01 rJournalFull 0) j.2

/-- OPEN (R363 to R367): carries no TAG and consumes no SEQ. -/
def kcpOpen (h0 : Hdr) (slot : Nat) (resume planobs : Bool) (openId : Nat) (sigOk : Bool) (key modNonce : Nat) (s : State) :
    State :=
  let h := normHdr h0
  if h.odd.isSome then kcp h0 .close s
  else if !kcpUp s ∨ (portGet s h.port).kcp.isEmpty then s
  else
    let s1 := takeRing h.port 0 s
    let k := h.session
    let v := sessGet s1 k
    let rej (x : Nat) (t : State) : State := rejectOpen h x t
    if h.mid ≠ s1.rd R.GLB_MID_MID [] then cntUp h.port 10 s1
    else if badHdr h ∨ 30 < slot then rej rMalformed s1
    else if k = 0 then rej rSessionInvalid s1
    else if !s1.flag R.JNL_HKEY_VALID [slot] then rej rNotPermitted s1
    else if !sigOk then rej rSignature (sigFail k s1)
    else if sessOpen s1 k ∧ s1.rd R.JNL_SESS_KEYSLOT [k] ≠ slot then rej rSessionInvalid s1
    else if v.openAns.type ≠ 0 ∧ v.openId = openId then sendAnswer h true v.openAns s1
    else
      let j := journalTakes h s1
      modeTick (if j.1 then acceptOpen h slot resume planobs openId key modNonce j.2
        else sendAnswer h false (rejOf 0x01 rJournalFull 0) j.2)

def execOpenSession (h : Hdr) (slot : Nat) (resume planobs : Bool) (openId : Nat) (sigOk : Bool) (key modNonce : Nat)
    (s : State) : Host.Outcome State Fault Refusal :=
  .next (kcpOpen h slot resume planobs openId sigOk key modNonce s)

/-- CLOSE (R366, R367). -/
def execCloseSession (h : Hdr) (s : State) : Host.Outcome State Fault Refusal := .next (kcp h .close s)

/-- SESSION_IDLE_TIMEOUT (R367, R387): IDLE_T seconds without a valid request, out of RESET. -/
def execSessionIdleTimeout (session : Nat) (s : State) : Host.Outcome State Fault Refusal :=
  .next (
    let k := session % 32
    if k = 0 ∨ !sessOpen s k ∨ !kcpUp s ∨ !jnlReady s then s
    else closeSess k (sessEntry (ownHdr k) 0 2 k (s.rd R.JNL_SESS_KEYSLOT [k]) (s.rd R.JNL_SESS_RIGHTS [k]) (sessGet s k).key s))

/-- REORDER_TIMEOUT (R368): held for 2 ms. A copy of the request whose answer is not formed yet waits for it. -/
def execReorderTimeout (session seq : Nat) (s : State) : Host.Outcome State Fault Refusal :=
  .next (
    let k := session % 32
    let v := sessGet s k
    if (v.late.any fun x => x.1.seq == seq) || (v.window.any fun x => x.1 == seq) || !(v.held.any fun x => x.1 == seq) then s
    else (sessPut s k { v with held := v.held.filter fun x => x.1 != seq }).incS R.JNL_SCNT_GAPDROP [k])

/-- READ (R370). -/
def execReadWords (h : Hdr) (count mode : Nat) (addrs : List Nat) (s : State) : Host.Outcome State Fault Refusal :=
  .next (kcp h (.read count mode addrs) s)

/-- WRITE (R371). -/
def execWriteWords (h : Hdr) (items : List (Nat × Nat × Nat)) (s : State) : Host.Outcome State Fault Refusal :=
  .next (kcp h (.write items) s)

/-- ATTEST (R377). -/
def execAttest (h : Hdr) (nonce : Nat) (s : State) : Host.Outcome State Fault Refusal := .next (kcp h (.attest nonce) s)

/-- JREAD (R381). -/
def execJread (h : Hdr) (jseq count : Nat) (s : State) : Host.Outcome State Fault Refusal := .next (kcp h (.jread jseq count) s)

/-- EVENT (R213): `arrival` is its stamp unless the frame waits in the ring (R337). -/
def execSubmitEvent (h : Hdr) (e : EvReq) (arrival : Nat) (s : State) : Host.Outcome State Fault Refusal :=
  .next (kcp h (.event e (kcpStamp s (h.port % 2) arrival)) s)

/-- CANCEL (R229). -/
def execCancelEvent (h : Hdr) (session sseq : Nat) (s : State) : Host.Outcome State Fault Refusal :=
  .next (kcp h (.cancel session sseq) s)

/-- QUERY (R466). -/
def execQueryEvent (h : Hdr) (key session num : Nat) (s : State) : Host.Outcome State Fault Refusal :=
  .next (kcp h (.query key session num) s)

/-- GROUP_COMMIT (R231). -/
def execGroupCommit (h : Hdr) (gid members instant : Nat) (sig : GSig) (s : State) : Host.Outcome State Fault Refusal :=
  .next (kcp h (.groupCommit gid members instant sig) s)

/-- GROUP_ABORT (R231). -/
def execGroupAbort (h : Hdr) (gid : Nat) (s : State) : Host.Outcome State Fault Refusal := .next (kcp h (.groupAbort gid) s)

/-- SET_RESTING (R372). -/
def execSetResting (h : Hdr) (arg : Nat) (s : State) : Host.Outcome State Fault Refusal := .next (kcp h (.mode 1 arg 0) s)

/-- ENTER_MAINTAIN (R372). -/
def execEnterMaintain (h : Hdr) (s : State) : Host.Outcome State Fault Refusal := .next (kcp h (.mode 2 0 0) s)

/-- LEAVE_MAINTAIN (R303, R372). -/
def execLeaveMaintain (h : Hdr) (s : State) : Host.Outcome State Fault Refusal := .next (kcp h (.mode 3 0 0) s)

/-- RECALIBRATE (R23, R372). -/
def execRecalibrate (h : Hdr) (s : State) : Host.Outcome State Fault Refusal := .next (kcp h (.mode 4 0 0) s)

/-- SNAPSHOT_TRIGGER (R433, R436). -/
def execSnapshotTrigger (h : Hdr) (s : State) : Host.Outcome State Fault Refusal := .next (kcp h (.snapshot 1 0) s)

/-- SNAPSHOT_SCHEDULE (R434, R436). -/
def execSnapshotSchedule (h : Hdr) (instant : Nat) (s : State) : Host.Outcome State Fault Refusal :=
  .next (kcp h (.snapshot 2 instant) s)

/-- SNAPSHOT_CANCEL_SCHEDULE (R436). -/
def execSnapshotCancelSchedule (h : Hdr) (s : State) : Host.Outcome State Fault Refusal := .next (kcp h (.snapshot 3 0) s)

/-- SNAPSHOT_RELEASE (R434). -/
def execSnapshotRelease (h : Hdr) (s : State) : Host.Outcome State Fault Refusal := .next (kcp h (.snapshot 4 0) s)

/-- SNAPSHOT_EXPORT (R436). -/
def execSnapshotExport (h : Hdr) (s : State) : Host.Outcome State Fault Refusal := .next (kcp h (.snapshot 5 0) s)

/-- UPDATE_BEGIN (R399). -/
def execUpdateBegin (h : Hdr) (total : Nat) (s : State) : Host.Outcome State Fault Refusal := .next (kcp h (.updBegin total) s)

/-- UPDATE_DATA (R399). -/
def execUpdateData (h : Hdr) (offset len digest : Nat) (differs : Bool) (s : State) : Host.Outcome State Fault Refusal :=
  .next (kcp h (.updData offset len digest differs) s)

/-- UPDATE_FINISH (R399). -/
def execUpdateFinish (h : Hdr) (content : Option Image) (s : State) : Host.Outcome State Fault Refusal :=
  .next (kcp h (.updFinish content) s)

/-- UPDATE_ACTIVATE (R399, R400). -/
def execUpdateActivate (h : Hdr) (how : Nat) (s : State) : Host.Outcome State Fault Refusal := .next (kcp h (.updActivate how) s)

/-- UPDATE_ABANDON (R399). -/
def execUpdateAbandon (h : Hdr) (s : State) : Host.Outcome State Fault Refusal := .next (kcp h .updAbandon s)

end Sys2Proof.Machine
end

