-- ==== Sys2Proof/Machine/Recover.lean ====
section
/-! DEFINITION. The journal copies, power failure, recovery (16_kcp_and_journal R379, R382, R383; R86, R228, R249, R367, R373) and the
hold-through restart (17_boot R400, R401). -/

namespace Sys2Proof.Machine

/-! The two copies (R379). -/

def copyGet (s : State) (c : Nat) : Cells Entry := if c = 0 then s.jnl.copyA else s.jnl.copyB
def copyPut (c : Nat) (l : Cells Entry) (s : State) : State :=
  { s with jnl := if c = 0 then { s.jnl with copyA := l } else { s.jnl with copyB := l } }

/-- The MP is at work: neither down nor in a recovery. -/
def mpWorks (s : State) : Bool := !s.modes.mpDown && !s.jnl.recovering && islOn s 2 && islOn s 1

/-- JOURNAL_COPY_SELF_CHECK (R379): 60 s after a retirement or a failed check. A copy that passes is resynchronised from the
survivor; after three failures it stays retired until the next RESET. -/
def execJournalCopySelfCheck (copy : Nat) (passed : Bool) (s : State) : Host.Outcome State Fault Refusal :=
  .next (
    if 2 ≤ copy ∨ s.rd R.JNL_COPY_STATE [copy] ≠ 1 ∨ 3 ≤ s.rd R.JNL_COPY_CHECKS [copy] ∨ !mpWorks s then s
    else if !passed then s.inc R.JNL_COPY_CHECKS [copy]
    else if copyLive s (1 - copy) then (s.wr R.JNL_COPY_STATE [copy] 2).wr R.JNL_COPY_PROGRESS [copy] 0
    else s)

/-- JOURNAL_RESYNC_DONE (R379): the copy matches the survivor and DEGRADED ends. -/
def execJournalResyncDone (copy : Nat) (s : State) : Host.Outcome State Fault Refusal :=
  .next (
    if 2 ≤ copy ∨ s.rd R.JNL_COPY_STATE [copy] ≠ 2 ∨ !copyLive s (1 - copy) ∨ !islOn s 1 then s
    else
      let s1 := copyPut copy (copyGet s (1 - copy)) s
      let s2 := ((s1.wr R.JNL_COPY_STATE [copy] 0).wr R.JNL_COPY_CHECKS [copy] 0).wr R.JNL_COPY_PROGRESS [copy] 65535
      modeTick (degOff (degCopy copy) s2))

/-! Power failure (R382). -/

/-- Requests in reorder windows are abandoned without an answer, and so is a query that waits. -/
def dropHeld (s : State) : State :=
  let drop (v : Sess) : Sess := { v with held := [], late := lateKept v.late }
  { s with sess := (s.sess.map fun v => (v.1, drop v.2)).filter fun v => decide (v.2 ≠ Sess.closed) }

/-- PWR_FAIL_ASSERT (R382): KCP reading stops, POWERFAIL is committed, both copies are write-protected. -/
def execPwrFailAssert (s : State) : Host.Outcome State Fault Refusal :=
  .next (
    if s.jnl.protect ∨ modeOf s = mReset ∨ !islOn s 1 then s
    else
      let s1 := saveHist (raise0 .jnl 4 (commit 0x0F 0 0 0 0 [1] (dropHeld s)))
      { s1 with jnl := { s1.jnl with protect := true } })

/-- PWR_FAIL_RELEASE (R382): high for 1 ms without a reset; final states decided meanwhile are
committed and reported (R466), and events whose arming fell in the interval run late (R228). -/
def execPwrFailRelease (s : State) : Host.Outcome State Fault Refusal :=
  .next (
    if !s.jnl.protect then s
    else
      let s1 := answerQueries (flushOwed (commit 0x0F 0 0 0 0 [0] { s with jnl := { s.jnl with protect := false } }))
      if modeActive (modeOf s1) then placeReady (lateEvents (plansResume s1)) else s1)

/-! Recovery, step 1: the copies are read and merged (R383). -/

/-- The entries of a copy with a valid CRC; a copy that is not live is not read. -/
def validCopy (s : State) (c : Nat) (bad : List Nat) : Cells Entry :=
  if copyLive s c then (copyGet s c).filter fun x => !bad.contains x.2.jseq else []

/-- For each slot the entry with the higher JSEQ. -/
def mergeCopies (a b : Cells Entry) : Cells Entry :=
  b.foldl (fun l x =>
    if (cellGet (fun _ => Entry.blank) l x.1).jseq < x.2.jseq then cellSet (fun _ => Entry.blank) l x.1 x.2 else l) a

/-- The first slot whose entry a live copy lacks. -/
def lackedSlot (s : State) (a b m : Cells Entry) : Option Nat :=
  (m.find? fun x => (copyLive s 0 && !a.contains x) || (copyLive s 1 && !b.contains x)).map (·.1)

/-- The merged entries go into every live copy; CRC_REPAIR tells that one of them lacked an entry, with the MP's read of its slot. -/
def mergeJournal (badA badB : List Nat) (s : State) : State :=
  let a := validCopy s 0 badA
  let b := validCopy s 1 badB
  let m := mergeCopies a b
  let s1 := if copyLive s 0 then copyPut 0 m s else s
  let s2 := if copyLive s 1 then copyPut 1 m s1 else s1
  match lackedSlot s a b m with
  | some k => raise .jnl 3 ⟨k * 128, 0, 0, 4, 0, false⟩ s2
  | none => s2

/-- First JSEQ, after the start of the replay, that is missing from both copies. -/
def gapAt (badA badB : List Nat) (s : State) : Option Nat :=
  let lo := (s.jnl.hist.map (·.1)).head?.getD 0
  let lost := (badA ++ badB).filter fun j => decide (lo < j) && decide (j ≤ s.jnl.last) && (entryAt s j).isNone
  match lost with
  | [] => none
  | j :: t => some (t.foldl min j)

/-! Step 2: what the journal holds is put back (R249, R380, R383). -/

/-- A rule's, or a schedule's, definition is the one that the saved words have. -/
def sameWords (old new : Cells Word) (a n : Nat) : Bool :=
  (span 0 n).all fun i => cellGet resetWord old (a + 4 * i) == cellGet resetWord new (a + 4 * i)
def keepRule (old new : Cells Word) (r : Nat) : Bool := sameWords old new (0x4401000 + 0x20 * r) 8
def keepSched (old new : Cells Word) (k : Nat) : Bool := sameWords old new (0x4403000 + 0x80 * k) 32

/-- A word that the journal puts back: not the definitions themselves, nor what the image configures of a session. -/
def restoredWord (old new : Cells Word) (a : Nat) : Bool :=
  durableWord a &&
    (if a < 0x400000 then a % 16 != 12
     else if 0x4401000 ≤ a ∧ a < 0x4402000 then false
     else if 0x4402000 ≤ a ∧ a < 0x4402100 then keepRule old new ((a - 0x4402000) / 4)
     else if 0x4403000 ≤ a ∧ a < 0x4404000 then false
     else if 0x4404000 ≤ a ∧ a < 0x4404020 then keepSched old new ((a - 0x4404000) / 4)
     else decide (a < 0x4405000))

/-- `PLAN.CLAIM` follows the rules and schedules that hold claims. -/
def showClaims (s : State) : State := claimPorts (otherClaims s 64 64) true (dropRange s 0x4405000 0x4405080)

/-- Put back what a replay has rebuilt; `new` are the words with the definitions of the image in force. -/
def putBack (v : Saved) (s : State) : State :=
  let new := s.regs
  let keep (a : Nat) : Bool := restoredWord v.words new a
  let words := v.words.filter fun c => keep c.1
  let s1 := words.foldl (fun t c => wrWord t c.1 c.2.toNat) { s with regs := cellDrop keep s.regs }
  let p := v.plan
  let plan := { p with hits := [], claims := p.claims.filter (keepSched v.words new),
                       timeFired := p.timeFired.filter (keepRule v.words new) }
  showClaims (dropHeld { s1 with evs := v.evs, sess := v.sess, finals := v.finals, shown := v.shown, plan := plan, repairs := v.repairs })

/-- Entries of the elements that connections of the live map use (R21, R383). -/
def restoreTargets (s : State) : State :=
  (span 0 512).foldl (fun t n => match liveRoute t n with
    | some r =>
      if r.routed then
        (routeElems r).foldl (fun u p => if islOn u (actIsland p.1) then rebuildEntry p.1 u else u) t
      else t
    | none => t) s

/-- Registers that show the journal. -/
def showJournal (s : State) : State :=
  let lo := (s.jnl.hist.map (·.1)).head?.getD 0 + 1
  let s1 := ((s.wr R.JNL_JSEQ_LO [] s.jnl.last).wr R.JNL_JSEQ_HI [] (s.jnl.last / 2 ^ 32)).wr R.JNL_ASEQ [] s.jnl.aseq
  if lo % 4096 = 0 then s1.wr R.JNL_CKPT [] lo else s1

/-- The replay after a RESET: from the newest checkpoint up to the last entry, or up to a missing one. Local time starts at the RESET: what
the rules waited for began before it (R249), and REOPT_GAP runs from it (R202). -/
def replay (gap : Option Nat) (s : State) : State :=
  let l := match gap with | some g => s.jnl.hist.filter fun h => decide (h.1 < g) | none => s.jnl.hist
  let v := (l.getLast?.map (·.2)).getD Saved.empty
  let p := { v.plan with earlier := span 0 64, reoptAt := v.plan.reoptAt.map fun _ => 0 }
  let s1 := putBack { v with plan := p } s
  let s2 := { s1 with jnl := { s1.jnl with hist := l } }
  let s3 := restoreTargets (showJournal s2)
  match gap with
  | some g => raise .jnl 6 ⟨slotAddr g, 0, 0, 4, 0, false⟩ s3
  | none => s3

/-- A word of the connection and path records. -/
def mapWord (a : Nat) : Bool := decide (0x710000 ≤ a) && decide (a < 0x724000)

/-- The replay after a warm restart (R205, R383): a missing entry ends it as after a RESET. The records of the live map are taken from it
where PI07 has restarted; else the RS has kept them. -/
def warmReplay (gap : Option Nat) (s : State) : State :=
  let l : Cells Saved := match gap with | some g => s.jnl.hist.filter fun h => decide (h.1 < g) | none => s.jnl.hist
  let v : Saved := (l.getLast?.map (·.2)).getD Saved.empty
  let s1 := match gap with
    | some g =>
      let t := putBack { v with words := (v.words.filter fun c => !mapWord c.1) ++ s.regs.filter fun c => mapWord c.1 } s
      raise .jnl 6 ⟨slotAddr g, 0, 0, 4, 0, false⟩ (showJournal { t with jnl := { t.jnl with hist := l } })
    | none => s
  let s2 := if s.rsLost && !l.isEmpty then
      (v.words.filter fun c => mapWord c.1).foldl (fun t c => wrWord t c.1 c.2.toNat) (dropRange s1 0x710000 0x724000)
    else s1
  { s2 with rsLost := false }

/-! Steps 3 and 4: events (R86, R228, R383). -/

/-- Every element that the event moves reads back in its new state (R86). -/
def readsBack (s : State) (e : Ev) : Bool :=
  (movesOf (evChgs e)).all fun p => islOn s (12 + bankOf p.1) && (drvGet s p.1).st == p.2 && !elemFailed s p.1

/-- An event that was ARMED is DONE: every wave has its WAVE entry and, unless the fabric was parked, reads back. -/
def armedDone (fresh : Bool) (s : State) (e : Ev) : Bool :=
  decide (e.started = e.waves.length) && (fresh || readsBack s e)

/-- Resolve the events that were ARMED, in acceptance order; DONE and FAILED are counted. -/
def resolveArmed (fresh : Bool) (s : State) : State :=
  let l := s.evs.filter fun e => e.st == evArmed
  l.foldl (fun t e => match evFind t e.aseq with
    | none => t
    | some x =>
      if armedDone fresh t x then finalise x evDone 0 (applyRestated x (t.wr R.JNL_RECOV_DONE [] (min 255 (t.rd R.JNL_RECOV_DONE [] + 1))))
      else finalise x evFailed rResetDuring (t.wr R.JNL_RECOV_FAILED [] (min 255 (t.rd R.JNL_RECOV_FAILED [] + 1)))) s

/-- Events of a PI07 or MP restart, and of a RESET: what was ARMED is resolved, the rest is solved again, or fails where SAFE_STOP or
LOCKOUT has been entered meanwhile (R14). -/
def recoverEvents (fresh : Bool) (s : State) : State :=
  let s0 := resolveArmed fresh s
  let locked := modeOf s0 = mSafeStop ∨ modeOf s0 = mLockout
  let s1 := if locked then failWhere (fun _ => true) rSafetyLocked s0 else keepAndResolve s0
  if modeActive (modeOf s1) then lateEvents s1 else s1

/-! Steps 5 and 6: RECOVERY entry, completions, sessions. -/

/-- A session whose key slot no longer holds its key with its rights closes (R367). -/
def closeStale (s : State) : State :=
  (span 1 31).foldl (fun t k =>
    let slot := t.rd R.JNL_SESS_KEYSLOT [k]
    let rights := t.rd R.JNL_SESS_RIGHTS [k]
    let same := t.flag R.JNL_HKEY_VALID [slot] && t.rd R.JNL_HKEY_RIGHTS [slot] == rights &&
      hostKey t slot == (sessGet t k).hkey
    if sessOpen t k && !same then closeSess k (sessEntry (ownHdr k) 0 2 k slot rights (sessGet t k).key t) else t) s

/-- Completions of the last 10 ms before the interruption are sent again with DUP, then those held (R373, R383). -/
def resendCompletions (fresh again : Bool) (s : State) : State :=
  (span 1 31).foldl (fun t k =>
    if sessOpen t k then
      let v := sessGet t k
      let l := if again then v.sent.reverse.filter fun c => decide (s.modes.downAt ≤ c.time + 10000000) else []
      let t1 := l.foldl (fun u c => sendCompletion true c u) t
      sendHeld k (if fresh then sessPut t1 k { v with sent := [] } else t1)
    else t) s

/-- After a RESET a request that the journal holds as accepted counts as answered: its effect, leaving MAINTAIN or calibrating afresh, has
ended with the RESET (R369). -/
def closeLate (s : State) : State :=
  (span 1 31).foldl (fun t k =>
    match (sessGet t k).late with
    | some (h, r) => consume h r (ackMode t) t
    | none => t) s

/-- The MP is back at work; what waited in the OTHER rings it takes now (R336). -/
def resumeMp (s0 : State) : State :=
  let s := [0, 1].foldl (fun t p => if (portGet t p).other.isEmpty then t else ringSet p 3 [] t) s0
  let s1 := { s with modes := { s.modes with mpDown := false }, jnl := { s.jnl with recovering := false } }
  if s1.modes.degCauses.contains degMp then degOff degMp s1 else s1

/-- The elements of row `row` in plane `p` read back in the states that a connection's path gives them (R205). -/
def rowShown (s : State) (r : Route) (p row : Nat) : Bool :=
  (pathElems p (dIn r.desc) (dOut r.desc) row).all fun x => (drvGet s x.1).st == x.2

/-- The centre row of a path from the element states (R205): the row recorded before where the elements show it. Elements of a bank that
is off show no row, and the connection is in the repair list (R200). -/
def rebuildRow (n p : Nat) (s : State) : State :=
  match liveRoute s n with
  | some r =>
    if !r.routed || rowShown s r p (s.rd R.RS_PATH_CROW [n, p]) then s
    else match (span 0 256).find? (rowShown s r p) with
      | some k => s.wr R.RS_PATH_CROW [n, p] k
      | none => s
  | none => s

/-- The RS rebuilds its path records after a restart of PI07 (R205). -/
def rebuildRows (s : State) : State :=
  if islOn s 7 then (span 0 512).foldl (fun t n => rebuildRow n 1 (rebuildRow n 0 t)) s else s

/-- Notifications that fell due while the MP was down leave now, to the sessions still open (R374, R404). -/
def sendNotes (s : State) : State :=
  s.notes.foldl (fun t n => if sessOpen t n.1 then sendNote n.1 n.2.1 n.2.2 t else t) { s with notes := [] }

/-- Everything of a recovery but the reading of the copies (R383). -/
def recover (fresh : Bool) (gap : Option Nat) (ms : Nat) (s : State) : State :=
  let again := s.modes.mpDown
  let cause := if fresh then s.modes.resetCause else 0xFF
  let s1 := if fresh then replay gap s else rebuildRows (warmReplay gap s)
  let s2 := ((s1.wr R.JNL_RECOV_CAUSE [] cause).wr R.JNL_RECOV_MS [] (min 255 ms)).wr R.JNL_RECOV_DONE [] 0
  let s3 := s2.wr R.JNL_RECOV_FAILED [] 0
  let s4 := if fresh then commit 0x09 0 0 0 0 [s3.modes.resetFrom, mReset, cause] s3 else s3
  let s5 := recoverEvents fresh (if fresh then closeLate s4 else s4)
  let s6 := commit 0x10 0 0 0 0 [cause, min 255 ms, s5.rd R.JNL_RECOV_DONE [], s5.rd R.JNL_RECOV_FAILED []] s5
  let s7 := plansResume (resumeMp (raise0 .jnl 5 s6))
  losAfresh (sendNotes (resendCompletions fresh again (closeStale s7)))

/-- A recovery is due and can run: the MP is out of reset, and after a RESET the module has entered DARK. -/
def recoveryDue (s : State) : Bool :=
  (s.jnl.recovering || s.modes.mpDown) && islOn s 2 && decide (2 ≤ modeOf s) && !s.jnl.protect

/-- JOURNAL_RECOVERY (R383): `badA` and `badB` are the JSEQ values whose entry fails its CRC in a copy. With PI01 latched off there
is no journal to read (R7). -/
def execJournalRecovery (badA badB : List Nat) (ms : Nat) (s : State) : Host.Outcome State Fault Refusal :=
  .next (
    if !recoveryDue s then s
    else if !islOn s 1 then modeTick (resumeMp s)
    else
      let fresh := decide (s.rd R.JNL_RECOV_CAUSE [] = 0)
      let s1 := mergeJournal badA badB s
      modeTick (placeReady (recover fresh (gapAt badA badB s1) ms s1)))

/-! The hold-through restart (R400, R401). -/

/-- BASE records of GLB, PWR, JNL, RS, EGS, PLAN, SNP and PCV are hold-loadable. -/
def holdLoadable (a : Nat) : Bool :=
  decide (a < 0x200000) || (decide (0x300000 ≤ a) && decide (a < 0x400000)) || (decide (0x600000 ≤ a) && decide (a < 0x800000)) ||
    (decide (0x4200000 ≤ a) && decide (a < 0x4300000)) || (decide (0x4400000 ≤ a) && decide (a < 0x4600000))

/-- The hold-loadable sections of an image are written: BASE records, PLAN, KEYS, firmware and identity. Rules and schedules whose
definition is unchanged keep their state and claims. -/
def loadHeld (b : Bool) (im : Image) (s : State) : State :=
  let v := durable s
  let words := im.base.filter (fun w => holdLoadable w.1) ++ im.plan
  let s1 := loadWords words (showImage b im s)
  let s2 := { s1 with wbase := baseWith words s1.wbase }
  putBack v (loadKeys im (loadPlan im s2))

/-- MP and PI07 restart: the waves still armed have run; requests held by the MP are lost. -/
def restartMp (s : State) : State :=
  let s1 := requeueRepairs (armedRepairs s) (dropHeld s)
  { s1 with armed := [], modes := { s1.modes with mpDown := true, downAt := s1.time },
            jnl := { s1.jnl with recovering := true, stopped := false } }

/-- HOLD_THROUGH_RESTART (R401): after an accepted ACTIVATE with HOW 2. A slot that no longer verifies becomes INVALID and the hold-loadable
sections of the image in force are loaded again. -/
def execHoldThroughRestart (badA badB : List Nat) (ms : Nat) (s : State) : Host.Outcome State Fault Refusal :=
  .next (
    let b := inactiveSlot s
    match slotImage s b with
    | none => s
    | some im =>
      if !s.jnl.stopped ∨ slotState s b ≠ 3 ∨ s.modes.mpDown ∨ !islOn s 1 ∨ !islOn s 2 ∨ s.jnl.protect ∨ !s.armed.isEmpty then s
      else
        let olds := overlayOf s (modeOf s)
        let k := verifyImage s.otp im
        let s1 := mergeJournal badA badB (restartMp s)
        if k = 0 ∧ holdAllowed s im then
          let s2 := recover false none ms (loadHeld b im s1)
          let s3 := confirmSlot b s2
          modeTick (placeReady (overlayTo olds (overlayOf s3 (modeOf s3)) s3))
        else
          let s2 := raise .cl 3 (slotCause b) ((setSlot b 4 s1).wr R.CL_BOOT_FAILITEM [] k)
          let back := match s2.image with | some x => loadHeld (!b) x s2 | none => s2
          let s3 := recover false none ms back
          modeTick (placeReady (overlayTo [] olds s3)))

end Sys2Proof.Machine
end

