-- ==== Sys2Proof/Machine/Dispatch.lean ====
section
/-! DEFINITION. One arm per command: a direct call of its meaning. -/

namespace Sys2Proof.Machine

/-- The effect of a command on the state (the queue apart). -/
def exec (i : Instr) (s : State) : Host.Outcome State Fault Refusal :=
  match i with
  | .porstNAssert => Sys2Proof.Machine.execPorstNAssert s
  | .porstNRelease mid supplies otp flash => Sys2Proof.Machine.execPorstNRelease mid supplies otp flash s
  | .pwrInternalReset supplies => Sys2Proof.Machine.execPwrInternalReset supplies s
  | .loadComplete ms => Sys2Proof.Machine.execLoadComplete ms s
  | .darkCheck => Sys2Proof.Machine.execDarkCheck s
  | .darkRelease => Sys2Proof.Machine.execDarkRelease s
  | .calRunStart => Sys2Proof.Machine.execCalRunStart s
  | .calRunEnd outcome meas failed => Sys2Proof.Machine.execCalRunEnd outcome meas failed s
  | .calLightWatch rawX rawY => Sys2Proof.Machine.execCalLightWatch rawX rawY s
  | .setResting h arg => Sys2Proof.Machine.execSetResting h arg s
  | .enterMaintain h => Sys2Proof.Machine.execEnterMaintain h s
  | .leaveMaintain h => Sys2Proof.Machine.execLeaveMaintain h s
  | .recalibrate h => Sys2Proof.Machine.execRecalibrate h s
  | .mpWatchdogExpiry => Sys2Proof.Machine.execMpWatchdogExpiry s
  | .slewTick bank => Sys2Proof.Machine.execSlewTick bank s
  | .kickWaveformEnd elem => Sys2Proof.Machine.execKickWaveformEnd elem s
  | .rampStart elem => Sys2Proof.Machine.execRampStart elem s
  | .handoverEnd elem => Sys2Proof.Machine.execHandoverEnd elem s
  | .elemClrNAssert => Sys2Proof.Machine.execElemClrNAssert s
  | .elemClrNRelease => Sys2Proof.Machine.execElemClrNRelease s
  | .bankSelfPark => Sys2Proof.Machine.execBankSelfPark s
  | .readbackVisit bank latched vh => Sys2Proof.Machine.execReadbackVisit bank latched vh s
  | .driveFreeze elem => Sys2Proof.Machine.execDriveFreeze elem s
  | .sensorSample sensor bits clip => Sys2Proof.Machine.execSensorSample sensor bits clip s
  | .comparatorCrossing comp => Sys2Proof.Machine.execComparatorCrossing comp s
  | .comparatorSelfTest comp passed => Sys2Proof.Machine.execComparatorSelfTest comp passed s
  | .loopUpdate loop engine residueOk => Sys2Proof.Machine.execLoopUpdate loop engine residueOk s
  | .loopEntryRewrite loop => Sys2Proof.Machine.execLoopEntryRewrite loop s
  | .clusterFail cluster => Sys2Proof.Machine.execClusterFail cluster s
  | .clusterOwnershipReturn cluster => Sys2Proof.Machine.execClusterOwnershipReturn cluster s
  | .setptMeasurement input a b => Sys2Proof.Machine.execSetptMeasurement input a b s
  | .setptLosTimeout input => Sys2Proof.Machine.execSetptLosTimeout input s
  | .domainEstimate dom offset cls => Sys2Proof.Machine.execDomainEstimate dom offset cls s
  | .domainFadjWrite dom value => Sys2Proof.Machine.execDomainFadjWrite dom value s
  | .domainPhadjWrite dom value => Sys2Proof.Machine.execDomainPhadjWrite dom value s
  | .domainStepGo dom sec ns => Sys2Proof.Machine.execDomainStepGo dom sec ns s
  | .domainStepApply dom => Sys2Proof.Machine.execDomainStepApply dom s
  | .domainHoldoverEntry dom cause => Sys2Proof.Machine.execDomainHoldoverEntry dom cause s
  | .holdoverExpiry dom => Sys2Proof.Machine.execHoldoverExpiry dom s
  | .ptpSyncRx port seq logInterval twoStep t1 corr => Sys2Proof.Machine.execPtpSyncRx port seq logInterval twoStep t1 corr s
  | .ptpFollowUpRx port seq t1 corr => Sys2Proof.Machine.execPtpFollowUpRx port seq t1 corr s
  | .ptpDelayRespRx port seq logInterval t4 corr => Sys2Proof.Machine.execPtpDelayRespRx port seq logInterval t4 corr s
  | .ptpAnnounceRx port cls vector qualified => Sys2Proof.Machine.execPtpAnnounceRx port cls vector qualified s
  | .delayReqTx dom port => Sys2Proof.Machine.execDelayReqTx dom port s
  | .ppsInPulse input => Sys2Proof.Machine.execPpsInPulse input s
  | .ppsOutEdge => Sys2Proof.Machine.execPpsOutEdge s
  | .submitEvent h e arrival => Sys2Proof.Machine.execSubmitEvent h e arrival s
  | .solveComplete cands exhausted tenths => Sys2Proof.Machine.execSolveComplete cands exhausted tenths s
  | .waveArm aseq => Sys2Proof.Machine.execWaveArm aseq s
  | .waveStart => Sys2Proof.Machine.execWaveStart s
  | .eventDone aseq => Sys2Proof.Machine.execEventDone aseq s
  | .eventDeadlineExpiry aseq => Sys2Proof.Machine.execEventDeadlineExpiry aseq s
  | .cancelEvent h session sseq => Sys2Proof.Machine.execCancelEvent h session sseq s
  | .queryEvent h key session num => Sys2Proof.Machine.execQueryEvent h key session num s
  | .groupCommit h gid members instant sigOk => Sys2Proof.Machine.execGroupCommit h gid members instant sigOk s
  | .groupAbort h gid => Sys2Proof.Machine.execGroupAbort h gid s
  | .commitEcho port gid members instant sigOk => Sys2Proof.Machine.execCommitEcho port gid members instant sigOk s
  | .groupCommitCutoff aseq => Sys2Proof.Machine.execGroupCommitCutoff aseq s
  | .repairSolve cands tenths => Sys2Proof.Machine.execRepairSolve cands tenths s
  | .reoptimisation out => Sys2Proof.Machine.execReoptimisation out s
  | .pathQualityRefresh => Sys2Proof.Machine.execPathQualityRefresh s
  | .ruleFire rule => Sys2Proof.Machine.execRuleFire rule s
  | .trigEdge pin rising => Sys2Proof.Machine.execTrigEdge pin rising s
  | .ruleHoldoffExpiry rule => Sys2Proof.Machine.execRuleHoldoffExpiry rule s
  | .rearmRule rule => Sys2Proof.Machine.execRearmRule rule s
  | .releaseClaim rule => Sys2Proof.Machine.execReleaseClaim rule s
  | .ruleEnable rule on => Sys2Proof.Machine.execRuleEnable rule on s
  | .scheduleStart sched => Sys2Proof.Machine.execScheduleStart sched s
  | .scheduleStop sched => Sys2Proof.Machine.execScheduleStop sched s
  | .scheduleStepSubmit sched => Sys2Proof.Machine.execScheduleStepSubmit sched s
  | .bgB1Model loop sum => Sys2Proof.Machine.execBgB1Model loop sum s
  | .bgB2Curvature elem kpi low swing umod dark => Sys2Proof.Machine.execBgB2Curvature elem kpi low swing umod dark s
  | .bgB3InputTap input rawX rawY taps => Sys2Proof.Machine.execBgB3InputTap input rawX rawY taps s
  | .correctionInForce loop => Sys2Proof.Machine.execCorrectionInForce loop s
  | .correctionGradualStart loop => Sys2Proof.Machine.execCorrectionGradualStart loop s
  | .calRecordWrite ok => Sys2Proof.Machine.execCalRecordWrite ok s
  | .guardContactChange input pin level => Sys2Proof.Machine.execGuardContactChange input pin level s
  | .guardFilterExpiry chan input pin => Sys2Proof.Machine.execGuardFilterExpiry chan input pin s
  | .garnetCycle => Sys2Proof.Machine.execGarnetCycle s
  | .jasperCycle => Sys2Proof.Machine.execJasperCycle s
  | .xlinkPeriodicMsg sender => Sys2Proof.Machine.execXlinkPeriodicMsg sender s
  | .xlinkChangeMsg sender => Sys2Proof.Machine.execXlinkChangeMsg sender s
  | .crossCheckFault chan item => Sys2Proof.Machine.execCrossCheckFault chan item s
  | .tpaPulse => Sys2Proof.Machine.execTpaPulse s
  | .tpbPulse => Sys2Proof.Machine.execTpbPulse s
  | .tpaLoss => Sys2Proof.Machine.execTpaLoss s
  | .testPulseCheck pulse levels => Sys2Proof.Machine.execTestPulseCheck pulse levels s
  | .startupOpenTestRestore levels => Sys2Proof.Machine.execStartupOpenTestRestore levels s
  | .discrepancyTick chan => Sys2Proof.Machine.execDiscrepancyTick chan s
  | .soReadbackFault chan output => Sys2Proof.Machine.execSoReadbackFault chan output s
  | .outputTestStart chan output => Sys2Proof.Machine.execOutputTestStart chan output s
  | .outputTestPass chan => Sys2Proof.Machine.execOutputTestPass chan s
  | .outputTestTimeout chan => Sys2Proof.Machine.execOutputTestTimeout chan s
  | .vsafeFault chan => Sys2Proof.Machine.execVsafeFault chan s
  | .vsafeRecover chan => Sys2Proof.Machine.execVsafeRecover chan s
  | .srstNPressStart chan => Sys2Proof.Machine.execSrstNPressStart chan s
  | .srstNPressRelease chan ms => Sys2Proof.Machine.execSrstNPressRelease chan ms s
  | .deliberateReset => Sys2Proof.Machine.execDeliberateReset s
  | .maintNChange chan level => Sys2Proof.Machine.execMaintNChange chan level s
  | .darkVerify chan port dark => Sys2Proof.Machine.execDarkVerify chan port dark s
  | .lockoutCauseClear chan cause => Sys2Proof.Machine.execLockoutCauseClear chan cause s
  | .telegramCopyRx chan port bytes => Sys2Proof.Machine.execTelegramCopyRx chan port bytes s
  | .telegramPartnerTimeout chan => Sys2Proof.Machine.execTelegramPartnerTimeout chan s
  | .telegramWatchdogExpiry chan => Sys2Proof.Machine.execTelegramWatchdogExpiry chan s
  | .statusTelegramTx => Sys2Proof.Machine.execStatusTelegramTx s
  | .linkUp port rxlat txlat => Sys2Proof.Machine.execLinkUp port rxlat txlat s
  | .linkDown port hiBer lfault rfault => Sys2Proof.Machine.execLinkDown port hiBer lfault rfault s
  | .portFail port memErr => Sys2Proof.Machine.execPortFail port memErr s
  | .portRestored port => Sys2Proof.Machine.execPortRestored port s
  | .frameRx port f => Sys2Proof.Machine.execFrameRx port f s
  | .pauseFrame port quanta => Sys2Proof.Machine.execPauseFrame port quanta s
  | .pauseExpiry port => Sys2Proof.Machine.execPauseExpiry port s
  | .safetyBufferTimeout port => Sys2Proof.Machine.execSafetyBufferTimeout port s
  | .frameEnqueue queue port len tag => Sys2Proof.Machine.execFrameEnqueue queue port len tag s
  | .shaperRefill queue => Sys2Proof.Machine.execShaperRefill queue s
  | .egressSelect port => Sys2Proof.Machine.execEgressSelect port s
  | .frameTxComplete port => Sys2Proof.Machine.execFrameTxComplete port s
  | .gateEntryChange port => Sys2Proof.Machine.execGateEntryChange port s
  | .queueSamplerVisit k queue => Sys2Proof.Machine.execQueueSamplerVisit k queue s
  | .telemetryHoldExpiry queue => Sys2Proof.Machine.execTelemetryHoldExpiry queue s
  | .openSession h slot resume planobs openId sigOk key modNonce => Sys2Proof.Machine.execOpenSession h slot resume planobs openId sigOk key modNonce s
  | .closeSession h => Sys2Proof.Machine.execCloseSession h s
  | .sessionIdleTimeout session => Sys2Proof.Machine.execSessionIdleTimeout session s
  | .reorderTimeout session seq => Sys2Proof.Machine.execReorderTimeout session seq s
  | .readWords h count mode addrs => Sys2Proof.Machine.execReadWords h count mode addrs s
  | .writeWords h items => Sys2Proof.Machine.execWriteWords h items s
  | .attest h nonce => Sys2Proof.Machine.execAttest h nonce s
  | .jread h jseq count => Sys2Proof.Machine.execJread h jseq count s
  | .journalCopySelfCheck copy passed => Sys2Proof.Machine.execJournalCopySelfCheck copy passed s
  | .journalResyncDone copy => Sys2Proof.Machine.execJournalResyncDone copy s
  | .pwrFailAssert => Sys2Proof.Machine.execPwrFailAssert s
  | .pwrFailRelease => Sys2Proof.Machine.execPwrFailRelease s
  | .journalRecovery badA badB ms => Sys2Proof.Machine.execJournalRecovery badA badB ms s
  | .updateBegin h total => Sys2Proof.Machine.execUpdateBegin h total s
  | .updateData h offset len digest differs => Sys2Proof.Machine.execUpdateData h offset len digest differs s
  | .updateFinish h content => Sys2Proof.Machine.execUpdateFinish h content s
  | .updateActivate h how => Sys2Proof.Machine.execUpdateActivate h how s
  | .updateAbandon h => Sys2Proof.Machine.execUpdateAbandon h s
  | .holdThroughRestart badA badB ms => Sys2Proof.Machine.execHoldThroughRestart badA badB ms s
  | .islandSupplyFault island => Sys2Proof.Machine.execIslandSupplyFault island s
  | .islandRestartAttempt island ok => Sys2Proof.Machine.execIslandRestartAttempt island ok s
  | .islandBackInService island engines => Sys2Proof.Machine.execIslandBackInService island engines s
  | .thermalRoundPublish counts => Sys2Proof.Machine.execThermalRoundPublish counts s
  | .islandRestartWrite island => Sys2Proof.Machine.execIslandRestartWrite island s
  | .autoSuspendExpiry island => Sys2Proof.Machine.execAutoSuspendExpiry island s
  | .scrubAccess addr flips => Sys2Proof.Machine.execScrubAccess addr flips s
  | .pcvConversion entry raw => Sys2Proof.Machine.execPcvConversion entry raw s
  | .refxCheck raw => Sys2Proof.Machine.execRefxCheck raw s
  | .refOkSet => Sys2Proof.Machine.execRefOkSet s
  | .statusClear blk mask => Sys2Proof.Machine.execStatusClear blk mask s
  | .firstInfoClear blk => Sys2Proof.Machine.execFirstInfoClear blk s
  | .injectArm blk sel mask => Sys2Proof.Machine.execInjectArm blk sel mask s
  | .snapPin => Sys2Proof.Machine.execSnapPin s
  | .snapshotScheduledTrigger => Sys2Proof.Machine.execSnapshotScheduledTrigger s
  | .snapshotTrigger h => Sys2Proof.Machine.execSnapshotTrigger h s
  | .snapshotSchedule h instant => Sys2Proof.Machine.execSnapshotSchedule h instant s
  | .snapshotCancelSchedule h => Sys2Proof.Machine.execSnapshotCancelSchedule h s
  | .snapshotRelease h => Sys2Proof.Machine.execSnapshotRelease h s
  | .snapshotExport h => Sys2Proof.Machine.execSnapshotExport h s
  | .snapshotExportEnd => Sys2Proof.Machine.execSnapshotExportEnd s
  | .midStrapChange mid => Sys2Proof.Machine.execMidStrapChange mid s
  | .deferralLimitExpiry aseq => Sys2Proof.Machine.execDeferralLimitExpiry aseq s
  | .epochReached dom => Sys2Proof.Machine.execEpochReached dom s
  | .srstNAcceptTimeout chan => Sys2Proof.Machine.execSrstNAcceptTimeout chan s
  | .safetyChannelClockLoss chan => Sys2Proof.Machine.execSafetyChannelClockLoss chan s
  | .islandRequalifyRestart island => Sys2Proof.Machine.execIslandRequalifyRestart island s
  | .policerRefill k => Sys2Proof.Machine.execPolicerRefill k s

end Sys2Proof.Machine
end

