-- ==== Sys2Proof/Safety.lean ====
section
/-! DEFINITION. What a sound state is, a safe run, and what a command leaves as it was: the terms claims are stated in. -/

namespace Sys2Proof.Machine

/-- The register space is in canonical form: addresses strictly rising, no word equal to its reset value. -/
def State.regsWf (s : State) : Bool := cellWf resetWord s.regs

/-- The array of drives is in canonical form and lists elements only (R36). -/
def State.drivesWf (s : State) : Bool :=
  cellWf (fun _ => Drv.idle) s.drv && s.drv.all fun c => decide (c.1 < nElem)

/-- A run of `n` steps never stops. -/
def safeRun : Nat → State → Prop
  | 0, _ => True
  | n + 1, s => ∃ t, step s = .next t ∧ safeRun n t

/-- Every register word outside the list reads as before. -/
def wordsKept (s t : State) (l : List Nat) : Prop := ∀ a, a ∉ l → readN t a = readN s a

/-- Nothing but register words of the list has changed: every other word, and every field of the state beside the register
space, is as before. -/
def onlyWords (s t : State) (l : List Nat) : Prop := t = { s with regs := t.regs } ∧ wordsKept s t l

/-- A command takes effect: its outcome is a next state of which `p` holds. -/
def runs (i : Instr) (s : State) (p : State → Prop) : Prop := ∃ t, exec i s = .next t ∧ p t

/-- None of the conditions of R15 is on. -/
def noCondition (s : State) : Bool :=
  !s.flag R.PWR_MODE_C_LOCKOUT [] && !s.flag R.PWR_MODE_C_STOP [] && !s.flag R.PWR_MODE_C_SHED [] &&
    !s.flag R.PWR_MODE_C_MAINT [] && !s.flag R.PWR_MODE_C_DEG [] && !s.flag R.PWR_MODE_C_UPD []

/-- RUN with no condition on: the mode-control tick changes nothing (R15). -/
def quietRun (s : State) : Bool := modeOf s == mRun && s.rd R.PWR_MODE_RESTING [] == mRun && noCondition s

/-- No mode change is due (R15, R16, R25): the conditions give the mode that is held, and no flash write is to be abandoned. -/
def modeSteady (s : State) : Bool :=
  let m := modeOf s
  if s.flag R.PWR_MODE_C_LOCKOUT [] then m == mLockout
  else if s.flag R.PWR_MODE_C_STOP [] then m == mSafeStop || m == mLockout
  else m == mCalibrate || m == mDark || m == mSafeStop || m == mLockout ||
    (modeByRank s == m && (decide (5 ≤ rankOf m) || !s.flag R.PWR_MODE_C_UPD []))

/-- The overlays of the image in force name eligible fields only, as its verification has found (R27, R28, R392). -/
def overlaysSound (s : State) : Bool := match s.image with | some im => overlaysOk im | none => true

/-- A request whose turn has come (R363 to R369): the MP reads KCP, the request names this module and an open session, its
TAG verifies, its header is as R363 has it, its SEQ is the next one, nothing else waits in the session, its frame alone stands in
the port's ring, and the journal takes its entries. -/
def inTurn (h : Hdr) (s : State) : Bool :=
  kcpUp s && decide (h.port < 2) && h.mid == s.rd R.GLB_MID_MID [] && decide (0 < h.session) && decide (h.session < 32) &&
    sessOpen s h.session && h.tagOk && !badHdr h && h.odd.isNone && h.seq == s.rd R.JNL_SESS_NEXT [h.session] &&
    (sessGet s h.session).held.isEmpty && (sessGet s h.session).late.isNone && (portGet s h.port).kcp.length == 1 &&
    jnlReady s && h.verA && h.verB

/-- The request of header `h` has been served: its SEQ is the newest of the session's window, with its answer (R368). -/
def served (t : State) (h : Hdr) (r : Req) (a : Ans) : Prop :=
  (sessGet t h.session).window.head? = some (h.seq, r, a)

/-- The image in force names no overlay fields (R27). -/
def noOverlays (s : State) : Bool := match s.image with | some im => im.overlays.isEmpty | none => true

end Sys2Proof.Machine
end

