-- ==== Sys2Proof/WellFormed.lean ====
section
/-! DEFINITION. Well-formed commands: every operand within the range that the manual gives what it names. -/

namespace Sys2Proof

/-- A request that no row of the command table is: a TYPE that R364 does not name, or a MODE body with an OP that R372 does not name or a
reserved byte not 0. -/
def oddOk (r : Req) : Bool :=
  match r with
  | .unknown t => decide (t < 256) && (t == 0 || decide (0x0E < t))
  | .mode op arg rsvd => decide (op < 256) && decide (arg < 256) && decide (rsvd < 65536) && (op == 0 || decide (4 < op) || rsvd != 0)
  | _ => false

/-- A KCP header (R363): its fields within their widths. -/
def hdrOk (h : Hdr) : Bool :=
  decide (h.port < 2) && decide (h.mid < 64) && decide (h.session < 32) && decide (h.seq < 4294967296) && decide (h.ver < 16) &&
    decide (h.len < 65536) && decide (h.peer.own < 2 ^ 128) && decide (h.peer.oport < 65536) && decide (h.peer.far < 2 ^ 128) &&
    decide (h.peer.fport < 65536) && h.odd.all oddOk

/-- An item of a WRITE, or a field of a record: address, mask and value are words (R371). -/
def itemOk (f : Nat × Nat × Nat) : Bool :=
  decide (f.1 < 4294967296) && decide (f.2.1 < 4294967296) && decide (f.2.2 < 4294967296)

/-- What a calibration run has measured (R255 to R258): sensors, taps, elements with four shifts and four gains, VOAs with 17 points,
paths. -/
def measOk (m : CalMeas) : Bool :=
  (m.sens.all fun x => decide (x.sens < 36864)) && (m.inTaps.all fun x => decide (35840 ≤ x.tap ∧ x.tap < 36864)) &&
    (m.elems.all fun x => decide (x.elem < 34816) && decide (x.shifts.length = 4) && decide (x.gains.length = 4)) &&
    (m.voas.all fun x => decide (34816 ≤ x.voa ∧ x.voa < 35840) && decide (x.points.length = 17)) &&
    (m.outTaps.all fun x => decide (34816 ≤ x.tap ∧ x.tap < 35840)) &&
    m.paths.all fun x => decide (x.out < 512) && decide (x.plane < 2)

/-- An EVENT body within the widths of R208. -/
def evOk (e : EvReq) : Bool :=
  decide (e.kind < 256) && decide (e.count < 65536) && decide (e.instant < 18446744073709551616) && decide (e.defer < 65536) &&
    decide (e.deadline < 65536) && decide (e.gid < 4294967296) && decide (e.members < 18446744073709551616) &&
    decide (e.len ≤ 8192) && e.descs.all (· < 4294967296)

/-- A path choice: an output port and two centre rows (R191). -/
def choiceOk (c : Choice) : Bool := decide (c.out < 512) && decide (c.rowX < 256) && decide (c.rowY < 256)

/-- A solution (R192). -/
def candOk (c : Cand) : Bool := c.named.all choiceOk && c.moved.all fun m => choiceOk m.2

/-- A received frame (R334). -/
def frameOk (f : RxFrame) : Bool :=
  decide (f.etype < 65536) && decide (f.dst < 281474976710656) && decide (f.ptpType < 16) && decide (f.ptpDom < 256) && decide (f.opcode < 65536) && decide (f.quanta < 65536) &&
    decide (f.dport < 65536) && decide (f.session < 32) && f.vid.all (· < 4096)

/-- A command is well formed. -/
def Instr.wf (i : Instr) : Bool :=
  match i with
  | .porstNAssert => true
  | .porstNRelease mid _ _ _ => decide (mid < 64)
  | .pwrInternalReset _ => true
  | .loadComplete _ => true
  | .darkCheck => true
  | .darkRelease => true
  | .calRunStart => true
  | .calRunEnd outcome meas failed => decide (1 ≤ outcome ∧ outcome ≤ 5) && measOk meas && failed.all (· < 34816)
  | .calLightWatch _ _ => true
  | .setResting h arg => hdrOk h && decide (arg < 256)
  | .enterMaintain h => hdrOk h
  | .leaveMaintain h => hdrOk h
  | .recalibrate h => hdrOk h
  | .mpWatchdogExpiry => true
  | .slewTick bank => decide (bank < 16)
  | .kickWaveformEnd elem => decide (elem < 34816)
  | .rampStart elem => decide (elem < 34816)
  | .handoverEnd elem => decide (elem < 34816)
  | .elemClrNAssert => true
  | .elemClrNRelease => true
  | .bankSelfPark => true
  | .readbackVisit bank _ _ => decide (bank < 16)
  | .driveFreeze elem => decide (elem < 34816)
  | .sensorSample sensor _ _ => decide (sensor < 36864)
  | .comparatorCrossing comp => decide (comp < 1024)
  | .comparatorSelfTest comp _ => decide (comp < 1024)
  | .loopUpdate loop engine _ => decide (loop < 35840) && decide (engine < 32)
  | .loopEntryRewrite loop => decide (loop < 35840)
  | .clusterFail cluster => decide (cluster < 4)
  | .clusterOwnershipReturn cluster => decide (cluster < 4)
  | .setptMeasurement input _ _ => decide (input < 8)
  | .setptLosTimeout input => decide (input < 8)
  | .domainEstimate dom _ _ => decide (dom < 8)
  | .domainFadjWrite dom _ => decide (dom < 8)
  | .domainPhadjWrite dom _ => decide (dom < 8)
  | .domainStepGo dom sec ns => decide (dom < 8) && decide (sec < 2 ^ 48) && decide (ns < 1000000000)
  | .domainStepApply dom => decide (dom < 8)
  | .domainHoldoverEntry dom cause => decide (dom < 8) && decide (cause < 256)
  | .holdoverExpiry dom => decide (dom < 8)
  | .ptpSyncRx port seq _ _ _ _ => decide (port < 2) && decide (seq < 65536)
  | .ptpFollowUpRx port seq _ _ => decide (port < 2) && decide (seq < 65536)
  | .ptpDelayRespRx port seq _ _ _ => decide (port < 2) && decide (seq < 65536)
  | .ptpAnnounceRx port _ _ _ => decide (port < 2)
  | .delayReqTx dom port => decide (dom < 8) && decide (port < 2)
  | .ppsInPulse input => decide (input < 2)
  | .ppsOutEdge => true
  | .submitEvent h e _ => hdrOk h && evOk e
  | .solveComplete cands _ _ => cands.all candOk
  | .waveArm aseq => decide (aseq < 4294967296)
  | .waveStart => true
  | .eventDone aseq => decide (aseq < 4294967296)
  | .eventDeadlineExpiry aseq => decide (aseq < 4294967296)
  | .cancelEvent h session sseq => hdrOk h && decide (session < 32) && decide (sseq < 4294967296)
  | .queryEvent h key session num => hdrOk h && decide (key < 256) && decide (session < 32) && decide (num < 4294967296)
  | .groupCommit h gid members instant sig => hdrOk h && decide (gid < 4294967296) && decide (members < 18446744073709551616) && decide (instant < 18446744073709551616) && decide (sig.bits < 2 ^ 1056)
  | .groupAbort h gid => hdrOk h && decide (gid < 4294967296)
  | .commitEcho port gid members instant sig => decide (port < 2) && decide (gid < 4294967296) && decide (members < 18446744073709551616) && decide (instant < 18446744073709551616) && decide (sig.bits < 2 ^ 1056)
  | .groupCommitCutoff aseq => decide (aseq < 4294967296)
  | .repairSolve cands _ => cands.all candOk
  | .reoptimisation out => decide (out < 512)
  | .pathQualityRefresh => true
  | .ruleFire rule => decide (rule < 64)
  | .trigEdge pin _ => decide (pin < 8)
  | .ruleHoldoffExpiry rule => decide (rule < 64)
  | .rearmRule rule => decide (rule < 64)
  | .releaseClaim rule => decide (rule < 64)
  | .ruleEnable rule _ => decide (rule < 64)
  | .scheduleStart sched => decide (sched < 8)
  | .scheduleStop sched => decide (sched < 8)
  | .scheduleStepSubmit sched => decide (sched < 8)
  | .bgB1Model loop sum => decide (loop < 35840) && decide (sum < 64 * 131072)
  | .bgB2Curvature elem kpi low swing umod dark => decide (elem < 34816) && decide (kpi < 65536) && decide (low < 65536) && decide (swing < 65536) && umod.all (· < 131072) && dark.all (· < 65536)
  | .bgB3InputTap input _ _ taps => decide (input < 512) && decide (taps.length = 2)
  | .correctionInForce loop => decide (loop < 36864)
  | .correctionGradualStart loop => decide (loop < 36864)
  | .calRecordWrite _ => true
  | .guardContactChange input pin _ => decide (input < 8) && decide (pin < 2)
  | .guardFilterExpiry chan input pin => decide (chan < 2) && decide (input < 8) && decide (pin < 2)
  | .garnetCycle => true
  | .jasperCycle => true
  | .xlinkPeriodicMsg sender => decide (sender.chan < 2) && decide (sender.pins < 256)
  | .xlinkChangeMsg sender => decide (sender.chan < 2) && decide (sender.pins < 256)
  | .crossCheckFault chan _ => decide (chan < 2)
  | .tpaPulse => true
  | .tpbPulse => true
  | .tpaLoss => true
  | .testPulseCheck pulse levels => decide (pulse < 2) && decide (levels.length = 16)
  | .startupOpenTestRestore levels => decide (levels.length = 16)
  | .discrepancyTick chan => decide (chan < 2)
  | .soReadbackFault chan output => decide (chan < 2) && decide (output < 4)
  | .outputTestStart chan output => decide (chan < 2) && decide (output < 4)
  | .outputTestPass chan => decide (chan < 2)
  | .outputTestTimeout chan => decide (chan < 2)
  | .vsafeFault chan => decide (chan < 2)
  | .vsafeRecover chan => decide (chan < 2)
  | .srstNPressStart chan => decide (chan < 2)
  | .srstNPressRelease chan _ => decide (chan < 2)
  | .deliberateReset => true
  | .maintNChange chan _ => decide (chan < 2)
  | .darkVerify chan port _ => decide (chan < 2) && decide (port < 512)
  | .lockoutCauseClear chan cause => decide (chan < 2) && decide (cause < 5)
  | .telegramCopyRx chan port bytes => decide (chan < 2) && decide (port < 2) && bytes.all (· < 256)
  | .telegramPartnerTimeout chan => decide (chan < 2)
  | .telegramWatchdogExpiry chan => decide (chan < 2)
  | .statusTelegramTx => true
  | .linkUp port _ _ => decide (port < 2)
  | .linkDown port _ _ _ => decide (port < 2)
  | .portFail port _ => decide (port < 2)
  | .portRestored port => decide (port < 2)
  | .frameRx port f => decide (port < 2) && frameOk f
  | .pauseFrame port quanta => decide (port < 2) && decide (quanta < 65536)
  | .pauseExpiry port => decide (port < 2)
  | .safetyBufferTimeout port => decide (port < 2)
  | .frameEnqueue queue port _ _ => decide (queue < 65536) && decide (port < 2)
  | .shaperRefill queue => decide (queue < 65536)
  | .egressSelect port => decide (port < 2)
  | .frameTxComplete port => decide (port < 2)
  | .gateEntryChange port => decide (port < 2)
  | .queueSamplerVisit k queue => decide (k < 16) && decide (queue < 65536)
  | .telemetryHoldExpiry queue => decide (queue < 65536)
  | .openSession h slot _ _ _ _ _ _ => hdrOk h && decide (slot < 31)
  | .closeSession h => hdrOk h
  | .sessionIdleTimeout session => decide (session < 32)
  | .reorderTimeout session seq => decide (session < 32) && decide (seq < 4294967296)
  | .readWords h count mode addrs => hdrOk h && decide (count < 65536) && decide (mode < 256) && addrs.all (· < 4294967296)
  | .writeWords h items => hdrOk h && items.all itemOk
  | .attest h nonce => hdrOk h && decide (nonce < 2 ^ 256)
  | .jread h jseq count => hdrOk h && decide (jseq < 18446744073709551616) && decide (count < 65536)
  | .journalCopySelfCheck copy _ => decide (copy < 2)
  | .journalResyncDone copy => decide (copy < 2)
  | .pwrFailAssert => true
  | .pwrFailRelease => true
  | .journalRecovery _ _ _ => true
  | .updateBegin h total => hdrOk h && decide (total < 4294967296)
  | .updateData h offset len _ _ => hdrOk h && decide (offset < 4294967296) && decide (len < 65536)
  | .updateFinish h _ => hdrOk h
  | .updateActivate h how => hdrOk h && decide (how < 256)
  | .updateAbandon h => hdrOk h
  | .holdThroughRestart _ _ _ => true
  | .islandSupplyFault island => decide (island < 30)
  | .islandRestartAttempt island _ => decide (island < 30)
  | .islandBackInService island engines => decide (island < 30) && decide (engines < 256)
  | .thermalRoundPublish counts => decide (counts.length = 256)
  | .islandRestartWrite island => decide (island < 30)
  | .autoSuspendExpiry island => decide (island < 30)
  | .scrubAccess addr flips => decide (addr < 4294967296) && decide (flips ≤ 32)
  | .pcvConversion entry _ => decide (entry < 32)
  | .refxCheck _ => true
  | .refOkSet => true
  | .statusClear blk mask => decide (blk < 34) && decide (mask < 4294967296)
  | .firstInfoClear blk => decide (blk < 34)
  | .injectArm blk sel mask => decide (blk < 34) && decide (sel < 8) && decide (mask < 65536)
  | .snapPin => true
  | .snapshotScheduledTrigger => true
  | .snapshotTrigger h => hdrOk h
  | .snapshotSchedule h instant => hdrOk h && decide (instant < 18446744073709551616)
  | .snapshotCancelSchedule h => hdrOk h
  | .snapshotRelease h => hdrOk h
  | .snapshotExport h => hdrOk h
  | .snapshotExportEnd => true
  | .midStrapChange mid => decide (mid < 64)
  | .deferralLimitExpiry aseq => decide (aseq < 4294967296)
  | .epochReached dom => decide (dom < 8)
  | .srstNAcceptTimeout chan => decide (chan < 2)
  | .safetyChannelClockLoss chan => decide (chan < 2)
  | .islandRequalifyRestart island => decide (island < 30)
  | .policerRefill k => decide (k < 32)

end Sys2Proof
end

