-- ==== Sys2Proof/Certificates/Slice0/Obligations.lean ====
section
/-! DEFINITION. The statements about the model. `runs c s p` says that command `c` completes at state `s` with a next state of which
`p` holds. -/

open Sys2Proof Sys2Proof.Machine

/-- A step takes the front command (the queue is the model's form of what is commanded from outside); the idle tick is the
model's choice, log entry 4. -/
def Obligations.StepTakesFront : Prop :=
  (∀ (s : State) (c : Instr) (rest : List Instr), s.pending = c :: rest →
     step s = exec c { s with pending := rest }) ∧
  (∀ (s : State) (c : Instr),
     step { s with pending := c :: s.pending } = exec c s) ∧
  (∀ (s : State), s.pending = [] →
     step s = .next (tick s))

/-- R6, R19: Every step answers a next state: no command and no state makes the model fault or refuse. -/
def Obligations.StepAlwaysAnswers : Prop :=
  ∀ (s : State),
    ∃ t, step s = .next t

/-- R12, R19, R33, R53, R72, R170: After reset the module is in RESET with cause 0x01, holds no event, no session but
session 0, no image and no command, every safety output is open, every drive is at hardware clear code 0, every domain
is OFF, and both storage invariants hold. -/
def Obligations.ResetState : Prop :=
  
    modeOf State.reset = mReset ∧ State.reset.rd R.PWR_MODE_CAUSE [] = 1 ∧ State.reset.evs = [] ∧
    (∀ k, k < 32 → sessOpen State.reset k = decide (k = 0)) ∧ State.reset.image = none ∧ State.reset.pending = [] ∧
    State.reset.chA.cmd = 0 ∧ State.reset.chB.cmd = 0 ∧ (∀ e, (drvGet State.reset e).out = 0 ∧ holdCode (drvGet State.reset e) = 0) ∧
    (∀ d, d < 8 → State.reset.rd R.TBU_DOM_STATE_STATE [d] = 0) ∧ State.reset.regsWf = true ∧ State.reset.drivesWf = true

/-- R6, R438: If the register space lists its words at strictly rising addresses and none at its reset value, then so it
does after every step, whatever the command. -/
def Obligations.RegisterSpaceStaysCanonical : Prop :=
  ∀ (s t : State), s.regsWf = true → step s = .next t →
    t.regsWf = true

/-- R36, R39, R55: If the drive array is canonical and lists only the 34,816 elements, then so it is after every step: no
command gives an element number outside the fabric a drive. -/
def Obligations.DrivesStaySound : Prop :=
  ∀ (s t : State), s.drivesWf = true → step s = .next t →
    t.drivesWf = true

/-- R19, R33: After a step the queue is what stood behind its front command: no command adds, drops or reorders a waiting
one, a reset included. -/
def Obligations.QueueIsFirstInFirstOut : Prop :=
  ∀ (s t : State), step s = .next t →
    t.pending = s.pending.tail

/-- R207, R378, R383: No step lowers the sequence number of the last journal entry or the last ASEQ given: not a reset, a
recovery, a power failure or a retired copy. -/
def Obligations.JournalNeverGoesBack : Prop :=
  ∀ (s t : State), step s = .next t →
    s.jnl.last ≤ t.jnl.last ∧ s.jnl.aseq ≤ t.jnl.aseq

/-- R61: No drive applies a hold code above 102; a tick whose accumulator with its offset lies above it leaves 102 in
force and sets EDA.STATUS.HOLD_CLAMP of the bank, and so does a kick whose H0 lies above it. -/
def Obligations.HoldClamp : Prop :=
  (∀ (d : Drv),
     holdCode d ≤ 102 ∧ (102 < holdRaw d → holdCode d = 102) ∧ (0 ≤ holdRaw d → holdRaw d ≤ 102 → (holdCode d : Int) = holdRaw d)) ∧
  (∀ (s : State) (e : Nat), s.drivesWf = true → e < nElem → islOn s (12 + bankOf e) = true →
     drvHeld s e = false → (drvGet s e).phase = 2 → 102 < holdRaw (drvGet s e) →
     runs (.slewTick (bankOf e)) s fun t =>
     holdCode (drvGet t e) = 102 ∧ t.rd R.EDA_RB_HOLD [bankOf e, localIx e] = 102 ∧
     t.flag R.EDA_STATUS_HOLD_CLAMP [bankOf e] = true) ∧
  (∀ (s : State) (e : Nat), e < nElem → (drvGet s e).phase = 1 → 102 < (drvGet s e).h0 →
     runs (.kickWaveformEnd e) s fun t =>
     (drvGet t e).h0 = 102 ∧ (drvGet t e).acc = 102 * 16384 ∧ t.flag R.EDA_STATUS_HOLD_CLAMP [bankOf e] = true)

/-- R168: The read of TIME_SEC_HI at one instant returns that instant's word and fixes what TIME_SEC_LO, TIME_NS,
TIME_FRAC and AF return in every later state whose latches are still those, however far the domain has counted on. -/
def Obligations.DomainTimeReads : Prop :=
  ∀ (s t : State) (d j : Nat), d < 8 → 1 ≤ j → j ≤ 4 → islOn s 6 = true → islOn t 6 = true →
    t.latch = (readWord (0x401010 + 0x400 * d) s).2.latch →
    (readWord (0x401010 + 0x400 * d + 4 * j) t).1 = viewWord s (0x401010 + 0x400 * d + 4 * j) ∧
    (cellGet (fun _ => 0) s.latch (0x401010 + 0x400 * d) = 0 →
    (readWord (0x401010 + 0x400 * d) s).1 = viewWord s (0x401010 + 0x400 * d))

/-- R19, R33, R397, R398, R416, R417, R444, R467: PORST_N low, or a PWR internal reset, brings RESET with its cause,
counts the boot and drops every event, image and drive, while journal copies, one-time memory and queued commands stay
and a PWR internal reset also keeps the MID and the thermal log; the release of PORST_N latches the MID, waits for the
supplies, and then loads the ACTIVE slot, or enters LOAD without an image where no slot holds one. -/
def Obligations.ResetEntries : Prop :=
  (∀ (s : State), modeOf s ≠ mReset →
     runs .porstNAssert s fun t =>
     modeOf t = mReset ∧ t.rd R.PWR_MODE_CAUSE [] = 1 ∧ t.modes.porst = true ∧ t.rd R.GLB_MID_MID [] = 0 ∧
     t.rd R.GLB_BOOT [] = (s.rd R.GLB_BOOT [] + 1) % 2 ^ R.GLB_BOOT.width ∧ t.evs = [] ∧ t.drv = [] ∧ t.image = none ∧
     t.jnl.copyA = s.jnl.copyA ∧ t.jnl.copyB = s.jnl.copyB ∧ t.jnl.last = s.jnl.last ∧ t.jnl.aseq = s.jnl.aseq ∧
     t.otp = s.otp ∧ t.pending = s.pending) ∧
  (∀ (s : State), s.modes.porst = false → modeOf s ≠ mReset → s.modes.latched = [] →
     runs (.pwrInternalReset false) s fun t =>
     modeOf t = mReset ∧ t.rd R.PWR_MODE_CAUSE [] = 2 ∧ t.modes.porst = false ∧ t.rd R.GLB_MID_MID [] = s.rd R.GLB_MID_MID [] ∧
     t.rd R.GLB_BOOT [] = (s.rd R.GLB_BOOT [] + 1) % 2 ^ R.GLB_BOOT.width ∧ t.rd R.THM_LOGSEQ [] = s.rd R.THM_LOGSEQ [] ∧
     (span 0 0x2000).all (fun i => readN t (0x4110000 + 4 * i) == readN s (0x4110000 + 4 * i)) = true ∧ t.evs = [] ∧ t.drv = [] ∧ t.image = none ∧
     t.jnl.copyA = s.jnl.copyA ∧ t.jnl.copyB = s.jnl.copyB ∧ t.otp = s.otp ∧ t.pending = s.pending) ∧
  (∀ (s : State) (mid : Nat) (o : Option Otp) (f : Option Flash), s.modes.porst = true →
     runs (.porstNRelease mid false o f) s fun t =>
     t.modes.porst = false ∧ t.modes.supplies = false ∧ t.rd R.GLB_MID_MID [] = mid % 64 ∧ modeOf t = modeOf s ∧
     t.otp = o.getD s.otp ∧ t.flash = f.getD s.flash ∧ onlyWords s { t with modes := s.modes, otp := s.otp, flash := s.flash } [0x108]) ∧
  (∀ (s : State) (mid : Nat) (o : Otp) (f : Flash) (im : Image), s.modes.porst = true → s.modes.latched = [] →
     f.capable = true → f.slotA = some im → (slotDir f).stA = 2 → (slotDir f).stB = 0 →
     (slotDir f).count < 2 ^ 32 - 3 →
     runs (.porstNRelease mid true (some o) (some f)) s fun t =>
     t.image = (if verifyImage o im = 0 then some im else s.image) ∧ t.otp = o ∧ t.modes.porst = false ∧
     (verifyImage o im ≠ 0 → (slotDir t.flash).stA = 4 ∧ t.modes.noImage = true ∧ bitN (readN t Blk.cl.base) 1 = true ∧
     t.rd R.CL_BOOT_FAILITEM [] = verifyImage o im)) ∧
  (∀ (s : State) (mid : Nat), s.modes.porst = true → s.modes.latched = [] → (slotDir s.flash).stA = 0 →
     (slotDir s.flash).stB = 0 → noOverlays s = true → s.evs = [] →
     runs (.porstNRelease mid true none none) s fun t =>
     modeOf t = mLoad ∧ t.modes.noImage = true ∧ t.rd R.GLB_MID_MID [] = mid % 64 ∧
     t.rd R.PWR_MODE_CAUSE [] = s.modes.resetCause % 2 ^ R.PWR_MODE_CAUSE.width ∧ t.flag R.PCV_CTRL_RUN [] = true) ∧
  (∀ (s : State) (mid : Nat), s.modes.porst = false → mid % 64 ≠ s.rd R.GLB_MID_MID [] →
     runs (.midStrapChange mid) s fun t =>
     bitN (readN t Blk.glb.base) 1 = true ∧ t.rd R.GLB_MID_MID [] = s.rd R.GLB_MID_MID [] ∧
     t = { s with regs := t.regs, pic := t.pic })

/-- R15, R19, R21, R54, R78, R318, R397: LOAD ends in DARK with cause 0x03 and parking once an image is in force, and in
LOCKOUT with cause 0x13 held by both channels when none is; the dark check finds the fabric dark just when a
calibration record is valid and every output tap is 45 dB down or at its floor; the release leaves DARK by R15 with
cause 0x06. -/
def Obligations.LoadAndDark : Prop :=
  (∀ (s : State) (ms : Nat), modeOf s = mLoad → s.modes.noImage = true → noOverlays s = true → s.evs = [] →
     runs (.loadComplete ms) s fun t =>
     modeOf t = mLockout ∧ t.rd R.PWR_MODE_CAUSE [] = 0x13 ∧ t.rd R.PWR_MODE_PREV [] = mLoad ∧
     t.flag R.PWR_MODE_C_LOCKOUT [] = true ∧ bitN t.chA.locks 6 = true ∧ bitN t.chB.locks 6 = true ∧
     t.rd R.CL_BOOT_LOADMS [] = min 255 (ms / 2) ∧ t.drv = s.drv) ∧
  (∀ (s : State) (ms : Nat), modeOf s = mLoad → s.modes.noImage = false → noOverlays s = true → s.evs = [] →
     s.flag R.PWR_MODE_C_LOCKOUT [] = false → s.flag R.PWR_MODE_C_STOP [] = false →
     runs (.loadComplete ms) s fun t =>
     modeOf t = mDark ∧ t.rd R.PWR_MODE_CAUSE [] = 3 ∧ t.rd R.PWR_MODE_PREV [] = mLoad ∧ t.modes.parked = true ∧
     t.modes.dark = false ∧ t.chA.testing = true ∧ t.chB.testing = true ∧ t.chA.cmd = 0 ∧ t.chB.cmd = 0 ∧
     t.rd R.CL_BOOT_LOADMS [] = min 255 (ms / 2)) ∧
  (∀ (s : State), modeOf s = mDark → s.modes.parked = true →
     runs .darkCheck s fun t =>
     t = { s with modes := { s.modes with dark := s.flag R.CAL_RECORD_VALID [] && fabricDark s } }) ∧
  (∀ (s : State), mayRelease s = true → noOverlays s = true → s.evs = [] →
     s.flag R.PWR_MODE_C_LOCKOUT [] = false → s.flag R.PWR_MODE_C_STOP [] = false →
     s.rd R.PWR_MODE_RESTING [] = mRun ∨ s.rd R.PWR_MODE_RESTING [] = mEco →
     s.flag R.PWR_MODE_C_SHED [] = false → s.flag R.PWR_MODE_C_MAINT [] = false →
     s.flag R.PWR_MODE_C_DEG [] = false → s.flag R.PWR_MODE_C_UPD [] = false →
     runs .darkRelease s fun t =>
     modeOf t = s.rd R.PWR_MODE_RESTING [] ∧ t.rd R.PWR_MODE_CAUSE [] = 6 ∧ t.rd R.PWR_MODE_PREV [] = mDark ∧
     t.modes.released = true)

/-- R19, R23, R253, R254, R262: A due run leaves DARK, confirmed dark unless no record is in force, for CALIBRATE with
cause 0x04 in phase C1; a run that may end without a record shows its result, leaves no valid record in the region
whose writing failed, and leaves CALIBRATE for DARK with cause 0x05; a valid one, which ends in C8, does the same with
result 1 and leaves a record of the next sequence number in force; while no record is in force, DARK shows both
photodiode readings from their conversions and notes since when both have been lit. -/
def Obligations.CalibrationRuns : Prop :=
  (∀ (s : State), modeOf s = mDark → s.modes.dark = true ∨ s.flag R.CAL_RECORD_VALID [] = false →
     runDue s = true → s.rd R.CAL_RUN_PHASE [] = 0 → islServing s 0 = true → s.modes.leaving = none →
     noOverlays s = true → s.evs = [] →
     runs .calRunStart s fun t =>
     modeOf t = mCalibrate ∧ t.rd R.PWR_MODE_CAUSE [] = 4 ∧ t.rd R.PWR_MODE_PREV [] = mDark ∧
     t.rd R.CAL_RUN_PHASE [] = 1 ∧ t.rd R.CAL_RUN_PROGRESS [] = 0 ∧ t.modes.calFrom = mDark ∧ t.calx.start = s.time) ∧
  (∀ (s : State) (o : Nat) (m : CalMeas) (failed : List Nat), modeOf s = mCalibrate →
     s.rd R.CAL_RUN_PHASE [] ≠ 0 → 2 ≤ o → mayEnd o s = true → s.modes.calFrom = mDark → noOverlays s = true →
     s.evs = [] → s.flag R.PWR_MODE_C_LOCKOUT [] = false → s.flag R.PWR_MODE_C_STOP [] = false →
     runs (.calRunEnd o m failed) s fun t =>
     t.rd R.CAL_RUN_RESULT [] = o ∧ t.rd R.CAL_RUN_PHASE [] = 0 ∧ modeOf t = mDark ∧ t.rd R.PWR_MODE_CAUSE [] = 5 ∧
     t.modes.ran = true ∧ t.modes.lastOk = false ∧ t.modes.crpd = false ∧
     (o ≠ 5 → t.flash = s.flash) ∧
     (o = 5 → t.flash = if targetRegion s = 0 then { s.flash with cr0 := none } else { s.flash with cr1 := none }) ∧ t.wcal = s.wcal ∧
     t.rd R.CAL_RECORD_VALID [] = s.rd R.CAL_RECORD_VALID []) ∧
  (∀ (s : State) (m : CalMeas) (failed : List Nat), (Instr.calRunEnd 1 m failed).wf = true →
     modeOf s = mCalibrate → s.rd R.CAL_RUN_PHASE [] = 8 → s.modes.calFrom = mDark → noOverlays s = true →
     s.evs = [] → s.flag R.PWR_MODE_C_LOCKOUT [] = false → s.flag R.PWR_MODE_C_STOP [] = false →
     runs (.calRunEnd 1 m failed) s fun t =>
     t.rd R.CAL_RUN_RESULT [] = 1 ∧ t.rd R.CAL_RUN_PHASE [] = 0 ∧ modeOf t = mDark ∧ t.modes.ran = true ∧
     t.modes.lastOk = true ∧ t.flag R.CAL_RECORD_VALID [] = true ∧ t.flag R.CAL_RECORD_DIRTY [] = false ∧
     t.rd R.CAL_RECORD_SEQ [] = nextRecSeq s % 2 ^ R.CAL_RECORD_SEQ.width) ∧
  (∀ (s : State) (x y : Int), modeOf s = mDark → s.flag R.CAL_RECORD_VALID [] = false →
     s.rd R.CAL_RUN_PHASE [] = 0 → pcvRuns s = true → pcvReserved (s.rd R.PCV_SEQ_CH [30]) = false →
     pcvReserved (s.rd R.PCV_SEQ_CH [31]) = false →
     runs (.calLightWatch x y) s fun t =>
     t.rd R.CAL_SRC_PWR [0] = ofS 16 (Config.crpdPower 0 (crpdResp s 0) (pcvCorrect s (s.rd R.PCV_SEQ_CH [30]) x)) ∧
     t.rd R.CAL_SRC_PWR [1] = ofS 16 (Config.crpdPower 1 (crpdResp s 1) (pcvCorrect s (s.rd R.PCV_SEQ_CH [31]) y)) ∧
     t.calx.crpdAt = (if crpdsLit t then some (s.calx.crpdAt.getD s.time) else none) ∧
     t.modes.crpd = (crpdsLit t && decide (s.calx.crpdAt.getD s.time + 1000000000 ≤ s.time)) ∧
     modeOf t = mDark ∧ t.flash = s.flash ∧ t.drv = s.drv ∧ t.evs = s.evs)

/-- R24, R139, R404, R405, R406, R418, R419: A supply fault of PI02 to PI29 leaves the island FAILED, counted and logged,
and DEGRADED on; one of PI00 or PI01 resets the module; a restart that succeeds makes the island STARTING and one that
fails is counted and shown; an island whose start-up has ended is ON with its thermal shed over; a watchdog expiry
takes the MP down and restarts PI02; a RESTART write starts a shed island whose 10 s have passed and that is cool, and
clears AUTO_SUSP; the suspension of PI02 and PI05 ends by itself 10 minutes after the last shed. -/
def Obligations.IslandFaults : Prop :=
  (∀ (s : State) (i : Nat), 2 ≤ i → i < 30 → modeOf s ≠ mReset → islOn s i = true → noOverlays s = true →
     s.evs = [] →
     runs (.islandSupplyFault i) s fun t =>
     islState t i = 5 ∧ t.rd R.PWR_ISL_FAILS [i] = (s.rd R.PWR_ISL_FAILS [i] + 1) % 2 ^ R.PWR_ISL_FAILS.width ∧
     bitN (readN t Blk.pwr.base) 0 = true ∧ t.flag R.PWR_MODE_C_DEG [] = true ∧
     t.rd R.THM_LOGSEQ [] = (s.rd R.THM_LOGSEQ [] + 1) % 2 ^ R.THM_LOGSEQ.width ∧
     t.modes.degCauses.contains (degIsland i) = true ∧ ((i = 3 ∨ i = 4) → t.flag R.PWR_MODE_C_LOCKOUT [] = true)) ∧
  (∀ (s : State) (i : Nat), i < 2 → modeOf s ≠ mReset → islOn s i = true → s.modes.latched = [] →
     runs (.islandSupplyFault i) s fun t =>
     modeOf t = mReset ∧ t.rd R.PWR_MODE_CAUSE [] = 2 ∧ t.modes.supplies = false ∧
     t.rd R.THM_LOGSEQ [] = (s.rd R.THM_LOGSEQ [] + 1) % 2 ^ R.THM_LOGSEQ.width) ∧
  (∀ (s : State) (i : Nat), islState s i = 5 → restartable i = true →
     cellGet (fun _ => 0) s.therm.tries i < 3 → s.modes.mpDown = false →
     (s.modes.shedIsl.contains (100 + i) && !mayRestart i s) = false →
     runs (.islandRestartAttempt i true) s fun t =>
     islState t i = 1 ∧ t.rd R.THM_LOGSEQ [] = (s.rd R.THM_LOGSEQ [] + 1) % 2 ^ R.THM_LOGSEQ.width ∧ modeOf t = modeOf s) ∧
  (∀ (s : State) (i : Nat), islState s i = 5 → restartable i = true →
     cellGet (fun _ => 0) s.therm.tries i < 3 → s.modes.mpDown = false →
     (s.modes.shedIsl.contains (100 + i) && !mayRestart i s) = false →
     runs (.islandRestartAttempt i false) s fun t =>
     islState t i = 5 ∧ bitN (readN t Blk.pwr.base) 4 = true ∧
     cellGet (fun _ => 0) t.therm.tries i = cellGet (fun _ => 0) s.therm.tries i + 1 ∧ t.drv = s.drv ∧ t.evs = s.evs) ∧
  (∀ (s : State) (i eng : Nat), i < 30 → islState s i = 1 → startedUp i s = true → noOverlays s = true →
     s.evs = [] →
     runs (.islandBackInService i eng) s fun t =>
     islState t i = 0 ∧ bitN (readN t Blk.pwr.base) 3 = true ∧ t.modes.shedIsl.contains i = false ∧
     t.modes.degCauses.contains (degIsland i) = false ∧
     (8 ≤ i → i ≤ 11 → bitsN (t.rd R.CE_CLSTAT_LIVE []) (8 * (i - 8)) 8 = eng % 256)) ∧
  (∀ (s : State) (i : Nat), 8 ≤ i → i ≤ 11 → islState s i = 0 → s.modes.mpDown = false →
     s.away.contains (i - 8) = true ∨ liveOf s (i - 8) ≠ 8 → noOverlays s = true → s.evs = [] →
     runs (.islandRequalifyRestart i) s fun t => islState t i = 1 ∧ t.evs = [] ∧ t.rd R.PWR_ISL_FAILS [i] = s.rd R.PWR_ISL_FAILS [i]) ∧
  (∀ (s : State), quietRun s = true → islOn s 2 = true → s.modes.mpDown = false → noOverlays s = true →
     s.evs = [] →
     runs .mpWatchdogExpiry s fun t =>
     modeOf t = mDegraded ∧ t.rd R.PWR_MODE_CAUSE [] = 9 ∧ t.flag R.PWR_MODE_C_DEG [] = true ∧ t.modes.mpDown = true ∧
     t.jnl.recovering = true ∧ islState t 2 = 1 ∧ alertAsserted t = true ∧ t.drv = s.drv) ∧
  (∀ (s : State) (i : Nat), restartable i = true → restartOk i s = true →
     runs (.islandRestartWrite i) s fun t =>
     islState t i = 1 ∧ t.flag R.PWR_ISL_AUTO_SUSP [i] = false ∧
     t.rd R.THM_LOGSEQ [] = (s.rd R.THM_LOGSEQ [] + 1) % 2 ^ R.THM_LOGSEQ.width ∧ t.modes.shedIsl = s.modes.shedIsl) ∧
  (∀ (s : State) (i : Nat), i = 2 ∨ i = 5 →
     ((cellGet (fun _ => []) s.therm.sheds i).head?.all fun x => decide (x + 600000000000 ≤ s.time)) = true →
     runs (.autoSuspendExpiry i) s fun t =>
     t.flag R.PWR_ISL_AUTO_SUSP [i] = false ∧ islState t i = islState s i ∧ onlyWords s t [fldAddr R.PWR_ISL_STATE [i]]) ∧
  (∀ (s : State) (i : Nat),
     ((cellGet (fun _ => []) s.therm.sheds i).head?.any fun x => decide (s.time < x + 600000000000)) = true →
     runs (.autoSuspendExpiry i) s fun t => t = s)

/-- R409, R410, R411, R414, R415: A round steps ROUND and stamps every sensor with it; a sensor that is then valid shows
the converted count of this round, and a broken sensor shows 0x7FFF without VALID. -/
def Obligations.ThermalRounds : Prop :=
  ∀ (s : State) (l : List Nat), quietRun s = true → noOverlays s = true → s.evs = [] →
    runs (.thermalRoundPublish l) s fun t =>
    t.rd R.THM_ROUND [] = (s.rd R.THM_ROUND [] + 1) % 2 ^ R.THM_ROUND.width ∧
    (span 0 256).all (fun x => t.rd R.THM_TEMP_RND [x] == (s.rd R.THM_ROUND [] + 1) % 2 ^ 14 &&
    (!t.flag R.THM_TEMP_VALID [x] || (!t.flag R.THM_TEMP_BROKEN [x] &&
    (nthD none (pinReadings s l) x).map (ofS 16) == some (t.rd R.THM_TEMP_TEMP [x]))) &&
    (!t.flag R.THM_TEMP_BROKEN [x] || t.rd R.THM_TEMP_TEMP [x] == 0x7FFF)) = true

/-- R420, R421, R422, R423: A conversion of an enabled entry shows its corrected result with VALID, OVR, REF_UNSETTLED and
a stepped CNT; a REFX reading within 1 % of 2.5 V makes results valid and one outside invalid with REFX_BAD; REF_OK
follows REFBUF_EN. -/
def Obligations.Conversions : Prop :=
  (∀ (s : State) (e : Nat) (raw : Int), e < 30 → pcvRuns s = true → s.flag R.PCV_SEQ_EN [e] = true →
     pcvReserved (s.rd R.PCV_SEQ_CH [e]) = false →
     runs (.pcvConversion e raw) s fun t =>
     t.rd R.PCV_RESULT_VALUE [e] = ofS 24 (pcvCorrect s (s.rd R.PCV_SEQ_CH [e]) raw) ∧
     t.flag R.PCV_RESULT_VALID [e] = !s.therm.refxBad ∧ t.flag R.PCV_RESULT_OVR [e] = decide (satS 24 raw ≠ raw) ∧
     t.flag R.PCV_RESULT_REF_UNSETTLED [e] = unsettled s e ∧ t.therm.conv = convOf s e ∧
     t.rd R.PCV_RESULT_CNT [e] = (s.rd R.PCV_RESULT_CNT [e] + 1) % 32 ∧
     (satS 24 raw ≠ raw → bitN (readN t Blk.pcv.base) 0 = true) ∧ t.drv = s.drv ∧ t.evs = s.evs) ∧
  (∀ (s : State) (e : Nat) (raw : Int), e < 30 → pcvRuns s = true → s.flag R.PCV_SEQ_EN [e] = true →
     pcvReserved (s.rd R.PCV_SEQ_CH [e]) = true →
     runs (.pcvConversion e raw) s fun t => t.rd R.PCV_RESULT_VALUE [e] = 0 ∧ t.flag R.PCV_RESULT_VALID [e] = false) ∧
  (∀ (s : State) (raw : Int), pcvRuns s = true →
     runs (.refxCheck raw) s fun t =>
     t.flag R.PCV_REFX_VALID [] = true ∧
     t.therm.refxBad = !(decide (2475000 * 8388608 ≤ pcvCorrect s 6 raw * 4800000) &&
     decide (pcvCorrect s 6 raw * 4800000 ≤ 2525000 * 8388608)) ∧
     (t.therm.refxBad = true → bitN (readN t Blk.pcv.base) 1 = true) ∧
     t = { s with regs := t.regs, pic := t.pic, therm := { s.therm with refxBad := t.therm.refxBad, conv := 53 } }) ∧
  (∀ (s : State), s.flag R.PCV_CTRL_REFBUF_EN [] = true →
     runs .refOkSet s fun t => t.flag R.PCV_CTRL_REF_OK [] = true ∧ t.flag R.PCV_CTRL_REFBUF_EN [] = true ∧
     t.therm = { s.therm with refAt := s.time } ∧ onlyWords s { t with therm := s.therm } [fldAddr R.PCV_CTRL_REF_OK []])

/-- R253, R260, R267, R268, R269, R270, R271: A background step of a lit element or a connected VOA that agrees counts and
leaves its correction waiting, with UMOD and TCO from its last results, beside the fields of one that waits already;
one that does not agree is counted against the actuator, and the third in a row marks it SUSPECT; a step whose
actuator an armed wave names is abandoned; a B2 step without a CAL window of its domains is not made; a B3 step shows
both photodiode readings, reports that there is no light, or puts gains that agree in force for each plane on its own. -/
def Obligations.BackgroundSteps : Prop :=
  (∀ (s : State) (n sum : Nat), bgRuns s = true → n < 35840 → visited s n = true →
     islOn s (actIsland n) = true → visitDue s n 1 = true → b1Whole n sum s = true → namedArmed s n = false →
     cmdsAgree s n (umodFrom s n (meanOf sum) ((tcoFit (b1Results s n (meanOf sum))).getD (s.rdS R.LT_LOOP_TCO [n]))) (s.rd R.LT_LOOP_UMOD [n]) = true →
     (s.ramps.any fun r => r.1 == n) = false →
     runs (.bgB1Model n sum) s fun t =>
     corrGet t n = mergeFields (corrGet s n) (umodFields s n (umodFrom s n (meanOf sum) ((tcoFit (b1Results s n (meanOf sum))).getD (s.rdS R.LT_LOOP_TCO [n])))
     ((tcoFit (b1Results s n (meanOf sum))).getD (s.rdS R.LT_LOOP_TCO [n]))) ∧
     cellGet (fun _ => []) t.calx.b1 n = b1Results s n (meanOf sum) ∧ cellGet (fun _ => 0) t.bgFail n = 0 ∧ ucsOf t n = [] ∧
     t.rd R.CAL_STEPS [] = incSat R.CAL_STEPS.width (s.rd R.CAL_STEPS []) ∧
     t = { s with regs := t.regs, corr := t.corr, bgFail := t.bgFail, calx := t.calx, loopX := t.loopX } ∧ wordsKept s t [fldAddr R.CAL_STEPS []]) ∧
  (∀ (s : State) (n sum : Nat), bgRuns s = true → n < 34816 → visited s n = true →
     islOn s (actIsland n) = true → visitDue s n 1 = true → b1Whole n sum s = true → namedArmed s n = false →
     cmdsAgree s n (umodFrom s n (meanOf sum) ((tcoFit (b1Results s n (meanOf sum))).getD (s.rdS R.LT_LOOP_TCO [n]))) (s.rd R.LT_LOOP_UMOD [n]) = false →
     runs (.bgB1Model n sum) s fun t =>
     cellGet (fun _ => 0) t.bgFail n = (if cellGet (fun _ => 0) s.bgFail n < 2 then cellGet (fun _ => 0) s.bgFail n + 1 else 0) ∧
     t.rd R.CAL_STEPS [] = incSat R.CAL_STEPS.width (s.rd R.CAL_STEPS []) ∧ corrGet t n = corrGet s n ∧
     (cellGet (fun _ => 0) s.bgFail n < 2 → t = { s with regs := t.regs, bgFail := t.bgFail, calx := t.calx, loopX := t.loopX } ∧
     wordsKept s t [fldAddr R.CAL_STEPS []]) ∧
     (2 ≤ cellGet (fun _ => 0) s.bgFail n → mapBit t 0x800200 n = true ∧ t.flag R.CAL_EREC_SUSPECT [n] = true ∧
     bitN (readN t Blk.cal.base) 1 = true)) ∧
  (∀ (s : State) (n sum : Nat), bgRuns s = true → visited s n = true → islOn s (actIsland n) = true →
     visitDue s n 1 = true → b1Whole n sum s = true → namedArmed s n = true →
     runs (.bgB1Model n sum) s fun t =>
     t.rd R.CAL_ABORTED [] = incSat R.CAL_ABORTED.width (s.rd R.CAL_ABORTED []) ∧ bitN (readN t Blk.cal.base) 2 = true ∧
     t = { s with regs := t.regs, pic := t.pic, calx := t.calx, loopX := t.loopX }) ∧
  (∀ (s : State) (e kpi low swing : Nat) (u d : Option Nat), bgRuns s = true → e < nElem →
     visited s e = true → islOn s (actIsland e) = true → visitDue s e 2 = true → noCalWindow s e = true →
     runs (.bgB2Curvature e kpi low swing u d) s fun t =>
     bitN (readN t Blk.cal.base) 3 = true ∧ t.corr = s.corr ∧ t = { s with regs := t.regs, pic := t.pic }) ∧
  (∀ (s : State) (e kpi low swing : Nat) (u d : Option Nat), bgRuns s = true → e < nElem →
     visited s e = true → islOn s (actIsland e) = true → visitDue s e 2 = true → noCalWindow s e = false →
     namedArmed s e = false → atBoundary s e = true →
     lossAgree (low : Int) (25 * (s.rd R.CAL_EREC_EPS0 [e] : Nat)) = true →
     (u.all fun x => codesAgree s e x (s.rd R.LT_LOOP_UMOD [e])) = true →
     (d.all fun x => powerAgree (x : Int) (s.rd R.ESA_CORR_DARK0 [e] : Nat)) = true →
     (s.ramps.any fun r => r.1 == e) = false →
     runs (.bgB2Curvature e kpi low swing u d) s fun t =>
     corrGet t e = mergeFields (corrGet s e) ([asField R.CAL_EREC_KPI [e] (min 65535 kpi), asField R.CAL_EREC_EPS0 [e] (clampN 255 (roundQ (low : Int) 25)),
     asField R.CAL_EREC_LSPAN [e] (min 65535 swing)] ++
     ((u.map fun x => umodFields s e x (s.rdS R.LT_LOOP_TCO [e])).getD [] ++
     (d.map fun x => asField R.ESA_CORR_DARK0 [e] (min 65535 x)).toList)) ∧
     cellGet (fun _ => 0) t.bgFail e = 0 ∧ t.rd R.CAL_STEPS [] = incSat R.CAL_STEPS.width (s.rd R.CAL_STEPS []) ∧
     t = { s with regs := t.regs, corr := t.corr, bgFail := t.bgFail, calx := t.calx }) ∧
  (∀ (s : State) (i : Nat) (x y : Int) (taps : List (Int × Int)), bgRuns s = true →
     s.rd R.CAL_RUN_PHASE [] = 0 → s.flag R.CAL_BGCFG_SRC_EN [] = true → i < 512 →
     (outOfIn (liveRoute s) i).isNone = true → islOn s (sensIsland (35840 + i)) = true → pcvRuns s = true →
     visitDue s (35840 + i) 3 = true → pcvReserved (s.rd R.PCV_SEQ_CH [30]) = false →
     pcvReserved (s.rd R.PCV_SEQ_CH [31]) = false →
     runs (.bgB3InputTap i x y taps) s fun t =>
     t.rd R.CAL_SRC_PWR [0] = ofS 16 (Config.crpdPower 0 (crpdResp s 0) (pcvCorrect s (s.rd R.PCV_SEQ_CH [30]) x)) ∧
     t.rd R.CAL_SRC_PWR [1] = ofS 16 (Config.crpdPower 1 (crpdResp s 1) (pcvCorrect s (s.rd R.PCV_SEQ_CH [31]) y)) ∧
     t.flag R.CAL_SRC_VALID [0] = true ∧ t.flag R.CAL_SRC_VALID [1] = true ∧
     (t.rdS R.CAL_SRC_PWR [0] < -1200 ∨ t.rdS R.CAL_SRC_PWR [1] < -1200 →
     bitN (readN t Blk.cal.base) 0 = true ∧ t.bgFail = s.bgFail ∧ t.corr = s.corr ∧ t.wcal = s.wcal) ∧
     (-1200 ≤ t.rdS R.CAL_SRC_PWR [0] → -1200 ≤ t.rdS R.CAL_SRC_PWR [1] → s.flag R.PCV_CTRL_REF_OK [] = true →
     t.rd R.CAL_STEPS [] = incSat R.CAL_STEPS.width (incSat R.CAL_STEPS.width (s.rd R.CAL_STEPS [])) ∧
     [0, 1].all (fun p =>
     let tap := 35840 + p * 512 + i
     let loss := ((s.otp.injLoss.find? fun r => r.1 == p * 512 + i).map (·.2)).getD 0
     let power := powerOf (t.rdS R.CAL_SRC_PWR [p] - (loss : Nat))
     let g0 := clampN (2 ^ 24 - 1) (gainFor s tap 0 (nthD (0, 0) taps p).1 power)
     let g1 := clampN (2 ^ 24 - 1) (gainFor s tap 1 (nthD (0, 0) taps p).2 power)
     if powerAgree (g0 : Int) (s.rd R.ESA_CORR_GAIN0 [tap] : Nat) && powerAgree (g1 : Int) (s.rd R.ESA_CORR_GAIN1 [tap] : Nat) then
     t.rd R.ESA_CORR_GAIN0 [tap] == g0 && t.rd R.ESA_CORR_GAIN1 [tap] == g1 && cellGet (fun _ => 0) t.bgFail tap == 0
     else
     t.rd R.ESA_CORR_GAIN0 [tap] == s.rd R.ESA_CORR_GAIN0 [tap] && t.rd R.ESA_CORR_GAIN1 [tap] == s.rd R.ESA_CORR_GAIN1 [tap] &&
     (decide (2 ≤ cellGet (fun _ => 0) s.bgFail tap) || cellGet (fun _ => 0) t.bgFail tap == cellGet (fun _ => 0) s.bgFail tap + 1)) = true))

/-- R271, R272, R273, R274, R276: A correction whose boundary has come within 50 ms is put in force whole and leaves DIRTY
on; one that has found no boundary for 50 ms starts its ramp at step 0 and is counted; a record that is due and
verifies goes, with the values and marks of the moment, into the flash region that does not hold the newest and clears
DIRTY, and one that does not verify sets RECORD_FAIL, keeps DIRTY and leaves no valid record in that region. -/
def Obligations.Corrections : Prop :=
  (∀ (s : State) (n : Nat), calHolds s = true ∨ (atBoundary s n = true ∧ s.time ≤ readyAt s n + 50000000) →
     s.ramps = [] → (corrGet s n).isEmpty = false →
     runs (.correctionInForce n) s fun t =>
     t = (putCal (corrGet s n) (corrDrop n s)).wr R.CAL_RECORD_DIRTY [] 1 ∧ corrGet t n = [] ∧ t.flag R.CAL_RECORD_DIRTY [] = true) ∧
  (∀ (s : State) (n : Nat), (corrGet s n).isEmpty = false → n < nLoop → readyAt s n + 50000000 ≤ s.time →
     runs (.correctionGradualStart n) s fun t =>
     corrGet t n = [] ∧ (t.ramps.find? fun r => r.1 == n).map (fun r => (r.2.step, r.2.len, r.2.fields)) =
     some (0, rampLen (s.rd R.LT_LOOP_RATE [n]), corrGet s n) ∧
     t.rd R.CAL_GRADUAL [] = incSat R.CAL_GRADUAL.width (s.rd R.CAL_GRADUAL []) ∧ bitN (readN t Blk.cal.base) 4 = true ∧
     t = { s with regs := t.regs, pic := t.pic, corr := t.corr, ramps := t.ramps }) ∧
  (∀ (s : State), s.flag R.CAL_RECORD_DIRTY [] = true → recordDue s = true →
     s.flag R.PWR_MODE_C_UPD [] = false → islServing s 0 = true →
     runs (.calRecordWrite true) s fun t =>
     t.flag R.CAL_RECORD_DIRTY [] = false ∧ t.flag R.CAL_RECORD_VALID [] = true ∧
     t.rd R.CAL_RECORD_SEQ [] = nextRecSeq s % 2 ^ R.CAL_RECORD_SEQ.width ∧ t.rd R.CAL_RECORD_REGION [] = b2n (targetRegion s != 0) ∧
     (targetRegion s = 0 → t.flash = { s.flash with cr0 := some (recordNow s) }) ∧
     (targetRegion s ≠ 0 → t.flash = { s.flash with cr1 := some (recordNow s) }) ∧
     t = { s with regs := t.regs, flash := t.flash, calx := { s.calx with recAt := s.time } }) ∧
  (∀ (s : State), s.flag R.CAL_RECORD_DIRTY [] = true → recordDue s = true →
     s.flag R.PWR_MODE_C_UPD [] = false → islServing s 0 = true →
     runs (.calRecordWrite false) s fun t =>
     t.flag R.CAL_RECORD_DIRTY [] = true ∧ bitN (readN t Blk.cal.base) 5 = true ∧
     t.flash = (if targetRegion s = 0 then { s.flash with cr0 := none } else { s.flash with cr1 := none }) ∧
     t = { s with regs := t.regs, pic := t.pic, flash := t.flash, calx := t.calx })

/-- R57, R59, R63: SLEW_TICK: the output of every element of the bank that is not held moves towards its command by at
most the step in force, unless the range changes, when it stands for the tick; drives of other banks stay. -/
def Obligations.DriveTicks : Prop :=
  (∀ (s : State) (e : Nat), s.drivesWf = true → e < nElem → islOn s (12 + bankOf e) = true →
     drvHeld s e = false → (drvGet s e).rstep = false →
     (if (drvGet s e).hi then s.rd R.EDA_RANGE_THR_DN [bankOf e] ≤ (drvGet s e).out ∧ s.rd R.EDA_RANGE_THR_DN [bankOf e] ≤ (drvGet s e).cmd else (drvGet s e).out ≤ s.rd R.EDA_RANGE_THR_UP [bankOf e] ∧ (drvGet s e).cmd ≤ s.rd R.EDA_RANGE_THR_UP [bankOf e]) →
     runs (.slewTick (bankOf e)) s fun t =>
     (drvGet t e).out = (if (drvGet s e).out ≤ (drvGet s e).cmd
     then min (drvGet s e).cmd ((drvGet s e).out + s.rd R.EDA_SLEW_HSTEP [bankOf e])
     else max (drvGet s e).cmd ((drvGet s e).out - s.rd R.EDA_SLEW_HSTEP [bankOf e])) ∧
     (drvGet t e).cmd = (drvGet s e).cmd ∧ (drvGet t e).hi = (drvGet s e).hi) ∧
  (∀ (s : State) (e : Nat), s.drivesWf = true → e < nElem → islOn s (12 + bankOf e) = true →
     drvHeld s e = false → (drvGet s e).hi = false → s.rd R.EDA_RANGE_THR_UP [bankOf e] < (drvGet s e).out →
     (drvGet s e).out ≤ (drvGet s e).cmd →
     runs (.slewTick (bankOf e)) s fun t =>
     (drvGet t e).out = (drvGet s e).out ∧ (drvGet t e).hi = true) ∧
  (∀ (s : State) (e k : Nat), k < 16 → bankOf e ≠ k →
     runs (.slewTick k) s fun t =>
     drvGet t e = drvGet s e ∧ t.evs = s.evs ∧ t.jnl = s.jnl ∧ t.egs = s.egs)

/-- R61, R62, R69, R85: KICK_WAVEFORM_END loads the accumulator with H0 × 16,384, H0 clamped to 102; RAMP_START starts the
ramp; HANDOVER_END forces ΔH to 0, releases the segment and clears HO; DRIVE_FREEZE sets FRZ. No other drive moves. -/
def Obligations.KickPhases : Prop :=
  (∀ (s : State) (e : Nat), e < nElem → (drvGet s e).phase = 1 →
     runs (.kickWaveformEnd e) s fun t =>
     drvGet t e = { drvGet s e with
     phase := 2, h0 := min 102 (drvGet s e).h0, acc := min 102 (drvGet s e).h0 * 16384, hold := min 102 (drvGet s e).h0 } ∧
     (∀ x, x < nElem → x ≠ e → drvGet t x = drvGet s x) ∧
     (102 < (drvGet s e).h0 → t.flag R.EDA_STATUS_HOLD_CLAMP [bankOf e] = true)) ∧
  (∀ (s : State) (e : Nat), e < nElem → (drvGet s e).phase = 2 →
     runs (.rampStart e) s fun t =>
     drvGet t e = { drvGet s e with phase := 3 } ∧ (∀ x, x < nElem → x ≠ e → drvGet t x = drvGet s x) ∧
     t = { s with regs := t.regs, drv := t.drv } ∧ wordsKept s t [rbAddr e, rbAddr e + 4]) ∧
  (∀ (s : State) (e : Nat), e < nElem → (drvGet s e).phase = 3 → (drvGet s e).acc = 0 →
     runs (.handoverEnd e) s fun t =>
     drvGet t e = { drvGet s e with phase := 0, dec := 0, h0 := 0, hold := 0, dh := 0, ho := false, seg := false } ∧
     (∀ x, x < nElem → x ≠ e → drvGet t x = drvGet s x) ∧
     t = { s with regs := t.regs, drv := t.drv } ∧ wordsKept s t [rbAddr e, rbAddr e + 4]) ∧
  (∀ (s : State) (e : Nat), e < nElem → drvHeld s e = false →
     runs (.driveFreeze e) s fun t =>
     drvGet t e = { drvGet s e with frz := true } ∧ t.flag R.EDA_RB_FRZ [bankOf e, localIx e] = true ∧
     (∀ x, x < nElem → x ≠ e → drvGet t x = drvGet s x) ∧
     t = { s with regs := t.regs, drv := t.drv } ∧ wordsKept s t [rbAddr e, rbAddr e + 4])

/-- R72, R73, R75, R77, R79, R82: ELEM_CLR_N_ASSERT puts every element of a powered bank at its clear code: PCODE where
the table of its bank is loaded, hardware clear code 0 else; releasing the pin leaves the drives as they are; a bank
restarted from cold parks itself. A READBACK_VISIT notes what it read of its element and sets MISM where the latched
word differs. -/
def Obligations.BankClears : Prop :=
  (∀ (s : State) (e : Nat), s.drivesWf = true → e < nElem → islOn s (12 + bankOf e) = true →
     runs .elemClrNAssert s fun t =>
     t.flag R.EDA_CLR_PIN [bankOf e] = true ∧ bitN t.modes.clr 3 = true ∧ (drvGet t e).cmd = (drvGet t e).out ∧ (drvGet t e).phase = 0 ∧
     (drvGet t e).out = (if (bankGet s (bankOf e)).loaded then s.rd R.EDA_ECFG_PCODE [bankOf e, localIx e] else 0)) ∧
  (∀ (s : State) (k : Nat), k < 16 → islOn s (12 + k) = true →
     runs .elemClrNRelease s fun t =>
     t.flag R.EDA_CLR_PIN [k] = false ∧ bitN t.modes.clr 3 = false ∧
     t = { s with regs := t.regs, modes := { s.modes with clr := t.modes.clr } } ∧
     t.flag R.EDA_CLR_PARK [k] = s.flag R.EDA_CLR_PARK [k] ∧ t.flag R.EDA_CLR_COLD [k] = s.flag R.EDA_CLR_COLD [k]) ∧
  (∀ (s : State) (e : Nat), s.drivesWf = true → e < nElem → islOn s (12 + bankOf e) = true →
     (bankGet s (bankOf e)).selfPark = true → (bankGet s (bankOf e)).loaded = true →
     runs .bankSelfPark s fun t =>
     t.flag R.EDA_CLR_COLD [bankOf e] = false ∧ (bankGet t (bankOf e)).selfPark = false ∧
     (drvGet t e).out = s.rd R.EDA_ECFG_PCODE [bankOf e, localIx e]) ∧
  (∀ (s : State) (k latched vh : Nat), k < 16 → islOn s (12 + k) = true →
     (drvGet s (elemOfLocal k ((bankGet s k).visits % 2176))).hold ≠ 0 → latched < 2 ^ 30 →
     runs (.readbackVisit k latched vh) s fun t =>
     (bankGet t k).visits = (bankGet s k).visits + 1 ∧
     t.rd R.EDA_RB_VH [k, (bankGet s k).visits % 2176] = vh % 2 ^ 12 ∧
     t.flag R.EDA_RB_COMP [k, (bankGet s k).visits % 2176] = decide (2700 < vh) ∧
     t.flag R.EDA_RB_MISM [k, (bankGet s k).visits % 2176] =
     decide (latched ≠ latchWord (drvGet s (elemOfLocal k ((bankGet s k).visits % 2176)))) ∧
     (latched ≠ latchWord (drvGet s (elemOfLocal k ((bankGet s k).visits % 2176))) →
     t.flag R.EDA_STATUS_MISM [k] = true))

/-- R90, R92, R93, R95, R97, R101, R108, R310, R313: At a boundary of its grid a sensor latches round(S × 2^24 / N^3) of
its sinc3 window; outside any range change and refill VALID is set, SEQ stepped and the range kept, and the value is
((raw − OFS) × GAIN) >> 16 − dark, clamped to 32 bits; a powered sensor that misses its boundary records MISS and
latches nothing; off the grid nothing happens; a crossing on a port held dark for 2 ms or longer fails the dark
verification of channel B, else it trips a port with Safe Limited Power. -/
def Obligations.SensorSamples : Prop :=
  (∀ (s : State) (n w : Nat), n < 34816 → sensRuns s n = true → onGrid s n = true →
     rawOf (osrOf (sensRate s n)) w < 0xC00000 → cellGet (fun _ => 0) s.rchg n = 0 →
     cellGet (fun _ => 2) s.refill n = 0 → cellGet (fun _ => 0) s.osr n = 0 → s.corrBad.contains n = false →
     s.modes.busyS.contains n = false → bitN (readN s (Blk.esa.base + 0x18)) 31 = false →
     runs (.sensorSample n (some w) false) s fun t =>
     t.flag R.ESA_SAMPLE_VALID [n] = true ∧ t.flag R.ESA_SAMPLE_SAT [n] = false ∧
     t.rd R.ESA_SAMPLE_GRANGE [n] = s.rd R.ESA_SAMPLE_GRANGE [n] ∧
     t.rd R.ESA_SAMPLE_SEQ [n] = (s.rd R.ESA_SAMPLE_SEQ [n] + 1) % 2 ^ 16 ∧
     t.rd R.ESA_SAMPLE_VALUE [n] = (if s.rd R.ESA_SAMPLE_GRANGE [n] = 1
     then clampN 4294967295 ((((rawOf (osrOf (sensRate s n)) w : Int) - s.rdS R.ESA_CORR_OFS1 [n]) * (s.rd R.ESA_CORR_GAIN1 [n] : Int)) / 65536 -
     (darkLevel s n : Int))
     else clampN 4294967295 ((((rawOf (osrOf (sensRate s n)) w : Int) - s.rdS R.ESA_CORR_OFS0 [n]) * (s.rd R.ESA_CORR_GAIN0 [n] : Int)) / 65536 -
     (darkLevel s n : Int))) ∧
     wordsKept s t [sampleAddr n, sampleAddr n + 4]) ∧
  (∀ (s : State) (n : Nat), n < 36864 → sensRuns s n = true → onGrid s n = true →
     runs (.sensorSample n none false) s fun t =>
     bitN (readN t Blk.esa.base) 2 = true ∧ readN t (sampleAddr n) = readN s (sampleAddr n) ∧
     readN t (sampleAddr n + 4) = readN s (sampleAddr n + 4) ∧ t.missed.contains n = true) ∧
  (∀ (s : State) (n : Nat) (b : Option Nat) (x : Bool), onGrid s n = false →
     runs (.sensorSample n b x) s fun t => t = s) ∧
  (∀ (s : State) (x : Nat), x < 1024 → islOn s 4 = true → heldDark s (x % 512) = true →
     darkLong s (x % 512) = true →
     runs (.comparatorCrossing x) s fun t =>
     t.chB.dver.contains (x % 512) = true ∧ bitN t.chB.locks 4 = true ∧ t.regs = s.regs ∧ t.chA = s.chA) ∧
  (∀ (s : State) (x : Nat), x < 1024 → islOn s 4 = true → heldDark s (x % 512) = false →
     spbOn s.chB R.SAF_SLPCFG_EN [x % 512] = true →
     runs (.comparatorCrossing x) s fun t =>
     t.chB.trips.contains (x % 512) = true ∧ (s.chB.trips.contains (x % 512) = true ∨ t.chB.blocks.contains (x % 512) = true) ∧
     t.chA = s.chA)

/-- R112, R126, R128, R129: LOOP_UPDATE of a loop in MODEL_HOLD with cause 0 commands the model value with no hold
correction and stays; of a loop that is OFF and whose entry and tables are loaded, it enters MODEL_HOLD with cause 4.
No other loop entry changes and nothing is journaled. -/
def Obligations.LoopUpdates : Prop :=
  (∀ (s : State) (n g : Nat), n < 34816 → g < 32 → engLive s g = true → islOn s (8 + g / 8) = true →
     ownerOf s n = some (g / 8) → islOn s (actIsland n) = true → s.loopBad.contains n = false → s.ramps = [] →
     s.modes.busyL.contains n = false → bitN (readN s (Blk.ce.base + 0x18)) 31 = false → 2 ≤ modeOf s →
     elemFailed s n = false → s.rd R.LT_LOOP_RATE [n] = rateAt s s.shed n → (qGet s n).en = false →
     modeOf s ≠ mCalibrate → s.rd R.LT_LOOP_STATE [n] = 1 → s.rd R.LT_LOOP_HCAUSE [n] = 0 →
     runs (.loopUpdate n g true) s fun t =>
     t.rd R.LT_LOOP_STATE [n] = 1 ∧ t.rd R.LT_LOOP_HCAUSE [n] = 0 ∧ t.rd R.LT_LOOP_UCMD [n] = modelCmd s n ∧
     t.rd R.LT_LOOP_DH [n] = 0 ∧
     (drvHeld s n = false → (drvGet t n).cmd = modelCmd s n ∧ (drvGet t n).dh = 0 ∧ (drvGet t n).frz = false) ∧
     t = { s with regs := t.regs, drv := t.drv, loopX := t.loopX, updates := t.updates } ∧
     wordsKept s t (rbAddr n :: (rbAddr n + 4) :: fldAddr R.CE_FFTAB_FFS [n] :: (span 0 16).map fun i => entryAddr n + 4 * i)) ∧
  (∀ (s : State) (n g : Nat), n < 34816 → g < 32 → engLive s g = true → islOn s (8 + g / 8) = true →
     ownerOf s n = some (g / 8) → islOn s (actIsland n) = true → s.loopBad.contains n = false → s.ramps = [] →
     s.modes.busyL.contains n = false → bitN (readN s (Blk.ce.base + 0x18)) 31 = false → 2 ≤ modeOf s →
     elemFailed s n = false → s.rd R.LT_LOOP_RATE [n] = rateAt s s.shed n → (qGet s n).en = false →
     s.rd R.LT_LOOP_STATE [n] = 0 → entryLoaded s n = true →
     runs (.loopUpdate n g true) s fun t =>
     t.rd R.LT_LOOP_STATE [n] = 1 ∧ t.rd R.LT_LOOP_HCAUSE [n] = 4 ∧ t.jnl = s.jnl ∧ t.evs = s.evs ∧ t.modes = s.modes)

/-- R108, R140: LOOP_ENTRY_REWRITE ends the error of an uncorrectable entry, whatever the image in force: the entry of an
element takes the target of the live map, a loop that runs resumes in MODEL_HOLD with cause 5, one that is OFF stays
OFF, and nothing beside the entry changes; an entry without such an error is left alone. COMPARATOR_SELF_TEST
completes in every state, passed or not: no register, latch or line changes. -/
def Obligations.LoopEntries : Prop :=
  (∀ (s : State) (n : Nat), n < nLoop → s.loopBad.contains n = true → s.modes.mpDown = false →
     islOn s (actIsland n) = true →
     runs (.loopEntryRewrite n) s fun t =>
     t.loopBad = s.loopBad.filter (· != n) ∧
     (s.rd R.LT_LOOP_STATE [n] ≠ 0 → t.rd R.LT_LOOP_STATE [n] = 1 ∧ t.rd R.LT_LOOP_HCAUSE [n] = 5) ∧
     (s.rd R.LT_LOOP_STATE [n] = 0 → t.rd R.LT_LOOP_STATE [n] = 0) ∧
     (n < nElem → t.rd R.LT_LOOP_TSTATE [n] = ((elemUse s n).map (·.2)).getD 0 % 4) ∧
     t = { s with regs := t.regs, loopBad := t.loopBad } ∧
     (s.rd R.LT_LOOP_STATE [n] ≠ 3 → wordsKept s t ((span 0 16).map fun i => entryAddr n + 4 * i))) ∧
  (∀ (s : State) (n : Nat), s.loopBad.contains n = false →
     runs (.loopEntryRewrite n) s fun t => t = s) ∧
  (∀ (s : State) (x : Nat) (ok : Bool),
     runs (.comparatorSelfTest x ok) s fun t => t = s)

/-- R111, R137, R138, R139: CLUSTER_FAIL puts every engine of the cluster out of service and hands its home loops to the
survivors: survivor number loop mod S serves each; a re-qualified cluster with a live engine owns its home loops
again. -/
def Obligations.Clusters : Prop :=
  (∀ (s : State) (c n : Nat), c < 4 → s.away = [] → homeOf n = c → modeOf s = mDark →
     s.flag R.PWR_MODE_C_LOCKOUT [] = false → s.flag R.PWR_MODE_C_STOP [] = false →
     runs (.clusterFail c) s fun t =>
     t.away = [c] ∧ ownerOf t n = ((span 0 4).filter (· != c))[n % 3]? ∧
     ((span 0 32).all fun g => engLive t g == (engLive s g && decide (g / 8 ≠ c))) = true ∧ t.flag R.PWR_MODE_C_DEG [] = true ∧
     bitN (readN t Blk.ce.base) 2 = true ∧ t.jnl = s.jnl ∧ t.evs = s.evs ∧ t.drv = s.drv) ∧
  (∀ (s : State) (c n : Nat), c < 4 → s.away.contains c = true → islOn s (8 + c) = true → 0 < liveOf s c →
     modeOf s = mDark → s.flag R.PWR_MODE_C_LOCKOUT [] = false → s.flag R.PWR_MODE_C_STOP [] = false →
     homeOf n = c →
     runs (.clusterOwnershipReturn c) s fun t =>
     ownerOf t n = some c ∧ t.away = s.away.filter (· != c) ∧ t.jnl = s.jnl ∧ t.evs = s.evs ∧ t.drv = s.drv)

/-- R151, R152, R154, R422: SETPT_MEASUREMENT, a period, a gate or a conversion of the Precision Converter, counts valid
and invalid measurements and takes the levels as they stand; a valid one becomes the value in use while LOS is clear,
an invalid one that does not assert LOS leaves the value in use; LOST ms without a measurement assert LOS and restart
the run of valid ones, and FB is in use with FALLBACK or before any valid value, with the FB and LOSACT that the
latest measurement took. -/
def Obligations.SetPointInputs : Prop :=
  (∀ (s : State) (k a b v : Nat), setptRuns s k = true → s.rd R.PORT_SETPT_MODE [k] ≤ 2 →
     ((if s.rd R.PORT_SETPT_MODE [k] = 1 then setptPwm a b else setptPfm (s.rd R.PORT_SETPT_FLO [k]) (s.rd R.PORT_SETPT_FHI [k]) a b) = some v) →
     s.flag R.PORT_SETPT_LOS [k] = false →
     runs (.setptMeasurement k a b) s fun t =>
     t.flag R.PORT_SETPT_VALID [k] = true ∧ t.rd R.PORT_SETPT_V [k] = v ∧
     setptGet t k = (0, min 255 ((setptGet s k).2.1 + 1), some v) ∧ setptLevels t k = readN s (0x3803004 + 16 * k) ∧
     t = { s with regs := t.regs, setpt := t.setpt, spLev := t.spLev } ∧
     wordsKept s t [fldAddr R.PORT_SETPT_VALID [k], fldAddr R.PORT_SETPT_V [k]]) ∧
  (∀ (s : State) (k a b : Nat), setptRuns s k = true → s.rd R.PORT_SETPT_MODE [k] ≤ 2 →
     ((if s.rd R.PORT_SETPT_MODE [k] = 1 then setptPwm a b else setptPfm (s.rd R.PORT_SETPT_FLO [k]) (s.rd R.PORT_SETPT_FHI [k]) a b) = none) →
     min 15 ((setptGet s k).1 + 1) < s.rd R.PORT_SETPT_LOSN [k] →
     runs (.setptMeasurement k a b) s fun t =>
     t.flag R.PORT_SETPT_VALID [k] = false ∧ t.rd R.PORT_SETPT_V [k] =
     (if (setptGet s k).2.2 = none ∨ (s.flag R.PORT_SETPT_LOS [k] = true ∧ s.flag R.PORT_SETPT_LOSACT [k] = true)
     then s.rd R.PORT_SETPT_FB [k] else (setptGet s k).2.2.getD 0) % 2 ^ 16 ∧
     setptGet t k = (min 15 ((setptGet s k).1 + 1), 0, (setptGet s k).2.2) ∧
     t = { s with regs := t.regs, setpt := t.setpt, spLev := t.spLev } ∧
     wordsKept s t [fldAddr R.PORT_SETPT_VALID [k], fldAddr R.PORT_SETPT_V [k]]) ∧
  (∀ (s : State) (k a b e v : Nat), setptRuns s k = true → s.rd R.PORT_SETPT_MODE [k] = 3 →
     seqEntry s (56 + k) = some e → pcvTurn s e = true → s.therm.refxBad = false → satS 24 (a : Int) = a →
     unsettled s e = false → setptAnalog (pcvCorrect s (56 + k) a) = some v →
     s.flag R.PORT_SETPT_LOS [k] = false →
     runs (.setptMeasurement k a b) s fun t =>
     t.flag R.PORT_SETPT_VALID [k] = true ∧ t.rd R.PORT_SETPT_V [k] = v ∧
     setptGet t k = (0, min 255 ((setptGet s k).2.1 + 1), some v) ∧ t.flag R.PCV_RESULT_VALID [e] = true ∧
     t.rd R.PCV_RESULT_CNT [e] = (s.rd R.PCV_RESULT_CNT [e] + 1) % 32 ∧ t.drv = s.drv ∧ t.evs = s.evs) ∧
  (∀ (s : State) (k : Nat), setptRuns s k = true → s.flag R.PORT_SETPT_LOS [k] = false →
     runs (.setptLosTimeout k) s fun t =>
     t.flag R.PORT_SETPT_LOS [k] = true ∧ setptGet t k = ((setptGet s k).1, 0, (setptGet s k).2.2) ∧ t.jnl = s.jnl ∧ t.evs = s.evs ∧
     t.rd R.PORT_SETPT_V [k] = (if (setptHeld s k).2.2 = true ∨ (setptGet s k).2.2 = none
     then (setptHeld s k).2.1 else (setptGet s k).2.2.getD 0) % 2 ^ 16)

/-- R169, R170, R185: DOMAIN_ESTIMATE shows the estimate (the servo's oldest waiting one first) and the clockClass, and
takes the HOLDOVER_T that KCP last wrote; sixteen estimates in a row within LOCK_THR lock an UNLOCKED domain; a LOCKED
domain whose class passes the limit enters HOLDOVER. -/
def Obligations.DomainEstimates : Prop :=
  (∀ (s : State) (d cls : Nat) (x : Int), d < 8 → islOn s 6 = true → s.rd R.TBU_DOM_STATE_STATE [d] = 1 →
     (servoGet s d).est = [] → -(2 ^ 31) ≤ x → x < 2 ^ 31 → cls < 256 →
     256 * s.rd R.TBU_DOM_CFG_LOCK_THR [d] < x.natAbs →
     runs (.domainEstimate d x cls) s fun t =>
     t.rdS R.TBU_DOM_EST [d] = x ∧ t.rd R.TBU_DOM_STATE_TTCLASS [d] = cls ∧ t.rd R.TBU_DOM_STATE_STATE [d] = 1 ∧
     (servoGet t d).good = 0 ∧ (servoGet t d).holdT = s.rd R.TBU_DOM_HOLD_HOLDOVER_T [d] ∧
     t = { s with regs := t.regs, servo := t.servo } ∧
     wordsKept s t [fldAddr R.TBU_DOM_EST [d], fldAddr R.TBU_DOM_STATE_TTCLASS [d]]) ∧
  (∀ (s : State) (d cls : Nat) (x : Int), d < 8 → islOn s 6 = true →
     s.rd R.TBU_DOM_STATE_STATE [d] = 1 ∨ s.rd R.TBU_DOM_STATE_STATE [d] = 3 → (servoGet s d).est = [] →
     cls ≤ s.rd R.TBU_DOM_CFG_CLASS_MAX [d] → x.natAbs ≤ 256 * s.rd R.TBU_DOM_CFG_LOCK_THR [d] →
     s.flag R.TBU_DOM_STEP_GO [d] = false → 15 ≤ (servoGet s d).good →
     runs (.domainEstimate d x cls) s fun t =>
     t.rd R.TBU_DOM_STATE_STATE [d] = 2 ∧ (servoGet t d).good = 0 ∧ t.cnt = s.cnt ∧ t.phase = s.phase) ∧
  (∀ (s : State) (d cls : Nat) (x : Int), d < 8 → islOn s 6 = true → s.rd R.TBU_DOM_STATE_STATE [d] = 2 →
     (servoGet s d).bad < 3 → s.rd R.TBU_DOM_CFG_CLASS_MAX [d] < cls →
     runs (.domainEstimate d x cls) s fun t =>
     t.rd R.TBU_DOM_STATE_STATE [d] = 3 ∧ (servoGet t d).hoFrom = s.time ∧ t.cnt = s.cnt ∧
     bitN (readN t Blk.tbu.base) 1 = true)

/-- R167, R171: DOMAIN_FADJ_WRITE stores the rate offset within ±122 ppm and DOMAIN_PHADJ_WRITE the residual phase,
neither in HOLDOVER; DOMAIN_STEP_GO writes the time of a step and requests it in UNLOCKED for an estimated offset
above 1 µs, removes a smaller one through the residual phase, and is refused elsewhere with STATUS 5;
DOMAIN_STEP_APPLY sets the counter to the written time, clears the request and sets STATUS 4. -/
def Obligations.DomainRates : Prop :=
  (∀ (s : State) (d : Nat) (v : Int), d < 8 → islOn s 6 = true → s.rd R.TBU_DOM_STATE_STATE [d] ≠ 3 →
     runs (.domainFadjWrite d v) s fun t =>
     t.rdS R.TBU_DOM_FADJ [d] = max (-2146246697) (min 2146246697 v) ∧ onlyWords s t [fldAddr R.TBU_DOM_FADJ [d]]) ∧
  (∀ (s : State) (d : Nat) (v : Int), d < 8 → islOn s 6 = true → s.rd R.TBU_DOM_STATE_STATE [d] ≠ 3 →
     -(2 ^ 31) ≤ v → v < 2 ^ 31 →
     runs (.domainPhadjWrite d v) s fun t =>
     t.rdS R.TBU_DOM_PHADJ [d] = v ∧ phaseGet t d = v * 2 ^ 28 ∧ ((span 0 8).all fun x => x == d || phaseGet t x == phaseGet s x) = true ∧
     t = { s with regs := t.regs, phase := t.phase } ∧ wordsKept s t [fldAddr R.TBU_DOM_PHADJ [d]]) ∧
  (∀ (s : State) (d sec ns : Nat), d < 8 → islOn s 6 = true → s.rd R.TBU_DOM_STATE_STATE [d] = 1 →
     wantsStep s d = true →
     runs (.domainStepGo d sec ns) s fun t =>
     t.flag R.TBU_DOM_STEP_GO [d] = true ∧ t.rd R.TBU_DOM_STEP_SEC_HI [d] = sec / 2 ^ 32 % 2 ^ 16 ∧
     t.rd R.TBU_DOM_STEP_SEC_LO [d] = sec % 2 ^ 32 ∧ t.rd R.TBU_DOM_STEP_NS [d] = ns % 2 ^ 30 ∧
     onlyWords s t [fldAddr R.TBU_DOM_STEP_GO [d], fldAddr R.TBU_DOM_STEP_SEC_HI [d], fldAddr R.TBU_DOM_STEP_SEC_LO [d],
     fldAddr R.TBU_DOM_STEP_NS [d]]) ∧
  (∀ (s : State) (d sec ns : Nat), d < 8 → islOn s 6 = true → s.rd R.TBU_DOM_STATE_STATE [d] ≠ 1 →
     runs (.domainStepGo d sec ns) s fun t =>
     t.cnt = s.cnt ∧ t.flag R.TBU_DOM_STEP_GO [d] = s.flag R.TBU_DOM_STEP_GO [d] ∧ bitN (readN t Blk.tbu.base) 5 = true ∧
     t.rd R.TBU_DOM_STATE_STATE [d] = s.rd R.TBU_DOM_STATE_STATE [d]) ∧
  (∀ (s : State) (d sec ns : Nat), d < 8 → islOn s 6 = true → s.rd R.TBU_DOM_STATE_STATE [d] = 1 →
     wantsStep s d = false →
     runs (.domainStepGo d sec ns) s fun t =>
     phaseGet t d = -(s.rdS R.TBU_DOM_EST [d]) * 2 ^ 36 ∧ t = { s with regs := t.regs, phase := t.phase } ∧
     wordsKept s t [fldAddr R.TBU_DOM_PHADJ [d]]) ∧
  (∀ (s : State) (d : Nat), d < 8 → islOn s 6 = true → s.flag R.TBU_DOM_STEP_GO [d] = true → s.evs = [] →
     s.rd R.TBU_DOM_STATE_STATE [d] = 1 →
     runs (.domainStepApply d) s fun t =>
     domCnt t d = ((s.rd R.TBU_DOM_STEP_SEC_HI [d] * 2 ^ 32 + s.rd R.TBU_DOM_STEP_SEC_LO [d]) * 1000000000 +
     s.rd R.TBU_DOM_STEP_NS [d]) * 2 ^ 44 ∧
     t.flag R.TBU_DOM_STEP_GO [d] = false ∧ bitN (readN t Blk.tbu.base) 4 = true ∧
     ((span 0 8).all fun x => x == d || domCnt t x == domCnt s x) = true ∧ t.evs = [] ∧ t.jnl = s.jnl)

/-- R169, R170: Each cause of DOMAIN_HOLDOVER_ENTRY takes a LOCKED domain to HOLDOVER with STATUS 1 and keeps its counter
and rate: no Sync, no estimate, a clockClass above CLASS_MAX, no pulse in PPS PHASE mode, no Announce from the only
transmitter; HOLDOVER_EXPIRY takes it to UNLOCKED with STATUS 0 once the HOLDOVER_T in force has elapsed;
EPOCH_REACHED restarts the generators of the domain. -/
def Obligations.DomainHoldover : Prop :=
  (∀ (s : State) (d c : Nat), d < 8 → islOn s 6 = true → s.rd R.TBU_DOM_STATE_STATE [d] = 2 →
     c = 0 ∨ c = 4 ∨ (c = 2 ∧ s.rd R.TBU_DOM_CFG_CLASS_MAX [d] < s.rd R.TBU_DOM_STATE_TTCLASS [d]) ∨ (c = 3 ∧ s.rd R.TBU_DOM_PPSCFG_PPSMODE [d] = 2) →
     runs (.domainHoldoverEntry d c) s fun t =>
     t.rd R.TBU_DOM_STATE_STATE [d] = 3 ∧ (servoGet t d).hoFrom = s.time ∧ bitN (readN t Blk.tbu.base) 1 = true ∧
     t.rd R.TBU_DOM_FADJ [d] = s.rd R.TBU_DOM_FADJ [d] ∧ t.cnt = s.cnt ∧ t.phase = s.phase) ∧
  (∀ (s : State) (d : Nat), d < 8 → islOn s 6 = true → s.rd R.TBU_DOM_STATE_STATE [d] = 2 →
     s.rd R.TBU_DOM_STATE_TTPORT [d] = 0 → (ptpGet s d 1).ann.seen = false →
     runs (.domainHoldoverEntry d 1) s fun t =>
     t.rd R.TBU_DOM_STATE_STATE [d] = 3 ∧ t.flag R.TBU_DOM_STATE_TTVALID [d] = false ∧ (ptpGet t d 0).ann = Annc.silent ∧
     t.rd R.TBU_DOM_FADJ [d] = s.rd R.TBU_DOM_FADJ [d] ∧ t.cnt = s.cnt ∧ t.phase = s.phase) ∧
  (∀ (s : State) (d : Nat), d < 8 → s.rd R.TBU_DOM_STATE_STATE [d] = 3 →
     (servoGet s d).holdT * 1000000 ≤ s.time - (servoGet s d).hoFrom → s.evs = [] →
     (span 0 8).all (fun k => !s.flag R.PLAN_SCTL_RUN [k]) = true →
     runs (.holdoverExpiry d) s fun t =>
     t.rd R.TBU_DOM_STATE_STATE [d] = 1 ∧ bitN (readN t Blk.tbu.base) 0 = true ∧
     t.rd R.TBU_DOM_FADJ [d] = s.rd R.TBU_DOM_FADJ [d] ∧ t.cnt = s.cnt ∧ t.phase = s.phase ∧ t.evs = []) ∧
  (∀ (s : State) (d : Nat), d < 8 → domReady s d = true → s.evs = [] →
     runs (.epochReached d) s fun t =>
     t = { s with rcFrom := t.rcFrom } ∧
     ((span 0 8).all fun g => cellGet (fun _ => 0) t.rcFrom g ==
     if s.rd R.CE_RCGEN_DOMAIN [g] = d then domNs s (genDomain s g) else cellGet (fun _ => 0) s.rcFrom g) = true)

/-- R174, R175, R176, R336: Each is the oldest frame of its port's PTP ring, which it leaves. A two-step Sync is held with
its stamp less RXLAT until the Follow_Up of its sequence number, which with the port's Delay_Resp gives one estimate;
a Delay_Resp to the held Delay_Req supplies t4; an Announce is the data set of its port; each counts as received; an
interval out of −7 … 0 counts as PTP_BAD, a message of no enabled domain in NODOM. -/
def Obligations.PtpMessages : Prop :=
  (∀ (s : State) (p d q : Nat) (li t1 co : Int) (f : RxHeld) (l : List RxHeld) (g : PtpTag), p < 2 →
     islOn s 6 = true → (portGet s p).ptp = f :: l → f.ptp = some g → g.typ = 0 → g.ok = true →
     ptpDomain s p g.dom g.mcast = some d → -7 ≤ li → li ≤ 0 →
     runs (.ptpSyncRx p q li true t1 co) s fun t =>
     (ptpGet t d p).sync = some (q, (g.raw : Int) - ((s.rd R.TBU_RXLAT [p] * 256 : Nat) : Int), co) ∧
     t.rd R.TBU_DOM_SYNC_RX [d] = (s.rd R.TBU_DOM_SYNC_RX [d] + 1) % 2 ^ 32 ∧ (servoGet t d).est = (servoGet s d).est ∧
     (portGet t p).ptp = l ∧ t = { s with regs := t.regs, netA := t.netA, netB := t.netB, servo := t.servo } ∧
     wordsKept s t [fldAddr R.TBU_DOM_SYNC_RX [d], fldAddr R.NI_RING_FREE [p, 1], fldAddr R.NI_RING_LOW [p, 1]]) ∧
  (∀ (s : State) (p d q : Nat) (li t1 co : Int) (two : Bool) (f : RxHeld) (l : List RxHeld) (g : PtpTag),
     p < 2 → islOn s 6 = true → (portGet s p).ptp = f :: l → f.ptp = some g → g.typ = 0 → g.ok = true →
     ptpDomain s p g.dom g.mcast = some d → li < -7 ∨ 0 < li →
     runs (.ptpSyncRx p q li two t1 co) s fun t =>
     t.rd R.TBU_DOM_PTP_BAD [d] = (s.rd R.TBU_DOM_PTP_BAD [d] + 1) % 2 ^ 32 ∧ t.servo = s.servo ∧
     (portGet t p).ptp = l ∧ t = { s with regs := t.regs, netA := t.netA, netB := t.netB, servo := t.servo } ∧
     wordsKept s t [fldAddr R.TBU_DOM_PTP_BAD [d], fldAddr R.NI_RING_FREE [p, 1], fldAddr R.NI_RING_LOW [p, 1]]) ∧
  (∀ (s : State) (p d q : Nat) (t1 co t2 c t3 t4 cd : Int) (f : RxHeld) (l : List RxHeld) (g : PtpTag),
     p < 2 → islOn s 6 = true → (portGet s p).ptp = f :: l → f.ptp = some g → g.typ = 8 → g.ok = true →
     ptpDomain s p g.dom g.mcast = some d → (ptpGet s d p).sync = some (q, t2, c) →
     (ptpGet s d p).delay = some (t3, t4, cd) → (t2 - t3).natAbs ≤ 65536000000000 →
     s.flag R.TBU_DOM_STATE_TTVALID [d] = true → s.rd R.TBU_DOM_STATE_TTPORT [d] = p →
     s.rd R.TBU_DOM_PPSCFG_PPSMODE [d] ≠ 2 →
     runs (.ptpFollowUpRx p q t1 co) s fun t =>
     (ptpGet t d p).sync = none ∧ (servoGet t d).est = (servoGet s d).est ++
     [((t2 - t1 - (c + co) - ((t2 - t1 - (c + co)) + (t4 - t3 - cd)) / 2 - s.rdS R.TBU_DOM_ASYM [d, p])) / 256] ∧
     (portGet t p).ptp = l ∧ t = { s with regs := t.regs, netA := t.netA, netB := t.netB, servo := t.servo } ∧
     wordsKept s t [fldAddr R.NI_RING_FREE [p, 1], fldAddr R.NI_RING_LOW [p, 1]]) ∧
  (∀ (s : State) (p d q : Nat) (li t3 t4 co : Int) (f : RxHeld) (l : List RxHeld) (g : PtpTag), p < 2 →
     islOn s 6 = true → (portGet s p).ptp = f :: l → f.ptp = some g → g.typ = 9 → g.ok = true →
     ptpDomain s p g.dom g.mcast = some d → -7 ≤ li → li ≤ 0 → (ptpGet s d p).t3 = some (q, t3) →
     runs (.ptpDelayRespRx p q li t4 co) s fun t =>
     (ptpGet t d p).delay = some (t3, t4, co) ∧ (ptpGet t d p).t3 = none ∧ (ptpGet t d p).dreqLog = li ∧
     t.rd R.TBU_DOM_DRESP_RX [d] = (s.rd R.TBU_DOM_DRESP_RX [d] + 1) % 2 ^ 32 ∧
     (portGet t p).ptp = l ∧ t = { s with regs := t.regs, netA := t.netA, netB := t.netB, servo := t.servo } ∧
     wordsKept s t [fldAddr R.TBU_DOM_DRESP_RX [d], fldAddr R.NI_RING_FREE [p, 1], fldAddr R.NI_RING_LOW [p, 1]]) ∧
  (∀ (s : State) (p d cls v : Nat) (f : RxHeld) (l : List RxHeld) (g : PtpTag), p < 2 → islOn s 6 = true →
     (portGet s p).ptp = f :: l → f.ptp = some g → g.typ = 11 → g.ok = true →
     ptpDomain s p g.dom g.mcast = some d → d < 8 → (ptpGet s d (1 - p)).ann.seen = false →
     s.rd R.TBU_DOM_STATE_STATE [d] ≠ 2 → cls < 256 →
     runs (.ptpAnnounceRx p cls v true) s fun t =>
     (ptpGet t d p).ann = ⟨true, cls, v⟩ ∧ (ptpGet t d (1 - p)).ann = (ptpGet s d (1 - p)).ann ∧
     t.flag R.TBU_DOM_STATE_TTVALID [d] = true ∧ t.rd R.TBU_DOM_STATE_TTPORT [d] = p ∧
     t.rd R.TBU_DOM_STATE_TTCLASS [d] = cls ∧ (portGet t p).ptp = l ∧ t = { s with regs := t.regs, netA := t.netA, netB := t.netB, servo := t.servo } ∧
     wordsKept s t [fldAddr R.TBU_DOM_ANN_RX [d], fldAddr R.TBU_DOM_STATE_TTCLASS [d], fldAddr R.NI_RING_FREE [p, 1], fldAddr R.NI_RING_LOW [p, 1]]) ∧
  (∀ (s : State) (p q : Nat) (li t1 co : Int) (two : Bool) (f : RxHeld) (l : List RxHeld) (g : PtpTag),
     p < 2 → islOn s 6 = true → (portGet s p).ptp = f :: l → f.ptp = some g → g.typ = 0 →
     ptpDomain s p g.dom g.mcast = none →
     runs (.ptpSyncRx p q li two t1 co) s fun t =>
     t.rd R.TBU_NODOM [] = (s.rd R.TBU_NODOM [] + 1) % 2 ^ 32 ∧ bitN (readN t Blk.tbu.base) 2 = true ∧
     (portGet t p).ptp = l ∧ t.servo = s.servo)

/-- R174, R177, R178, R179: PPS_IN_PULSE stores the distance of the domain counter latched at the edge, less PPSDLY, from
the nearest whole second in PPSERR, once per second, and in PHASE mode gives it to the servo, while a second pulse of
a second only sets STATUS 3; PPS_OUT rises at a whole second plus OFS, falls WIDTH later, and stays low while disabled
or, with SQUELCH, its domain unusable; DELAY_REQ_TX queues one Delay_Req in queue 65,535 and counts it. -/
def Obligations.PulsesPerSecond : Prop :=
  (∀ (s : State) (d : Nat) (x : Int), d < 2 → islOn s 6 = true →
     s.rd R.TBU_DOM_PPSCFG_PPSMODE [d] = 1 ∨ s.rd R.TBU_DOM_PPSCFG_PPSMODE [d] = 2 →
     s.rd R.TBU_DOM_STATE_STATE [d] = 1 →
     x = ((domCnt s d / 2 ^ 43 * 128 : Nat) : Int) - s.rdS R.TBU_DOM_PPSCFG_PPSDLY [d] * 256 →
     (servoGet s d).ppsSec ≠ some ((x - secondError x 256000000000) / 256000000000).toNat →
     -(2 ^ 31) ≤ secondError x 256000000000 → secondError x 256000000000 < 2 ^ 31 →
     runs (.ppsInPulse d) s fun t =>
     t.rdS R.TBU_DOM_PPSERR [d] = secondError x 256000000000 ∧
     (servoGet t d).est = (if s.rd R.TBU_DOM_PPSCFG_PPSMODE [d] = 2 then (servoGet s d).est ++ [secondError x 256000000000]
     else (servoGet s d).est) ∧
     (servoGet t d).ppsSec = some ((x - secondError x 256000000000) / 256000000000).toNat ∧
     t = { s with regs := t.regs, servo := t.servo } ∧
     wordsKept s t [fldAddr R.TBU_DOM_PPSERR [d]]) ∧
  (∀ (s : State) (d : Nat) (x : Int), d < 2 → islOn s 6 = true →
     s.rd R.TBU_DOM_PPSCFG_PPSMODE [d] = 1 ∨ s.rd R.TBU_DOM_PPSCFG_PPSMODE [d] = 2 →
     s.rd R.TBU_DOM_STATE_STATE [d] ≠ 0 →
     x = ((domCnt s d / 2 ^ 43 * 128 : Nat) : Int) - s.rdS R.TBU_DOM_PPSCFG_PPSDLY [d] * 256 →
     (servoGet s d).ppsSec = some ((x - secondError x 256000000000) / 256000000000).toNat →
     runs (.ppsInPulse d) s fun t =>
     bitN (readN t Blk.tbu.base) 3 = true ∧ t.rdS R.TBU_DOM_PPSERR [d] = s.rdS R.TBU_DOM_PPSERR [d] ∧ (servoGet t d).est = (servoGet s d).est ∧
     t = { s with regs := t.regs, servo := t.servo, pic := t.pic }) ∧
  (∀ (s : State), islOn s 6 = true → s.flag R.TBU_PPSOUT_EN [] = true →
     (s.flag R.TBU_PPSOUT_SQUELCH [] = true → domUsable s (s.rd R.TBU_PPSOUT_DOMAIN []) = true) →
     s.rd R.TBU_DOM_STATE_STATE [s.rd R.TBU_PPSOUT_DOMAIN []] ≠ 0 → s.ppsOut = false → ppsCrossed s = true →
     runs .ppsOutEdge s fun t => t = { s with ppsOut := true }) ∧
  (∀ (s : State),
     (s.ppsOut = true ∧ s.rd R.TBU_PPSOUT_WIDTH [] * 1000 ≤ ppsPhase s) ∨ (s.ppsOut = false ∧ ppsCrossed s = false) →
     runs .ppsOutEdge s fun t => t = { s with ppsOut := false }) ∧
  (∀ (s : State),
     s.flag R.TBU_PPSOUT_EN [] = false ∨ (s.flag R.TBU_PPSOUT_SQUELCH [] = true ∧ domUsable s (s.rd R.TBU_PPSOUT_DOMAIN []) = false) →
     runs .ppsOutEdge s fun t => t = { s with ppsOut := false }) ∧
  (∀ (s : State) (d p : Nat), d < 8 → p < 2 → s.flag R.TBU_DOM_CFG_EN [d] = true →
     bitN (s.rd R.TBU_DOM_CFG_PORTS [d]) p = true → islOn s 6 = true → islOn s 5 = true →
     fits s 65535 1 = true → s.flag R.NI_LINK_UP [0] = true → s.flag R.NI_LINK_UP [1] = true →
     runs (.delayReqTx d p) s fun t =>
     (qGet t 65535).frames = (qGet s 65535).frames ++
     [⟨64, .delayReq d (ptpGet s d p).dreqSeq 0 0 0, s.time, copiesOf s 65535 p, s.egs.next, false⟩] ∧
     t.rd R.TBU_DOM_DREQ_TX [d] = (s.rd R.TBU_DOM_DREQ_TX [d] + 1) % 2 ^ 32 ∧
     (ptpGet t d p).dreqSeq = ((ptpGet s d p).dreqSeq + 1) % 65536 ∧ t.jnl = s.jnl ∧ t.evs = s.evs)

/-- R192, R216, R222: SOLVE_COMPLETE with a solution makes the oldest ACCEPTED event SOLVED with the units of the chosen
solution; a removal, which needs no path, is always solved, with that removal as its unit; WAVE_ARM of an event whose
next wave fits arms it: the wave stands among the armed ones with its start, its units and the element moves they
make, and the event is ARMED. -/
def Obligations.SolveAndArm : Prop :=
  (∀ (s : State) (e : Ev) (cands : List Cand) (ex : Bool) (n : Nat) (x : Sol), islOn s 7 = true →
     s.jnl.recovering = false → modeActive (modeOf s) = true → s.repairs = [] → s.solving = none →
     s.evs = [e] → e.st = evAccepted → e.replaced = none → e.req.group = true → e.committed = false →
     chooseSol s { e with descs := namedDescs s (projRoute s e.aseq) e.req } (goodSols (foundSols s (projRoute s e.aseq) (namedChanges (projRoute s e.aseq) (isReopt e) (namedDescs s (projRoute s e.aseq) e.req)) (namedDescs s (projRoute s e.aseq) e.req).length cands)) = some x →
     runs (.solveComplete cands ex n) s fun t =>
     (t.evs.map fun v => (v.aseq, v.st, v.units, v.waves)) = [(e.aseq, evSolved, x.units, [])] ∧
     t.rd R.RS_SOLVE_LAST [] = min 65535 n ∧ t.jnl.aseq = s.jnl.aseq ∧ t.armed = s.armed ∧ t.drv = s.drv) ∧
  (∀ (s : State) (e : Ev) (d : Nat) (r : Route) (cands : List Cand) (ex : Bool) (n : Nat), islOn s 7 = true →
     s.jnl.recovering = false → modeActive (modeOf s) = true → s.repairs = [] → s.solving = none →
     s.evs = [e] → e.st = evAccepted → e.replaced = none → e.tab < 1024 → e.req.group = true →
     e.committed = false → e.req.kind = 0 → e.req.descs = [d] → dValid d = false →
     projRoute s e.aseq (dOut d) = some r → unitSize ⟨0, [⟨dOut d, some r, none, true⟩]⟩ ≤ 8192 →
     runs (.solveComplete cands ex n) s fun t =>
     (t.evs.map fun v => (v.aseq, v.st, v.units, v.waves)) = [(e.aseq, evSolved, [⟨0, [⟨dOut d, some r, none, true⟩]⟩], [])] ∧
     t.rd R.RS_EVTAB_STATE [e.tab] = evSolved ∧
     t.rd R.RS_SOLVE_LAST [] = min 65535 n ∧ t.jnl.aseq = s.jnl.aseq ∧ t.armed = s.armed ∧ t.drv = s.drv) ∧
  (∀ (s : State) (e : Ev) (t0 f x : Nat) (us : List SUnit), mayArm s = true → s.evs = [e] → 0 < e.aseq →
     e.tab < 1024 → e.st = evScheduled ∨ e.st = evArmed → nextWave e = some (t0, f, us) →
     localOf s e.dom t0 = x → tooClose s x = false →
     overBudget s ((movesOf (waveChgs (us.map fun u => (e.aseq, u)))).map (latchMove s (waveChgs (us.map fun u => (e.aseq, u))))) x = false →
     runs (.waveArm e.aseq) s fun t =>
     (t.armed.map fun w => (w.start, w.dom, w.t0, w.units)) =
     (s.armed.map fun w => (w.start, w.dom, w.t0, w.units)) ++ [(x, e.dom, t0, us.map fun u => (e.aseq, u))] ∧
     (t.armed.getLast?.map fun w => w.moves.map fun m => (m.elem, m.st)) =
     some (movesOf (waveChgs (us.map fun u => (e.aseq, u)))) ∧
     (t.evs.map fun v => (v.aseq, v.st, v.armed)) = [(e.aseq, evArmed, e.armed + 1)] ∧
     t.jnl.aseq = s.jnl.aseq ∧ t.drv = s.drv)

/-- R67, R69, R87, R132, R222, R223: At its T0 an armed wave leaves the armed list, counts in RS.WAVENO, is journaled and
credited to its event; an element that it moves with a kick takes the latched state, heater command, class, segment
and H0, with the table entry and handover time of the band at T0, and starts its waveform, one that it moves without a
kick takes the state and the command alone; its loop goes to MODEL_HOLD with cause 2. -/
def Obligations.WavesStart : Prop :=
  (∀ (s : State) (w : Wave) (e : Ev) (u : SUnit), s.armed = [w] → s.modes.leaving = none → s.evs = [e] →
     e.st = evArmed → w.moves = [] → w.voas = [] → w.units = [(e.aseq, u)] → u.chgs = [] → jnlReady s = true →
     runs .waveStart s fun t =>
     t.armed = [] ∧ t.lastT0 = w.start ∧ t.rd R.RS_WAVENO_WAVE [] = (s.rd R.RS_WAVENO_WAVE [] + 1) % 2 ^ 32 ∧
     (t.evs.map fun v => (v.aseq, v.st, v.started, v.failing)) = [(e.aseq, evArmed, e.started + 1, e.failing)] ∧
     s.jnl.last < t.jnl.last ∧ t.jnl.aseq = s.jnl.aseq ∧ t.drv = s.drv) ∧
  (∀ (s : State) (w : Wave) (m : EMove) (k : Nat), s.armed = [w] → s.modes.leaving = none → s.evs = [] →
     w.moves = [m] → w.units = [] → w.voas = [] → m.elem < nElem → bankOf m.elem = k →
     loopOff s m.elem = false → drvHeld s m.elem = false → s.ramps = [] → s.corr = [] → m.kick = true →
     s.flag R.EDA_KTAB_VALID [k, startEntry s m] = true →
     bitN (readN s ((Blk.eda k).base + 0x18)) 31 = false →
     runs .waveStart s fun t =>
     (drvGet t m.elem).cmd = m.u ∧ (drvGet t m.elem).st = m.st ∧ (drvGet t m.elem).phase = 1 ∧
     (drvGet t m.elem).h0 = m.h0 ∧ (drvGet t m.elem).ent = bandOf s (12 + k) * 16 + m.ent % 16 ∧ (drvGet t m.elem).seg = m.seg ∧
     (drvGet t m.elem).dec = rampDec (min 102 m.h0) (handoverUs s k (bandOf s (12 + k))) ∧ (drvGet t m.elem).ho = true ∧ (drvGet t m.elem).t0 = s.time ∧
     (drvGet t m.elem).out = (drvGet s m.elem).out ∧ (drvGet t m.elem).frz = (drvGet s m.elem).frz ∧
     t.rd R.LT_LOOP_STATE [m.elem] = 1 ∧ t.rd R.LT_LOOP_HCAUSE [m.elem] = 2 ∧
     t.rd R.LT_LOOP_CSET [m.elem] = m.cset % 2 ^ R.LT_LOOP_CSET.width ∧
     (∀ x, x < nElem → x ≠ m.elem → drvGet t x = drvGet s x) ∧ t.armed = []) ∧
  (∀ (s : State) (w : Wave) (m : EMove), s.armed = [w] → s.modes.leaving = none → s.evs = [] → w.moves = [m] →
     w.units = [] → w.voas = [] → m.elem < nElem → loopOff s m.elem = false → drvHeld s m.elem = false →
     s.ramps = [] → s.corr = [] → m.kick = false →
     runs .waveStart s fun t =>
     drvGet t m.elem = { drvGet s m.elem with
     cmd := m.u, st := m.st, fresh := false, rstep := (drvGet s m.elem).rstep || (drvGet s m.elem).fresh } ∧
     t.rd R.LT_LOOP_STATE [m.elem] = 1 ∧ t.rd R.LT_LOOP_HCAUSE [m.elem] = 2 ∧
     (∀ x, x < nElem → x ≠ m.elem → drvGet t x = drvGet s x) ∧ t.armed = [])

/-- R200, R202, R204, R206, R242, R263, R264, R265, R266: A repair solve that finds no routing leaves every connection
concerned UNROUTED, and one that finds some plans the waves of the best of them; re-optimisation submits one event of
session 0 with its own firing count, and none before REOPT_GAP has passed; every 10 ms each element of a live path
with a usable sample takes its leakage and phase error anew, the figures of each routed connection are renewed from
them with AGE reading 0, and the age of the others runs on. -/
def Obligations.RepairsAndRefresh : Prop :=
  (∀ (s : State) (n : Nat), islOn s 7 = true → modeActive (modeOf s) = true → repairList s ≠ [] →
     repairList (requeueRepairs [] s) ≠ [] →
     runs (.repairSolve [] n) s fun t =>
     t.repairs = [] ∧ t.repairWaves = [] ∧ bitN (readN t Blk.rs.base) 2 = true ∧
     (repairList (requeueRepairs [] s)).all (fun d => t.flag R.RS_CONN_UNROUTED [dOut d]) = true ∧ t.drv = s.drv ∧ t.jnl.aseq = s.jnl.aseq) ∧
  (∀ (s : State) (n : Nat) (cands : List Cand) (c : Cand), islOn s 7 = true → modeActive (modeOf s) = true →
     s.evs = [] → s.repairWaves = [] → repairList s ≠ [] →
     lowest (repairKey s (armedRoute s) (repairList s)) ((⟨[], []⟩ :: cands).filter (repairOk s (armedRoute s) (repairList s))) = some c →
     runs (.repairSolve cands n) s fun t =>
     t.repairWaves = (repairWavesOf s (armedRoute s) (repairList s) c).1 ∧ bitN (readN t Blk.rs.base) 3 = true ∧
     t.rd R.RS_SOLVE_LAST [] = min 65535 n ∧
     (repairList s).all (fun d => ((choiceFor c.named (dOut d)).isSome && !(repairWavesOf s (armedRoute s) (repairList s) c).2.2.contains (dOut d)) ||
     t.flag R.RS_CONN_UNROUTED [dOut d]) = true ∧ t.drv = s.drv ∧ t.jnl.aseq = s.jnl.aseq) ∧
  (∀ (s : State) (n t0 early x : Nat) (ds : List Nat), reoptFree s = true → reoptWanted s n = true →
     s.evs = [] → reoptInstant s (s.rd R.RS_CONN_DESC [n]) = some x →
     validateEvent 0 s.time (reoptReq s (s.rd R.RS_CONN_DESC [n]) x) s = .ok (t0, early, ds) →
     runs (.reoptimisation n) s fun t =>
     (t.evs.map fun e => (e.session, e.sseq, e.aseq, e.st, e.instant, e.req.descs)) =
     [(0, 2 * 2 ^ 30 + (s.plan.reopts + 1) % 2 ^ 24, s.jnl.aseq + 1, evAccepted, t0, [s.rd R.RS_CONN_DESC [n]])] ∧
     t.plan.reopts = s.plan.reopts + 1 ∧ t.plan.reoptAt = some s.time ∧
     t.jnl.aseq = s.jnl.aseq + 1 ∧ s.jnl.last < t.jnl.last ∧ t.drv = s.drv) ∧
  (∀ (s : State) (n : Nat), reoptDue s = false →
     runs (.reoptimisation n) s fun t => t = s) ∧
  (∀ (s : State) (n p : Nat) (r : Route), n < 512 → p < 2 → islOn s 7 = true → liveRoute s n = some r →
     r.routed = true →
     runs .pathQualityRefresh s fun t =>
     bitsN (viewWord t (fldAddr R.RS_PATH_AGE [n, p])) 0 16 = 0 ∧ t.rd R.RS_PATH_UPD [n, p] = (s.rd R.RS_PATH_UPD [n, p] + 1) % 2 ^ R.RS_PATH_UPD.width ∧
     t.rd R.RS_PATH_IL [n, p] = ilOf s p n (s.rd R.RS_PATH_UPD [n, p] + 1) r % 2 ^ R.RS_PATH_IL.width ∧
     t.rd R.RS_PATH_REE [n, p] = reeOf t (planeElems r p) % 2 ^ R.RS_PATH_REE.width ∧
     t.rd R.RS_PATH_XT [n, p] = ofS R.RS_PATH_XT.width
     (xtOf t (liveElems s) p n (s.rd R.RS_PATH_UPD [n, p] + 1) (planeElems r p)) ∧
     t = { s with regs := t.regs, calx := t.calx, pathAt := t.pathAt }) ∧
  (∀ (s : State) (n p : Nat), n < 512 → p < 2 → islOn s 7 = true →
     (match liveRoute s n with | some r => r.routed | none => false) = false →
     runs .pathQualityRefresh s fun t =>
     viewWord t (fldAddr R.RS_PATH_AGE [n, p]) = viewWord s (fldAddr R.RS_PATH_AGE [n, p]) ∧
     t.rd R.RS_PATH_UPD [n, p] = s.rd R.RS_PATH_UPD [n, p] ∧ t.rd R.RS_PATH_IL [n, p] = s.rd R.RS_PATH_IL [n, p]) ∧
  (∀ (s : State) (e : Nat), islOn s 7 = true → (liveElems s).contains e = true →
     runs .pathQualityRefresh s fun t =>
     cellGet (fun _ => (0, 0)) t.calx.eps e =
     (if freshSample s e then figuresNow s e else cellGet (fun _ => (0, 0)) s.calx.eps e))

/-- R207, R213, R214, R216: An EVENT that passes every check of its validation takes the next ASEQ, is journaled, answered
with it, and stands in the event list as ACCEPTED; one that fails a check is answered with the reason and changes no
event. -/
def Obligations.EventAcceptance : Prop :=
  (∀ (s : State) (h : Hdr) (r : EvReq) (ar t0 early : Nat) (ds : List Nat), inTurn h s = true →
     modeSteady s = true → bitN (s.rd R.JNL_SESS_RIGHTS [h.session]) 2 = true →
     validateEvent h.session (kcpStamp s h.port ar) r s = .ok (t0, early, ds) →
     runs (.submitEvent h r ar) s fun t =>
     served t h (.event r (kcpStamp s h.port ar)) ⟨0x85, 0, 0, 0, false, beBytes 4 (s.jnl.aseq + 1)⟩ ∧ t.jnl.aseq = s.jnl.aseq + 1 ∧
     (t.evs.getLast?.map fun e => (e.session, e.sseq, e.aseq, e.st, e.instant, e.descs)) =
     some (h.session, h.seq, s.jnl.aseq + 1, evAccepted, t0, ds) ∧
     t.evs.length = s.evs.length + 1 ∧ s.jnl.last < t.jnl.last ∧ t.drv = s.drv) ∧
  (∀ (s : State) (h : Hdr) (r : EvReq) (ar x : Nat), inTurn h s = true → modeSteady s = true →
     bitN (s.rd R.JNL_SESS_RIGHTS [h.session]) 2 = true →
     validateEvent h.session (kcpStamp s h.port ar) r s = .error x →
     runs (.submitEvent h r ar) s fun t =>
     served t h (.event r (kcpStamp s h.port ar)) ⟨0x85, 1, x, 0, false, []⟩ ∧ t.jnl.aseq = s.jnl.aseq ∧
     (t.evs.map fun e => (e.aseq, e.st, e.waves)) = (s.evs.map fun e => (e.aseq, e.st, e.waves)) ∧ t.drv = s.drv)

/-- R217, R218, R226, R227, R229, R231, R234: A pending host event ends DONE once its waves have started and none failed,
EXPIRED past its deadline, FAILED past its deferral limit or without a group commit before the cutoff, CANCELLED by
CANCEL, FAILED by GROUP_ABORT before the commit: the final state and reason stand in its table entry, which goes to
the end of the final entries, and the journal grows. -/
def Obligations.EventFinals : Prop :=
  (∀ (s : State) (e : Ev), s.evs = [e] → 0 < e.session → e.session < 32 → e.tab < 1024 → jnlReady s = true →
     e.st = evArmed → e.started = e.waves.length → e.failing = false →
     runs (.eventDone e.aseq) s fun t => t.evs = [] ∧ t.finals = s.finals ++ [e.tab] ∧ t.rd R.RS_EVTAB_STATE [e.tab] = evDone ∧
     t.rd R.RS_EVTAB_REASON [e.tab] = 0 ∧ t.jnl.aseq = s.jnl.aseq ∧ s.jnl.last < t.jnl.last ∧ t.drv = s.drv) ∧
  (∀ (s : State) (e : Ev), s.evs = [e] → 0 < e.session → e.session < 32 → e.tab < 1024 → jnlReady s = true →
     evScheduled ≤ e.st → 0 < e.req.deadline → missesBy s e (e.instant + e.req.deadline * 100000) = true →
     runs (.eventDeadlineExpiry e.aseq) s fun t => t.evs = [] ∧ t.finals = s.finals ++ [e.tab] ∧ t.rd R.RS_EVTAB_STATE [e.tab] = evExpired ∧
     t.rd R.RS_EVTAB_REASON [e.tab] = rDeadline ∧ t.jnl.aseq = s.jnl.aseq ∧ s.jnl.last < t.jnl.last ∧ t.drv = s.drv) ∧
  (∀ (s : State) (e : Ev), s.evs = [e] → 0 < e.session → e.session < 32 → e.tab < 1024 → jnlReady s = true →
     evScheduled ≤ e.st → e.late = false →
     (e.waves.drop e.armed).any (fun w => decide (w.2.1 + e.req.defer * 100000 < armLo s e)) = true →
     runs (.deferralLimitExpiry e.aseq) s fun t => t.evs = [] ∧ t.finals = s.finals ++ [e.tab] ∧ t.rd R.RS_EVTAB_STATE [e.tab] = evFailed ∧
     t.rd R.RS_EVTAB_REASON [e.tab] = delayReason s e ∧ t.jnl.aseq = s.jnl.aseq ∧ s.jnl.last < t.jnl.last ∧ t.drv = s.drv) ∧
  (∀ (s : State) (e : Ev), s.evs = [e] → 0 < e.session → e.session < 32 → e.tab < 1024 → jnlReady s = true →
     e.req.group = true → e.committed = false → e.st ≤ evSolved → e.instant ≤ domNs s e.dom + 60000 →
     runs (.groupCommitCutoff e.aseq) s fun t => t.evs = [] ∧ t.finals = s.finals ++ [e.tab] ∧ t.rd R.RS_EVTAB_STATE [e.tab] = evFailed ∧
     t.rd R.RS_EVTAB_REASON [e.tab] = rGroupAbort ∧ t.jnl.aseq = s.jnl.aseq ∧ s.jnl.last < t.jnl.last ∧ t.drv = s.drv) ∧
  (∀ (s : State) (h : Hdr) (e : Ev), inTurn h s = true → modeSteady s = true →
     bitN (s.rd R.JNL_SESS_RIGHTS [h.session]) 2 = true → s.evs = [e] → 0 < e.session → e.session < 32 →
     e.tab < 1024 → jnlReady s = true → e.session = h.session → e.req.group = false → e.st < evArmed →
     runs (.cancelEvent h e.session e.sseq) s fun t => served t h (.cancel e.session e.sseq) ⟨0x86, 0, 0, 0, false, []⟩ ∧
     t.evs = [] ∧ t.finals = s.finals ++ [e.tab] ∧ t.rd R.RS_EVTAB_STATE [e.tab] = evCancelled ∧
     t.rd R.RS_EVTAB_REASON [e.tab] = 0 ∧ t.jnl.aseq = s.jnl.aseq ∧ s.jnl.last < t.jnl.last ∧ t.drv = s.drv) ∧
  (∀ (s : State) (h : Hdr) (e : Ev), inTurn h s = true → modeSteady s = true →
     bitN (s.rd R.JNL_SESS_RIGHTS [h.session]) 4 = true → s.evs = [e] → 0 < e.session → e.session < 32 →
     e.tab < 1024 → jnlReady s = true → e.req.group = true → e.committed = false →
     runs (.groupAbort h e.req.gid) s fun t => served t h (.groupAbort e.req.gid) ⟨0x8A, 0, 0, 0, false, []⟩ ∧
     t.evs = [] ∧ t.finals = s.finals ++ [e.tab] ∧ t.rd R.RS_EVTAB_STATE [e.tab] = evFailed ∧
     t.rd R.RS_EVTAB_REASON [e.tab] = rGroupAbort ∧ t.jnl.aseq = s.jnl.aseq ∧ s.jnl.last < t.jnl.last ∧ t.drv = s.drv)

/-- R231, R375, R376: A GROUP_COMMIT that matches the held event before its cutoff is acknowledged and commits it, and a
COMMIT_ECHO of another member does the same without an answer; the commit is journaled and its echo counted, and the
event is SCHEDULED with the waves of its placement, or waits SOLVED and committed while its domain is not usable. -/
def Obligations.GroupCommits : Prop :=
  (∀ (s : State) (h : Hdr) (e : Ev) (g : Nat) (p : Placement), inTurn h s = true → modeSteady s = true →
     bitN (s.rd R.JNL_SESS_RIGHTS [h.session]) 4 = true → s.evs = [e] → e.req.group = true → e.st = evSolved →
     e.committed = false → beforeCutoff s e = true → modeActive (modeOf s) = true → domReady s e.dom = true →
     placementOf (noteCommit true true h.session 0x09 h.seq g e (takeRing h.port 0 s)) { e with committed := true } e.units = .ok p →
     runs (.groupCommit h e.req.gid e.req.members e.req.instant ⟨true, g⟩) s fun t =>
     served t h (.groupCommit e.req.gid e.req.members e.req.instant ⟨true, g⟩) ⟨0x89, 0, 0, 0, false, []⟩ ∧
     (t.evs.map fun x => (x.aseq, x.st, x.committed, x.waves)) = [(e.aseq, evScheduled, true, p.waves)] ∧
     t.jnl.echoes = (s.jnl.echoes + 1) % 2 ^ 32 ∧ t.jnl.aseq = s.jnl.aseq ∧ s.jnl.last < t.jnl.last ∧
     t.drv = s.drv) ∧
  (∀ (s : State) (h : Hdr) (e : Ev) (g : Nat), inTurn h s = true → modeSteady s = true →
     bitN (s.rd R.JNL_SESS_RIGHTS [h.session]) 4 = true → s.evs = [e] → e.req.group = true → e.st = evSolved →
     e.committed = false → beforeCutoff s e = true → domReady s e.dom = false →
     runs (.groupCommit h e.req.gid e.req.members e.req.instant ⟨true, g⟩) s fun t =>
     served t h (.groupCommit e.req.gid e.req.members e.req.instant ⟨true, g⟩) ⟨0x89, 0, 0, 0, false, []⟩ ∧
     (t.evs.map fun x => (x.aseq, x.st, x.committed, x.waves)) = [(e.aseq, evSolved, true, e.waves)] ∧
     t.jnl.echoes = (s.jnl.echoes + 1) % 2 ^ 32 ∧ t.jnl.aseq = s.jnl.aseq ∧ s.jnl.last < t.jnl.last ∧
     t.drv = s.drv) ∧
  (∀ (s : State) (e : Ev) (q g : Nat) (p : Placement), kcpUp s = true → q < 2 → (portGet s q).kcp ≠ [] →
     s.rd R.NI_IP_GRPADDR [q] ≠ 0 → s.evs = [e] → e.req.group = true → e.st = evSolved → e.committed = false →
     beforeCutoff s e = true → jnlReady s = true → modeActive (modeOf s) = true → domReady s e.dom = true →
     placementOf (noteCommit true true 0 0xC2 0 g e (takeRing q 0 s)) { e with committed := true } e.units = .ok p →
     runs (.commitEcho q e.req.gid e.req.members e.req.instant ⟨true, g⟩) s fun t =>
     (t.evs.map fun x => (x.aseq, x.st, x.committed, x.waves)) = [(e.aseq, evScheduled, true, p.waves)] ∧
     t.jnl.echoes = (s.jnl.echoes + 1) % 2 ^ 32 ∧ t.jnl.aseq = s.jnl.aseq ∧ s.jnl.last < t.jnl.last ∧
     t.drv = s.drv) ∧
  (∀ (s : State) (e : Ev) (q g : Nat), kcpUp s = true → q < 2 → (portGet s q).kcp ≠ [] →
     s.rd R.NI_IP_GRPADDR [q] ≠ 0 → s.evs = [e] → e.req.group = true → e.st = evSolved → e.committed = false →
     beforeCutoff s e = true → jnlReady s = true → domReady s e.dom = false →
     runs (.commitEcho q e.req.gid e.req.members e.req.instant ⟨true, g⟩) s fun t =>
     (t.evs.map fun x => (x.aseq, x.st, x.committed, x.waves)) = [(e.aseq, evSolved, true, e.waves)] ∧
     t.jnl.echoes = (s.jnl.echoes + 1) % 2 ^ 32 ∧ t.jnl.aseq = s.jnl.aseq ∧ s.jnl.last < t.jnl.last ∧
     t.drv = s.drv)

/-- R236, R237, R238, R240, R243, R249, R250, R459: A rule whose trigger has come, and before which nothing goes in its
tick, counts the firing in FIRES and STATUS, and goes to FIRED, or to HOLDOFF when it is not one-shot, whatever its
action; an instant that passed while plans were inactive and can no longer be met fires nothing and is shown in
MISSED; an edge of a TRIG pin is presented to the ready rules that watch it; HOLDOFF returns to ARMED once a
loss-of-signal count is below its limit, which ends its claim; EN puts a rule in ARMED or OFF, but none of TTYPE 0 in
ARMED, REARM returns a FIRED rule to ARMED, RELEASE ends its claim, and each is journaled. -/
def Obligations.RulesFire : Prop :=
  (∀ (s : State) (r : Nat), r < 64 → s.rd R.PLAN_RULE_TTYPE [r] ≠ 4 → s.rd R.PLAN_RULE_TTYPE [r] ≠ 5 →
     s.plan.hits.contains r = true → s.rd R.PLAN_RCTL_STATE [r] = 1 → islOn s 7 = true → jnlReady s = true →
     ((span 0 8).all fun k => !s.flag R.PLAN_SCTL_RUN [k]) = true →
     ((span 0 r).all fun x => !s.plan.hits.contains x && s.rd R.PLAN_RULE_TTYPE [x] != 4 && s.rd R.PLAN_RULE_TTYPE [x] != 5) = true →
     noOverlays s = true → s.evs = [] → (s.finals.all fun x => decide (x < 1024)) = true →
     runs (.ruleFire r) s fun t =>
     t.rd R.PLAN_RCTL_STATE [r] = (if s.flag R.PLAN_RULE_ONESHOT [r] then 2 else 3) ∧
     t.rd R.PLAN_RCTL_FIRES [r] = (s.rd R.PLAN_RCTL_FIRES [r] + 1) % 2 ^ R.PLAN_RCTL_FIRES.width ∧
     bitN (readN t Blk.plan.base) 0 = true ∧ s.jnl.last < t.jnl.last) ∧
  (∀ (s : State) (r : Nat), r < 64 → s.rd R.PLAN_RULE_TTYPE [r] ≠ 4 → s.rd R.PLAN_RULE_TTYPE [r] ≠ 5 →
     s.plan.hits.contains r = true → s.rd R.PLAN_RCTL_STATE [r] = 1 → islOn s 7 = true →
     s.rd R.PLAN_RULE_ACTION [r] = 3 → 8 ≤ s.rd R.PLAN_RULE_ARG [r] → jnlReady s = true →
     ((span 0 8).all fun k => !s.flag R.PLAN_SCTL_RUN [k]) = true →
     ((span 0 r).all fun x => !s.plan.hits.contains x && s.rd R.PLAN_RULE_TTYPE [x] != 4 && s.rd R.PLAN_RULE_TTYPE [x] != 5) = true →
     runs (.ruleFire r) s fun t =>
     t.rd R.PLAN_RCTL_STATE [r] = (if s.flag R.PLAN_RULE_ONESHOT [r] then 2 else 3) ∧
     t.rd R.PLAN_RCTL_FIRES [r] = (s.rd R.PLAN_RCTL_FIRES [r] + 1) % 2 ^ R.PLAN_RCTL_FIRES.width ∧
     bitN (readN t Blk.plan.base) 0 = true ∧ s.jnl.last < t.jnl.last ∧ t.plan = { s.plan with hits := s.plan.hits.filter (· != r) } ∧
     t.evs.length = s.evs.length ∧ s.jnl.last < t.jnl.last ∧ t.jnl.aseq = s.jnl.aseq ∧ t.drv = s.drv) ∧
  (∀ (s : State) (r x : Nat), r < 64 → s.rd R.PLAN_RULE_TTYPE [r] = 4 ∨ s.rd R.PLAN_RULE_TTYPE [r] = 5 →
     ruleReady s r = true → dueInstant s r = some x → pointMissed s r x = false → jnlReady s = true →
     ((span 0 8).all fun k => !s.flag R.PLAN_SCTL_RUN [k]) = true →
     ((span 0 r).all fun x => !s.plan.hits.contains x && s.rd R.PLAN_RULE_TTYPE [x] != 4 && s.rd R.PLAN_RULE_TTYPE [x] != 5) = true →
     noOverlays s = true → s.evs = [] → (s.finals.all fun x => decide (x < 1024)) = true →
     runs (.ruleFire r) s fun t =>
     t.rd R.PLAN_RCTL_STATE [r] = (if s.flag R.PLAN_RULE_ONESHOT [r] then 2 else 3) ∧
     t.rd R.PLAN_RCTL_FIRES [r] = (s.rd R.PLAN_RCTL_FIRES [r] + 1) % 2 ^ R.PLAN_RCTL_FIRES.width ∧
     bitN (readN t Blk.plan.base) 0 = true ∧ s.jnl.last < t.jnl.last) ∧
  (∀ (s : State) (r x : Nat), r < 64 → s.rd R.PLAN_RULE_TTYPE [r] = 4 ∨ s.rd R.PLAN_RULE_TTYPE [r] = 5 →
     ruleReady s r = true → dueInstant s r = some x → pointMissed s r x = true → jnlReady s = true →
     ((span 0 8).all fun k => !s.flag R.PLAN_SCTL_RUN [k]) = true →
     ((span 0 r).all fun x => !s.plan.hits.contains x && s.rd R.PLAN_RULE_TTYPE [x] != 4 && s.rd R.PLAN_RULE_TTYPE [x] != 5) = true →
     runs (.ruleFire r) s fun t =>
     bitN (readN t Blk.plan.base) 2 = true ∧ t.rd R.PLAN_RCTL_STATE [r] = s.rd R.PLAN_RCTL_STATE [r] ∧
     t.rd R.PLAN_RCTL_FIRES [r] = s.rd R.PLAN_RCTL_FIRES [r] ∧ t.evs.length = s.evs.length ∧ s.jnl.last < t.jnl.last ∧ t.jnl.aseq = s.jnl.aseq ∧ t.drv = s.drv) ∧
  (∀ (s : State) (pin : Nat) (up : Bool),
     runs (.trigEdge pin up) s fun t =>
     t = { s with plan := { s.plan with hits := t.plan.hits } } ∧
     (span 0 64).all (fun r => t.plan.hits.contains r == (s.plan.hits.contains r || (s.rd R.PLAN_RULE_TTYPE [r] == 3 &&
     s.rd R.PLAN_RULE_PIN [r] == pin && (s.rd R.PLAN_RULE_EDGE [r] == 2 || s.rd R.PLAN_RULE_EDGE [r] == b2n (!up)) &&
     ruleReady s r))) = true) ∧
  (∀ (s : State) (r : Nat), r < 64 → s.rd R.PLAN_RCTL_STATE [r] = 3 → otherClaims s r 64 = [] →
     losCount s r ≤ s.rd R.PLAN_RULE_NMIN [r] ∨ 2 < s.rd R.PLAN_RULE_TTYPE [r] → jnlReady s = true →
     runs (.ruleHoldoffExpiry r) s fun t =>
     t.rd R.PLAN_RCTL_STATE [r] = 1 ∧ t.rd R.PLAN_RCTL_FIRES [r] = s.rd R.PLAN_RCTL_FIRES [r] ∧ t.plan = { s.plan with armedAt := cellSet (fun _ => 0) s.plan.armedAt r s.time } ∧
     t.flag R.PLAN_RCTL_CLAIMED [r] = false ∧
     (s.flag R.PLAN_RCTL_CLAIMED [r] = true → (mapPorts s (s.rd R.PLAN_RULE_ARG [r])).all (fun p => !claimed t p) = true) ∧
     t.evs.length = s.evs.length ∧ s.jnl.last < t.jnl.last ∧ t.jnl.aseq = s.jnl.aseq ∧ t.drv = s.drv) ∧
  (∀ (s : State) (r : Nat) (on : Bool), r < 64 → islOn s 7 = true →
     (s.rd R.PLAN_RCTL_STATE [r] = (if on then 0 else 2)) → s.rd R.PLAN_RULE_TTYPE [r] ≠ 0 →
     jnlReady s = true →
     runs (.ruleEnable r on) s fun t =>
     t.rd R.PLAN_RCTL_STATE [r] = b2n on ∧ t.flag R.PLAN_RCTL_EN [r] = on ∧
     t.rd R.PLAN_RCTL_FIRES [r] = s.rd R.PLAN_RCTL_FIRES [r] ∧
     t.plan = (if on then { s.plan with armedAt := cellSet (fun _ => 0) s.plan.armedAt r s.time } else s.plan) ∧ s.jnl.last < t.jnl.last ∧ t.jnl.aseq = s.jnl.aseq ∧ t.drv = s.drv) ∧
  (∀ (s : State) (r : Nat), r < 64 → s.rd R.PLAN_RULE_TTYPE [r] = 0 → s.flag R.PLAN_RCTL_EN [r] = false →
     runs (.ruleEnable r true) s fun t => t = s) ∧
  (∀ (s : State) (r : Nat), r < 64 → islOn s 7 = true → s.rd R.PLAN_RCTL_STATE [r] = 2 →
     s.flag R.PLAN_RCTL_CLAIMED [r] = false → jnlReady s = true →
     runs (.rearmRule r) s fun t =>
     t.rd R.PLAN_RCTL_STATE [r] = 1 ∧ t.flag R.PLAN_RCTL_EN [r] = s.flag R.PLAN_RCTL_EN [r] ∧
     t.plan = { s.plan with armedAt := cellSet (fun _ => 0) s.plan.armedAt r s.time } ∧ s.jnl.last < t.jnl.last ∧ t.jnl.aseq = s.jnl.aseq ∧ t.drv = s.drv) ∧
  (∀ (s : State) (r : Nat), r < 64 → islOn s 7 = true → s.flag R.PLAN_RCTL_CLAIMED [r] = true →
     otherClaims s r 64 = [] → jnlReady s = true →
     runs (.releaseClaim r) s fun t =>
     t.flag R.PLAN_RCTL_CLAIMED [r] = false ∧ t.rd R.PLAN_RCTL_STATE [r] = s.rd R.PLAN_RCTL_STATE [r] ∧
     (mapPorts s (s.rd R.PLAN_RULE_ARG [r])).all (fun p => !claimed t p) = true ∧ t.plan = s.plan ∧ s.jnl.last < t.jnl.last ∧ t.jnl.aseq = s.jnl.aseq ∧ t.drv = s.drv)

/-- R243, R247, R248: A schedule starts at the next aligned air frame at least its lead ahead and claims its ports; a step
whose lead has come is submitted as an event of session 0; a stop submits no further step. -/
def Obligations.Schedules : Prop :=
  (∀ (s : State) (k : Nat), k < 8 → schedPresent s k = true → s.flag R.PLAN_SCTL_RUN [k] = false →
     modeActive (modeOf s) = true → domReady s (s.rd R.PLAN_SCHED_DOMAIN [k]) = true → islOn s 7 = true →
     s.evs = [] → jnlReady s = true →
     runs (.scheduleStart k) s fun t =>
     t.flag R.PLAN_SCTL_RUN [k] = true ∧ t.rd R.PLAN_SCTL_STEP [k] = 0 ∧ t.rd R.PLAN_SCTL_CYCLES [k] = 0 ∧
     cellGet (fun _ => 0) t.plan.cycStart k = alignedStart s k ∧ cellGet (fun _ => 0) t.plan.submitted k = 0 ∧
     t.plan.claims.contains k = true ∧ s.jnl.last < t.jnl.last ∧ t.jnl.aseq = s.jnl.aseq ∧ t.drv = s.drv) ∧
  (∀ (s : State) (k : Nat), k < 8 → s.flag R.PLAN_SCTL_RUN [k] = true → jnlReady s = true →
     runs (.scheduleStop k) s fun t =>
     t.flag R.PLAN_SCTL_RUN [k] = false ∧ t.plan.submitted = s.plan.submitted ∧ t.plan.stepsOut = s.plan.stepsOut ∧ s.jnl.last < t.jnl.last ∧ t.jnl.aseq = s.jnl.aseq ∧ t.drv = s.drv) ∧
  (∀ (s : State) (k i t0 early : Nat) (ds : List Nat), k < 8 → s.flag R.PLAN_SCTL_RUN [k] = true →
     s.evs = [] → cellGet (fun _ => 0) s.plan.stepsOut k < 2 → plansRun s = true → islOn s 7 = true →
     ((span 0 k).all fun x => !s.flag R.PLAN_SCTL_RUN [x]) = true → nextStep s k = i →
     stepInstant s k i ≤ domNs s (s.rd R.PLAN_SCHED_DOMAIN [k]) + stepLead →
     validateEvent 0 (tickStart s) ⟨1, false, false, false, s.rd R.PLAN_SCHED_MAP [k, i % (s.rd R.PLAN_SCHED_NSTEPS [k] + 1)], windowName s (s.rd R.PLAN_SCHED_DOMAIN [k]) (stepInstant s k i) (s.rd R.PLAN_SCHED_WIDX [k]), 0, 0, 0, 0, 32, []⟩ s = .ok (t0, early, ds) →
     runs (.scheduleStepSubmit k) s fun t =>
     (t.evs.map fun e => (e.session, e.aseq, e.st, e.instant, e.descs)) = [(0, s.jnl.aseq + 1, evAccepted, t0, ds)] ∧
     cellGet (fun _ => 0) t.plan.submitted k = i + 1 ∧
     cellGet (fun _ => 0) t.plan.stepsOut k = cellGet (fun _ => 0) s.plan.stepsOut k + 1 ∧
     cellGet (fun _ => 0) t.plan.stepEvs (s.jnl.aseq + 1) = i ∧ t.jnl.aseq = s.jnl.aseq + 1 ∧ t.drv = s.drv)

/-- R286, R287, R295: A contact change is seen as a pin level by both channels; after DEB of one level, outside the
blanking window of the supply, the channel takes it and an input neither latched nor held is CLOSED just when both
contacts are, while one in start-up hold stays OPEN; a discrepancy tick counts disagreeing contacts and trips the
input to LOCKED as the count passes DISC_T. -/
def Obligations.GuardInputs : Prop :=
  (∀ (s : State) (x : Nat) (up : Bool), x < 8 →
     runs (.guardContactChange x 0 up) s fun t =>
     guardGet t.chA x = { guardGet s.chA x with pinA := up } ∧ guardGet t.chB x = { guardGet s.chB x with pinA := up } ∧
     (span 0 8).all (fun y => y == x || (guardGet t.chA y == guardGet s.chA y && guardGet t.chB y == guardGet s.chB y)) = true ∧
     t = { s with chA := t.chA, chB := t.chB }) ∧
  (∀ (s : State) (c x : Nat), c < 2 → x < 8 → chanOn s c = true → giEn (chanGet s c) x = true →
     (chanGet s c).blankB ≤ s.time → (guardGet (chanGet s c) x).st < 2 →
     (guardGet (chanGet s c) x).hold = false →
     runs (.guardFilterExpiry c x 1) s fun t =>
     (guardGet (chanGet t c) x).fB = (guardGet (chanGet s c) x).pinB ∧
     (guardGet (chanGet t c) x).st =
     b2n ((guardGet (chanGet s c) x).fA && (guardGet (chanGet s c) x).pinB) ∧
     chanGet t (1 - c) = chanGet s (1 - c) ∧ t = { s with chA := t.chA, chB := t.chB }) ∧
  (∀ (s : State) (c x : Nat), c < 2 → x < 8 → chanOn s c = true → giEn (chanGet s c) x = true →
     (chanGet s c).blankB ≤ s.time → (chanGet s c).testing = false → (guardGet (chanGet s c) x).st < 2 →
     (guardGet (chanGet s c) x).hold = true → (guardGet (chanGet s c) x).fA = false →
     runs (.guardFilterExpiry c x 1) s fun t =>
     (guardGet (chanGet t c) x).fB = (guardGet (chanGet s c) x).pinB ∧ (guardGet (chanGet t c) x).st = 0 ∧
     (guardGet (chanGet t c) x).hold = true ∧ chanGet t (1 - c) = chanGet s (1 - c) ∧ t = { s with chA := t.chA, chB := t.chB }) ∧
  (∀ (s : State) (c x : Nat), s.time < (chanGet s c).blankB →
     runs (.guardFilterExpiry c x 1) s fun t => t = s) ∧
  (∀ (s : State) (c x : Nat), c < 2 → x < 8 → chanOn s c = true → (chanGet s c).testing = false →
     giEn (chanGet s c) x = true → (guardGet (chanGet s c) x).fA ≠ (guardGet (chanGet s c) x).fB →
     (guardGet (chanGet s c) x).st < 3 →
     runs (.discrepancyTick c) s fun t =>
     (guardGet (chanGet t c) x).dcnt = min 511 ((guardGet (chanGet s c) x).dcnt + 1) ∧
     (guardGet (chanGet t c) x).st = (if min 511 ((guardGet (chanGet s c) x).dcnt + 1) = spb (chanGet s c) R.SAF_GICFG_DISC_T [x] + 1 then 2
     else (guardGet (chanGet s c) x).st) ∧ chanGet t (1 - c) = chanGet s (1 - c) ∧ t.evs = s.evs ∧ t.jnl = s.jnl)

/-- R289, R290, R291, R293: Garnet drives TPA and Jasper TPB low, and a pulse that meets the other one is a supply fault;
a check of a healthy closed input leaves it CLOSED and ends the pulse; the second finding of one wiring fault, or a
cross-short found at the next check of the other supply too, puts it in FAULT with lockout cause 1; the start-up open
test passes when every enabled contact reads open. -/
def Obligations.TestPulses : Prop :=
  (∀ (s : State), chanOn s 0 = true → s.chA.testing = false →
     runs .tpaPulse s fun t => t.pulse = 1 ∧ (s.pulse = 2 → bitN (readN t Blk.saf.base) 4 = true) ∧
     t = { s with regs := t.regs, pic := t.pic, pulse := 1, chA := { s.chA with blankA := s.time + 700000 }, chB := { s.chB with blankA := s.time + 700000 } }) ∧
  (∀ (s : State), chanOn s 1 = true → s.chB.testing = false →
     runs .tpbPulse s fun t => t.pulse = 2 ∧ (s.pulse = 1 → bitN (readN t Blk.saf.base) 4 = true) ∧
     t = { s with regs := t.regs, pic := t.pic, pulse := 2, chA := { s.chA with blankB := s.time + 700000 }, chB := { s.chB with blankB := s.time + 700000 } }) ∧
  (∀ (s : State), chanOn s 1 = true → s.chB.testing = false →
     runs .tpaLoss s fun t => bitN (readN t Blk.saf.base) 4 = true ∧ t = { s with regs := t.regs, pic := t.pic }) ∧
  (∀ (s : State) (l : List Bool) (x : Nat), s.pulse = 1 → chanOn s 0 = true → x < 8 → giEn s.chA x = true →
     (guardGet s.chA x).fA = true → (guardGet s.chA x).fB = true → (guardGet s.chA x).st = 1 →
     nthD false l (2 * x) = false → nthD false l (2 * x + 1) = true →
     runs (.testPulseCheck 0 l) s fun t =>
     t.pulse = 0 ∧ (guardGet t.chA x).st = 1 ∧ (guardGet t.chA x).susp = Nat.land (guardGet s.chA x).susp 4 ∧
     t.evs = s.evs ∧ t.jnl = s.jnl ∧ t.drv = s.drv) ∧
  (∀ (s : State) (l : List Bool) (x : Nat), s.pulse = 1 → chanOn s 0 = true → x < 8 → giEn s.chA x = true →
     (guardGet s.chA x).fA = true → (guardGet s.chA x).fB = true → (guardGet s.chA x).st = 1 →
     bitN (guardGet s.chA x).susp 0 = true → nthD false l (2 * x) = true →
     runs (.testPulseCheck 0 l) s fun t =>
     t.pulse = 0 ∧ (guardGet t.chA x).st = 3 ∧ bitN t.chA.locks 1 = true ∧ bitN (readN t Blk.saf.base) 3 = true ∧
     t.evs = s.evs ∧ t.jnl = s.jnl ∧ t.drv = s.drv) ∧
  (∀ (s : State) (l : List Bool) (x : Nat), s.pulse = 2 → chanOn s 1 = true → x < 8 → giEn s.chB x = true →
     (guardGet s.chB x).fA = true → (guardGet s.chB x).fB = true → (guardGet s.chB x).st = 1 →
     bitN (guardGet s.chB x).susp 1 = true → nthD false l (2 * x) = false →
     runs (.testPulseCheck 1 l) s fun t =>
     t.pulse = 0 ∧ (guardGet t.chB x).st = 3 ∧ bitN t.chB.locks 1 = true ∧ bitN (readN t Blk.saf.base) 3 = true ∧
     t.evs = s.evs ∧ t.jnl = s.jnl ∧ t.drv = s.drv) ∧
  (∀ (s : State) (l : List Bool), chanOn s 0 = true → chanOn s 1 = true → s.chA.testing = true →
     s.chB.testing = true →
     runs (.startupOpenTestRestore l) s fun t =>
     t.chA.testing = false ∧ t.chB.testing = false ∧
     t.chA.startOk = (span 0 8).all (fun x => !(giEn s.chA x && (nthD false l (2 * x) || nthD false l (2 * x + 1)))) ∧
     t.chB.startOk = (span 0 8).all (fun x => !(giEn s.chB x && (nthD false l (2 * x) || nthD false l (2 * x + 1)))) ∧
     t.flag R.SAF_PINS_START_OK [] = (t.chA.startOk && t.chB.startOk) ∧
     (t.chA.startOk = false → bitN t.chA.locks 2 = true ∧ bitN (readN t Blk.saf.base) 8 = true) ∧
     (t.chB.startOk = false → bitN t.chB.locks 2 = true ∧ bitN (readN t Blk.saf.base) 8 = true) ∧
     t = { s with regs := t.regs, pic := t.pic, chA := t.chA, chB := t.chB })

/-- R298, R299, R300, R301: An output that reads back wrong opens in its channel with lockout cause 3; a test opens one
switch of an energised output, passes when the pin follows, is an output fault in both channels when it does not, and
is abandoned when a demand meets it; a VSAFE fault demands until VSAFE is back. -/
def Obligations.SafetyOutputs : Prop :=
  (∀ (s : State) (c y : Nat), c < 2 → y < 4 → chanOn s c = true → readsOdd s c y = true →
     (chanGet s c).testOut ≠ some y →
     runs (.soReadbackFault c y) s fun t =>
     bitN (chanGet t c).cmd y = false ∧ bitN (chanGet t c).sofault y = true ∧ bitN (chanGet t c).locks 3 = true ∧
     t.flag R.SAF_SO_FAULT [y] = true ∧ bitN (readN t Blk.saf.base) 5 = true ∧ chanGet t (1 - c) = chanGet s (1 - c) ∧
     t = { s with regs := t.regs, pic := t.pic, chA := t.chA, chB := t.chB }) ∧
  (∀ (s : State) (c y : Nat), readsOdd s c y = false →
     runs (.soReadbackFault c y) s fun t => t = s) ∧
  (∀ (s : State) (c y : Nat), c < 2 → y < 4 → chanOn s c = true → bitN s.chA.cmd y = true →
     bitN s.chB.cmd y = true → s.chA.testOut = none → s.chB.testOut = none →
     outDemand s (chanGet s c) y = false →
     runs (.outputTestStart c y) s fun t =>
     bitN (chanGet t c).cmd y = false ∧ (chanGet t c).testOut = some y ∧
     (span 0 4).all (fun z => z == y || bitN (chanGet t c).cmd z == bitN (chanGet s c).cmd z) = true ∧ chanGet t (1 - c) = chanGet s (1 - c) ∧
     t = { s with chA := t.chA, chB := t.chB }) ∧
  (∀ (s : State) (c y : Nat), c < 2 → y < 4 → chanOn s c = true → (chanGet s c).testOut = some y →
     bitN (chanGet s (1 - c)).cmd y = true → outDemand s (chanGet s c) y = false →
     runs (.outputTestPass c) s fun t =>
     bitN (chanGet t c).cmd y = true ∧ (chanGet t c).testOut = none ∧ t.rd R.SAF_SO_LASTTEST [y] = 1 + c ∧
     t.rd R.SAF_CNT_TEST_PASS [] = (s.rd R.SAF_CNT_TEST_PASS [] + 1) % 2 ^ R.SAF_CNT_TEST_PASS.width ∧ chanGet t (1 - c) = chanGet s (1 - c) ∧
     t = { s with regs := t.regs, chA := t.chA, chB := t.chB }) ∧
  (∀ (s : State) (c y : Nat), c < 2 → y < 4 → chanOn s c = true → (chanGet s c).testOut = some y →
     bitN (chanGet s (1 - c)).cmd y = true → outDemand s (chanGet s c) y = false →
     runs (.outputTestTimeout c) s fun t =>
     bitN t.chA.cmd y = false ∧ bitN t.chB.cmd y = false ∧ bitN t.chA.sofault y = true ∧ bitN t.chB.sofault y = true ∧
     bitN t.chA.locks 3 = true ∧ bitN t.chB.locks 3 = true ∧ (chanGet t c).testOut = none ∧
     t.flag R.SAF_SO_FAULT [y] = true ∧ t = { s with regs := t.regs, pic := t.pic, chA := t.chA, chB := t.chB }) ∧
  (∀ (s : State) (c y : Nat), c < 2 → y < 4 → chanOn s c = true → (chanGet s c).testOut = some y →
     outDemand s (chanGet s c) y = true →
     runs (.outputTestTimeout c) s fun t =>
     t.rd R.SAF_SO_LASTTEST [y] = 3 ∧ (chanGet t c).testOut = none ∧ (chanGet t c).cmd = (chanGet s c).cmd ∧
     (chanGet t c).sofault = (chanGet s c).sofault ∧ chanGet t (1 - c) = chanGet s (1 - c) ∧
     t = { s with regs := t.regs, chA := t.chA, chB := t.chB }) ∧
  (∀ (s : State) (c : Nat), c < 2 → chanOn s c = true →
     runs (.vsafeFault c) s fun t =>
     (chanGet t c).vsafe = true ∧ (span 0 4).all (fun y => outDemand t (chanGet t c) y) = true ∧
     bitN (readN t Blk.saf.base) 7 = true ∧ chanGet t (1 - c) = chanGet s (1 - c) ∧ t = { s with regs := t.regs, pic := t.pic, chA := t.chA, chB := t.chB }) ∧
  (∀ (s : State) (c : Nat), c < 2 → chanOn s c = true →
     runs (.vsafeRecover c) s fun t =>
     (chanGet t c).vsafe = false ∧ chanGet t (1 - c) = chanGet s (1 - c) ∧ t = { s with chA := t.chA, chB := t.chB })

/-- R279, R280, R297, R307, R309, R318: A channel that holds a lockout cause opens every switch, forces the fabric dark
and brings SAFE_STOP and LOCKOUT on; without a demand each channel closes just the switches that it may close and
changes no mode; a channel without its oscillator drives no switch. -/
def Obligations.ChannelCycles : Prop :=
  (∀ (s : State), chanOn s 0 = true → 2 ≤ modeOf s → noOverlays s = true → s.chA.locks ≠ 0 →
     s.chA.xbad = true → s.modes.leaving = none → s.evs = [] →
     runs .garnetCycle s fun t =>
     t.chA.cmd = 0 ∧ t.chA.force = true ∧ t.flag R.PWR_MODE_C_STOP [] = true ∧ t.flag R.PWR_MODE_C_LOCKOUT [] = true ∧
     modeOf t = mLockout ∧ t.chA.locks = s.chA.locks ∧ t.evs = [] ∧ t.jnl.aseq = s.jnl.aseq) ∧
  (∀ (s : State), chanOn s 1 = true → 2 ≤ modeOf s → noOverlays s = true → s.chB.locks ≠ 0 →
     s.chB.xbad = true → s.modes.leaving = none → s.evs = [] →
     runs .jasperCycle s fun t =>
     t.chB.cmd = 0 ∧ t.chB.force = true ∧ t.flag R.PWR_MODE_C_STOP [] = true ∧ t.flag R.PWR_MODE_C_LOCKOUT [] = true ∧
     modeOf t = mLockout ∧ t.chB.locks = s.chB.locks ∧ t.evs = [] ∧ t.jnl.aseq = s.jnl.aseq) ∧
  (∀ (s v : State), chanOn s 0 = true → 2 ≤ modeOf s → s.modes.leaving = none →
     latchSdp 0 (keepGrant 0 (adopt 0 (s.incS R.SAF_TELSTAT_AGE []))) = v → sosDemand v v.chA = false →
     v.chA.locks = 0 → v.chA.testOut = none →
     runs .garnetCycle s fun t =>
     t.chA.cmd = outMask (mayClose v v.chA) ∧ t.chA.sosOn = false ∧ t.chB = s.chB ∧ modeOf t = modeOf s ∧
     t.rd R.SAF_TELSTAT_AGE [] = min (s.rd R.SAF_TELSTAT_AGE [] + 1) (2 ^ R.SAF_TELSTAT_AGE.width - 1) ∧
     (t.chA.sdpOn = false ∨ v.chA.sdpOn = true → t.pic = s.pic) ∧ t = { s with regs := t.regs, chA := t.chA, pic := t.pic }) ∧
  (∀ (s v : State), chanOn s 1 = true → 2 ≤ modeOf s → s.modes.leaving = none →
     latchSdp 1 (keepGrant 1 (adopt 1 s)) = v → sosDemand v v.chB = false → v.chB.locks = 0 →
     v.chB.testOut = none →
     runs .jasperCycle s fun t =>
     t.chB.cmd = outMask (mayClose v v.chB) ∧ t.chB.sosOn = false ∧ t.chA = s.chA ∧ modeOf t = modeOf s ∧
     (t.chB.sdpOn = false ∨ v.chB.sdpOn = true → t.pic = s.pic) ∧ t = { s with regs := t.regs, chB := t.chB, pic := t.pic }) ∧
  (∀ (s : State) (c : Nat), c < 2 → chanOn s c = true →
     runs (.safetyChannelClockLoss c) s fun t =>
     chanOn t c = false ∧ (chanGet t c).cmd = 0 ∧ (chanGet t c).testOut = none ∧ chanGet t (1 - c) = chanGet s (1 - c) ∧
     t = { s with chA := t.chA, chB := t.chB })

/-- R282, R283, R284, R305: A PERIODIC message hands the partner the sender's whole state with its read-back, ends the
partner's cross-check fault when nothing differs any more, and refreshes the mirror; a CHANGE message makes the
partner adopt the causes at once; a cross-check fault of an item that differs demands on every output and holds
lockout cause 0. -/
def Obligations.CrossLink : Prop :=
  (∀ (s : State) (r : Reads), r.chan < 2 → chanOn s 0 = true → chanOn s 1 = true →
     runs (.xlinkPeriodicMsg r) s fun t =>
     (chanGet t (1 - r.chan)).heard = { message (takeReads r s) r.chan true with
     fresh := Nat.lor (message (takeReads r s) r.chan true).fresh (chanGet s (1 - r.chan)).heard.fresh } ∧
     (chanGet t (1 - r.chan)).heard.sos = ownSos s (chanGet s r.chan) ∧
     (chanGet t (1 - r.chan)).heard.outs = outMask (ownOut s (chanGet s r.chan)) ∧
     (chanGet t (1 - r.chan)).heard.pins = r.pins % 256 ∧ (chanGet t (1 - r.chan)).heardAt = s.time ∧
     (chanGet t r.chan).told = (chanGet s r.chan).locks ∧ (chanGet t r.chan).seq = (chanGet s r.chan).seq + 1 ∧
     (chanGet t (1 - r.chan)).xbad = ((chanGet s (1 - r.chan)).xbad && !itemsAgree (sendState r true s) (1 - r.chan)) ∧
     t.flag R.SAF_PINS_START_OK [] = (s.chA.startOk && s.chB.startOk) ∧ t.rd R.SAF_LOCK_A [] = s.chA.locks % 256 ∧ t = { s with regs := t.regs, pic := t.pic, chA := t.chA, chB := t.chB }) ∧
  (∀ (s : State) (r : Reads), r.chan < 2 → chanOn s 0 = true → chanOn s 1 = true →
     (chanGet s (1 - r.chan)).xbad = false →
     runs (.xlinkChangeMsg r) s fun t =>
     (chanGet t (1 - r.chan)).locks = Nat.lor (chanGet s (1 - r.chan)).locks
     (Nat.lor (message s r.chan false).fresh (chanGet s (1 - r.chan)).heard.fresh) ∧
     (chanGet t (1 - r.chan)).heard.fresh = 0 ∧ (chanGet t r.chan).told = (chanGet s r.chan).locks ∧
     t = { s with regs := t.regs, pic := t.pic, chA := t.chA, chB := t.chB }) ∧
  (∀ (s : State) (c i : Nat), c < 2 → chanOn s c = true → itemDiffers s c i = true →
     runs (.crossCheckFault c i) s fun t =>
     (chanGet t c).xbad = true ∧ bitN (chanGet t c).locks 0 = true ∧ sosDemand t (chanGet t c) = true ∧
     t.rd R.SAF_XLINK_ITEM [] = i % 2 ^ R.SAF_XLINK_ITEM.width ∧ bitN (readN t Blk.saf.base) 0 = true ∧ chanGet t (1 - c) = chanGet s (1 - c) ∧
     t = { s with regs := t.regs, pic := t.pic, chA := t.chA, chB := t.chB }) ∧
  (∀ (s : State) (c i : Nat), itemDiffers s c i = false →
     runs (.crossCheckFault c i) s fun t => t = s)

/-- R302, R303, R304, R317, R319: A press of 100 ms to 5 s is accepted and any other rejected; one that the other channel
does not accept in time is rejected too; an accepted press releases the SLP latches and the MAINT_N demand, and ends
SAFE_STOP in DARK when nothing demands any more; MAINT_N low grants, and high while granted is a demand that stops the
machine. -/
def Obligations.PressesAndGrants : Prop :=
  (∀ (s : State) (c : Nat), c < 2 → chanOn s c = true →
     runs (.srstNPressStart c) s fun t =>
     (chanGet t c).srstLow = true ∧ (chanGet t c).accepted = (chanGet s c).accepted ∧ chanGet t (1 - c) = chanGet s (1 - c) ∧
     t = { s with chA := t.chA, chB := t.chB }) ∧
  (∀ (s : State) (c ms : Nat), c < 2 → chanOn s c = true → (chanGet s c).srstLow = true →
     (chanGet s c).srstSeen = true → (chanGet s c).accepted = false →
     runs (.srstNPressRelease c ms) s fun t =>
     (chanGet t c).srstLow = false ∧ (chanGet t c).accepted = (decide (100 ≤ ms) && decide (ms ≤ 5000)) ∧
     ((chanGet t c).accepted = false → bitN (readN t Blk.saf.base) 6 = true) ∧ chanGet t (1 - c) = chanGet s (1 - c) ∧
     t = { s with regs := t.regs, pic := t.pic, chA := t.chA, chB := t.chB }) ∧
  (∀ (s : State) (c : Nat), c < 2 → (chanGet s c).accepted = true → (chanGet s c).heard.accepted = false →
     runs (.srstNAcceptTimeout c) s fun t =>
     (chanGet t c).accepted = false ∧ bitN (readN t Blk.saf.base) 6 = true ∧ chanGet t (1 - c) = chanGet s (1 - c) ∧
     t = { s with regs := t.regs, pic := t.pic, chA := t.chA, chB := t.chB }) ∧
  (∀ (s : State), s.chA.accepted = true → s.chB.accepted = true → s.chA.heard.accepted = true →
     s.chB.heard.accepted = true →
     runs .deliberateReset s fun t =>
     t.chA.accepted = false ∧ t.chB.accepted = false ∧ t.chA.trips = s.chA.trips.filter (keepsTrip s 0) ∧ t.chB.trips = [] ∧
     t.chA.maintDem = false ∧ t.chB.maintDem = false) ∧
  (∀ (s : State), s.chA.accepted = true → s.chB.accepted = true → s.chA.heard.accepted = true →
     s.chB.heard.accepted = true → modeOf s = mSafeStop → noOverlays s = true → noCause s = true →
     (span 0 8).all (fun x => !giEn s.chA x && !giEn s.chB x) = true → telOn s.chA = false →
     telOn s.chB = false → s.chA.vsafe = false → s.chB.vsafe = false → s.chA.xbad = false →
     s.chB.xbad = false → s.chA.heard.fresh = 0 → s.chB.heard.fresh = 0 → s.modes.leaving = none →
     runs .deliberateReset s fun t =>
     modeOf t = mDark ∧ t.rd R.PWR_MODE_CAUSE [] = 0x12 ∧ t.flag R.PWR_MODE_C_STOP [] = false ∧ t.chA.force = false ∧
     t.chB.force = false ∧ t.chA.testing = true ∧ t.chB.testing = true) ∧
  (∀ (s : State) (c : Nat), c < 2 → chanOn s c = true → s.modes.leaving = none →
     runs (.maintNChange c false) s fun t =>
     (chanGet t c).grant = true ∧ (chanGet t c).maintLow = true) ∧
  (∀ (s : State) (c : Nat), c < 2 → chanOn s c = true → 2 ≤ modeOf s → noOverlays s = true →
     (chanGet s c).grant = true → s.modes.leaving = none →
     runs (.maintNChange c true) s fun t =>
     (chanGet t c).grant = false ∧ (chanGet t c).maintLow = false ∧ (chanGet t c).maintDem = true ∧
     (chanGet t c).force = true ∧ t.flag R.PWR_MODE_C_STOP [] = true ∧ t.flag R.PWR_MODE_C_MAINT [] = false)

/-- R310, R318: A port held dark that channel A's taps, or channel B's comparators, do not find dark fails its
verification and holds lockout cause 4, and one that they do is verified; a cause whose condition is gone is released. -/
def Obligations.DarkVerifyAndCauses : Prop :=
  (∀ (s : State) (n : Nat) (d : Bool), n < 512 → chanOn s 0 = true → heldDark s n = true →
     darkLong s n = true →
     runs (.darkVerify 0 n d) s fun t =>
     t.chA.dver.contains n = !tapsDark s n ∧ (tapsDark s n = false → bitN t.chA.locks 4 = true) ∧
     (tapsDark s n = true → t.chA.locks = s.chA.locks) ∧ t = { s with chA := t.chA }) ∧
  (∀ (s : State) (n : Nat) (d : Bool), n < 512 → chanOn s 1 = true → heldDark s n = true →
     darkLong s n = true →
     runs (.darkVerify 1 n d) s fun t =>
     t.chB.dver.contains n = !d ∧ (d = false → bitN t.chB.locks 4 = true) ∧ t = { s with chB := t.chB }) ∧
  (∀ (s : State) (c k : Nat), c < 2 → k < 5 → k ≠ 3 → chanOn s c = true → causeGone s c k = true →
     runs (.lockoutCauseClear c k) s fun t =>
     bitN (chanGet t c).locks k = false ∧
     (span 0 8).all (fun i => i == k || bitN (chanGet t c).locks i == bitN (chanGet s c).locks i) = true ∧ chanGet t (1 - c) = chanGet s (1 - c) ∧
     t = { s with chA := t.chA, chB := t.chB }) ∧
  (∀ (s : State) (c : Nat), c < 2 → chanOn s c = true → causeGone s c 3 = true →
     runs (.lockoutCauseClear c 3) s fun t =>
     bitN (chanGet t c).locks 3 = false ∧ (chanGet t c).sofault = 0 ∧ chanGet t (1 - c) = chanGet s (1 - c) ∧ t = { s with regs := t.regs, chA := t.chA, chB := t.chB })

/-- R324, R325, R326, R327: A valid copy that matches the one waiting from the other port and is newer is accepted: its
SEQ, STOP, dark ports and permits are in force and the watchdog runs; a copy without one waits; after 5 ms it is
forgotten; the watchdog's expiry is a latched demand; each status telegram takes the next SEQ. -/
def Obligations.Telegrams : Prop :=
  (∀ (s : State) (c p : Nat) (b : List Nat) (l : List RxHeld) (e : Nat × Nat × List Nat), c < 2 → p < 2 →
     chanOn s c = true → islOn s 5 = true → takeSafety c (portGet s p).safety = some l →
     telOn (chanGet s c) = true → copyValid s (chanGet s c) b = true →
     ((chanGet s c).half.filter fun e => e.1 != p && decide (s.time ≤ e.2.1 + 5000000)).find? (fun e => e.2.2 == b) = some e →
     copyNewer (chanGet s c) b = true → s.modes.leaving = none →
     runs (.telegramCopyRx c p b) s fun t =>
     (chanGet t c).last = copySeq b ∧ (chanGet t c).half = (chanGet s c).half.erase e ∧ (chanGet t c).stop = bitN (nthD 0 b 16) 7 ∧
     (chanGet t c).dark = copyDark b ∧ (chanGet t c).permit = nthD 0 b 16 % 16 ∧ (chanGet t c).wdRun = true ∧
     (chanGet t c).boot = false ∧ (portGet t p).safety = l) ∧
  (∀ (s : State) (c p : Nat) (b : List Nat) (l : List RxHeld), c < 2 → p < 2 → chanOn s c = true →
     islOn s 5 = true → takeSafety c (portGet s p).safety = some l → telOn (chanGet s c) = true →
     copyValid s (chanGet s c) b = true →
     ((chanGet s c).half.filter fun e => e.1 != p && decide (s.time ≤ e.2.1 + 5000000)).all (fun e => copySeq e.2.2 != copySeq b) = true →
     s.modes.leaving = none →
     runs (.telegramCopyRx c p b) s fun t =>
     (chanGet t c).half = (chanGet s c).half ++ [(p, s.time, b)] ∧ (chanGet t c).last = (chanGet s c).last ∧ (portGet t p).safety = l) ∧
  (∀ (s : State) (c : Nat) (e : Nat × Nat × List Nat) (l : List (Nat × Nat × List Nat)), c < 2 →
     chanOn s c = true → (chanGet s c).half = e :: l → e.2.1 + 5000000 ≤ s.time →
     runs (.telegramPartnerTimeout c) s fun t =>
     (chanGet t c).half = l ∧ (c = 0 → t.rd R.SAF_CNT_TEL_SINGLE [] =
     (s.rd R.SAF_CNT_TEL_SINGLE [] + 1) % 2 ^ R.SAF_CNT_TEL_SINGLE.width) ∧ chanGet t (1 - c) = chanGet s (1 - c) ∧
     t = { s with regs := t.regs, chA := t.chA, chB := t.chB } ∧ wordsKept s t [fldAddr R.SAF_CNT_TEL_SINGLE []]) ∧
  (∀ (s : State) (c : Nat), c < 2 → chanOn s c = true → telOn (chanGet s c) = true →
     (chanGet s c).wdRun = true → s.modes.leaving = none →
     runs (.telegramWatchdogExpiry c) s fun t =>
     (chanGet t c).wd = true ∧ (chanGet t c).wdRun = false ∧ (chanGet t c).resync = true ∧ (chanGet t c).pairs = 0) ∧
  (∀ (s : State), chanOn s 0 = true →
     runs .statusTelegramTx s fun t =>
     t.statusSeq = (s.statusSeq + 1) % 2 ^ 32 ∧
     t = { s with regs := t.regs, egs := t.egs, pic := t.pic, statusSeq := t.statusSeq })

/-- R331, R332, R338, R339, R345, R175: LINK_UP shows the link with no fault and gives the TBU the latencies of the mode;
LINK_DOWN shows it down, sets LINK_LOST, loses the frame being sent and leaves no queued frame for the port; PAUSE
loads the pause timer (clipped at PAUSE_CAP, ignored with PAUSE_HONOUR = 0); PAUSE_EXPIRY stops it; PORT_FAIL and
PORT_RESTORED mark the port and hold or release DEGRADED. -/
def Obligations.NetworkLinkEvents : Prop :=
  (∀ (s : State) (p rx tx : Nat), portOn s p = true → islOn s 6 = true →
     runs (.linkUp p rx tx) s fun t =>
     onlyWords s t [fldAddr R.NI_LINK_UP [p], fldAddr R.TBU_RXLAT [p], fldAddr R.TBU_TXLAT [p]] ∧ linkUp t p = true ∧
     t.rd R.NI_LINK_HI_BER [p] = 0 ∧ t.rd R.NI_LINK_LFAULT [p] = 0 ∧ t.rd R.NI_LINK_RFAULT [p] = 0 ∧
     t.rd R.TBU_RXLAT [p] = rx % 2 ^ 24 ∧ t.rd R.TBU_TXLAT [p] = tx % 2 ^ 24) ∧
  (∀ (s : State) (p : Nat) (ber lf rf : Bool), portOn s p = true → linkUp s p = true →
     runs (.linkDown p ber lf rf) s fun t =>
     linkUp t p = false ∧ t.flag R.NI_STATUS_LINK_LOST [p] = true ∧
     [t.flag R.NI_LINK_HI_BER [p], t.flag R.NI_LINK_LFAULT [p], t.flag R.NI_LINK_RFAULT [p]] = [ber, lf, rf] ∧
     (portGet t p).tx = none ∧
     ((heldQueues s).all fun q => (headFor (qGet t q) p).isNone) = true) ∧
  (∀ (s : State) (p quanta : Nat), portOn s p = true → linkUp s p = true →
     s.flag R.NI_CFG_PAUSE_HONOUR [p] = true →
     s.rd R.NI_CFG_PAUSE_CAP [p] = 0 ∨ quanta % 2 ^ 16 ≤ s.rd R.NI_CFG_PAUSE_CAP [p] →
     runs (.pauseFrame p quanta) s fun t =>
     t.rd R.NI_LINK_PREM [p] = quanta % 2 ^ 16 ∧ t.flag R.NI_LINK_PAUSED [p] = (quanta % 2 ^ 16 != 0) ∧
     readN t (cntAddr p 12) = (readN s (cntAddr p 12) + 1) % 2 ^ 32) ∧
  (∀ (s : State) (p quanta : Nat), portOn s p = true → linkUp s p = true →
     s.flag R.NI_CFG_PAUSE_HONOUR [p] = true → s.rd R.NI_CFG_PAUSE_CAP [p] ≠ 0 →
     s.rd R.NI_CFG_PAUSE_CAP [p] < quanta % 2 ^ 16 →
     runs (.pauseFrame p quanta) s fun t =>
     t.rd R.NI_LINK_PREM [p] = s.rd R.NI_CFG_PAUSE_CAP [p] ∧ t.flag R.NI_LINK_PAUSED [p] = true ∧
     t.flag R.NI_STATUS_PAUSE_CLIP [p] = true) ∧
  (∀ (s : State) (p quanta : Nat), portOn s p = true → linkUp s p = true →
     s.flag R.NI_CFG_PAUSE_HONOUR [p] = false →
     runs (.pauseFrame p quanta) s fun t =>
     t.rd R.NI_LINK_PREM [p] = s.rd R.NI_LINK_PREM [p] ∧ t.rd R.NI_LINK_PAUSED [p] = s.rd R.NI_LINK_PAUSED [p] ∧
     readN t (cntAddr p 13) = (readN s (cntAddr p 13) + 1) % 2 ^ 32) ∧
  (∀ (s : State) (p : Nat), p < 2 →
     runs (.pauseExpiry p) s fun t =>
     t.rd R.NI_LINK_PREM [p] = 0 ∧ t.flag R.NI_LINK_PAUSED [p] = false ∧ wordsKept s t [fldAddr R.NI_LINK_PREM [p]] ∧
     t = { s with regs := t.regs, netA := t.netA, netB := t.netB }) ∧
  (∀ (s : State) (p : Nat) (memErr : Bool), portOn s p = true → memErr = true ∨ linkUp s p = false →
     runs (.portFail p memErr) s fun t =>
     (portGet t p).failed = true ∧ t.modes.degCauses.contains (degPort p) = true) ∧
  (∀ (s : State) (p : Nat), p < 2 → linkUp s p = true → (portGet s p).failed = true →
     runs (.portRestored p) s fun t =>
     (portGet t p).failed = false ∧ t.modes.degCauses.contains (degPort p) = false)

/-- R333, R334, R336, R337, R340: A frame that fails its FCS is counted and reaches no ring; a safety telegram that fits
joins the end of the SAFETY ring, a PTP message that is used the PTP ring with the counter of its domain;
SAFETY_BUFFER_TIMEOUT takes the oldest telegram; FRAME_TX_COMPLETE frees the MAC and counts the frame. -/
def Obligations.NetworkFrames : Prop :=
  (∀ (s : State) (p : Nat) (f : RxFrame), portOn s p = true → linkUp s p = true → 2 ≤ s.rd R.NI_CFG_MODE [p] →
     bitN (readN s ((niBlk p).base + 0x18)) 31 = false → f.fcsOk = false →
     runs (.frameRx p f) s fun t =>
     readN t (cntAddr p 6) = (readN s (cntAddr p 6) + 1) % 2 ^ 32 ∧ t.netA = s.netA ∧ t.netB = s.netB ∧ t.egs = s.egs) ∧
  (∀ (s : State) (p : Nat) (f : RxFrame), portOn s p = true → linkUp s p = true → 2 ≤ s.rd R.NI_CFG_MODE [p] →
     bitN (readN s ((niBlk p).base + 0x18)) 31 = false → f.fcsOk = true → f.uncorr = 0 → 64 ≤ f.len →
     f.len ≤ 9216 → f.etype = s.rd R.SAF_TELCFG_ETYPE [] → f.etype ≠ 0x8808 → dstKind s p f.dst = 0 →
     f.manyTags = false → f.vid = none → ringUsed (portGet s p).safety + (f.len - 4 + 255) / 256 ≤ 128 →
     runs (.frameRx p f) s fun t =>
     (portGet t p).safety = (portGet s p).safety ++ [⟨f.len - 4, s.time, f.session, false, false, none, none⟩] ∧
     (portGet t p).kcp = (portGet s p).kcp ∧ (portGet t p).ptp = (portGet s p).ptp ∧
     readN t (cntAddr p 0) = (readN s (cntAddr p 0) + 1) % 2 ^ 32) ∧
  (∀ (s : State) (p : Nat) (f : RxFrame), portOn s p = true → linkUp s p = true → 2 ≤ s.rd R.NI_CFG_MODE [p] →
     bitN (readN s ((niBlk p).base + 0x18)) 31 = false → f.fcsOk = true → f.uncorr = 0 → 64 ≤ f.len →
     f.len ≤ 9216 → f.etype = 0x88F7 → f.dst = 0x011B19000000 ∨ f.dst = 0x0180C200000E →
     dstKind s p f.dst ≠ 0 → (portGet s p).failed = false → f.manyTags = false → f.vid = none →
     ptpUsed f = true → ringUsed (portGet s p).ptp + (f.len - 4 + 255) / 256 ≤ ringSize 1 →
     runs (.frameRx p f) s fun t =>
     (portGet t p).ptp = (portGet s p).ptp ++ [⟨f.len - 4, s.time, f.session, false, false, some (ptpTag f s), none⟩] ∧
     (portGet t p).kcp = (portGet s p).kcp ∧ (portGet t p).safety = (portGet s p).safety ∧
     readN t (cntAddr p 0) = (readN s (cntAddr p 0) + 1) % 2 ^ 32) ∧
  (∀ (s : State) (p : Nat) (f : RxHeld) (l : List RxHeld), p < 2 → (portGet s p).safety = f :: l →
     runs (.safetyBufferTimeout p) s fun t =>
     (portGet t p).safety = l ∧ t.rd R.NI_RING_FREE [p, 2] = 128 - ringUsed l ∧
     t = { s with regs := t.regs, netA := t.netA, netB := t.netB } ∧ wordsKept s t [fldAddr R.NI_RING_FREE [p, 2]]) ∧
  (∀ (s : State) (p q : Nat) (f : Frame), p < 2 → (portGet s p).tx = some (q, f) →
     runs (.frameTxComplete p) s fun t =>
     (portGet t p).tx = none ∧ t.egs = s.egs ∧ readN t (cntAddr p 3) = (readN s (cntAddr p 3) + 1) % 2 ^ 32)

/-- R345, R346, R348, R349, R351, R356, R358, R359, R352, R355: A frame that fits joins the end of its queue, one that
does not is dropped and counted; a bucket refill adds its rate up to its burst and brings the configuration into
force; an unshaped head frame of the only queue of class 7 starts on a free port, a Delay_Req with the time of its
departure in it; the sampler puts a record of the queue into its telemetry queue and clears the greatest delay; the
hold expiry closes the open frame under the next FSEQ; a gate list in force moves to the entry that the domain time
stands in and starts at a cycle start, one whose domain is not usable falls back. -/
def Obligations.EgressQueues : Prop :=
  (∀ (s : State) (q p len tag : Nat), islOn s 5 = true → 38176 ≤ q → q < 65520 ∨ (65530 < q ∧ q < 65536) →
     len ≤ 9216 → fits s q (cellsOf (max 64 len)) = true → linkUp s 0 = true → linkUp s 1 = true →
     bitN (readN s (Blk.egs.base + 0x18)) 31 = false →
     runs (.frameEnqueue q p len tag) s fun t =>
     (qGet t q).frames = (qGet s q).frames ++ [⟨max 64 len, .other tag, s.time, copiesOf s q p, s.egs.next, false⟩] ∧
     t.netA = s.netA ∧ t.netB = s.netB) ∧
  (∀ (s : State) (q p len tag : Nat), islOn s 5 = true → 38176 ≤ q → q < 65520 ∨ (65530 < q ∧ q < 65536) →
     len ≤ 9216 → fits s q (cellsOf (max 64 len)) = false →
     runs (.frameEnqueue q p len tag) s fun t =>
     t.egs = s.egs ∧ t.rd R.EGS_TAIL_DROP [] = (s.rd R.EGS_TAIL_DROP [] + 1) % 2 ^ 32 ∧
     t.flag R.EGS_STATUS_TAIL_DROP [] = true) ∧
  (∀ (s : State) (q : Nat), islOn s 5 = true → q < 65520 →
     runs (.shaperRefill q) s fun t =>
     (qGet t q).rate = s.rd R.EGS_QCFG_RATE [q] ∧ (qGet t q).burst = s.rd R.EGS_QCFG_BURST [q] ∧
     (qGet t q).shape = s.flag R.EGS_QCFG_SHAPE [q] ∧ (qGet t q).en = s.flag R.EGS_QCFG_EN [q] ∧
     (qGet t q).credit = (if s.flag R.EGS_QCFG_SHAPE [q] = true ∧ (qGet s q).shape = true
     then min ((qGet s q).credit + ((s.rd R.EGS_QCFG_RATE [q] * 4194304 : Nat) : Int))
     ((s.rd R.EGS_QCFG_BURST [q] * 512000000 : Nat) : Int)
     else (qGet s q).credit)) ∧
  (∀ (s : State) (k : Nat), islOn s 5 = true → k < 32 → s.flag R.EGS_POL_EN [k] = true →
     runs (.policerRefill k) s fun t =>
     polGet t k = min (polGet s k + ((s.rd R.EGS_POL_RATE [k] * 4194304 : Nat) : Int))
     ((s.rd R.EGS_POL_BURST [k] * 512000000 : Nat) : Int) ∧
     t = { s with egs := { s.egs with pol := t.egs.pol } }) ∧
  (∀ (s : State) (p q : Nat) (f : Frame), islOn s 5 = true → p < 2 → linkUp s p = true →
     s.flag R.NI_LINK_PAUSED [p] = false → (portGet s p).tx = none → s.flag R.EGS_GCTL_EN [p] = false →
     roundGet s p 7 = [q] → headFor (qGet s q) p = some f → (qGet s q).shape = false →
     f.len ≤ defGet (qGet s q) p + 256 * 2 ^ s.rd R.EGS_QCFG_QSH [q] → servedGet s p 7 = [] →
     runs (.egressSelect p) s fun t =>
     (portGet t p).tx = some (q, { f with copies := f.copies - 2 ^ p, begun := true, body := match f.body with
     | .delayReq d n _ _ c =>
     let ns := (domCnt s d / 2 ^ 28 + s.rd R.TBU_TXLAT [p] * 2 ^ 8) / 65536
     .delayReq d n (ns / 1000000000) (ns % 1000000000) c
     | b => b }) ∧
     (qGet t q).frames = takeHead p true (qGet s q).frames) ∧
  (∀ (s : State) (k q : Nat), islOn s 5 = true → k < 16 → s.flag R.EGS_SAMP_EN [k] = true →
     s.rd R.EGS_SAMP_FIRST [k] ≤ q → q ≤ s.rd R.EGS_SAMP_LAST [k] →
     runs (.queueSamplerVisit k q) s fun t =>
     t.rd R.EGS_QSTAT_MAXDELAY [q] = 0 ∧
     ((qGet s (s.rd R.EGS_SAMP_TQ [k])).en = true → s.flag R.EGS_DEST_EN [s.rd R.EGS_QCFG_DEST [s.rd R.EGS_SAMP_TQ [k]]] = true →
     noQueue (s.rd R.EGS_SAMP_TQ [k]) = false → (qGet s (s.rd R.EGS_SAMP_TQ [k])).opened = none →
     ((qGet t (s.rd R.EGS_SAMP_TQ [k])).opened.map fun f => (f.kind, f.recs)) = some (5, [beBytes 2 q ++
     beBytes 2 (s.rd R.EGS_QSTAT_DEPTH [q]) ++ beBytes 2 (s.rd R.EGS_QSTAT_MAXDELAY [q]) ++ [0, 0]]))) ∧
  (∀ (s : State) (q : Nat) (f : OpenFrame), (qGet s q).opened = some f →
     runs (.telemetryHoldExpiry q) s fun t =>
     (qGet t q).opened = none ∧ (qGet t q).fseq = ((qGet s q).fseq + 1) % 2 ^ 32) ∧
  (∀ (s : State) (p : Nat), islOn s 5 = true → p < 2 → s.flag R.EGS_GCTL_EN [p] = true →
     listUsable s p = true →
     runs (.gateEntryChange p) s fun t =>
     cellGet (fun _ => 0) t.egs.entry p =
     gateIndex (gateSegs (gateList s p) (gateCycle s p)) ((domNs s (s.rd R.EGS_GCTL_DOMAIN [p]) - epochNs s (s.rd R.EGS_GCTL_DOMAIN [p])) % gateCycle s p) ∧
     cellGet (fun _ => 0) t.egs.cycle p = domNs s (s.rd R.EGS_GCTL_DOMAIN [p]) -
     (domNs s (s.rd R.EGS_GCTL_DOMAIN [p]) - epochNs s (s.rd R.EGS_GCTL_DOMAIN [p])) % gateCycle s p ∧
     cellGet (fun _ => false) t.egs.running p =
     (cellGet (fun _ => false) s.egs.running p || cellGet (fun _ => 0) t.egs.entry p == 0) ∧
     t = { s with egs := { s.egs with running := t.egs.running, entry := t.egs.entry, cycle := t.egs.cycle } }) ∧
  (∀ (s : State) (p : Nat), islOn s 5 = true → p < 2 → s.flag R.EGS_GCTL_EN [p] = true →
     listUsable s p = false →
     runs (.gateEntryChange p) s fun t =>
     cellGet (fun _ => false) t.egs.running p = false ∧ t.flag R.EGS_STATUS_GATE_FALLBACK [] = true ∧
     t.egs.queues = s.egs.queues)

/-- R365, R366, R367, R368: An OPEN of a closed session that passes its checks opens it with the derived key, the rights
of its key slot and SEQ 1 next; CLOSE and the idle timeout close it; a request held for 2 ms in the reorder window is
dropped and counted. -/
def Obligations.SessionsOpenAndClose : Prop :=
  (∀ (s : State) (h : Hdr) (slot openId key non : Nat) (po : Bool), kcpUp s = true → modeSteady s = true →
     h.port < 2 → (portGet s h.port).kcp ≠ [] → h.mid = s.rd R.GLB_MID_MID [] → 0 < h.session →
     h.session < 32 → badHdr h = false → h.odd = none → slot < 31 → s.flag R.JNL_HKEY_VALID [slot] = true →
     sessOpen s h.session = false → (sessGet s h.session).openAns.type = 0 → jnlReady s = true →
     h.verA = true → h.verB = true →
     runs (.openSession h slot false po openId true key non) s fun t =>
     sessOpen t h.session = true ∧ t.rd R.JNL_SESS_NEXT [h.session] = 1 ∧
     t.rd R.JNL_SESS_RIGHTS [h.session] = s.rd R.JNL_HKEY_RIGHTS [slot] ∧ t.rd R.JNL_SESS_KEYSLOT [h.session] = slot ∧
     (sessGet t h.session).key = key ∧ (sessGet t h.session).window = [] ∧ (sessGet t h.session).openId = openId ∧
     s.jnl.last < t.jnl.last ∧ t.evs.length = s.evs.length ∧ t.jnl.aseq = s.jnl.aseq) ∧
  (∀ (s : State) (h : Hdr), inTurn h s = true → modeSteady s = true →
     runs (.closeSession h) s fun t =>
     sessOpen t h.session = false ∧ served t h .close ⟨0x82, 0, 0, 0, false, []⟩ ∧ (sessGet t h.session).held = [] ∧
     s.jnl.last < t.jnl.last ∧ t.evs.length = s.evs.length ∧ t.jnl.aseq = s.jnl.aseq) ∧
  (∀ (s : State) (k : Nat), 0 < k → k < 32 → sessOpen s k = true → kcpUp s = true → jnlReady s = true →
     runs (.sessionIdleTimeout k) s fun t =>
     sessOpen t k = false ∧ (sessGet t k).held = [] ∧ (sessGet t k).window = (sessGet s k).window ∧
     s.jnl.last < t.jnl.last ∧ t.evs.length = s.evs.length ∧ t.jnl.aseq = s.jnl.aseq) ∧
  (∀ (s : State) (k q : Nat), k < 32 → (sessGet s k).window.any (fun x => x.1 == q) = false →
     (sessGet s k).held.any (fun x => x.1 == q) = true →
     runs (.reorderTimeout k q) s fun t =>
     (sessGet t k).held.any (fun x => x.1 == q) = false ∧ (sessGet t k).window = (sessGet s k).window ∧
     t.rd R.JNL_SCNT_GAPDROP [k] = min (s.rd R.JNL_SCNT_GAPDROP [k] + 1) (2 ^ R.JNL_SCNT_GAPDROP.width - 1) ∧
     t = { s with regs := t.regs, sess := t.sess } ∧ wordsKept s t [fldAddr R.JNL_SCNT_GAPDROP [k]])

/-- R369, R370, R377, R381, R466: A READ of one word without a field cleared by reading answers with the word, and one of
several with four bytes for each; a QUERY answers with the event-table entry of the pending event it names; JREAD
answers with the committed entries from a JSEQ; ATTEST answers with the module's identity, mode and nonce. None of
them changes an event or the journal. -/
def Obligations.RequestsThatRead : Prop :=
  (∀ (s : State) (h : Hdr) (a : Nat), inTurn h s = true → modeSteady s = true →
     bitN (s.rd R.JNL_SESS_RIGHTS [h.session]) 0 = true → addrOk a = true → regOn s a = true →
     isRc a = false → cellGet (fun _ => 0) s.latch a = 0 →
     runs (.readWords h 1 0 [a]) s fun t =>
     served t h (.read 1 0 [a]) ⟨0x83, 0, 0, 0, false, beBytes 4 (readView s a)⟩ ∧
     t.jnl = s.jnl ∧ t.evs = s.evs ∧ t.drv = s.drv ∧ t.modes = s.modes) ∧
  (∀ (s : State) (h : Hdr) (n m : Nat) (as l : List Nat), inTurn h s = true → modeSteady s = true →
     bitN (s.rd R.JNL_SESS_RIGHTS [h.session]) 0 = true → readAddrs n m as = some l →
     firstBad addrOk l 0 = none → l.any isRc = false →
     runs (.readWords h n m as) s fun t =>
     ((sessGet t h.session).window.head?.map fun x => (x.1, x.2.1, x.2.2.type, x.2.2.result, x.2.2.body.length)) =
     some (h.seq, .read n m as, 0x83, 0, 4 * l.length) ∧
     t.jnl = s.jnl ∧ t.evs = s.evs ∧ t.drv = s.drv) ∧
  (∀ (s : State) (h : Hdr) (key sn num : Nat) (e : Ev), inTurn h s = true → modeSteady s = true →
     bitN (s.rd R.JNL_SESS_RIGHTS [h.session]) 0 = true → key < 2 → pendingBy s key sn num = some e →
     runs (.queryEvent h key sn num) s fun t =>
     served t h (.query key sn num) ⟨0x87, 0, 0, 0, false, tabImage s e.tab⟩ ∧
     t.jnl = s.jnl ∧ t.evs = s.evs ∧ t.drv = s.drv ∧ t.modes = s.modes) ∧
  (∀ (s : State) (h : Hdr) (j n : Nat), inTurn h s = true → modeSteady s = true →
     bitN (s.rd R.JNL_SESS_RIGHTS [h.session]) 0 = true → 1 ≤ n → n ≤ 64 → oldestJ s ≤ j →
     runs (.jread h j n) s fun t =>
     served t h (.jread j n)
     ⟨0x8C, 0, 0, 0, false, (((span j n).filterMap (entryAt s)).map entryBytes).flatten⟩ ∧
     t.jnl = s.jnl ∧ t.evs = s.evs ∧ t.drv = s.drv ∧ t.modes = s.modes) ∧
  (∀ (s : State) (h : Hdr) (nonce : Nat), inTurn h s = true → modeSteady s = true →
     bitN (s.rd R.JNL_SESS_RIGHTS [h.session]) 5 = true →
     runs (.attest h nonce) s fun t =>
     ((sessGet t h.session).window.head?.map fun x => (x.1, x.2.2.type, x.2.2.result, x.2.2.body.take 3,
     (x.2.2.body.drop 83).take 32)) =
     some (h.seq, 0x8B, 0, [s.rd R.GLB_MID_MID [], modeOf s, s.rd R.CL_BOOT_SLOT []], beBytes 32 nonce) ∧
     t.jnl = s.jnl ∧ t.evs = s.evs ∧ t.drv = s.drv ∧ t.modes = s.modes)

/-- R154, R369, R371: A WRITE whose one item names the levels of a set-point input or a word of a queue's configuration
and passes every check is journaled and acknowledged, and the bits of its mask that hosts may write take the new
value; the rest of the word stays. -/
def Obligations.WritesApply : Prop :=
  (∀ (s : State) (h : Hdr) (k m v : Nat), inTurn h s = true → modeSteady s = true →
     bitN (s.rd R.JNL_SESS_RIGHTS [h.session]) 1 = true → k < 8 →
     firstReject s [(fldAddr R.PORT_SETPT_PHI [k], m, v)] [(fldAddr R.PORT_SETPT_PHI [k], m, v)] 0 = none →
     runs (.writeWords h [(fldAddr R.PORT_SETPT_PHI [k], m, v)]) s fun t =>
     served t h (.write [(fldAddr R.PORT_SETPT_PHI [k], m, v)]) ⟨0x84, 0, 0, 0, false, []⟩ ∧ s.jnl.last < t.jnl.last ∧
     readN t (fldAddr R.PORT_SETPT_PHI [k]) = merged s (fldAddr R.PORT_SETPT_PHI [k])
     (Nat.land (m % 2 ^ 32) (accMask .rwr (fieldsAt (fldAddr R.PORT_SETPT_PHI [k])))) (v % 2 ^ 32) ∧
     t.evs.length = s.evs.length ∧ t.drv = s.drv ∧ t.modes = s.modes ∧ t.setpt = s.setpt) ∧
  (∀ (s : State) (h : Hdr) (a m v : Nat), inTurn h s = true → modeSteady s = true →
     bitN (s.rd R.JNL_SESS_RIGHTS [h.session]) 1 = true → 0x680000 ≤ a → a < 0x6FFF80 → m % 2 ^ 32 ≠ 0 →
     firstReject s [(a, m, v)] [(a, m, v)] 0 = none →
     runs (.writeWords h [(a, m, v)]) s fun t =>
     served t h (.write [(a, m, v)]) ⟨0x84, 0, 0, 0, false, []⟩ ∧ s.jnl.last < t.jnl.last ∧
     readN t a = merged s a (Nat.land (m % 2 ^ 32) (accMask .rwr (fieldsAt a))) (v % 2 ^ 32) ∧
     t.evs.length = s.evs.length ∧ t.drv = s.drv)

/-- R14, R15, R19, R372: SET_RESTING records the resting mode and is acknowledged, and with no condition on it enters that
mode from RUN or ECO; ENTER_MAINTAIN with both grants turns MAINTAIN on and enters it from RUN, ECO or DEGRADED;
LEAVE_MAINTAIN without grants goes to DARK and RECALIBRATE to CALIBRATE, from MAINTAIN or from DARK without a record,
each answered with PWR.MODE as it then reads; both wait, as requests not answered yet, while a wave is armed. -/
def Obligations.ModeRequests : Prop :=
  (∀ (s : State) (h : Hdr) (m : Nat), inTurn h s = true → bitN (s.rd R.JNL_SESS_RIGHTS [h.session]) 3 = true →
     m = 4 ∨ m = 5 → overlaysSound s = true →
     runs (.setResting h m) s fun t =>
     t.rd R.PWR_MODE_RESTING [] = m ∧
     ((sessGet t h.session).window.head?.map fun x => (x.1, x.2.1, x.2.2.type, x.2.2.result)) = some (h.seq, .mode 1 m 0, 0x88, 0) ∧
     s.jnl.last < t.jnl.last ∧ t.drv = s.drv ∧
     (modeOf s = mRun ∨ modeOf s = mEco → noCondition s = true →
     modeOf t = m ∧ served t h (.mode 1 m 0) ⟨0x88, 0, 0, 0, false, beBytes 4 (readN t 0x100010)⟩ ∧
     (modeOf s ≠ m → t.rd R.PWR_MODE_PREV [] = modeOf s ∧ t.rd R.PWR_MODE_CAUSE [] = 7))) ∧
  (∀ (s : State) (h : Hdr), inTurn h s = true → bitN (s.rd R.JNL_SESS_RIGHTS [h.session]) 3 = true →
     bothGrants s = true → modeOf s = mRun ∨ modeOf s = mEco ∨ modeOf s = mDegraded →
     s.flag R.PWR_MODE_C_LOCKOUT [] = false → s.flag R.PWR_MODE_C_STOP [] = false →
     s.flag R.PWR_MODE_C_SHED [] = false → overlaysSound s = true →
     runs (.enterMaintain h) s fun t =>
     modeOf t = mMaintain ∧ t.flag R.PWR_MODE_C_MAINT [] = true ∧ t.rd R.PWR_MODE_PREV [] = modeOf s ∧
     t.rd R.PWR_MODE_CAUSE [] = 7 ∧ t.rd R.PWR_MODE_RESTING [] = s.rd R.PWR_MODE_RESTING [] ∧
     served t h (.mode 2 0 0) ⟨0x88, 0, 0, 0, false, beBytes 4 (readN t 0x100010)⟩ ∧ s.jnl.last < t.jnl.last ∧ t.drv = s.drv) ∧
  (∀ (s : State) (h : Hdr), inTurn h s = true → modeSteady s = true →
     bitN (s.rd R.JNL_SESS_RIGHTS [h.session]) 3 = true → modeOf s = mMaintain → s.modes.leaving = none →
     s.armed ≠ [] →
     runs (.leaveMaintain h) s fun t =>
     t.modes.leaving = some (3, h) ∧ modeOf t = mMaintain ∧ (sessGet t h.session).late = some (h, .mode 3 0 0) ∧
     t.rd R.JNL_SESS_NEXT [h.session] = h.seq ∧ t.armed = s.armed ∧
     t.drv = s.drv ∧ s.jnl.last < t.jnl.last) ∧
  (∀ (s : State) (h : Hdr), inTurn h s = true → modeSteady s = true →
     bitN (s.rd R.JNL_SESS_RIGHTS [h.session]) 3 = true →
     modeOf s = mMaintain ∨ (modeOf s = mDark ∧ s.flag R.CAL_RECORD_VALID [] = false) →
     s.modes.leaving = none → s.armed ≠ [] →
     runs (.recalibrate h) s fun t =>
     t.modes.leaving = some (4, h) ∧ modeOf t = modeOf s ∧ (sessGet t h.session).late = some (h, .mode 4 0 0) ∧
     t.rd R.JNL_SESS_NEXT [h.session] = h.seq ∧ t.armed = s.armed ∧
     t.drv = s.drv ∧ s.jnl.last < t.jnl.last) ∧
  (∀ (s : State) (h : Hdr), inTurn h s = true → bitN (s.rd R.JNL_SESS_RIGHTS [h.session]) 3 = true →
     modeOf s = mMaintain → s.flag R.PWR_MODE_C_LOCKOUT [] = false → s.flag R.PWR_MODE_C_STOP [] = false →
     s.modes.leaving = none → s.armed = [] → s.chA.grant = false → s.chB.grant = false →
     overlaysSound s = true →
     runs (.leaveMaintain h) s fun t =>
     t.modes.leaving = none ∧ modeOf t = mDark ∧ t.flag R.PWR_MODE_C_MAINT [] = false ∧ t.rd R.PWR_MODE_CAUSE [] = 7 ∧
     t.chA.testing = true ∧ t.chB.testing = true ∧ served t h (.mode 3 0 0) ⟨0x88, 0, 0, 0, false, beBytes 4 (readN t 0x100010)⟩ ∧
     s.jnl.last < t.jnl.last) ∧
  (∀ (s : State) (h : Hdr), inTurn h s = true → bitN (s.rd R.JNL_SESS_RIGHTS [h.session]) 3 = true →
     modeOf s = mMaintain ∨ (modeOf s = mDark ∧ s.flag R.CAL_RECORD_VALID [] = false) →
     s.flag R.PWR_MODE_C_LOCKOUT [] = false → s.flag R.PWR_MODE_C_STOP [] = false → s.modes.leaving = none →
     s.armed = [] → overlaysSound s = true →
     runs (.recalibrate h) s fun t =>
     t.modes.leaving = none ∧ modeOf t = mCalibrate ∧ t.modes.calFrom = modeOf s ∧ t.rd R.CAL_RUN_PHASE [] = 1 ∧
     t.rd R.PWR_MODE_CAUSE [] = 7 ∧ served t h (.mode 4 0 0) ⟨0x88, 0, 0, 0, false, beBytes 4 (readN t 0x100010)⟩ ∧ s.jnl.last < t.jnl.last)

/-- R433, R434, R436: TRIGGER latches a snapshot while none is held, and is acknowledged with MET while one is; SCHEDULE
keeps the instant name and resolves it; CANCEL SCHEDULE drops it; RELEASE frees a held snapshot; EXPORT puts a held
one into export. Each is journaled and acknowledged, with SNAPSEQ unless a fault class triggers a snapshot of its own
meanwhile. -/
def Obligations.SnapshotRequests : Prop :=
  (∀ (s : State) (h : Hdr), inTurn h s = true → modeSteady s = true →
     bitN (s.rd R.JNL_SESS_RIGHTS [h.session]) 7 = true → bitN (s.rd R.SNP_CTRL_SRC_EN []) 1 = true →
     s.rd R.SNP_STATE_STATE [] = 0 →
     runs (.snapshotTrigger h) s fun t =>
     t.rd R.SNP_STATE_STATE [] = 1 ∧ t.rd R.SNP_SNAPSEQ [] = (s.rd R.SNP_SNAPSEQ [] + 1) % 2 ^ 32 ∧
     (t.pic.header.find? fun x => x.1 == 0x04).any (fun x => bitN x.2 25) = true ∧
     served t h (.snapshot 1 0) ⟨0x8D, 0, 0, 0, false, beBytes 4 (t.rd R.SNP_SNAPSEQ []) ++ [0]⟩ ∧ s.jnl.last < t.jnl.last ∧
     t.evs.length = s.evs.length ∧ t.drv = s.drv ∧ t.modes = s.modes) ∧
  (∀ (s : State) (h : Hdr), inTurn h s = true → modeSteady s = true →
     bitN (s.rd R.JNL_SESS_RIGHTS [h.session]) 7 = true → bitN (s.rd R.SNP_CTRL_SRC_EN []) 1 = true →
     s.rd R.SNP_STATE_STATE [] ≠ 0 → snapJoins s = false →
     runs (.snapshotTrigger h) s fun t =>
     t.rd R.SNP_STATE_STATE [] = s.rd R.SNP_STATE_STATE [] ∧ t.pic = s.pic ∧ bitN (readN t Blk.snp.base) 0 = true ∧
     0 < t.rd R.SNP_STATE_MISSED [] ∧
     served t h (.snapshot 1 0) ⟨0x8D, 0, 0, 0, false, beBytes 4 (s.rd R.SNP_SNAPSEQ []) ++ [1]⟩ ∧ s.jnl.last < t.jnl.last ∧
     t.evs.length = s.evs.length ∧ t.drv = s.drv ∧ t.modes = s.modes) ∧
  (∀ (s : State) (h : Hdr) (i x : Nat), inTurn h s = true → modeSteady s = true →
     bitN (s.rd R.JNL_SESS_RIGHTS [h.session]) 7 = true → bitN (s.rd R.SNP_CTRL_SRC_EN []) 2 = true →
     i < 2 ^ 64 → resolveName s i (domNs s (inDom i)) = .ok x →
     runs (.snapshotSchedule h i) s fun t =>
     t.snapAt = x ∧ snapName t = i ∧ t.flag R.SNP_STATE_SCHED_ARMED [] = true ∧ ((sessGet t h.session).window.head?.map fun x => (x.1, x.2.1, x.2.2.type, x.2.2.result)) = some (h.seq, .snapshot 2 i, 0x8D, 0) ∧
     (s.rd R.SNP_FCLASS [] = 0 → served t h (.snapshot 2 i) ⟨0x8D, 0, 0, 0, false, beBytes 4 (s.rd R.SNP_SNAPSEQ []) ++ [0]⟩) ∧
     s.jnl.last < t.jnl.last ∧
     t.evs.length = s.evs.length ∧ t.drv = s.drv ∧ t.modes = s.modes) ∧
  (∀ (s : State) (h : Hdr), inTurn h s = true → modeSteady s = true →
     bitN (s.rd R.JNL_SESS_RIGHTS [h.session]) 7 = true →
     runs (.snapshotCancelSchedule h) s fun t =>
     t.flag R.SNP_STATE_SCHED_ARMED [] = false ∧ snapName t = 0 ∧ t.snapAt = 0 ∧ ((sessGet t h.session).window.head?.map fun x => (x.1, x.2.1, x.2.2.type, x.2.2.result)) = some (h.seq, .snapshot 3 0, 0x8D, 0) ∧
     (s.rd R.SNP_FCLASS [] = 0 → served t h (.snapshot 3 0) ⟨0x8D, 0, 0, 0, false, beBytes 4 (s.rd R.SNP_SNAPSEQ []) ++ [0]⟩) ∧
     s.jnl.last < t.jnl.last ∧
     t.evs.length = s.evs.length ∧ t.drv = s.drv ∧ t.modes = s.modes) ∧
  (∀ (s : State) (h : Hdr), inTurn h s = true → modeSteady s = true →
     bitN (s.rd R.JNL_SESS_RIGHTS [h.session]) 7 = true →
     runs (.snapshotRelease h) s fun t =>
     (t.rd R.SNP_STATE_STATE [] = 0 ∨ s.rd R.SNP_FCLASS [] ≠ 0) ∧
     ((sessGet t h.session).window.head?.map fun x => (x.1, x.2.1, x.2.2.type, x.2.2.result)) = some (h.seq, .snapshot 4 0, 0x8D, 0) ∧
     (s.rd R.SNP_FCLASS [] = 0 → served t h (.snapshot 4 0) ⟨0x8D, 0, 0, 0, false, beBytes 4 (s.rd R.SNP_SNAPSEQ []) ++ [0]⟩) ∧
     s.jnl.last < t.jnl.last ∧
     t.evs.length = s.evs.length ∧ t.drv = s.drv ∧ t.modes = s.modes) ∧
  (∀ (s : State) (h : Hdr), inTurn h s = true → modeSteady s = true →
     bitN (s.rd R.JNL_SESS_RIGHTS [h.session]) 7 = true → s.rd R.SNP_STATE_STATE [] = 1 →
     runs (.snapshotExport h) s fun t =>
     t.rd R.SNP_STATE_STATE [] = 2 ∧ t.pic.words = s.pic.words ∧ t.pic.islands = s.pic.islands ∧
     served t h (.snapshot 5 0) ⟨0x8D, 0, 0, 0, false, beBytes 4 (s.rd R.SNP_SNAPSEQ []) ++ [0]⟩ ∧ s.jnl.last < t.jnl.last ∧
     t.evs.length = s.evs.length ∧ t.drv = s.drv ∧ t.modes = s.modes)

/-- R390, R399, R400: BEGIN in RUN or ECO erases the inactive slot, makes the session the owner and enters UPDATE; DATA
extends the ranges programmed; FINISH leaves a slot that verifies VALID and another INVALID with the item that fails;
ABANDON marks the slot INVALID; both end UPDATE in the resting mode; ACTIVATE marks a valid slot PENDING with a trial
count of 0, and with HOW 1 or 2 the MP reads no further request. Each is journaled and acknowledged. -/
def Obligations.UpdateRequests : Prop :=
  (∀ (s : State) (h : Hdr) (n : Nat), inTurn h s = true → modeSteady s = true →
     bitN (s.rd R.JNL_SESS_RIGHTS [h.session]) 6 = true → modeOf s = mRun ∨ modeOf s = mEco →
     s.flag R.CL_UPD_OWNED [] = false → overlaysSound s = true → (slotDir s.flash).count < 2 ^ 32 - 3 →
     runs (.updateBegin h n) s fun t =>
     modeOf t = mUpdate ∧ t.rd R.PWR_MODE_CAUSE [] = 7 ∧ t.flag R.PWR_MODE_C_UPD [] = true ∧ ownsUpdate h t = true ∧ t.updTotal = n ∧
     t.updRanges = [] ∧ slotImage t (inactiveSlot s) = none ∧ slotState t (inactiveSlot s) = 4 ∧
     slotState t (!inactiveSlot s) = slotState s (!inactiveSlot s) ∧
     served t h (.updBegin n) ⟨0x8E, 0, 0, 0, false, []⟩ ∧ s.jnl.last < t.jnl.last ∧ t.drv = s.drv) ∧
  (∀ (s : State) (h : Hdr) (o n g : Nat) (d : Bool), inTurn h s = true → modeSteady s = true →
     bitN (s.rd R.JNL_SESS_RIGHTS [h.session]) 6 = true → ownsUpdate h s = true → 1 ≤ n → n ≤ 8000 →
     o + n ≤ s.updTotal → (d && meetsRange o (o + n) s.updRanges) = false →
     runs (.updateData h o n g d) s fun t =>
     served t h (.updData o n g d) ⟨0x8E, 0, 0, 0, false, []⟩ ∧ t.updRanges = addRange o (o + n) s.updRanges ∧
     t.rd R.CL_UPD_KIB [] = rangeBytes t.updRanges / 1024 % 2 ^ R.CL_UPD_KIB.width ∧ t.modes = s.modes ∧ s.jnl.last < t.jnl.last ∧ t.evs.length = s.evs.length ∧ t.drv = s.drv) ∧
  (∀ (s : State) (h : Hdr) (im : Option Image), inTurn h s = true → modeSteady s = true →
     bitN (s.rd R.JNL_SESS_RIGHTS [h.session]) 6 = true → ownsUpdate h s = true → modeOf s = mUpdate →
     s.rd R.PWR_MODE_RESTING [] = 4 ∨ s.rd R.PWR_MODE_RESTING [] = 5 → overlaysSound s = true →
     (slotDir s.flash).count < 2 ^ 32 - 3 →
     runs (.updateFinish h im) s fun t =>
     slotImage t (inactiveSlot s) = im ∧
     slotState t (inactiveSlot s) = (if (im.map (verifyImage s.otp)).getD 1 = 0 then 1 else 4) ∧
     ((im.map (verifyImage s.otp)).getD 1 ≠ 0 → t.rd R.CL_BOOT_FAILITEM [] = (im.map (verifyImage s.otp)).getD 1 % 2 ^ R.CL_BOOT_FAILITEM.width) ∧
     t.flag R.PWR_MODE_C_UPD [] = false ∧ t.flag R.CL_UPD_OWNED [] = false ∧ modeOf t = s.rd R.PWR_MODE_RESTING [] ∧
     t.rd R.PWR_MODE_CAUSE [] = (if slotState t (inactiveSlot s) = 1 then 0x10 else 0x11) ∧
     served t h (.updFinish im) ⟨0x8E, 0, 0, 0, false, []⟩ ∧ s.jnl.last < t.jnl.last ∧ t.drv = s.drv) ∧
  (∀ (s : State) (h : Hdr), inTurn h s = true → modeSteady s = true →
     bitN (s.rd R.JNL_SESS_RIGHTS [h.session]) 6 = true → ownsUpdate h s = true → modeOf s = mUpdate →
     s.rd R.PWR_MODE_RESTING [] = 4 ∨ s.rd R.PWR_MODE_RESTING [] = 5 → overlaysSound s = true →
     (slotDir s.flash).count < 2 ^ 32 - 3 →
     runs (.updateAbandon h) s fun t =>
     slotState t (inactiveSlot s) = 4 ∧ t.flag R.PWR_MODE_C_UPD [] = false ∧ t.flag R.CL_UPD_OWNED [] = false ∧
     modeOf t = s.rd R.PWR_MODE_RESTING [] ∧ t.rd R.PWR_MODE_CAUSE [] = 0x11 ∧ served t h .updAbandon ⟨0x8E, 0, 0, 0, false, []⟩ ∧
     s.jnl.last < t.jnl.last ∧ t.drv = s.drv) ∧
  (∀ (s : State) (h : Hdr) (how : Nat) (im : Image), inTurn h s = true → modeSteady s = true →
     bitN (s.rd R.JNL_SESS_RIGHTS [h.session]) 6 = true → s.flag R.PWR_MODE_C_UPD [] = false →
     slotImage s (inactiveSlot s) = some im → slotState s (inactiveSlot s) = 1 →
     how ≤ 1 ∨ (how = 2 ∧ holdAllowed s im = true ∧ (modeOf s = mRun ∨ modeOf s = mEco)) →
     (slotDir s.flash).count < 2 ^ 32 - 3 →
     runs (.updateActivate h how) s fun t =>
     slotState t (inactiveSlot s) = 3 ∧ (slotDir t.flash).trial = 0 ∧ slotImage t (inactiveSlot s) = some im ∧
     t.jnl.stopped = decide (how ≠ 0) ∧ served t h (.updActivate how) ⟨0x8E, 0, 0, 0, false, []⟩ ∧ t.modes = s.modes ∧ s.jnl.last < t.jnl.last ∧ t.evs.length = s.evs.length ∧ t.drv = s.drv)

/-- R379, R382: A self-check that passes starts the resynchronisation from the survivor and one that does not is counted;
its end makes the copy equal to the survivor and live; PWR_FAIL_N low drops what waits in reorder windows and
write-protects the copies, and high again lifts the protection. -/
def Obligations.JournalCopies : Prop :=
  (∀ (s : State) (c : Nat), c < 2 → s.rd R.JNL_COPY_STATE [c] = 1 → s.rd R.JNL_COPY_CHECKS [c] < 3 →
     mpWorks s = true →
     runs (.journalCopySelfCheck c false) s fun t =>
     t.rd R.JNL_COPY_CHECKS [c] = s.rd R.JNL_COPY_CHECKS [c] + 1 ∧ t.rd R.JNL_COPY_STATE [c] = 1 ∧
     onlyWords s t [fldAddr R.JNL_COPY_STATE [c]]) ∧
  (∀ (s : State) (c : Nat), c < 2 → s.rd R.JNL_COPY_STATE [c] = 1 → s.rd R.JNL_COPY_CHECKS [c] < 3 →
     mpWorks s = true → copyLive s (1 - c) = true →
     runs (.journalCopySelfCheck c true) s fun t =>
     t.rd R.JNL_COPY_STATE [c] = 2 ∧ t.rd R.JNL_COPY_PROGRESS [c] = 0 ∧ copyLive t (1 - c) = true ∧
     onlyWords s t [fldAddr R.JNL_COPY_STATE [c]]) ∧
  (∀ (s : State) (c : Nat), c < 2 → s.rd R.JNL_COPY_STATE [c] = 2 → copyLive s (1 - c) = true →
     islOn s 1 = true → s.modes.degCauses = [degCopy c] → modeOf s = mRun →
     s.rd R.PWR_MODE_RESTING [] = mRun → s.flag R.PWR_MODE_C_LOCKOUT [] = false →
     s.flag R.PWR_MODE_C_STOP [] = false → s.flag R.PWR_MODE_C_SHED [] = false →
     s.flag R.PWR_MODE_C_MAINT [] = false → s.flag R.PWR_MODE_C_UPD [] = false →
     runs (.journalResyncDone c) s fun t =>
     copyGet t c = copyGet s (1 - c) ∧ copyGet t (1 - c) = copyGet s (1 - c) ∧ copyLive t c = true ∧
     t.rd R.JNL_COPY_CHECKS [c] = 0 ∧ t.modes.degCauses = [] ∧ t.flag R.PWR_MODE_C_DEG [] = false ∧ modeOf t = mRun) ∧
  (∀ (s : State), s.jnl.protect = false → modeOf s ≠ mReset → jnlReady s = true →
     runs .pwrFailAssert s fun t =>
     t.jnl.protect = true ∧ bitN (readN t Blk.jnl.base) 4 = true ∧ kcpUp t = false ∧ jnlReady t = false ∧
     s.jnl.last < t.jnl.last ∧ t.sess.all (fun v => v.2.held.isEmpty) = true ∧ t.evs = s.evs ∧ t.drv = s.drv) ∧
  (∀ (s : State), s.jnl.protect = true → modeActive (modeOf s) = false →
     runs .pwrFailRelease s fun t => t.jnl.protect = false ∧ t.evs = s.evs ∧ t.drv = s.drv ∧ t.jnl.aseq = s.jnl.aseq) ∧
  (∀ (s : State), s.jnl.protect = true → s.evs = [] →
     runs .pwrFailRelease s fun t => t.jnl.protect = false ∧ t.evs = [] ∧ t.jnl.aseq = s.jnl.aseq)

/-- R383, R398, R400, R401: A recovery that is due brings the MP back to work, shows its cause and duration and journals
them; a hold-through restart brings the image of the inactive slot in force when it verifies and may be held through,
and otherwise marks the slot INVALID and keeps the image in force. -/
def Obligations.Recoveries : Prop :=
  (∀ (s : State) (badA badB : List Nat) (ms : Nat), recoveryDue s = true → jnlReady s = true →
     s.rd R.JNL_RECOV_CAUSE [] ≠ 0 → s.modes.degCauses = [] → noOverlays s = true → s.evs = [] →
     runs (.journalRecovery badA badB ms) s fun t =>
     t.modes.mpDown = false ∧ t.jnl.recovering = false ∧ t.rd R.JNL_RECOV_CAUSE [] = 0xFF ∧
     t.rd R.JNL_RECOV_MS [] = min 255 ms ∧ t.rd R.JNL_RECOV_DONE [] = 0 ∧ t.rd R.JNL_RECOV_FAILED [] = 0 ∧
     bitN (readN t Blk.jnl.base) 5 = true ∧ s.jnl.last < t.jnl.last ∧ t.jnl.aseq = s.jnl.aseq ∧ t.drv = s.drv ∧ t.evs = []) ∧
  (∀ (s : State) (badA badB : List Nat) (ms : Nat), recoveryDue s = true → islOn s 1 = false →
     modeOf s = mLockout → s.flag R.PWR_MODE_C_LOCKOUT [] = true → s.modes.degCauses = [] →
     runs (.journalRecovery badA badB ms) s fun t => t.modes.mpDown = false ∧ t.jnl.recovering = false ∧ t.regs = s.regs ∧ t.evs = s.evs) ∧
  (∀ (s : State) (badA badB : List Nat) (ms : Nat) (im : Image), slotImage s (inactiveSlot s) = some im →
     s.jnl.stopped = true → slotState s (inactiveSlot s) = 3 → s.modes.mpDown = false → islOn s 1 = true →
     islOn s 2 = true → s.jnl.protect = false → s.armed = [] → overlaysSound s = true →
     (slotDir s.flash).count < 2 ^ 32 - 4 →
     runs (.holdThroughRestart badA badB ms) s fun t =>
     t.image = (if verifyImage s.otp im = 0 ∧ holdAllowed s im = true then some im else s.image) ∧
     t.modes.mpDown = false ∧ t.jnl.recovering = false ∧ t.jnl.stopped = false ∧ s.jnl.aseq ≤ t.jnl.aseq ∧
     slotState t (inactiveSlot s) = (if verifyImage s.otp im = 0 ∧ holdAllowed s im = true then 2 else 4))

/-- R413, R427, R429, R431, R432: A STATUS write clears exactly the bits written 1; a VALID write frees first-error
capture; INJECT arms in MAINTAIN where the block has the named checker; the scrubber leaves a good word alone and
counts one corrected error. -/
def Obligations.FaultSets : Prop :=
  (∀ (s : State) (i mask : Nat) (b : Blk), blkAt i = some b → blkOn b s = true →
     runs (.statusClear i mask) s fun t => onlyWords s t [b.base] ∧
     (span 0 32).all (fun k => (readN t b.base).testBit k == ((readN s b.base).testBit k && !mask.testBit k)) = true) ∧
  (∀ (s : State) (i : Nat) (b : Blk), blkAt i = some b → blkOn b s = true → b ≠ .saf →
     runs (.firstInfoClear i) s fun t => onlyWords s t [b.base + 0xC] ∧
     (span 0 32).all (fun k => (readN t (b.base + 0xC)).testBit k == ((readN s (b.base + 0xC)).testBit k && k != 15)) = true) ∧
  (∀ (s : State) (i sel mask : Nat) (b : Blk), blkAt i = some b → blkOn b s = true → modeOf s = mMaintain →
     runs (.injectArm i sel mask) s fun t => onlyWords s t [b.base + 0x18] ∧
     bitsN (readN t (b.base + 0x18)) 0 16 = mask % 2 ^ 16 ∧ bitsN (readN t (b.base + 0x18)) 24 3 = sel % 8 ∧
     bitN (readN t (b.base + 0x18)) 31 = hasChecker b (sel % 8)) ∧
  (∀ (s : State) (a sel : Nat) (b : Blk), regOn s a = true → checkerOf a = some (b, sel, true) →
     bitN (readN s (b.base + 0x18)) 31 = false →
     runs (.scrubAccess a 0) s fun t => t = s) ∧
  (∀ (s : State) (a sel : Nat) (b : Blk), regOn s a = true → checkerOf a = some (b, sel, true) →
     bitN (readN s (b.base + 0x18)) 31 = false →
     runs (.scrubAccess a 1) s fun t => onlyWords s t [b.base + 0x14] ∧
     readN t (b.base + 0x14) = (readN s (b.base + 0x14) + 1) % 2 ^ 32)

/-- R433, R434, R435: The SNAP pin, and a scheduled trigger whose instant has come in a usable domain, latch every
register and the header once, with their source and the next SNAPSEQ; a trigger at the very time of the snapshot held
adds its source to it, and any other while one is held is counted as missed; a scheduled trigger in an unusable domain
is dropped with SCHED_DROP; an export that ends releases the snapshot with AUTOREL and holds it again without; a new
trip of channel B triggers a snapshot too. -/
def Obligations.Snapshots : Prop :=
  (∀ (s : State), islOn s 1 = true → bitN (s.rd R.SNP_CTRL_SRC_EN []) 0 = true →
     s.rd R.SNP_STATE_STATE [] = 0 →
     runs .snapPin s fun t =>
     t.pic.words = s.regs ∧ t.pic.islands = (span 0 30).filter (islOn s) ∧ t.pic.header.contains (0x04, 2 ^ 24) = true ∧
     t.rd R.SNP_STATE_STATE [] = 1 ∧ t.rd R.SNP_STATE_MISSED [] = 0 ∧
     t.rd R.SNP_SNAPSEQ [] = (s.rd R.SNP_SNAPSEQ [] + 1) % 2 ^ 32 ∧
     t = { s with regs := t.regs, pic := t.pic } ∧ wordsKept s t [fldAddr R.SNP_STATE_STATE [], fldAddr R.SNP_SNAPSEQ []]) ∧
  (∀ (s : State), islOn s 1 = true → bitN (s.rd R.SNP_CTRL_SRC_EN []) 0 = true →
     s.rd R.SNP_STATE_STATE [] ≠ 0 → snapJoins s = true →
     runs .snapPin s fun t =>
     t = { s with pic := { s.pic with header := s.pic.header.map fun x => if x.1 = 4 then (4, Nat.lor x.2 (2 ^ 24)) else x } }) ∧
  (∀ (s : State), islOn s 1 = true → bitN (s.rd R.SNP_CTRL_SRC_EN []) 0 = true →
     s.rd R.SNP_STATE_STATE [] ≠ 0 → snapJoins s = false →
     runs .snapPin s fun t =>
     t.pic = s.pic ∧ t.rd R.SNP_STATE_STATE [] = s.rd R.SNP_STATE_STATE [] ∧
     t.rd R.SNP_STATE_MISSED [] = min (s.rd R.SNP_STATE_MISSED [] + 1) (2 ^ R.SNP_STATE_MISSED.width - 1) ∧
     bitN (readN t Blk.snp.base) 0 = true ∧ t = { s with regs := t.regs }) ∧
  (∀ (s : State), s.rd R.SNP_STATE_STATE [] = 2 →
     runs .snapshotExportEnd s fun t =>
     onlyWords s t [fldAddr R.SNP_STATE_STATE []] ∧
     t.rd R.SNP_STATE_STATE [] = (if s.flag R.SNP_CTRL_AUTOREL [] then 0 else 1) ∧
     t.rd R.SNP_STATE_MISSED [] = s.rd R.SNP_STATE_MISSED []) ∧
  (∀ (s : State), islOn s 1 = true → s.flag R.SNP_STATE_SCHED_ARMED [] = true →
     domUsable s (inDom (snapName s)) = false →
     runs .snapshotScheduledTrigger s fun t =>
     t.pic = s.pic ∧ t.flag R.SNP_STATE_SCHED_ARMED [] = false ∧ bitN (readN t Blk.snp.base) 1 = true ∧
     t.rd R.SNP_SNAPSEQ [] = s.rd R.SNP_SNAPSEQ [] ∧ t = { s with regs := t.regs, snapAt := 0 }) ∧
  (∀ (s : State), islOn s 1 = true → s.flag R.SNP_STATE_SCHED_ARMED [] = true →
     domUsable s (inDom (snapName s)) = true → islOn s 6 = true → s.snapAt ≤ domNs s (inDom (snapName s)) →
     s.rd R.SNP_STATE_STATE [] = 0 → bitN (s.rd R.SNP_CTRL_SRC_EN []) 2 = true →
     runs .snapshotScheduledTrigger s fun t =>
     t.flag R.SNP_STATE_SCHED_ARMED [] = false ∧ t.rd R.SNP_STATE_STATE [] = 1 ∧
     t.pic.header.contains (0x04, 2 ^ 26) = true ∧ t.rd R.SNP_SNAPSEQ [] = (s.rd R.SNP_SNAPSEQ [] + 1) % 2 ^ 32 ∧
     t = { s with regs := t.regs, pic := t.pic, snapAt := 0 }) ∧
  (∀ (s : State) (x : Nat), x < 1024 → islOn s 4 = true → heldDark s (x % 512) = false →
     s.flag R.SAF_SLPCFG_EN [x % 512] = true → s.chB.trips.contains (x % 512) = false → islOn s 1 = true →
     bitN (s.rd R.SNP_CTRL_SRC_EN []) 4 = true → s.rd R.SNP_STATE_STATE [] = 0 →
     runs (.comparatorCrossing x) s fun t =>
     t.pic.header.contains (0x04, 2 ^ 28) = true ∧ t.rd R.SNP_STATE_STATE [] = 1 ∧
     t.rd R.SNP_SNAPSEQ [] = (s.rd R.SNP_SNAPSEQ [] + 1) % 2 ^ 32 ∧ t.chA = s.chA ∧
     t = { s with regs := t.regs, chB := t.chB, pic := t.pic })
end

