-- ==== Sys2Proof/Laws/Cells.lean ====
section
/-! SUPPORT. Laws of sparse storage: read after write, and that every operation keeps the canonical form. -/

namespace Sys2Proof.Machine

variable {α : Type}

theorem cellGet_insert (d : Nat → α) (a b : Nat) (v : α) (c : Cells α) (h : ∀ p ∈ c, p.1 ≠ a) :
    cellGet d (cellInsert a v c) b = if b = a then v else cellGet d c b := by
  induction c with
  | nil => rfl
  | cons p t ih =>
    have ht := ih fun q hq => h q (List.mem_cons_of_mem _ hq)
    have hp := h p (List.mem_cons_self ..)
    by_cases hlt : a < p.1
    · simp [cellInsert, cellGet, hlt]
    · simp only [cellInsert, hlt, if_false, cellGet, ht]
      by_cases hb : b = p.1
      · have hba : b ≠ a := fun e => hp (by omega)
        simp [hb]
        intro e; exact absurd e hp
      · simp [hb]

theorem cellGet_erase_other (d : Nat → α) (a b : Nat) (c : Cells α) (h : b ≠ a) :
    cellGet d (cellErase c a) b = cellGet d c b := by
  induction c with
  | nil => rfl
  | cons p t ih =>
    unfold cellErase at *
    by_cases hp : p.1 = a
    · have : b ≠ p.1 := fun e => h (e.trans hp)
      simp [hp, ih, cellGet, h]
    · simp only [List.filter_cons, hp, Bool.not_eq_true', beq_eq_false_iff_ne, ne_eq, not_false_eq_true,
        if_true, cellGet, ih]

theorem cellGet_erase_same (d : Nat → α) (a : Nat) (c : Cells α) : cellGet d (cellErase c a) a = d a := by
  induction c with
  | nil => rfl
  | cons p t ih =>
    unfold cellErase at *
    by_cases hp : p.1 = a
    · simp [hp, ih]
    · simp only [List.filter_cons, hp, Bool.not_eq_true', beq_eq_false_iff_ne, ne_eq, not_false_eq_true,
        if_true, cellGet, ih]
      simp [Ne.symm hp]

theorem cellErase_ne (a : Nat) (c : Cells α) : ∀ p ∈ cellErase c a, p.1 ≠ a := by
  intro p hp
  simpa using (List.mem_filter.1 hp).2

/-! Order of keys. -/

theorem cellRising_iff (c : Cells α) : cellRising c = true ↔ c.Pairwise fun p q => p.1 < q.1 := by
  induction c with
  | nil => simp [cellRising]
  | cons p t ih =>
    cases t with
    | nil => simp [cellRising]
    | cons q u =>
      simp only [cellRising, Bool.and_eq_true, decide_eq_true_eq, ih, List.pairwise_cons]
      constructor
      · rintro ⟨h1, h2, h3⟩
        refine ⟨fun x hx => ?_, h2, h3⟩
        rcases List.mem_cons.1 hx with rfl | hx
        · exact h1
        · exact Nat.lt_trans h1 (h2 x hx)
      · rintro ⟨h1, h2, h3⟩
        exact ⟨h1 q (List.mem_cons_self ..), h2, h3⟩

theorem cellInsert_mem (a : Nat) (v : α) (c : Cells α) (p : Nat × α) (h : p ∈ cellInsert a v c) : p = (a, v) ∨ p ∈ c := by
  induction c with
  | nil => simpa [cellInsert] using h
  | cons q t ih =>
    unfold cellInsert at h
    split at h
    · rcases List.mem_cons.1 h with h | h
      · exact .inl h
      · exact .inr h
    · rcases List.mem_cons.1 h with h | h
      · exact .inr (h ▸ List.mem_cons_self ..)
      · exact (ih h).imp_right (List.mem_cons_of_mem _)

theorem cellInsert_pairwise (a : Nat) (v : α) (c : Cells α) (hc : c.Pairwise fun p q => p.1 < q.1)
    (ha : ∀ p ∈ c, p.1 ≠ a) : (cellInsert a v c).Pairwise fun p q => p.1 < q.1 := by
  induction c with
  | nil => simp [cellInsert]
  | cons q t ih =>
    rw [List.pairwise_cons] at hc
    unfold cellInsert
    split
    · rename_i hlt
      rw [List.pairwise_cons, List.pairwise_cons]
      refine ⟨fun x hx => ?_, hc⟩
      rcases List.mem_cons.1 hx with rfl | hx
      · exact hlt
      · exact Nat.lt_trans hlt (hc.1 x hx)
    · rename_i hlt
      rw [List.pairwise_cons]
      refine ⟨fun x hx => ?_, ih hc.2 fun p hp => ha p (List.mem_cons_of_mem _ hp)⟩
      rcases cellInsert_mem a v t x hx with rfl | hx
      · have := ha q (List.mem_cons_self ..)
        show q.1 < a
        omega
      · exact hc.1 x hx

variable [DecidableEq α]

/-- Read after write, one law for the same key and for others. -/
theorem cellGet_set (d : Nat → α) (c : Cells α) (a b : Nat) (v : α) :
    cellGet d (cellSet d c a v) b = if b = a then v else cellGet d c b := by
  unfold cellSet
  by_cases hv : v = d a
  · rw [if_pos hv]
    by_cases hb : b = a
    · subst hb; rw [if_pos rfl, cellGet_erase_same, hv]
    · rw [if_neg hb, cellGet_erase_other d a b c hb]
  · rw [if_neg hv, cellGet_insert d a b v _ (cellErase_ne a c)]
    by_cases hb : b = a
    · simp [hb]
    · simp [hb, cellGet_erase_other d a b c hb]

@[simp] theorem cellGet_set_same (d : Nat → α) (c : Cells α) (a : Nat) (v : α) : cellGet d (cellSet d c a v) a = v := by
  rw [cellGet_set, if_pos rfl]

theorem cellGet_set_other (d : Nat → α) (c : Cells α) (a b : Nat) (v : α) (h : b ≠ a) :
    cellGet d (cellSet d c a v) b = cellGet d c b := by
  rw [cellGet_set, if_neg h]

/-! The canonical form. -/

theorem cellWf_iff (d : Nat → α) (c : Cells α) :
    cellWf d c = true ↔ (c.Pairwise fun p q => p.1 < q.1) ∧ ∀ p ∈ c, p.2 ≠ d p.1 := by
  simp [cellWf, cellRising_iff]

theorem cellWf_filter (d : Nat → α) (c : Cells α) (p : Nat × α → Bool) (h : cellWf d c = true) :
    cellWf d (c.filter p) = true := by
  rw [cellWf_iff] at *
  exact ⟨h.1.filter p, fun q hq => h.2 q (List.mem_filter.1 hq).1⟩

theorem cellWf_set (d : Nat → α) (c : Cells α) (a : Nat) (v : α) (h : cellWf d c = true) :
    cellWf d (cellSet d c a v) = true := by
  have he : cellWf d (cellErase c a) = true := cellWf_filter d c _ h
  unfold cellSet
  split
  · exact he
  · rename_i hv
    rw [cellWf_iff] at *
    refine ⟨cellInsert_pairwise a v _ he.1 (cellErase_ne a c), fun p hp => ?_⟩
    rcases cellInsert_mem a v _ p hp with rfl | hp
    · exact hv
    · exact he.2 p hp

theorem cellSet_mem (d : Nat → α) (c : Cells α) (a : Nat) (v : α) (p : Nat × α) (h : p ∈ cellSet d c a v) :
    p = (a, v) ∨ p ∈ c := by
  unfold cellSet at h
  split at h
  · exact .inr (List.mem_filter.1 h).1
  · exact (cellInsert_mem a v _ p h).imp_right fun h => (List.mem_filter.1 h).1

theorem cellWf_upd (d : Nat → α) (c : Cells α) (a : Nat) (f : α → α) (h : cellWf d c = true) :
    cellWf d (cellUpd d c a f) = true := cellWf_set d c a _ h

theorem cellWf_drop (d : Nat → α) (p : Nat → Bool) (c : Cells α) (h : cellWf d c = true) :
    cellWf d (cellDrop p c) = true := cellWf_filter d c _ h

theorem cellWf_map (d : Nat → α) (f : Nat → α → α) (c : Cells α) (h : cellWf d c = true) :
    cellWf d (cellMap d f c) = true := by
  rw [cellWf_iff] at *
  refine ⟨List.Pairwise.filter _ (List.pairwise_map.2 h.1), fun p hp => ?_⟩
  simpa using (List.mem_filter.1 hp).2

end Sys2Proof.Machine
end

