-- ==== Sys2Proof/Laws/Regs.lean ====
section
/-! SUPPORT. Laws of the register space: a word or a field that is written reads back, and every other word and field
reads as before. -/

namespace Sys2Proof.Machine

/-! Bits of a word. -/

theorem setBits_testBit (old lo w v i : Nat) :
    (setBits old lo w v).testBit i = if lo ≤ i ∧ i < lo + w then v.testBit (i - lo) else old.testBit i := by
  have h1 : v % 2 ^ w * 2 ^ lo + old % 2 ^ lo < 2 ^ (lo + w) := by
    have a := Nat.mod_lt v (Nat.two_pow_pos w)
    have b := Nat.mod_lt old (Nat.two_pow_pos lo)
    have c : (v % 2 ^ w + 1) * 2 ^ lo ≤ 2 ^ w * 2 ^ lo := Nat.mul_le_mul_right _ a
    rw [Nat.pow_add, Nat.mul_comm (2 ^ lo)]
    rw [Nat.add_mul, Nat.one_mul] at c
    omega
  have h2 := Nat.mod_lt old (Nat.two_pow_pos lo)
  unfold setBits
  rw [Nat.add_assoc, Nat.mul_comm, Nat.testBit_two_pow_mul_add _ h1, Nat.mul_comm, Nat.testBit_two_pow_mul_add _ h2]
  by_cases h3 : i < lo
  · rw [if_pos (by omega), if_pos h3, if_neg (by omega), Nat.testBit_mod_two_pow]
    simp [h3]
  · by_cases h4 : i < lo + w
    · rw [if_pos h4, if_neg h3, if_pos ⟨by omega, h4⟩, Nat.testBit_mod_two_pow]
      simp; omega
    · rw [if_neg h4, if_neg (by omega), Nat.testBit_div_two_pow]
      congr 1; omega

theorem bitsN_testBit (n lo w i : Nat) : (bitsN n lo w).testBit i = (decide (i < w) && n.testBit (lo + i)) := by
  unfold bitsN
  rw [Nat.testBit_mod_two_pow, Nat.testBit_div_two_pow, Nat.add_comm]

theorem bitsN_mod (n lo w : Nat) (h : lo + w ≤ 32) : bitsN (n % 2 ^ 32) lo w = bitsN n lo w := by
  apply Nat.eq_of_testBit_eq
  intro i
  rw [bitsN_testBit, bitsN_testBit, Nat.testBit_mod_two_pow]
  by_cases hi : i < w
  · have : lo + i < 32 := by omega
    simp [hi, this]
  · simp [hi]

theorem bitsN_setBits_same (old lo w v : Nat) : bitsN (setBits old lo w v) lo w = v % 2 ^ w := by
  apply Nat.eq_of_testBit_eq
  intro i
  rw [bitsN_testBit, setBits_testBit, Nat.testBit_mod_two_pow]
  by_cases hi : i < w
  · simp [hi]
  · simp [hi]

theorem bitsN_setBits_other (old lo w v lo' w' : Nat) (h : lo' + w' ≤ lo ∨ lo + w ≤ lo') :
    bitsN (setBits old lo w v) lo' w' = bitsN old lo' w' := by
  apply Nat.eq_of_testBit_eq
  intro i
  rw [bitsN_testBit, bitsN_testBit, setBits_testBit]
  by_cases hi : i < w'
  · rw [if_neg (by omega)]
  · simp [hi]

theorem bitN_eq (n i : Nat) : bitN n i = n.testBit i := by
  unfold bitN
  rw [Nat.testBit_eq_decide_div_mod_eq]
  rfl

theorem bitsN_lt (n lo w : Nat) : bitsN n lo w < 2 ^ w := Nat.mod_lt _ (Nat.two_pow_pos w)

/-! Words. -/

theorem readN_lt (s : State) (a : Nat) : readN s a < 2 ^ 32 := (cellGet resetWord s.regs a).isLt

theorem readN_wrWord (s : State) (a b v : Nat) : readN (wrWord s a v) b = if b = a then v % 2 ^ 32 else readN s b := by
  unfold readN wrWord
  rw [cellGet_set]
  by_cases h : b = a
  · simp [h]
  · simp [h]

@[simp] theorem readN_wrWord_same (s : State) (a v : Nat) : readN (wrWord s a v) a = v % 2 ^ 32 := by
  rw [readN_wrWord, if_pos rfl]

theorem readN_wrWord_other (s : State) (a b v : Nat) (h : b ≠ a) : readN (wrWord s a v) b = readN s b := by
  rw [readN_wrWord, if_neg h]

/-! Fields. -/

/-- A field that lies within its word reads back what was written, cut to its width. -/
theorem rd_wr_same (s : State) (F : Fld) (ix : List Nat) (v : Nat) (h : F.lo + F.width ≤ 32) :
    (s.wr F ix v).rd F ix = v % 2 ^ F.width := by
  unfold State.rd State.wr
  rw [readN_wrWord_same, bitsN_mod _ _ _ h, bitsN_setBits_same]

/-- A write of one field leaves every field of other words as it was. -/
theorem rd_wr_word (s : State) (F G : Fld) (ix jx : List Nat) (v : Nat) (h : fldAddr G jx ≠ fldAddr F ix) :
    (s.wr F ix v).rd G jx = s.rd G jx := by
  unfold State.rd State.wr
  rw [readN_wrWord_other _ _ _ _ h]

/-- A write of one field leaves the other fields of its word as they were. -/
theorem rd_wr_bits (s : State) (F G : Fld) (ix jx : List Nat) (v : Nat) (hG : G.lo + G.width ≤ 32)
    (h : G.lo + G.width ≤ F.lo ∨ F.lo + F.width ≤ G.lo) : (s.wr F ix v).rd G jx = s.rd G jx := by
  by_cases ha : fldAddr G jx = fldAddr F ix
  · unfold State.rd State.wr
    rw [ha, readN_wrWord_same, bitsN_mod _ _ _ hG, bitsN_setBits_other _ _ _ _ _ _ h]
  · exact rd_wr_word s F G ix jx v ha

theorem readN_wr_other (s : State) (F : Fld) (ix : List Nat) (v a : Nat) (h : a ≠ fldAddr F ix) :
    readN (s.wr F ix v) a = readN s a := readN_wrWord_other _ _ _ _ h

/-- Forgotten words read as after reset, the others as before. -/
theorem readN_dropRange (s : State) (lo hi a : Nat) :
    readN (dropRange s lo hi) a = if lo ≤ a ∧ a < hi then resetNat a % 2 ^ 32 else readN s a := by
  unfold readN dropRange cellDrop
  simp only
  induction s.regs with
  | nil =>
    by_cases h : lo ≤ a ∧ a < hi <;> simp [cellGet, h, resetWord]
  | cons p t ih =>
    by_cases hp : lo ≤ p.1 ∧ p.1 < hi
    · simp only [List.filter_cons, hp, decide_true, Bool.and_self, Bool.not_true]
      simp only [Bool.false_eq_true, if_false, ih, cellGet]
      by_cases ha : lo ≤ a ∧ a < hi
      · simp [ha]
      · have he : a ≠ p.1 := fun e => ha (e.symm ▸ hp)
        rw [if_neg ha, if_neg ha, if_neg he]
    · have hb : (!(decide (lo ≤ p.1) && decide (p.1 < hi))) = true := by
        simp
        omega
      simp only [List.filter_cons, hb, if_true, cellGet]
      by_cases he : a = p.1
      · rw [if_pos he, if_neg (he ▸ hp), if_pos he]
      · rw [if_neg he, if_neg he, ih]

/-! One test for fields that do not touch. -/

/-- The two fields lie in different words or at different bits. -/
def fldApart (F : Fld) (ix : List Nat) (G : Fld) (jx : List Nat) : Bool :=
  !(fldAddr G jx == fldAddr F ix) || decide (G.lo + G.width ≤ F.lo) || decide (F.lo + F.width ≤ G.lo)

theorem rd_wr_apart (s : State) (F G : Fld) (ix jx : List Nat) (v : Nat) (hG : G.lo + G.width ≤ 32)
    (h : fldApart F ix G jx = true) : (s.wr F ix v).rd G jx = s.rd G jx := by
  simp only [fldApart, Bool.or_eq_true, Bool.not_eq_true', beq_eq_false_iff_ne, decide_eq_true_eq] at h
  rcases h with (h | h) | h
  · exact rd_wr_word s F G ix jx v h
  · exact rd_wr_bits s F G ix jx v hG (.inl h)
  · exact rd_wr_bits s F G ix jx v hG (.inr h)

theorem rd_wrWord_other (s : State) (G : Fld) (jx : List Nat) (a v : Nat) (h : fldAddr G jx ≠ a) :
    (wrWord s a v).rd G jx = s.rd G jx := by
  unfold State.rd
  rw [readN_wrWord_other _ _ _ _ h]

theorem readN_testBit_ge (s : State) (a k : Nat) (h : 32 ≤ k) : (readN s a).testBit k = false :=
  Nat.testBit_lt_two_pow (Nat.lt_of_lt_of_le (readN_lt s a) (Nat.pow_le_pow_right (by decide) h))

theorem rd_lt (s : State) (F : Fld) (ix : List Nat) : s.rd F ix < 2 ^ F.width := bitsN_lt _ _ _

/-! Readings depend on the register space alone. -/

theorem readN_congr {s t : State} (h : t.regs = s.regs) (a : Nat) : readN t a = readN s a := by
  unfold readN
  rw [h]

theorem rd_congr {s t : State} (h : t.regs = s.regs) (F : Fld) (ix : List Nat) : t.rd F ix = s.rd F ix := by
  unfold State.rd
  rw [readN_congr h]

end Sys2Proof.Machine
end

