-- ==== Sys2Proof/Laws/State.lean ====
section
/-! SUPPORT. What a write of a register word or field leaves of the rest of the state: one law per field of State. -/

namespace Sys2Proof.Machine

@[simp] theorem wrWord_latch (s : State) (a v : Nat) : (wrWord s a v).latch = s.latch := rfl
@[simp] theorem wrWord_time (s : State) (a v : Nat) : (wrWord s a v).time = s.time := rfl
@[simp] theorem wrWord_cnt (s : State) (a v : Nat) : (wrWord s a v).cnt = s.cnt := rfl
@[simp] theorem wrWord_modes (s : State) (a v : Nat) : (wrWord s a v).modes = s.modes := rfl
@[simp] theorem wrWord_egs (s : State) (a v : Nat) : (wrWord s a v).egs = s.egs := rfl
@[simp] theorem wrWord_netA (s : State) (a v : Nat) : (wrWord s a v).netA = s.netA := rfl
@[simp] theorem wrWord_netB (s : State) (a v : Nat) : (wrWord s a v).netB = s.netB := rfl
@[simp] theorem wrWord_jnl (s : State) (a v : Nat) : (wrWord s a v).jnl = s.jnl := rfl
@[simp] theorem wrWord_sess (s : State) (a v : Nat) : (wrWord s a v).sess = s.sess := rfl
@[simp] theorem wrWord_notes (s : State) (a v : Nat) : (wrWord s a v).notes = s.notes := rfl
@[simp] theorem wrWord_evs (s : State) (a v : Nat) : (wrWord s a v).evs = s.evs := rfl
@[simp] theorem wrWord_armed (s : State) (a v : Nat) : (wrWord s a v).armed = s.armed := rfl
@[simp] theorem wrWord_lastT0 (s : State) (a v : Nat) : (wrWord s a v).lastT0 = s.lastT0 := rfl
@[simp] theorem wrWord_refill (s : State) (a v : Nat) : (wrWord s a v).refill = s.refill := rfl
@[simp] theorem wrWord_rchg (s : State) (a v : Nat) : (wrWord s a v).rchg = s.rchg := rfl
@[simp] theorem wrWord_osr (s : State) (a v : Nat) : (wrWord s a v).osr = s.osr := rfl
@[simp] theorem wrWord_missed (s : State) (a v : Nat) : (wrWord s a v).missed = s.missed := rfl
@[simp] theorem wrWord_validAt (s : State) (a v : Nat) : (wrWord s a v).validAt = s.validAt := rfl
@[simp] theorem wrWord_lowRun (s : State) (a v : Nat) : (wrWord s a v).lowRun = s.lowRun := rfl
@[simp] theorem wrWord_corrBad (s : State) (a v : Nat) : (wrWord s a v).corrBad = s.corrBad := rfl
@[simp] theorem wrWord_light (s : State) (a v : Nat) : (wrWord s a v).light = s.light := rfl
@[simp] theorem wrWord_totOver (s : State) (a v : Nat) : (wrWord s a v).totOver = s.totOver := rfl
@[simp] theorem wrWord_setpt (s : State) (a v : Nat) : (wrWord s a v).setpt = s.setpt := rfl
@[simp] theorem wrWord_spLev (s : State) (a v : Nat) : (wrWord s a v).spLev = s.spLev := rfl
@[simp] theorem wrWord_updates (s : State) (a v : Nat) : (wrWord s a v).updates = s.updates := rfl
@[simp] theorem wrWord_loopBad (s : State) (a v : Nat) : (wrWord s a v).loopBad = s.loopBad := rfl
@[simp] theorem wrWord_loopX (s : State) (a v : Nat) : (wrWord s a v).loopX = s.loopX := rfl
@[simp] theorem wrWord_away (s : State) (a v : Nat) : (wrWord s a v).away = s.away := rfl
@[simp] theorem wrWord_shed (s : State) (a v : Nat) : (wrWord s a v).shed = s.shed := rfl
@[simp] theorem wrWord_moved (s : State) (a v : Nat) : (wrWord s a v).moved = s.moved := rfl
@[simp] theorem wrWord_voaOut (s : State) (a v : Nat) : (wrWord s a v).voaOut = s.voaOut := rfl
@[simp] theorem wrWord_repairs (s : State) (a v : Nat) : (wrWord s a v).repairs = s.repairs := rfl
@[simp] theorem wrWord_solving (s : State) (a v : Nat) : (wrWord s a v).solving = s.solving := rfl
@[simp] theorem wrWord_repairWaves (s : State) (a v : Nat) : (wrWord s a v).repairWaves = s.repairWaves := rfl
@[simp] theorem wrWord_rsLost (s : State) (a v : Nat) : (wrWord s a v).rsLost = s.rsLost := rfl
@[simp] theorem wrWord_pathAt (s : State) (a v : Nat) : (wrWord s a v).pathAt = s.pathAt := rfl
@[simp] theorem wrWord_finals (s : State) (a v : Nat) : (wrWord s a v).finals = s.finals := rfl
@[simp] theorem wrWord_shown (s : State) (a v : Nat) : (wrWord s a v).shown = s.shown := rfl
@[simp] theorem wrWord_plan (s : State) (a v : Nat) : (wrWord s a v).plan = s.plan := rfl
@[simp] theorem wrWord_servo (s : State) (a v : Nat) : (wrWord s a v).servo = s.servo := rfl
@[simp] theorem wrWord_phase (s : State) (a v : Nat) : (wrWord s a v).phase = s.phase := rfl
@[simp] theorem wrWord_rcFrom (s : State) (a v : Nat) : (wrWord s a v).rcFrom = s.rcFrom := rfl
@[simp] theorem wrWord_ppsOut (s : State) (a v : Nat) : (wrWord s a v).ppsOut = s.ppsOut := rfl
@[simp] theorem wrWord_drv (s : State) (a v : Nat) : (wrWord s a v).drv = s.drv := rfl
@[simp] theorem wrWord_banks (s : State) (a v : Nat) : (wrWord s a v).banks = s.banks := rfl
@[simp] theorem wrWord_chA (s : State) (a v : Nat) : (wrWord s a v).chA = s.chA := rfl
@[simp] theorem wrWord_chB (s : State) (a v : Nat) : (wrWord s a v).chB = s.chB := rfl
@[simp] theorem wrWord_pulse (s : State) (a v : Nat) : (wrWord s a v).pulse = s.pulse := rfl
@[simp] theorem wrWord_statusSeq (s : State) (a v : Nat) : (wrWord s a v).statusSeq = s.statusSeq := rfl
@[simp] theorem wrWord_therm (s : State) (a v : Nat) : (wrWord s a v).therm = s.therm := rfl
@[simp] theorem wrWord_pic (s : State) (a v : Nat) : (wrWord s a v).pic = s.pic := rfl
@[simp] theorem wrWord_snapAt (s : State) (a v : Nat) : (wrWord s a v).snapAt = s.snapAt := rfl
@[simp] theorem wrWord_updTotal (s : State) (a v : Nat) : (wrWord s a v).updTotal = s.updTotal := rfl
@[simp] theorem wrWord_updRanges (s : State) (a v : Nat) : (wrWord s a v).updRanges = s.updRanges := rfl
@[simp] theorem wrWord_otp (s : State) (a v : Nat) : (wrWord s a v).otp = s.otp := rfl
@[simp] theorem wrWord_flash (s : State) (a v : Nat) : (wrWord s a v).flash = s.flash := rfl
@[simp] theorem wrWord_image (s : State) (a v : Nat) : (wrWord s a v).image = s.image := rfl
@[simp] theorem wrWord_wbase (s : State) (a v : Nat) : (wrWord s a v).wbase = s.wbase := rfl
@[simp] theorem wrWord_wcal (s : State) (a v : Nat) : (wrWord s a v).wcal = s.wcal := rfl
@[simp] theorem wrWord_corr (s : State) (a v : Nat) : (wrWord s a v).corr = s.corr := rfl
@[simp] theorem wrWord_ramps (s : State) (a v : Nat) : (wrWord s a v).ramps = s.ramps := rfl
@[simp] theorem wrWord_bgFail (s : State) (a v : Nat) : (wrWord s a v).bgFail = s.bgFail := rfl
@[simp] theorem wrWord_calx (s : State) (a v : Nat) : (wrWord s a v).calx = s.calx := rfl
@[simp] theorem wrWord_pending (s : State) (a v : Nat) : (wrWord s a v).pending = s.pending := rfl

@[simp] theorem wr_latch (s : State) (F : Fld) (ix : List Nat) (v : Nat) : (s.wr F ix v).latch = s.latch := rfl
@[simp] theorem wr_time (s : State) (F : Fld) (ix : List Nat) (v : Nat) : (s.wr F ix v).time = s.time := rfl
@[simp] theorem wr_cnt (s : State) (F : Fld) (ix : List Nat) (v : Nat) : (s.wr F ix v).cnt = s.cnt := rfl
@[simp] theorem wr_modes (s : State) (F : Fld) (ix : List Nat) (v : Nat) : (s.wr F ix v).modes = s.modes := rfl
@[simp] theorem wr_egs (s : State) (F : Fld) (ix : List Nat) (v : Nat) : (s.wr F ix v).egs = s.egs := rfl
@[simp] theorem wr_netA (s : State) (F : Fld) (ix : List Nat) (v : Nat) : (s.wr F ix v).netA = s.netA := rfl
@[simp] theorem wr_netB (s : State) (F : Fld) (ix : List Nat) (v : Nat) : (s.wr F ix v).netB = s.netB := rfl
@[simp] theorem wr_jnl (s : State) (F : Fld) (ix : List Nat) (v : Nat) : (s.wr F ix v).jnl = s.jnl := rfl
@[simp] theorem wr_sess (s : State) (F : Fld) (ix : List Nat) (v : Nat) : (s.wr F ix v).sess = s.sess := rfl
@[simp] theorem wr_notes (s : State) (F : Fld) (ix : List Nat) (v : Nat) : (s.wr F ix v).notes = s.notes := rfl
@[simp] theorem wr_evs (s : State) (F : Fld) (ix : List Nat) (v : Nat) : (s.wr F ix v).evs = s.evs := rfl
@[simp] theorem wr_armed (s : State) (F : Fld) (ix : List Nat) (v : Nat) : (s.wr F ix v).armed = s.armed := rfl
@[simp] theorem wr_lastT0 (s : State) (F : Fld) (ix : List Nat) (v : Nat) : (s.wr F ix v).lastT0 = s.lastT0 := rfl
@[simp] theorem wr_refill (s : State) (F : Fld) (ix : List Nat) (v : Nat) : (s.wr F ix v).refill = s.refill := rfl
@[simp] theorem wr_rchg (s : State) (F : Fld) (ix : List Nat) (v : Nat) : (s.wr F ix v).rchg = s.rchg := rfl
@[simp] theorem wr_osr (s : State) (F : Fld) (ix : List Nat) (v : Nat) : (s.wr F ix v).osr = s.osr := rfl
@[simp] theorem wr_missed (s : State) (F : Fld) (ix : List Nat) (v : Nat) : (s.wr F ix v).missed = s.missed := rfl
@[simp] theorem wr_validAt (s : State) (F : Fld) (ix : List Nat) (v : Nat) : (s.wr F ix v).validAt = s.validAt := rfl
@[simp] theorem wr_lowRun (s : State) (F : Fld) (ix : List Nat) (v : Nat) : (s.wr F ix v).lowRun = s.lowRun := rfl
@[simp] theorem wr_corrBad (s : State) (F : Fld) (ix : List Nat) (v : Nat) : (s.wr F ix v).corrBad = s.corrBad := rfl
@[simp] theorem wr_light (s : State) (F : Fld) (ix : List Nat) (v : Nat) : (s.wr F ix v).light = s.light := rfl
@[simp] theorem wr_totOver (s : State) (F : Fld) (ix : List Nat) (v : Nat) : (s.wr F ix v).totOver = s.totOver := rfl
@[simp] theorem wr_setpt (s : State) (F : Fld) (ix : List Nat) (v : Nat) : (s.wr F ix v).setpt = s.setpt := rfl
@[simp] theorem wr_spLev (s : State) (F : Fld) (ix : List Nat) (v : Nat) : (s.wr F ix v).spLev = s.spLev := rfl
@[simp] theorem wr_updates (s : State) (F : Fld) (ix : List Nat) (v : Nat) : (s.wr F ix v).updates = s.updates := rfl
@[simp] theorem wr_loopBad (s : State) (F : Fld) (ix : List Nat) (v : Nat) : (s.wr F ix v).loopBad = s.loopBad := rfl
@[simp] theorem wr_loopX (s : State) (F : Fld) (ix : List Nat) (v : Nat) : (s.wr F ix v).loopX = s.loopX := rfl
@[simp] theorem wr_away (s : State) (F : Fld) (ix : List Nat) (v : Nat) : (s.wr F ix v).away = s.away := rfl
@[simp] theorem wr_shed (s : State) (F : Fld) (ix : List Nat) (v : Nat) : (s.wr F ix v).shed = s.shed := rfl
@[simp] theorem wr_moved (s : State) (F : Fld) (ix : List Nat) (v : Nat) : (s.wr F ix v).moved = s.moved := rfl
@[simp] theorem wr_voaOut (s : State) (F : Fld) (ix : List Nat) (v : Nat) : (s.wr F ix v).voaOut = s.voaOut := rfl
@[simp] theorem wr_repairs (s : State) (F : Fld) (ix : List Nat) (v : Nat) : (s.wr F ix v).repairs = s.repairs := rfl
@[simp] theorem wr_solving (s : State) (F : Fld) (ix : List Nat) (v : Nat) : (s.wr F ix v).solving = s.solving := rfl
@[simp] theorem wr_repairWaves (s : State) (F : Fld) (ix : List Nat) (v : Nat) : (s.wr F ix v).repairWaves = s.repairWaves := rfl
@[simp] theorem wr_rsLost (s : State) (F : Fld) (ix : List Nat) (v : Nat) : (s.wr F ix v).rsLost = s.rsLost := rfl
@[simp] theorem wr_pathAt (s : State) (F : Fld) (ix : List Nat) (v : Nat) : (s.wr F ix v).pathAt = s.pathAt := rfl
@[simp] theorem wr_finals (s : State) (F : Fld) (ix : List Nat) (v : Nat) : (s.wr F ix v).finals = s.finals := rfl
@[simp] theorem wr_shown (s : State) (F : Fld) (ix : List Nat) (v : Nat) : (s.wr F ix v).shown = s.shown := rfl
@[simp] theorem wr_plan (s : State) (F : Fld) (ix : List Nat) (v : Nat) : (s.wr F ix v).plan = s.plan := rfl
@[simp] theorem wr_servo (s : State) (F : Fld) (ix : List Nat) (v : Nat) : (s.wr F ix v).servo = s.servo := rfl
@[simp] theorem wr_phase (s : State) (F : Fld) (ix : List Nat) (v : Nat) : (s.wr F ix v).phase = s.phase := rfl
@[simp] theorem wr_rcFrom (s : State) (F : Fld) (ix : List Nat) (v : Nat) : (s.wr F ix v).rcFrom = s.rcFrom := rfl
@[simp] theorem wr_ppsOut (s : State) (F : Fld) (ix : List Nat) (v : Nat) : (s.wr F ix v).ppsOut = s.ppsOut := rfl
@[simp] theorem wr_drv (s : State) (F : Fld) (ix : List Nat) (v : Nat) : (s.wr F ix v).drv = s.drv := rfl
@[simp] theorem wr_banks (s : State) (F : Fld) (ix : List Nat) (v : Nat) : (s.wr F ix v).banks = s.banks := rfl
@[simp] theorem wr_chA (s : State) (F : Fld) (ix : List Nat) (v : Nat) : (s.wr F ix v).chA = s.chA := rfl
@[simp] theorem wr_chB (s : State) (F : Fld) (ix : List Nat) (v : Nat) : (s.wr F ix v).chB = s.chB := rfl
@[simp] theorem wr_pulse (s : State) (F : Fld) (ix : List Nat) (v : Nat) : (s.wr F ix v).pulse = s.pulse := rfl
@[simp] theorem wr_statusSeq (s : State) (F : Fld) (ix : List Nat) (v : Nat) : (s.wr F ix v).statusSeq = s.statusSeq := rfl
@[simp] theorem wr_therm (s : State) (F : Fld) (ix : List Nat) (v : Nat) : (s.wr F ix v).therm = s.therm := rfl
@[simp] theorem wr_pic (s : State) (F : Fld) (ix : List Nat) (v : Nat) : (s.wr F ix v).pic = s.pic := rfl
@[simp] theorem wr_snapAt (s : State) (F : Fld) (ix : List Nat) (v : Nat) : (s.wr F ix v).snapAt = s.snapAt := rfl
@[simp] theorem wr_updTotal (s : State) (F : Fld) (ix : List Nat) (v : Nat) : (s.wr F ix v).updTotal = s.updTotal := rfl
@[simp] theorem wr_updRanges (s : State) (F : Fld) (ix : List Nat) (v : Nat) : (s.wr F ix v).updRanges = s.updRanges := rfl
@[simp] theorem wr_otp (s : State) (F : Fld) (ix : List Nat) (v : Nat) : (s.wr F ix v).otp = s.otp := rfl
@[simp] theorem wr_flash (s : State) (F : Fld) (ix : List Nat) (v : Nat) : (s.wr F ix v).flash = s.flash := rfl
@[simp] theorem wr_image (s : State) (F : Fld) (ix : List Nat) (v : Nat) : (s.wr F ix v).image = s.image := rfl
@[simp] theorem wr_wbase (s : State) (F : Fld) (ix : List Nat) (v : Nat) : (s.wr F ix v).wbase = s.wbase := rfl
@[simp] theorem wr_wcal (s : State) (F : Fld) (ix : List Nat) (v : Nat) : (s.wr F ix v).wcal = s.wcal := rfl
@[simp] theorem wr_corr (s : State) (F : Fld) (ix : List Nat) (v : Nat) : (s.wr F ix v).corr = s.corr := rfl
@[simp] theorem wr_ramps (s : State) (F : Fld) (ix : List Nat) (v : Nat) : (s.wr F ix v).ramps = s.ramps := rfl
@[simp] theorem wr_bgFail (s : State) (F : Fld) (ix : List Nat) (v : Nat) : (s.wr F ix v).bgFail = s.bgFail := rfl
@[simp] theorem wr_calx (s : State) (F : Fld) (ix : List Nat) (v : Nat) : (s.wr F ix v).calx = s.calx := rfl
@[simp] theorem wr_pending (s : State) (F : Fld) (ix : List Nat) (v : Nat) : (s.wr F ix v).pending = s.pending := rfl

theorem inc_eq (s : State) (F : Fld) (ix : List Nat) : s.inc F ix = s.wr F ix (s.rd F ix + 1) := rfl
theorem incS_eq (s : State) (F : Fld) (ix : List Nat) : s.incS F ix = s.wr F ix (incSat F.width (s.rd F ix)) := rfl
theorem wrS_eq (s : State) (F : Fld) (ix : List Nat) (v : Int) : s.wrS F ix v = s.wr F ix (ofS F.width v) := rfl

/-- A write of a word changes the register space alone. -/
theorem wrWord_regsOnly (s : State) (a v : Nat) : wrWord s a v = { s with regs := (wrWord s a v).regs } := rfl

/-- A write of a field changes the register space alone. -/
theorem wr_regsOnly (s : State) (F : Fld) (ix : List Nat) (v : Nat) :
    s.wr F ix v = { s with regs := (s.wr F ix v).regs } := rfl

end Sys2Proof.Machine
end

