-- ==== Sys2Proof/Laws/Faults.lean ====
section
/-! SUPPORT. Fault sets (R426 to R429) and the frames of register writes: what one recorded occurrence does, said once. -/

namespace Sys2Proof.Machine

/-! Frames. -/

theorem onlyWords_refl (s : State) (l : List Nat) : onlyWords s s l := ⟨rfl, fun _ _ => rfl⟩

theorem onlyWords_wrWord {s t : State} {l : List Nat} (a v : Nat) (h : onlyWords s t l) (ha : a ∈ l) :
    onlyWords s (wrWord t a v) l :=
  ⟨by obtain ⟨h1, _⟩ := h; rw [h1]; rfl, fun b hb => by
    have hn : b ≠ a := fun e => hb (e ▸ ha)
    rw [readN_wrWord_other _ _ _ _ hn]; exact h.2 b hb⟩

theorem onlyWords_wr {s t : State} {l : List Nat} (F : Fld) (ix : List Nat) (v : Nat) (h : onlyWords s t l)
    (ha : fldAddr F ix ∈ l) : onlyWords s (t.wr F ix v) l := onlyWords_wrWord _ _ h ha

theorem onlyWords_mono {s t : State} {l m : List Nat} (h : onlyWords s t l) (hm : ∀ a ∈ l, a ∈ m) : onlyWords s t m :=
  ⟨h.1, fun a ha => h.2 a (fun e => ha (hm a e))⟩

/-! One occurrence. -/

/-- The words that recording an occurrence in a block may change. -/
def recordWords (b : Blk) : List Nat := [b.base, b.base + 8, b.base + 0xC, b.base + 0x10, b.base + 0x14]

theorem record_frame (b : Blk) (bit : Nat) (c : Cause) (s : State) : onlyWords s (record b bit c s) (recordWords b) := by
  unfold record
  have h1 := onlyWords_wrWord b.base (setBits (readN s b.base) bit 1 1) (onlyWords_refl s (recordWords b))
    (by simp [recordWords])
  extract_lets s1 s2
  split
  · exact h1
  · have h2 : onlyWords s s2 (recordWords b) := onlyWords_wrWord _ _ h1 (by simp [recordWords])
    split
    · exact h2
    · exact onlyWords_wrWord _ _ (onlyWords_wrWord _ _ (onlyWords_wrWord _ _ h2 (by simp [recordWords]))
        (by simp [recordWords])) (by simp [recordWords])

/-- The STATUS bit of the cause is set, the others stay. -/
theorem record_status (b : Blk) (bit : Nat) (c : Cause) (s : State) :
    readN (record b bit c s) b.base = setBits (readN s b.base) bit 1 1 % 2 ^ 32 := by
  unfold record
  extract_lets s1 s2
  have h1 : readN s1 b.base = setBits (readN s b.base) bit 1 1 % 2 ^ 32 := readN_wrWord_same _ _ _
  have h2 : readN s2 b.base = setBits (readN s b.base) bit 1 1 % 2 ^ 32 := by
    rw [← h1]; exact readN_wrWord_other _ _ _ _ (by omega)
  split
  · exact h1
  · split
    · exact h2
    · rw [readN_wrWord_other _ _ _ _ (by omega), readN_wrWord_other _ _ _ _ (by omega),
        readN_wrWord_other _ _ _ _ (by omega), h2]

theorem record_status_bit (b : Blk) (bit : Nat) (c : Cause) (s : State) (h : bit < 32) :
    bitN (readN (record b bit c s) b.base) bit = true := by
  rw [record_status, bitN_eq, Nat.testBit_mod_two_pow, setBits_testBit]
  simp [h]

/-- ERR_COUNT steps by one, modulo its width; the SAF mirror has none (R426). -/
theorem record_count (b : Blk) (bit : Nat) (c : Cause) (s : State) (h : b ≠ .saf) :
    readN (record b bit c s) (b.base + 0x14) = (readN s (b.base + 0x14) + 1) % 2 ^ 32 := by
  unfold record
  extract_lets s1 s2
  have h1 : readN s1 (b.base + 0x14) = readN s (b.base + 0x14) := readN_wrWord_other _ _ _ _ (by omega)
  have h2 : readN s2 (b.base + 0x14) = (readN s (b.base + 0x14) + 1) % 2 ^ 32 := by
    rw [← h1]; exact readN_wrWord_same _ _ _
  rw [if_neg h]
  split
  · exact h2
  · rw [readN_wrWord_other _ _ _ _ (by omega), readN_wrWord_other _ _ _ _ (by omega),
      readN_wrWord_other _ _ _ _ (by omega), h2]

/-- A field outside the block's fault set reads as before. -/
theorem record_rd (b : Blk) (bit : Nat) (c : Cause) (s : State) (F : Fld) (ix : List Nat)
    (h : fldAddr F ix ∉ recordWords b) : (record b bit c s).rd F ix = s.rd F ix := by
  unfold State.rd
  rw [(record_frame b bit c s).2 _ h]

theorem record_eq (b : Blk) (bit : Nat) (c : Cause) (s : State) :
    record b bit c s = { s with regs := (record b bit c s).regs } := (record_frame b bit c s).1

/-! Snapshots (R433, R434). -/

theorem raise0_snp (bit : Nat) (s : State) : raise0 .snp bit s = record .snp bit Cause.none s := rfl

/-- A trigger whose source is enabled, with no snapshot held: every block latches its part. -/
theorem snapTrigger_idle (src : Nat) (s : State) (hp : islOn s 1 = true)
    (he : Nat.land src (s.rd R.SNP_CTRL_SRC_EN [] * 2 ^ 24) ≠ 0) (hs : s.rd R.SNP_STATE_STATE [] = 0) :
    snapTrigger src s =
      (let en := Nat.land src (s.rd R.SNP_CTRL_SRC_EN [] * 2 ^ 24)
       let s1 := ((s.inc R.SNP_SNAPSEQ []).wr R.SNP_STATE_STATE [] 1).wr R.SNP_STATE_MISSED [] 0
       { s1 with pic := ⟨s.regs, snapHeader en s1, (span 0 30).filter (islOn s)⟩ }) := by
  unfold snapTrigger
  extract_lets en s1
  rw [if_neg (not_or.2 ⟨he, by simp [hp]⟩), if_neg (by simp [hs]), if_neg (by simp [hs])]

/-- A trigger while a snapshot is held or exported is counted. -/
theorem snapTrigger_held (src : Nat) (s : State) (hp : islOn s 1 = true)
    (he : Nat.land src (s.rd R.SNP_CTRL_SRC_EN [] * 2 ^ 24) ≠ 0) (hs : s.rd R.SNP_STATE_STATE [] ≠ 0)
    (hj : snapJoins s = false) :
    snapTrigger src s = record .snp 0 Cause.none (s.incS R.SNP_STATE_MISSED []) := by
  unfold snapTrigger
  extract_lets en s1
  rw [if_neg (not_or.2 ⟨he, by simp [hp]⟩), if_neg (by simp [hj]), if_pos hs]

/-- A trigger of the 8 ns of the snapshot that is held adds its source to it. -/
theorem snapTrigger_joins (src : Nat) (s : State) (hp : islOn s 1 = true)
    (he : Nat.land src (s.rd R.SNP_CTRL_SRC_EN [] * 2 ^ 24) ≠ 0) (hs : s.rd R.SNP_STATE_STATE [] ≠ 0)
    (hj : snapJoins s = true) :
    snapTrigger src s = snapAdd (Nat.land src (s.rd R.SNP_CTRL_SRC_EN [] * 2 ^ 24)) s := by
  unfold snapTrigger
  extract_lets en s1
  rw [if_neg (not_or.2 ⟨he, by simp [hp]⟩), if_pos ⟨hs, hj⟩]

end Sys2Proof.Machine
end

