-- ==== Sys2Proof/Laws/Kept.lean ====
section
/-! SUPPORT. What every operation of the block keeps, said once: the register space and the array of drives stay
canonical, the queue of waiting
commands stays as it is, and JSEQ and ASEQ do not fall (R207, R378). The files Kept<Module>.lean show it of each operation. -/

namespace Sys2Proof.Machine

/-- `s` has a canonical register space and drives, the queue `q`, and sequence numbers not below `j` and `a`. -/
structure Kept (q : List Instr) (j a : Nat) (s : State) : Prop where
  regs : cellWf resetWord s.regs = true
  drives : s.drivesWf = true
  queue : s.pending = q
  jseq : j ≤ s.jnl.last
  aseq : a ≤ s.jnl.aseq

/-- The outcome is a next state of that kind. -/
def KeptO (q : List Instr) (j a : Nat) : Host.Outcome State Fault Refusal → Prop
  | .next t => Kept q j a t
  | _ => False

variable {q : List Instr} {j a : Nat} {s : State}

/-- The outcome of a meaning. -/
theorem Kept.next (h : Kept q j a s) : KeptO q j a (.next s) := h

/-- An update of fields other than the four keeps it. -/
theorem Kept.update {r l c d m e n1 n2 jn se nt ev ar lt rf rc os ms va lr cb li tot sp sl up lb lx aw sh mo vo rp so rw rs2 pa fi kp pl sv
    ph rf2 pp dr bk ca cb2 pu ss th pc sa ut ur ot fl im wb wc co ra bg cx pe} {s : State} (h : Kept q j a s) (h1 : r = s.regs) (h0 : dr = s.drv)
    (h2 : pe = s.pending) (h3 : s.jnl.last ≤ jn.last) (h4 : s.jnl.aseq ≤ jn.aseq) :
    Kept q j a (State.mk r l c d m e n1 n2 jn se nt ev ar lt rf rc os ms va lr cb li tot sp sl up lb lx aw sh mo vo rp so rw rs2 pa fi kp pl sv ph
      rf2 pp dr bk ca cb2 pu ss th pc sa ut ur ot fl im wb wc co ra bg cx pe) :=
  ⟨by subst h1; exact h.regs, by unfold State.drivesWf; rw [h0]; exact h.drives, by subst h2; exact h.queue, Nat.le_trans h.jseq h3, Nat.le_trans h.aseq h4⟩

theorem Kept.filterRegs (p : Nat × Word → Bool) (h : Kept q j a s) : Kept q j a { s with regs := s.regs.filter p } :=
  ⟨cellWf_filter _ _ _ h.regs, h.drives, h.queue, h.jseq, h.aseq⟩

theorem Kept.mapRegs (f : Nat → Word → Word) (h : Kept q j a s) :
    Kept q j a { s with regs := cellMap resetWord f s.regs } :=
  ⟨cellWf_map _ _ _ h.regs, h.drives, h.queue, h.jseq, h.aseq⟩

theorem Kept.setDrv (e : Nat) (d : Drv) (he : e < nElem) (h : Kept q j a s) :
    Kept q j a { s with drv := cellSet (fun _ => Drv.idle) s.drv e d } := by
  refine ⟨h.regs, ?_, h.queue, h.jseq, h.aseq⟩
  have hd := h.drives
  simp only [State.drivesWf, Bool.and_eq_true, List.all_eq_true, decide_eq_true_eq] at hd ⊢
  refine ⟨cellWf_set _ _ _ _ hd.1, fun c hc => ?_⟩
  rcases cellSet_mem _ _ _ _ _ hc with rfl | hc
  · exact he
  · exact hd.2 c hc

theorem Kept.dropDrv (p : Nat → Bool) (h : Kept q j a s) : Kept q j a { s with drv := cellDrop p s.drv } := by
  refine ⟨h.regs, ?_, h.queue, h.jseq, h.aseq⟩
  have hd := h.drives
  simp only [State.drivesWf, Bool.and_eq_true, List.all_eq_true, decide_eq_true_eq] at hd ⊢
  exact ⟨cellWf_drop _ _ _ hd.1, fun c hc => hd.2 c (List.mem_filter.1 hc).1⟩

theorem Kept.noDrv (h : Kept q j a s) : Kept q j a { s with drv := [] } :=
  ⟨h.regs, rfl, h.queue, h.jseq, h.aseq⟩

theorem Kept.ite {c : Prop} [Decidable c] {x y : State} (h1 : Kept q j a x) (h2 : Kept q j a y) :
    Kept q j a (if c then x else y) := by
  split <;> assumption

theorem Kept.foldl {α : Type} {f : State → α → State} {l : List α} (hf : ∀ s x, Kept q j a s → Kept q j a (f s x))
    (h : Kept q j a s) : Kept q j a (l.foldl f s) := by
  induction l generalizing s with
  | nil => exact h
  | cons x l ih => exact ih (hf s x h)

theorem Kept.ite1 {c : Prop} [Decidable c] {β : Type} {x y : State × β} (h1 : Kept q j a x.1) (h2 : Kept q j a y.1) :
    Kept q j a (if c then x else y).1 := by
  split <;> assumption

theorem Kept.ite2 {c : Prop} [Decidable c] {β : Type} {x y : β × State} (h1 : Kept q j a x.2) (h2 : Kept q j a y.2) :
    Kept q j a (if c then x else y).2 := by
  split <;> assumption

theorem Kept.foldl1 {α β : Type} {f : State × β → α → State × β} {l : List α} {p : State × β}
    (hf : ∀ p x, Kept q j a p.1 → Kept q j a (f p x).1) (h : Kept q j a p.1) : Kept q j a (l.foldl f p).1 := by
  induction l generalizing p with
  | nil => exact h
  | cons x l ih => exact ih (hf p x h)

theorem Kept.foldl2 {α β : Type} {f : β × State → α → β × State} {l : List α} {p : β × State}
    (hf : ∀ p x, Kept q j a p.2 → Kept q j a (f p x).2) (h : Kept q j a p.2) : Kept q j a (l.foldl f p).2 := by
  induction l generalizing p with
  | nil => exact h
  | cons x l ih => exact ih (hf p x h)

/-- A named intermediate state, then a pair, then a function. -/
theorem Kept.cut {t : State} (x : State) (h1 : Kept q j a x) (h2 : Kept q j a x → Kept q j a t) : Kept q j a t := h2 h1
theorem Kept.cut2 {t : State} {α : Type} (x : α × State) (h1 : Kept q j a x.2)
    (h2 : Kept q j a x.2 → Kept q j a t) : Kept q j a t := h2 h1
theorem Kept.cut1 {t : State} {α : Type} (x : State × α) (h1 : Kept q j a x.1)
    (h2 : Kept q j a x.1 → Kept q j a t) : Kept q j a t := h2 h1
theorem Kept.cutF {t : State} (x : State → State) (h1 : ∀ y, Kept q j a y → Kept q j a (x y))
    (h2 : (∀ y, Kept q j a y → Kept q j a (x y)) → Kept q j a t) : Kept q j a t := h2 h1
theorem Kept.cutF2 {t : State} {α : Type} (x : α → State → State) (h1 : ∀ z y, Kept q j a y → Kept q j a (x z y))
    (h2 : (∀ z y, Kept q j a y → Kept q j a (x z y)) → Kept q j a t) : Kept q j a t := h2 h1
theorem Kept.cutF3 {t : State} {α β : Type} (x : α → β → State → State)
    (h1 : ∀ z w y, Kept q j a y → Kept q j a (x z w y))
    (h2 : (∀ z w y, Kept q j a y → Kept q j a (x z w y)) → Kept q j a t) : Kept q j a t := h2 h1
theorem Kept.cutF4 {t : State} {α : Type} (x : State → α → State) (h1 : ∀ y z, Kept q j a y → Kept q j a (x y z))
    (h2 : (∀ y z, Kept q j a y → Kept q j a (x y z)) → Kept q j a t) : Kept q j a t := h2 h1

end Sys2Proof.Machine
end

