-- ==== Sys2Proof/Laws/KeptOps.lean ====
section
/-! SUPPORT. Register, fault-set and snapshot operations: every operation keeps the register space and the
drives canonical, the queue of waiting commands, and the sequence numbers (`Kept`). -/

set_option linter.tactic.unusedName false
set_option linter.unreachableTactic false
set_option linter.unusedTactic false

namespace Sys2Proof.Machine

variable {q_ : List Instr} {j_ a_ : Nat} {s : State}

theorem wrWord_kept (x v : Nat) (h : Kept q_ j_ a_ s) : Kept q_ j_ a_ (wrWord s x v) :=
  ⟨cellWf_set _ _ _ _ h.regs, h.drives, h.queue, h.jseq, h.aseq⟩


theorem mergeWord_kept (mask : Nat) (a : Nat) (v : Nat) {s : State} (h_ : Kept q_ j_ a_ s) :
    Kept q_ j_ a_ (mergeWord mask a v s) := by
  unfold mergeWord
  repeat' first
    | with_reducible assumption
    | intro _
    | with_reducible apply Kept.ite
    | with_reducible apply wrWord_kept

theorem wr_kept (F : Fld) (ix : List Nat) (v : Nat) {s : State} (h_ : Kept q_ j_ a_ s) :
    Kept q_ j_ a_ (State.wr s F ix v) := by
  unfold State.wr
  repeat' first
    | with_reducible assumption
    | intro _
    | with_reducible apply Kept.ite
    | with_reducible apply wrWord_kept

theorem wrS_kept (F : Fld) (ix : List Nat) (v : Int) {s : State} (h_ : Kept q_ j_ a_ s) :
    Kept q_ j_ a_ (State.wrS s F ix v) := by
  unfold State.wrS
  repeat' first
    | with_reducible assumption
    | intro _
    | with_reducible apply Kept.ite
    | with_reducible apply wr_kept

theorem inc_kept (F : Fld) (ix : List Nat) {s : State} (h_ : Kept q_ j_ a_ s) :
    Kept q_ j_ a_ (State.inc s F ix) := by
  unfold State.inc
  repeat' first
    | with_reducible assumption
    | intro _
    | with_reducible apply Kept.ite
    | with_reducible apply wr_kept

theorem incS_kept (F : Fld) (ix : List Nat) {s : State} (h_ : Kept q_ j_ a_ s) :
    Kept q_ j_ a_ (State.incS s F ix) := by
  unfold State.incS
  repeat' first
    | with_reducible assumption
    | intro _
    | with_reducible apply Kept.ite
    | with_reducible apply wr_kept

theorem setMapBit_kept (a : Nat) (i : Nat) (v : Bool) {s : State} (h_ : Kept q_ j_ a_ s) :
    Kept q_ j_ a_ (setMapBit s a i v) := by
  unfold setMapBit
  repeat' first
    | with_reducible assumption
    | intro _
    | with_reducible apply Kept.ite
    | with_reducible apply wrWord_kept

theorem dropRange_kept (x v : Nat) (h : Kept q_ j_ a_ s) : Kept q_ j_ a_ (dropRange s x v) := Kept.filterRegs _ h


theorem record_kept (b : Blk) (bit : Nat) (c : Cause) {s : State} (h_ : Kept q_ j_ a_ s) :
    Kept q_ j_ a_ (record b bit c s) := by
  unfold record
  repeat' first
    | with_reducible assumption
    | intro _
    | with_reducible apply Kept.ite
    | (extract_lets +onlyGivenNames x
       first
         | (refine Kept.cut x ?_ fun hx => ?_; unfold x; clear x; rotate_left; clear_value x)
         | clear_value x)
    | with_reducible apply wrWord_kept
    | split

theorem snapAdd_kept (en : Nat) {s : State} (h_ : Kept q_ j_ a_ s) :
    Kept q_ j_ a_ (snapAdd en s) := by
  unfold snapAdd
  repeat' first
    | with_reducible assumption
    | intro _
    | with_reducible apply Kept.ite
    | (extract_lets +onlyGivenNames x
       first
         | (refine Kept.cut x ?_ fun hx => ?_; unfold x; clear x; rotate_left; clear_value x)
         | (refine Kept.cut2 x ?_ fun hx => ?_; unfold x; clear x; rotate_left; clear_value x)
         | (refine Kept.cut1 x ?_ fun hx => ?_; unfold x; clear x; rotate_left; clear_value x)
         | clear_value x)
    | split
    | refine Kept.update ?_ rfl rfl rfl (Nat.le_refl _) (Nat.le_refl _)

theorem snapTrigger_kept (src : Nat) {s : State} (h_ : Kept q_ j_ a_ s) :
    Kept q_ j_ a_ (snapTrigger src s) := by
  unfold snapTrigger
  repeat' first
    | with_reducible assumption
    | intro _
    | with_reducible apply Kept.ite
    | (extract_lets +onlyGivenNames x
       first
         | (refine Kept.cut x ?_ fun hx => ?_; unfold x; clear x; rotate_left; clear_value x)
         | clear_value x)
    | with_reducible apply snapAdd_kept
    | with_reducible apply record_kept
    | with_reducible apply incS_kept
    | with_reducible apply inc_kept
    | with_reducible apply wr_kept
    | split
    | refine Kept.update ?_ rfl rfl rfl (Nat.le_refl _) (Nat.le_refl _)

theorem raise_kept (b : Blk) (bit : Nat) (c : Cause) {s : State} (h_ : Kept q_ j_ a_ s) :
    Kept q_ j_ a_ (raise b bit c s) := by
  unfold raise
  repeat' first
    | with_reducible assumption
    | intro _
    | with_reducible apply Kept.ite
    | (extract_lets +onlyGivenNames x
       first
         | (refine Kept.cut x ?_ fun hx => ?_; unfold x; clear x; rotate_left; clear_value x)
         | clear_value x)
    | with_reducible apply snapTrigger_kept
    | with_reducible apply record_kept
    | split
    | refine Kept.update ?_ rfl rfl rfl (Nat.le_refl _) (Nat.le_refl _)

theorem raise0_kept (b : Blk) (bit : Nat) {s : State} (h_ : Kept q_ j_ a_ s) :
    Kept q_ j_ a_ (raise0 b bit s) := by
  unfold raise0
  repeat' first
    | with_reducible assumption
    | intro _
    | with_reducible apply Kept.ite
    | with_reducible apply raise_kept

theorem injHit_kept (b : Blk) (sel : Nat) {s : State} (h_ : Kept q_ j_ a_ s) :
    Kept q_ j_ a_ (injHit b sel s).2 := by
  unfold injHit
  repeat' first
    | with_reducible assumption
    | intro _
    | with_reducible apply Kept.ite
    | with_reducible apply Kept.ite1
    | with_reducible apply Kept.ite2
    | (extract_lets +onlyGivenNames x
       first
         | (refine Kept.cut x ?_ fun hx => ?_; unfold x; clear x; rotate_left; clear_value x)
         | clear_value x)
    | with_reducible apply wrWord_kept
    | split

theorem injParity_kept (b : Blk) (sel : Nat) {s : State} (h_ : Kept q_ j_ a_ s) :
    Kept q_ j_ a_ (injParity b sel s).2 := by
  unfold injParity
  repeat' first
    | with_reducible assumption
    | intro _
    | with_reducible apply Kept.ite
    | with_reducible apply Kept.ite1
    | with_reducible apply Kept.ite2
    | (extract_lets +onlyGivenNames x
       first
         | (refine Kept.cut x ?_ fun hx => ?_; unfold x; clear x; rotate_left; clear_value x)
         | (refine Kept.cut2 x ?_ fun hx => ?_; unfold x; clear x; rotate_left; clear_value x)
         | (refine Kept.cut1 x ?_ fun hx => ?_; unfold x; clear x; rotate_left; clear_value x)
         | clear_value x)
    | with_reducible apply injHit_kept

theorem countOnly_kept (b : Blk) {s : State} (h_ : Kept q_ j_ a_ s) :
    Kept q_ j_ a_ (countOnly b s) := by
  unfold countOnly
  repeat' first
    | with_reducible assumption
    | intro _
    | with_reducible apply Kept.ite
    | with_reducible apply wrWord_kept

theorem eccHit_kept (b : Blk) (sel : Nat) (bit : Nat) (a : Nat) (master : Nat) (acc : Nat) {s : State} (h_ : Kept q_ j_ a_ s) :
    Kept q_ j_ a_ (eccHit b sel bit a master acc s).2 := by
  unfold eccHit
  repeat' first
    | with_reducible assumption
    | intro _
    | with_reducible apply Kept.ite
    | with_reducible apply Kept.ite1
    | with_reducible apply Kept.ite2
    | (extract_lets +onlyGivenNames x
       first
         | (refine Kept.cut x ?_ fun hx => ?_; unfold x; clear x; rotate_left; clear_value x)
         | (refine Kept.cut2 x ?_ fun hx => ?_; unfold x; clear x; rotate_left; clear_value x)
         | (refine Kept.cut1 x ?_ fun hx => ?_; unfold x; clear x; rotate_left; clear_value x)
         | clear_value x)
    | with_reducible apply countOnly_kept
    | with_reducible apply injHit_kept
    | with_reducible apply raise_kept
    | split

theorem crcHit_kept (b : Blk) (sel : Nat) {s : State} (h_ : Kept q_ j_ a_ s) :
    Kept q_ j_ a_ (crcHit b sel s) := by
  unfold crcHit
  repeat' first
    | with_reducible assumption
    | intro _
    | with_reducible apply Kept.ite
    | (extract_lets +onlyGivenNames x
       first
         | (refine Kept.cut x ?_ fun hx => ?_; unfold x; clear x; rotate_left; clear_value x)
         | (refine Kept.cut2 x ?_ fun hx => ?_; unfold x; clear x; rotate_left; clear_value x)
         | (refine Kept.cut1 x ?_ fun hx => ?_; unfold x; clear x; rotate_left; clear_value x)
         | clear_value x)
    | with_reducible apply countOnly_kept
    | with_reducible apply injHit_kept
    | split

end Sys2Proof.Machine
end

