-- ==== Sys2Proof/Laws/KeptEgress.lean ====
section
/-! SUPPORT. Egress queues: every operation keeps the register space and the
drives canonical, the queue of waiting commands, and the sequence numbers (`Kept`). -/

set_option linter.tactic.unusedName false
set_option linter.unreachableTactic false
set_option linter.unusedTactic false

namespace Sys2Proof.Machine

variable {q_ : List Instr} {j_ a_ : Nat} {s : State}

theorem qPut_kept (q : Nat) (v : Queue) {s : State} (h_ : Kept q_ j_ a_ s) :
    Kept q_ j_ a_ (qPut s q v) := by
  unfold qPut
  repeat' first
    | with_reducible assumption
    | intro _
    | with_reducible apply Kept.ite
    | (extract_lets +onlyGivenNames x
       first
         | (refine Kept.cut x ?_ fun hx => ?_; unfold x; clear x; rotate_left; clear_value x)
         | clear_value x)
    | refine Kept.update ?_ rfl rfl rfl (Nat.le_refl _) (Nat.le_refl _)

theorem portPut_kept (p : Nat) (v : NetPort) {s : State} (h_ : Kept q_ j_ a_ s) :
    Kept q_ j_ a_ (portPut s p v) := by
  unfold portPut
  repeat' first
    | with_reducible assumption
    | intro _
    | with_reducible apply Kept.ite
    | (extract_lets +onlyGivenNames x
       first
         | (refine Kept.cut x ?_ fun hx => ?_; unfold x; clear x; rotate_left; clear_value x)
         | clear_value x)
    | split
    | refine Kept.update ?_ rfl rfl rfl (Nat.le_refl _) (Nat.le_refl _)

theorem ringSet_kept (p : Nat) (r : Nat) (l : List RxHeld) {s : State} (h_ : Kept q_ j_ a_ s) :
    Kept q_ j_ a_ (ringSet p r l s) := by
  unfold ringSet
  repeat' first
    | with_reducible assumption
    | intro _
    | with_reducible apply Kept.ite
    | (extract_lets +onlyGivenNames x
       first
         | (refine Kept.cut x ?_ fun hx => ?_; unfold x; clear x; rotate_left; clear_value x)
         | clear_value x)
    | with_reducible apply portPut_kept
    | with_reducible apply wr_kept

theorem takeRing_kept (p : Nat) (r : Nat) {s : State} (h_ : Kept q_ j_ a_ s) :
    Kept q_ j_ a_ (takeRing p r s) := by
  unfold takeRing
  repeat' first
    | with_reducible assumption
    | intro _
    | with_reducible apply Kept.ite
    | with_reducible apply ringSet_kept
    | split
    | refine Kept.update ?_ rfl rfl rfl (Nat.le_refl _) (Nat.le_refl _)

theorem clearRings_kept (p : Nat) {s : State} (h_ : Kept q_ j_ a_ s) :
    Kept q_ j_ a_ (clearRings p s) := by
  unfold clearRings
  repeat' first
    | with_reducible assumption
    | intro _
    | with_reducible apply Kept.ite
    | with_reducible apply Kept.ite1
    | with_reducible apply Kept.ite2
    | with_reducible apply portPut_kept
    | with_reducible apply wr_kept
    | with_reducible apply Kept.foldl
    | with_reducible apply Kept.foldl1
    | with_reducible apply Kept.foldl2
    | split

theorem showDepth_kept (q : Nat) {s : State} (h_ : Kept q_ j_ a_ s) :
    Kept q_ j_ a_ (showDepth q s) := by
  unfold showDepth
  repeat' first
    | with_reducible assumption
    | intro _
    | with_reducible apply Kept.ite
    | with_reducible apply wr_kept

theorem bumpEgs_kept (F : Fld) (ix : List Nat) {s : State} (h_ : Kept q_ j_ a_ s) :
    Kept q_ j_ a_ (bumpEgs F ix s) := by
  unfold bumpEgs
  repeat' first
    | with_reducible assumption
    | intro _
    | with_reducible apply Kept.ite
    | (extract_lets +onlyGivenNames x
       first
         | (refine Kept.cut x ?_ fun hx => ?_; unfold x; clear x; rotate_left; clear_value x)
         | clear_value x)
    | with_reducible apply raise0_kept
    | with_reducible apply inc_kept
    | with_reducible apply wrWord_kept
    | split

theorem roundPut_kept (p : Nat) (c : Nat) (l : List Nat) {s : State} (h_ : Kept q_ j_ a_ s) :
    Kept q_ j_ a_ (roundPut s p c l) := by
  unfold roundPut
  repeat' first
    | with_reducible assumption
    | intro _
    | with_reducible apply Kept.ite
    | (extract_lets +onlyGivenNames x
       first
         | (refine Kept.cut x ?_ fun hx => ?_; unfold x; clear x; rotate_left; clear_value x)
         | clear_value x)
    | refine Kept.update ?_ rfl rfl rfl (Nat.le_refl _) (Nat.le_refl _)

theorem servedPut_kept (p : Nat) (c : Nat) (l : List Nat) {s : State} (h_ : Kept q_ j_ a_ s) :
    Kept q_ j_ a_ (servedPut s p c l) := by
  unfold servedPut
  repeat' first
    | with_reducible assumption
    | intro _
    | with_reducible apply Kept.ite
    | (extract_lets +onlyGivenNames x
       first
         | (refine Kept.cut x ?_ fun hx => ?_; unfold x; clear x; rotate_left; clear_value x)
         | clear_value x)
    | refine Kept.update ?_ rfl rfl rfl (Nat.le_refl _) (Nat.le_refl _)

theorem joinRound_kept (p : Nat) (q : Nat) {s : State} (h_ : Kept q_ j_ a_ s) :
    Kept q_ j_ a_ (joinRound p q s) := by
  unfold joinRound
  repeat' first
    | with_reducible assumption
    | intro _
    | with_reducible apply Kept.ite
    | (extract_lets +onlyGivenNames x
       first
         | (refine Kept.cut x ?_ fun hx => ?_; unfold x; clear x; rotate_left; clear_value x)
         | clear_value x)
    | with_reducible apply roundPut_kept
    | split

theorem leaveRound_kept (p : Nat) (q : Nat) {s : State} (h_ : Kept q_ j_ a_ s) :
    Kept q_ j_ a_ (leaveRound p q s) := by
  unfold leaveRound
  repeat' first
    | with_reducible assumption
    | intro _
    | with_reducible apply Kept.ite
    | (extract_lets +onlyGivenNames x
       first
         | (refine Kept.cut x ?_ fun hx => ?_; unfold x; clear x; rotate_left; clear_value x)
         | clear_value x)
    | with_reducible apply servedPut_kept
    | with_reducible apply roundPut_kept
    | with_reducible apply qPut_kept

theorem dropDown_kept (p q n : Nat) (h : Kept q_ j_ a_ s) : Kept q_ j_ a_ (dropDown p q n s) := by
  induction n generalizing s with
  | zero => exact h
  | succ n ih =>
    unfold dropDown
    repeat' first
    | with_reducible assumption
    | intro _
    | with_reducible apply Kept.ite
    | (extract_lets +onlyGivenNames x
       first
         | (refine Kept.cut x ?_ fun hx => ?_; unfold x; clear x; rotate_left; clear_value x)
         | clear_value x)
    | with_reducible apply ih
    | with_reducible apply bumpEgs_kept
    | with_reducible apply qPut_kept
    | with_reducible apply raise0_kept
    | split
    | refine Kept.update ?_ rfl rfl rfl (Nat.le_refl _) (Nat.le_refl _)


theorem offer_kept (p : Nat) (q : Nat) {s : State} (h_ : Kept q_ j_ a_ s) :
    Kept q_ j_ a_ (offer p q s) := by
  unfold offer
  repeat' first
    | with_reducible assumption
    | intro _
    | with_reducible apply Kept.ite
    | with_reducible apply dropDown_kept
    | with_reducible apply joinRound_kept
    | split
    | refine Kept.update ?_ rfl rfl rfl (Nat.le_refl _) (Nat.le_refl _)

theorem enqueue_kept (q : Nat) (port : Nat) (len : Nat) (b : FBody) {s : State} (h_ : Kept q_ j_ a_ s) :
    Kept q_ j_ a_ (enqueue q port len b s) := by
  unfold enqueue
  repeat' first
    | with_reducible assumption
    | intro _
    | with_reducible apply Kept.ite
    | (extract_lets +onlyGivenNames x
       first
         | (refine Kept.cut x ?_ fun hx => ?_; unfold x; clear x; rotate_left; clear_value x)
         | (refine Kept.cut2 x ?_ fun hx => ?_; unfold x; clear x; rotate_left; clear_value x)
         | clear_value x)
    | with_reducible apply offer_kept
    | with_reducible apply bumpEgs_kept
    | with_reducible apply showDepth_kept
    | with_reducible apply qPut_kept
    | with_reducible apply eccHit_kept
    | with_reducible apply raise0_kept
    | split
    | refine Kept.update ?_ rfl rfl rfl (Nat.le_refl _) (Nat.le_refl _)

theorem closeFrame_kept (q : Nat) {s : State} (h_ : Kept q_ j_ a_ s) :
    Kept q_ j_ a_ (closeFrame q s) := by
  unfold closeFrame
  repeat' first
    | with_reducible assumption
    | intro _
    | with_reducible apply Kept.ite
    | (extract_lets +onlyGivenNames x
       first
         | (refine Kept.cut x ?_ fun hx => ?_; unfold x; clear x; rotate_left; clear_value x)
         | clear_value x)
    | with_reducible apply enqueue_kept
    | with_reducible apply qPut_kept
    | split
    | refine Kept.update ?_ rfl rfl rfl (Nat.le_refl _) (Nat.le_refl _)

theorem addRecordAt_kept (stamp : Nat → Bool × Nat × Nat) (q : Nat) (kind : Nat) (bytes : List Nat) {s : State} (h_ : Kept q_ j_ a_ s) :
    Kept q_ j_ a_ (addRecordAt stamp q kind bytes s) := by
  unfold addRecordAt
  repeat' first
    | with_reducible assumption
    | intro _
    | with_reducible apply Kept.ite
    | (extract_lets +onlyGivenNames x
       first
         | (refine Kept.cut x ?_ fun hx => ?_; unfold x; clear x; rotate_left; clear_value x)
         | (refine Kept.cut2 x ?_ fun hx => ?_; unfold x; clear x; rotate_left; clear_value x)
         | (refine Kept.cut1 x ?_ fun hx => ?_; unfold x; clear x; rotate_left; clear_value x)
         | clear_value x)
    | with_reducible apply closeFrame_kept
    | with_reducible apply showDepth_kept
    | with_reducible apply qPut_kept
    | split
    | refine Kept.update ?_ rfl rfl rfl (Nat.le_refl _) (Nat.le_refl _)

theorem addRecord_kept (q : Nat) (kind : Nat) (bytes : List Nat) {s : State} (h_ : Kept q_ j_ a_ s) :
    Kept q_ j_ a_ (addRecord q kind bytes s) := by
  unfold addRecord
  repeat' first
    | with_reducible assumption
    | intro _
    | with_reducible apply Kept.ite
    | with_reducible apply addRecordAt_kept

theorem gatherAt_kept (stamp : Nat → Bool × Nat × Nat) (q : Nat) (kind : Nat) (shift : Nat) (bytes : List Nat) {s : State} (h_ : Kept q_ j_ a_ s) :
    Kept q_ j_ a_ (gatherAt stamp q kind shift bytes s) := by
  unfold gatherAt
  repeat' first
    | with_reducible assumption
    | intro _
    | with_reducible apply Kept.ite
    | (extract_lets +onlyGivenNames x
       first
         | (refine Kept.cut x ?_ fun hx => ?_; unfold x; clear x; rotate_left; clear_value x)
         | clear_value x)
    | with_reducible apply addRecordAt_kept
    | with_reducible apply qPut_kept
    | split
    | refine Kept.update ?_ rfl rfl rfl (Nat.le_refl _) (Nat.le_refl _)

theorem gather_kept (q : Nat) (kind : Nat) (shift : Nat) (bytes : List Nat) {s : State} (h_ : Kept q_ j_ a_ s) :
    Kept q_ j_ a_ (gather q kind shift bytes s) := by
  unfold gather
  repeat' first
    | with_reducible assumption
    | intro _
    | with_reducible apply Kept.ite
    | with_reducible apply gatherAt_kept

theorem settle_kept  {s : State} (h_ : Kept q_ j_ a_ s) :
    Kept q_ j_ a_ (settle s) := by
  unfold settle
  repeat' first
    | with_reducible assumption
    | intro _
    | with_reducible apply Kept.ite
    | with_reducible apply wr_kept
    | split

theorem settleQ_kept (q : Nat) {s : State} (h_ : Kept q_ j_ a_ s) :
    Kept q_ j_ a_ (settleQ q s) := by
  unfold settleQ
  repeat' first
    | with_reducible assumption
    | intro _
    | with_reducible apply Kept.ite
    | (extract_lets +onlyGivenNames x
       first
         | (refine Kept.cut x ?_ fun hx => ?_; unfold x; clear x; rotate_left; clear_value x)
         | clear_value x)
    | with_reducible apply settle_kept
    | split
    | refine Kept.update ?_ rfl rfl rfl (Nat.le_refl _) (Nat.le_refl _)

theorem refillQueue_kept (q : Nat) {s : State} (h_ : Kept q_ j_ a_ s) :
    Kept q_ j_ a_ (refillQueue q s) := by
  unfold refillQueue
  repeat' first
    | with_reducible assumption
    | intro _
    | with_reducible apply Kept.ite
    | (extract_lets +onlyGivenNames x
       first
         | (refine Kept.cut x ?_ fun hx => ?_; unfold x; clear x; rotate_left; clear_value x)
         | clear_value x)
    | with_reducible apply settleQ_kept
    | with_reducible apply closeFrame_kept
    | with_reducible apply qPut_kept
    | split
    | refine Kept.update ?_ rfl rfl rfl (Nat.le_refl _) (Nat.le_refl _)

theorem execShaperRefill_kept (queue : Nat) {s : State} (h_ : Kept q_ j_ a_ s) :
    KeptO q_ j_ a_ (execShaperRefill queue s) := by
  unfold execShaperRefill
  repeat' first
    | with_reducible assumption
    | intro _
    | with_reducible apply Kept.ite
    | with_reducible apply Kept.next
    | with_reducible apply refillQueue_kept
    | split

theorem execFrameEnqueue_kept (queue : Nat) (port : Nat) (len : Nat) (tag : Nat) {s : State} (h_ : Kept q_ j_ a_ s) :
    KeptO q_ j_ a_ (execFrameEnqueue queue port len tag s) := by
  unfold execFrameEnqueue
  repeat' first
    | with_reducible assumption
    | intro _
    | with_reducible apply Kept.ite
    | with_reducible apply Kept.next
    | with_reducible apply enqueue_kept
    | split

theorem gateFallback_kept (p : Nat) {s : State} (h_ : Kept q_ j_ a_ s) :
    Kept q_ j_ a_ (gateFallback p s) := by
  unfold gateFallback
  repeat' first
    | with_reducible assumption
    | intro _
    | with_reducible apply Kept.ite
    | (extract_lets +onlyGivenNames x
       first
         | (refine Kept.cut x ?_ fun hx => ?_; unfold x; clear x; rotate_left; clear_value x)
         | clear_value x)
    | with_reducible apply raise0_kept
    | refine Kept.update ?_ rfl rfl rfl (Nat.le_refl _) (Nat.le_refl _)

theorem gatesFall_kept (d : Nat) {s : State} (h_ : Kept q_ j_ a_ s) :
    Kept q_ j_ a_ (gatesFall d s) := by
  unfold gatesFall
  repeat' first
    | with_reducible assumption
    | intro _
    | with_reducible apply Kept.ite
    | with_reducible apply Kept.ite1
    | with_reducible apply Kept.ite2
    | with_reducible apply gateFallback_kept
    | with_reducible apply Kept.foldl
    | with_reducible apply Kept.foldl1
    | with_reducible apply Kept.foldl2
    | split

theorem execGateEntryChange_kept (port : Nat) {s : State} (h_ : Kept q_ j_ a_ s) :
    KeptO q_ j_ a_ (execGateEntryChange port s) := by
  unfold execGateEntryChange
  repeat' first
    | with_reducible assumption
    | intro _
    | with_reducible apply Kept.ite
    | (extract_lets +onlyGivenNames x
       first
         | (refine Kept.cut x ?_ fun hx => ?_; unfold x; clear x; rotate_left; clear_value x)
         | clear_value x)
    | with_reducible apply Kept.next
    | with_reducible apply gateFallback_kept
    | split
    | refine Kept.update ?_ rfl rfl rfl (Nat.le_refl _) (Nat.le_refl _)

theorem dropOversize_kept (p c q n : Nat) (h : Kept q_ j_ a_ s) : Kept q_ j_ a_ (dropOversize p c q n s) := by
  induction n generalizing s with
  | zero => exact h
  | succ n ih =>
    unfold dropOversize
    repeat' first
    | with_reducible assumption
    | intro _
    | with_reducible apply Kept.ite
    | (extract_lets +onlyGivenNames x
       first
         | (refine Kept.cut x ?_ fun hx => ?_; unfold x; clear x; rotate_left; clear_value x)
         | clear_value x)
    | with_reducible apply ih
    | with_reducible apply leaveRound_kept
    | with_reducible apply bumpEgs_kept
    | with_reducible apply showDepth_kept
    | with_reducible apply qPut_kept
    | with_reducible apply raise0_kept
    | split
    | refine Kept.update ?_ rfl rfl rfl (Nat.le_refl _) (Nat.le_refl _)


theorem noteDelay_kept (q : Nat) (f : Frame) {s : State} (h_ : Kept q_ j_ a_ s) :
    Kept q_ j_ a_ (noteDelay q f s) := by
  unfold noteDelay
  repeat' first
    | with_reducible assumption
    | intro _
    | with_reducible apply Kept.ite
    | (extract_lets +onlyGivenNames x
       first
         | (refine Kept.cut x ?_ fun hx => ?_; unfold x; clear x; rotate_left; clear_value x)
         | clear_value x)
    | with_reducible apply wr_kept
    | split

theorem startFrame_kept (p : Nat) (c : Nat) (q : Nat) (f : Frame) {s : State} (h_ : Kept q_ j_ a_ s) :
    Kept q_ j_ a_ (startFrame p c q f s) := by
  unfold startFrame
  repeat' first
    | with_reducible assumption
    | intro _
    | with_reducible apply Kept.ite
    | (extract_lets +onlyGivenNames x
       first
         | (refine Kept.cut x ?_ fun hx => ?_; unfold x; clear x; rotate_left; clear_value x)
         | clear_value x)
    | with_reducible apply noteDelay_kept
    | with_reducible apply leaveRound_kept
    | with_reducible apply servedPut_kept
    | with_reducible apply roundPut_kept
    | with_reducible apply showDepth_kept
    | with_reducible apply portPut_kept
    | with_reducible apply qPut_kept
    | split
    | refine Kept.update ?_ rfl rfl rfl (Nat.le_refl _) (Nat.le_refl _)

theorem drr_kept (p c n : Nat) (h : Kept q_ j_ a_ s) : Kept q_ j_ a_ (drr p c n s) := by
  induction n generalizing s with
  | zero => exact h
  | succ n ih =>
    unfold drr
    repeat' first
    | with_reducible assumption
    | intro _
    | with_reducible apply Kept.ite
    | (extract_lets +onlyGivenNames x
       first
         | (refine Kept.cut x ?_ fun hx => ?_; unfold x; clear x; rotate_left; clear_value x)
         | clear_value x)
    | with_reducible apply ih
    | with_reducible apply startFrame_kept
    | with_reducible apply servedPut_kept
    | with_reducible apply roundPut_kept
    | with_reducible apply qPut_kept
    | split
    | refine Kept.update ?_ rfl rfl rfl (Nat.le_refl _) (Nat.le_refl _)


theorem pickClass_kept (p n : Nat) (h : Kept q_ j_ a_ s) : Kept q_ j_ a_ (pickClass p n s) := by
  induction n generalizing s with
  | zero => exact h
  | succ n ih =>
    unfold pickClass
    repeat' first
    | with_reducible assumption
    | intro _
    | with_reducible apply Kept.ite
    | with_reducible apply Kept.ite1
    | with_reducible apply Kept.ite2
    | (extract_lets +onlyGivenNames x
       first
         | (refine Kept.cut x ?_ fun hx => ?_; unfold x; clear x; rotate_left; clear_value x)
         | clear_value x)
    | with_reducible apply ih
    | with_reducible apply drr_kept
    | with_reducible apply dropOversize_kept
    | with_reducible apply Kept.foldl
    | with_reducible apply Kept.foldl1
    | with_reducible apply Kept.foldl2
    | split


theorem servoPut_kept (d : Nat) (v : Servo) {s : State} (h_ : Kept q_ j_ a_ s) :
    Kept q_ j_ a_ (servoPut s d v) := by
  unfold servoPut
  repeat' first
    | with_reducible assumption
    | intro _
    | with_reducible apply Kept.ite
    | (extract_lets +onlyGivenNames x
       first
         | (refine Kept.cut x ?_ fun hx => ?_; unfold x; clear x; rotate_left; clear_value x)
         | clear_value x)
    | refine Kept.update ?_ rfl rfl rfl (Nat.le_refl _) (Nat.le_refl _)

theorem ptpPut_kept (d : Nat) (p : Nat) (v : PtpPort) {s : State} (h_ : Kept q_ j_ a_ s) :
    Kept q_ j_ a_ (ptpPut s d p v) := by
  unfold ptpPut
  repeat' first
    | with_reducible assumption
    | intro _
    | with_reducible apply Kept.ite
    | (extract_lets +onlyGivenNames x
       first
         | (refine Kept.cut x ?_ fun hx => ?_; unfold x; clear x; rotate_left; clear_value x)
         | clear_value x)
    | with_reducible apply servoPut_kept
    | split
    | refine Kept.update ?_ rfl rfl rfl (Nat.le_refl _) (Nat.le_refl _)

theorem stampDelayReq_kept (p : Nat) {s : State} (h_ : Kept q_ j_ a_ s) :
    Kept q_ j_ a_ (stampDelayReq p s) := by
  unfold stampDelayReq
  repeat' first
    | with_reducible assumption
    | intro _
    | with_reducible apply Kept.ite
    | (extract_lets +onlyGivenNames x
       first
         | (refine Kept.cut x ?_ fun hx => ?_; unfold x; clear x; rotate_left; clear_value x)
         | clear_value x)
    | with_reducible apply ptpPut_kept
    | with_reducible apply portPut_kept
    | split
    | refine Kept.update ?_ rfl rfl rfl (Nat.le_refl _) (Nat.le_refl _)

theorem execEgressSelect_kept (port : Nat) {s : State} (h_ : Kept q_ j_ a_ s) :
    KeptO q_ j_ a_ (execEgressSelect port s) := by
  unfold execEgressSelect
  repeat' first
    | with_reducible assumption
    | intro _
    | with_reducible apply Kept.ite
    | with_reducible apply Kept.next
    | with_reducible apply stampDelayReq_kept
    | with_reducible apply pickClass_kept
    | split

theorem execQueueSamplerVisit_kept (k : Nat) (queue : Nat) {s : State} (h_ : Kept q_ j_ a_ s) :
    KeptO q_ j_ a_ (execQueueSamplerVisit k queue s) := by
  unfold execQueueSamplerVisit
  repeat' first
    | with_reducible assumption
    | intro _
    | with_reducible apply Kept.ite
    | (extract_lets +onlyGivenNames x
       first
         | (refine Kept.cut x ?_ fun hx => ?_; unfold x; clear x; rotate_left; clear_value x)
         | clear_value x)
    | with_reducible apply Kept.next
    | with_reducible apply addRecord_kept
    | with_reducible apply wr_kept
    | split

theorem execTelemetryHoldExpiry_kept (queue : Nat) {s : State} (h_ : Kept q_ j_ a_ s) :
    KeptO q_ j_ a_ (execTelemetryHoldExpiry queue s) := by
  unfold execTelemetryHoldExpiry
  repeat' first
    | with_reducible assumption
    | intro _
    | with_reducible apply Kept.ite
    | with_reducible apply Kept.next
    | with_reducible apply closeFrame_kept

theorem polPut_kept (k : Nat) (c : Int) {s : State} (h_ : Kept q_ j_ a_ s) :
    Kept q_ j_ a_ (polPut s k c) := by
  unfold polPut
  repeat' first
    | with_reducible assumption
    | intro _
    | with_reducible apply Kept.ite
    | (extract_lets +onlyGivenNames x
       first
         | (refine Kept.cut x ?_ fun hx => ?_; unfold x; clear x; rotate_left; clear_value x)
         | clear_value x)
    | refine Kept.update ?_ rfl rfl rfl (Nat.le_refl _) (Nat.le_refl _)

theorem execPolicerRefill_kept (k : Nat) {s : State} (h_ : Kept q_ j_ a_ s) :
    KeptO q_ j_ a_ (execPolicerRefill k s) := by
  unfold execPolicerRefill
  repeat' first
    | with_reducible assumption
    | intro _
    | with_reducible apply Kept.ite
    | with_reducible apply Kept.next
    | with_reducible apply polPut_kept
    | split

theorem police_kept (k : Nat) (len : Nat) {s : State} (h_ : Kept q_ j_ a_ s) :
    Kept q_ j_ a_ (police k len s).2 := by
  unfold police
  repeat' first
    | with_reducible assumption
    | intro _
    | with_reducible apply Kept.ite
    | with_reducible apply Kept.ite1
    | with_reducible apply Kept.ite2
    | with_reducible apply polPut_kept
    | with_reducible apply bumpEgs_kept
    | with_reducible apply raise0_kept
    | split

end Sys2Proof.Machine
end

