-- ==== Sys2Proof/Laws/KeptJournal.lean ====
section
/-! SUPPORT. The journal and messages to sessions: every operation keeps the register space and the
drives canonical, the queue of waiting commands, and the sequence numbers (`Kept`). -/

set_option linter.tactic.unusedName false
set_option linter.unreachableTactic false
set_option linter.unusedTactic false

namespace Sys2Proof.Machine

variable {q_ : List Instr} {j_ a_ : Nat} {s : State}

theorem degOn_kept (t : Nat) {s : State} (h_ : Kept q_ j_ a_ s) :
    Kept q_ j_ a_ (degOn t s) := by
  unfold degOn
  repeat' first
    | with_reducible assumption
    | intro _
    | with_reducible apply Kept.ite
    | (extract_lets +onlyGivenNames x
       first
         | (refine Kept.cut x ?_ fun hx => ?_; unfold x; clear x; rotate_left; clear_value x)
         | clear_value x)
    | with_reducible apply wr_kept
    | split
    | refine Kept.update ?_ rfl rfl rfl (Nat.le_refl _) (Nat.le_refl _)

theorem degOff_kept (t : Nat) {s : State} (h_ : Kept q_ j_ a_ s) :
    Kept q_ j_ a_ (degOff t s) := by
  unfold degOff
  repeat' first
    | with_reducible assumption
    | intro _
    | with_reducible apply Kept.ite
    | (extract_lets +onlyGivenNames x
       first
         | (refine Kept.cut x ?_ fun hx => ?_; unfold x; clear x; rotate_left; clear_value x)
         | clear_value x)
    | with_reducible apply wr_kept
    | refine Kept.update ?_ rfl rfl rfl (Nat.le_refl _) (Nat.le_refl _)

theorem retireCopy_kept (c : Nat) {s : State} (h_ : Kept q_ j_ a_ s) :
    Kept q_ j_ a_ (retireCopy c s) := by
  unfold retireCopy
  repeat' first
    | with_reducible assumption
    | intro _
    | with_reducible apply Kept.ite
    | with_reducible apply degOn_kept
    | with_reducible apply raise_kept
    | with_reducible apply wr_kept

theorem setRepairs_kept (l : List (Nat × Nat)) {s : State} (h_ : Kept q_ j_ a_ s) :
    Kept q_ j_ a_ (setRepairs l s) := by
  unfold setRepairs
  repeat' first
    | with_reducible assumption
    | intro _
    | with_reducible apply Kept.ite
    | (extract_lets +onlyGivenNames x
       first
         | (refine Kept.cut x ?_ fun hx => ?_; unfold x; clear x; rotate_left; clear_value x)
         | clear_value x)
    | split
    | refine Kept.update ?_ rfl rfl rfl (Nat.le_refl _) (Nat.le_refl _)

theorem requeueRepairs_kept (extra : List SUnit) {s : State} (h_ : Kept q_ j_ a_ s) :
    Kept q_ j_ a_ (requeueRepairs extra s) := by
  unfold requeueRepairs
  repeat' first
    | with_reducible assumption
    | intro _
    | with_reducible apply Kept.ite
    | (extract_lets +onlyGivenNames x
       first
         | (refine Kept.cut x ?_ fun hx => ?_; unfold x; clear x; rotate_left; clear_value x)
         | clear_value x)
    | with_reducible apply setRepairs_kept
    | refine Kept.update ?_ rfl rfl rfl (Nat.le_refl _) (Nat.le_refl _)

theorem saveHist_kept  {s : State} (h_ : Kept q_ j_ a_ s) :
    Kept q_ j_ a_ (saveHist s) := by
  unfold saveHist
  repeat' first
    | with_reducible assumption
    | intro _
    | with_reducible apply Kept.ite
    | (extract_lets +onlyGivenNames x
       first
         | (refine Kept.cut x ?_ fun hx => ?_; unfold x; clear x; rotate_left; clear_value x)
         | (have _t : Jnl := x; clear _t; unfold x; clear x)
         | clear_value x)
    | split
    | refine Kept.update ?_ rfl rfl rfl (Nat.le_refl _) (Nat.le_refl _)
    | refine Kept.update ?_ rfl rfl rfl (Nat.le_succ _) (Nat.le_refl _)
    | refine Kept.update ?_ rfl rfl rfl (Nat.le_refl _) (Nat.le_succ _)

theorem writeEntry_kept (okA : Bool) (okB : Bool) (e : Entry) (h : Kept q_ j_ a_ s) :
    Kept q_ j_ a_ (writeEntry okA okB e s) := by
  unfold writeEntry
  extract_lets s0 s1 s2 s3 j e1 put hh jn s4 s5
  have h0 : Kept q_ j_ a_ s0 := Kept.ite h (saveHist_kept h)
  have h1 : Kept q_ j_ a_ s1 := Kept.ite (retireCopy_kept _ h0) h0
  have h2 : Kept q_ j_ a_ s2 := Kept.ite (retireCopy_kept _ h1) h1
  have h3 : Kept q_ j_ a_ s3 := Kept.foldl (fun _ _ hx => Kept.ite hx (crcHit_kept _ _ hx)) h2
  have h4 : Kept q_ j_ a_ s4 := ⟨h3.regs, h3.drives, h3.queue, Nat.le_succ_of_le h3.jseq, h3.aseq⟩
  have h5 : Kept q_ j_ a_ s5 := wr_kept _ _ _ (wr_kept _ _ _ h4)
  exact Kept.ite (Kept.ite (addRecord_kept _ _ _ h5) h5) h3


theorem carryOne_kept (okA : Bool) (okB : Bool) (e : Ev) {s : State} (h_ : Kept q_ j_ a_ s) :
    Kept q_ j_ a_ (carryOne okA okB e s) := by
  unfold carryOne
  repeat' first
    | with_reducible assumption
    | intro _
    | with_reducible apply Kept.ite
    | with_reducible apply Kept.ite1
    | with_reducible apply Kept.ite2
    | (extract_lets +onlyGivenNames x
       first
         | (refine Kept.cut x ?_ fun hx => ?_; unfold x; clear x; rotate_left; clear_value x)
         | clear_value x)
    | with_reducible apply writeEntry_kept
    | with_reducible apply Kept.foldl
    | with_reducible apply Kept.foldl1
    | with_reducible apply Kept.foldl2
    | split
    | refine Kept.update ?_ rfl rfl rfl (Nat.le_refl _) (Nat.le_refl _)

theorem checkpoint_kept (okA : Bool) (okB : Bool) {s : State} (h_ : Kept q_ j_ a_ s) :
    Kept q_ j_ a_ (checkpoint okA okB s) := by
  unfold checkpoint
  repeat' first
    | with_reducible assumption
    | intro _
    | with_reducible apply Kept.ite
    | with_reducible apply Kept.ite1
    | with_reducible apply Kept.ite2
    | (extract_lets +onlyGivenNames x
       first
         | (refine Kept.cut x ?_ fun hx => ?_; unfold x; clear x; rotate_left; clear_value x)
         | (have _t : Jnl := x; clear _t; unfold x; clear x)
         | clear_value x)
    | with_reducible apply carryOne_kept
    | with_reducible apply writeEntry_kept
    | with_reducible apply wr_kept
    | with_reducible apply Kept.foldl
    | with_reducible apply Kept.foldl1
    | with_reducible apply Kept.foldl2
    | refine Kept.update ?_ rfl rfl rfl (Nat.le_refl _) (Nat.le_refl _)
    | refine Kept.update ?_ rfl rfl rfl (Nat.le_succ _) (Nat.le_refl _)
    | refine Kept.update ?_ rfl rfl rfl (Nat.le_refl _) (Nat.le_succ _)

theorem dueCheckpoint_kept (okA : Bool) (okB : Bool) {s : State} (h_ : Kept q_ j_ a_ s) :
    Kept q_ j_ a_ (dueCheckpoint okA okB s) := by
  unfold dueCheckpoint
  repeat' first
    | with_reducible assumption
    | intro _
    | with_reducible apply Kept.ite
    | with_reducible apply checkpoint_kept
    | split

theorem appendEntry_kept (okA : Bool) (okB : Bool) (e : Entry) {s : State} (h_ : Kept q_ j_ a_ s) :
    Kept q_ j_ a_ (appendEntry okA okB e s) := by
  unfold appendEntry
  repeat' first
    | with_reducible assumption
    | intro _
    | with_reducible apply Kept.ite
    | with_reducible apply dueCheckpoint_kept
    | with_reducible apply writeEntry_kept

theorem commitEntries_kept (okA : Bool) (okB : Bool) (l : List Entry) {s : State} (h_ : Kept q_ j_ a_ s) :
    Kept q_ j_ a_ (commitEntries okA okB l s) := by
  unfold commitEntries
  repeat' first
    | with_reducible assumption
    | intro _
    | with_reducible apply Kept.ite
    | with_reducible apply Kept.ite1
    | with_reducible apply Kept.ite2
    | with_reducible apply appendEntry_kept
    | with_reducible apply Kept.foldl
    | with_reducible apply Kept.foldl1
    | with_reducible apply Kept.foldl2
    | split

theorem commitV_kept (okA : Bool) (okB : Bool) (kind : Nat) (aseq : Nat) (session : Nat) (type : Nat) (seq : Nat) (payload : List Nat) {s : State} (h_ : Kept q_ j_ a_ s) :
    Kept q_ j_ a_ (commitV okA okB kind aseq session type seq payload s) := by
  unfold commitV
  repeat' first
    | with_reducible assumption
    | intro _
    | with_reducible apply Kept.ite
    | with_reducible apply commitEntries_kept

theorem commit_kept (kind : Nat) (aseq : Nat) (session : Nat) (type : Nat) (seq : Nat) (payload : List Nat) {s : State} (h_ : Kept q_ j_ a_ s) :
    Kept q_ j_ a_ (commit kind aseq session type seq payload s) := by
  unfold commit
  repeat' first
    | with_reducible assumption
    | intro _
    | with_reducible apply Kept.ite
    | with_reducible apply commitV_kept

theorem sessPut_kept (k : Nat) (v : Sess) {s : State} (h_ : Kept q_ j_ a_ s) :
    Kept q_ j_ a_ (sessPut s k v) := by
  unfold sessPut
  repeat' first
    | with_reducible assumption
    | intro _
    | with_reducible apply Kept.ite
    | (extract_lets +onlyGivenNames x
       first
         | (refine Kept.cut x ?_ fun hx => ?_; unfold x; clear x; rotate_left; clear_value x)
         | clear_value x)
    | refine Kept.update ?_ rfl rfl rfl (Nat.le_refl _) (Nat.le_refl _)

theorem sendAnswer_kept (h : Hdr) (dup : Bool) (a : Ans) {s : State} (h_ : Kept q_ j_ a_ s) :
    Kept q_ j_ a_ (sendAnswer h dup a s) := by
  unfold sendAnswer
  repeat' first
    | with_reducible assumption
    | intro _
    | with_reducible apply Kept.ite
    | with_reducible apply enqueue_kept

theorem sendNote_kept (k : Nat) (kind : Nat) (params : List Nat) {s : State} (h_ : Kept q_ j_ a_ s) :
    Kept q_ j_ a_ (sendNote k kind params s) := by
  unfold sendNote
  repeat' first
    | with_reducible assumption
    | intro _
    | with_reducible apply Kept.ite
    | (extract_lets +onlyGivenNames x
       first
         | (refine Kept.cut x ?_ fun hx => ?_; unfold x; clear x; rotate_left; clear_value x)
         | clear_value x)
    | with_reducible apply sessPut_kept
    | with_reducible apply enqueue_kept
    | refine Kept.update ?_ rfl rfl rfl (Nat.le_refl _) (Nat.le_refl _)

theorem notifyTo_kept (k : Nat) (kind : Nat) (params : List Nat) {s : State} (h_ : Kept q_ j_ a_ s) :
    Kept q_ j_ a_ (notifyTo k kind params s) := by
  unfold notifyTo
  repeat' first
    | with_reducible assumption
    | intro _
    | with_reducible apply Kept.ite
    | (extract_lets +onlyGivenNames x
       first
         | (refine Kept.cut x ?_ fun hx => ?_; unfold x; clear x; rotate_left; clear_value x)
         | clear_value x)
    | with_reducible apply sendNote_kept
    | split
    | refine Kept.update ?_ rfl rfl rfl (Nat.le_refl _) (Nat.le_refl _)

theorem notifyAll_kept (kind : Nat) (params : List Nat) {s : State} (h_ : Kept q_ j_ a_ s) :
    Kept q_ j_ a_ (notifyAll kind params s) := by
  unfold notifyAll
  repeat' first
    | with_reducible assumption
    | intro _
    | with_reducible apply Kept.ite
    | with_reducible apply Kept.ite1
    | with_reducible apply Kept.ite2
    | with_reducible apply notifyTo_kept
    | with_reducible apply Kept.foldl
    | with_reducible apply Kept.foldl1
    | with_reducible apply Kept.foldl2
    | split

theorem sendBody_kept (dup : Bool) (k : Nat) (cseq : Nat) (body : List Nat) {s : State} (h_ : Kept q_ j_ a_ s) :
    Kept q_ j_ a_ (sendBody dup k cseq body s) := by
  unfold sendBody
  repeat' first
    | with_reducible assumption
    | intro _
    | with_reducible apply Kept.ite
    | (extract_lets +onlyGivenNames x
       first
         | (refine Kept.cut x ?_ fun hx => ?_; unfold x; clear x; rotate_left; clear_value x)
         | clear_value x)
    | with_reducible apply enqueue_kept

theorem sendCompletion_kept (dup : Bool) (c : Compl) {s : State} (h_ : Kept q_ j_ a_ s) :
    Kept q_ j_ a_ (sendCompletion dup c s) := by
  unfold sendCompletion
  repeat' first
    | with_reducible assumption
    | intro _
    | with_reducible apply Kept.ite
    | with_reducible apply sendBody_kept

theorem reportCompletion_kept (c : Compl) {s : State} (h_ : Kept q_ j_ a_ s) :
    Kept q_ j_ a_ (reportCompletion c s) := by
  unfold reportCompletion
  repeat' first
    | with_reducible assumption
    | intro _
    | with_reducible apply Kept.ite
    | with_reducible apply Kept.ite1
    | with_reducible apply Kept.ite2
    | (extract_lets +onlyGivenNames x
       first
         | (refine Kept.cut x ?_ fun hx => ?_; unfold x; clear x; rotate_left; clear_value x)
         | clear_value x)
    | with_reducible apply sendCompletion_kept
    | with_reducible apply notifyTo_kept
    | with_reducible apply sessPut_kept
    | with_reducible apply Kept.foldl
    | with_reducible apply Kept.foldl1
    | with_reducible apply Kept.foldl2
    | split
    | refine Kept.update ?_ rfl rfl rfl (Nat.le_refl _) (Nat.le_refl _)

end Sys2Proof.Machine
end

