-- ==== Sys2Proof/Laws/KeptEventOps.lean ====
section
/-! SUPPORT. Event records: every operation keeps the register space and the
drives canonical, the queue of waiting commands, and the sequence numbers (`Kept`). -/

set_option linter.tactic.unusedName false
set_option linter.unreachableTactic false
set_option linter.unusedTactic false

namespace Sys2Proof.Machine

variable {q_ : List Instr} {j_ a_ : Nat} {s : State}

theorem evStatus_kept (bit : Nat) {s : State} (h_ : Kept q_ j_ a_ s) :
    Kept q_ j_ a_ (evStatus bit s) := by
  unfold evStatus
  repeat' first
    | with_reducible assumption
    | intro _
    | with_reducible apply Kept.ite
    | with_reducible apply wrWord_kept

theorem evSet_kept (e : Ev) {s : State} (h_ : Kept q_ j_ a_ s) :
    Kept q_ j_ a_ (evSet e s) := by
  unfold evSet
  repeat' first
    | with_reducible assumption
    | intro _
    | with_reducible apply Kept.ite
    | (extract_lets +onlyGivenNames x
       first
         | (refine Kept.cut x ?_ fun hx => ?_; unfold x; clear x; rotate_left; clear_value x)
         | clear_value x)
    | split
    | refine Kept.update ?_ rfl rfl rfl (Nat.le_refl _) (Nat.le_refl _)

theorem evDrop_kept (aseq : Nat) {s : State} (h_ : Kept q_ j_ a_ s) :
    Kept q_ j_ a_ (evDrop aseq s) := by
  unfold evDrop
  repeat' first
    | with_reducible assumption
    | intro _
    | with_reducible apply Kept.ite
    | (extract_lets +onlyGivenNames x
       first
         | (refine Kept.cut x ?_ fun hx => ?_; unfold x; clear x; rotate_left; clear_value x)
         | clear_value x)
    | refine Kept.update ?_ rfl rfl rfl (Nat.le_refl _) (Nat.le_refl _)

theorem showPending_kept  {s : State} (h_ : Kept q_ j_ a_ s) :
    Kept q_ j_ a_ (showPending s) := by
  unfold showPending
  repeat' first
    | with_reducible assumption
    | intro _
    | with_reducible apply Kept.ite
    | (extract_lets +onlyGivenNames x
       first
         | (refine Kept.cut x ?_ fun hx => ?_; unfold x; clear x; rotate_left; clear_value x)
         | clear_value x)
    | with_reducible apply wr_kept
    | split

theorem showEv_kept (e : Ev) (reason : Nat) {s : State} (h_ : Kept q_ j_ a_ s) :
    Kept q_ j_ a_ (showEv e reason s) := by
  unfold showEv
  repeat' first
    | with_reducible assumption
    | intro _
    | with_reducible apply Kept.ite
    | (extract_lets +onlyGivenNames x
       first
         | (refine Kept.cut x ?_ fun hx => ?_; unfold x; clear x; rotate_left; clear_value x)
         | (refine Kept.cutF x ?_ fun hf1 => ?_; unfold x; clear x; rotate_left; clear_value x)
         | (refine Kept.cutF2 x ?_ fun hf2 => ?_; unfold x; clear x; rotate_left; clear_value x)
         | (refine Kept.cutF3 x ?_ fun hf3 => ?_; unfold x; clear x; rotate_left; clear_value x)
         | (refine Kept.cutF4 x ?_ fun hf4 => ?_; unfold x; clear x; rotate_left; clear_value x)
         | clear_value x)
    | with_reducible apply hf1
    | with_reducible apply hf2
    | with_reducible apply hf3
    | with_reducible apply hf4
    | with_reducible apply wr_kept

theorem allocTab_kept  {s : State} (h_ : Kept q_ j_ a_ s) :
    Kept q_ j_ a_ (allocTab s).2 := by
  unfold allocTab
  repeat' first
    | with_reducible assumption
    | intro _
    | with_reducible apply Kept.ite
    | with_reducible apply Kept.ite1
    | with_reducible apply Kept.ite2
    | (extract_lets +onlyGivenNames x
       first
         | (refine Kept.cut x ?_ fun hx => ?_; unfold x; clear x; rotate_left; clear_value x)
         | clear_value x)
    | split
    | refine Kept.update ?_ rfl rfl rfl (Nat.le_refl _) (Nat.le_refl _)

theorem evGoto_kept (e : Ev) {s : State} (h_ : Kept q_ j_ a_ s) :
    Kept q_ j_ a_ (evGoto e s) := by
  unfold evGoto
  repeat' first
    | with_reducible assumption
    | intro _
    | with_reducible apply Kept.ite
    | with_reducible apply showEv_kept
    | with_reducible apply evSet_kept
    | with_reducible apply commit_kept

theorem claimPorts_kept (l : List Nat) (v : Bool) {s : State} (h_ : Kept q_ j_ a_ s) :
    Kept q_ j_ a_ (claimPorts l v s) := by
  unfold claimPorts
  repeat' first
    | with_reducible assumption
    | intro _
    | with_reducible apply Kept.ite
    | with_reducible apply Kept.ite1
    | with_reducible apply Kept.ite2
    | with_reducible apply setMapBit_kept
    | with_reducible apply Kept.foldl
    | with_reducible apply Kept.foldl1
    | with_reducible apply Kept.foldl2

theorem releaseRule_kept (r : Nat) {s : State} (h_ : Kept q_ j_ a_ s) :
    Kept q_ j_ a_ (releaseRule r s) := by
  unfold releaseRule
  repeat' first
    | with_reducible assumption
    | intro _
    | with_reducible apply Kept.ite
    | (extract_lets +onlyGivenNames x
       first
         | (refine Kept.cut x ?_ fun hx => ?_; unfold x; clear x; rotate_left; clear_value x)
         | clear_value x)
    | with_reducible apply claimPorts_kept
    | with_reducible apply wr_kept
    | split

theorem releaseSched_kept (k : Nat) {s : State} (h_ : Kept q_ j_ a_ s) :
    Kept q_ j_ a_ (releaseSched k s) := by
  unfold releaseSched
  repeat' first
    | with_reducible assumption
    | intro _
    | with_reducible apply Kept.ite
    | (extract_lets +onlyGivenNames x
       first
         | (refine Kept.cut x ?_ fun hx => ?_; unfold x; clear x; rotate_left; clear_value x)
         | clear_value x)
    | with_reducible apply claimPorts_kept
    | split
    | refine Kept.update ?_ rfl rfl rfl (Nat.le_refl _) (Nat.le_refl _)

theorem stopSched_kept (k : Nat) (fault : Bool) {s : State} (h_ : Kept q_ j_ a_ s) :
    Kept q_ j_ a_ (stopSched k fault s) := by
  unfold stopSched
  repeat' first
    | with_reducible assumption
    | intro _
    | with_reducible apply Kept.ite
    | (extract_lets +onlyGivenNames x
       first
         | (refine Kept.cut x ?_ fun hx => ?_; unfold x; clear x; rotate_left; clear_value x)
         | clear_value x)
    | with_reducible apply releaseSched_kept
    | with_reducible apply commit_kept
    | with_reducible apply raise0_kept
    | with_reducible apply wr_kept
    | split

theorem showStep_kept (k : Nat) (i : Nat) {s : State} (h_ : Kept q_ j_ a_ s) :
    Kept q_ j_ a_ (showStep k i s) := by
  unfold showStep
  repeat' first
    | with_reducible assumption
    | intro _
    | with_reducible apply Kept.ite
    | (extract_lets +onlyGivenNames x
       first
         | (refine Kept.cut x ?_ fun hx => ?_; unfold x; clear x; rotate_left; clear_value x)
         | clear_value x)
    | with_reducible apply wr_kept

theorem planFinal_kept (e : Ev) (st : Nat) {s : State} (h_ : Kept q_ j_ a_ s) :
    Kept q_ j_ a_ (planFinal e st s) := by
  unfold planFinal
  repeat' first
    | with_reducible assumption
    | intro _
    | with_reducible apply Kept.ite
    | (extract_lets +onlyGivenNames x
       first
         | (refine Kept.cut x ?_ fun hx => ?_; unfold x; clear x; rotate_left; clear_value x)
         | clear_value x)
    | with_reducible apply showStep_kept
    | with_reducible apply stopSched_kept
    | with_reducible apply releaseSched_kept
    | split
    | refine Kept.update ?_ rfl rfl rfl (Nat.le_refl _) (Nat.le_refl _)

theorem discardWaves_kept (aseq : Nat) {s : State} (h_ : Kept q_ j_ a_ s) :
    Kept q_ j_ a_ (discardWaves aseq s) := by
  unfold discardWaves
  repeat' first
    | with_reducible assumption
    | intro _
    | with_reducible apply Kept.ite
    | (extract_lets +onlyGivenNames x
       first
         | (refine Kept.cut x ?_ fun hx => ?_; unfold x; clear x; rotate_left; clear_value x)
         | clear_value x)
    | refine Kept.update ?_ rfl rfl rfl (Nat.le_refl _) (Nat.le_refl _)

theorem resolveLater_kept (aseq : Nat) {s : State} (h_ : Kept q_ j_ a_ s) :
    Kept q_ j_ a_ (resolveLater aseq s) := by
  unfold resolveLater
  repeat' first
    | with_reducible assumption
    | intro _
    | with_reducible apply Kept.ite
    | with_reducible apply Kept.ite1
    | with_reducible apply Kept.ite2
    | (extract_lets +onlyGivenNames x
       first
         | (refine Kept.cut x ?_ fun hx => ?_; unfold x; clear x; rotate_left; clear_value x)
         | clear_value x)
    | with_reducible apply evGoto_kept
    | with_reducible apply Kept.foldl
    | with_reducible apply Kept.foldl1
    | with_reducible apply Kept.foldl2
    | split
    | refine Kept.update ?_ rfl rfl rfl (Nat.le_refl _) (Nat.le_refl _)

theorem commitFinal_kept (tab : Nat) (c : Compl) (part : List Nat) {s : State} (h_ : Kept q_ j_ a_ s) :
    Kept q_ j_ a_ (commitFinal tab c part s).2 := by
  unfold commitFinal
  repeat' first
    | with_reducible assumption
    | intro _
    | with_reducible apply Kept.ite
    | with_reducible apply Kept.ite1
    | with_reducible apply Kept.ite2
    | (extract_lets +onlyGivenNames x
       first
         | (refine Kept.cut x ?_ fun hx => ?_; unfold x; clear x; rotate_left; clear_value x)
         | clear_value x)
    | with_reducible apply commit_kept
    | with_reducible apply dueCheckpoint_kept
    | split
    | refine Kept.update ?_ rfl rfl rfl (Nat.le_refl _) (Nat.le_refl _)

theorem closeEv_kept (e : Ev) (reason : Nat) {s : State} (h_ : Kept q_ j_ a_ s) :
    Kept q_ j_ a_ (closeEv e reason s) := by
  unfold closeEv
  repeat' first
    | with_reducible assumption
    | intro _
    | with_reducible apply Kept.ite
    | (extract_lets +onlyGivenNames x
       first
         | (refine Kept.cut x ?_ fun hx => ?_; unfold x; clear x; rotate_left; clear_value x)
         | clear_value x)
    | with_reducible apply discardWaves_kept
    | with_reducible apply showEv_kept
    | with_reducible apply showPending_kept
    | with_reducible apply evDrop_kept
    | with_reducible apply evStatus_kept
    | split
    | refine Kept.update ?_ rfl rfl rfl (Nat.le_refl _) (Nat.le_refl _)

theorem oweFinal_kept (x : Nat × Compl × List Nat) {s : State} (h_ : Kept q_ j_ a_ s) :
    Kept q_ j_ a_ (oweFinal x s) := by
  unfold oweFinal
  repeat' first
    | with_reducible assumption
    | intro _
    | with_reducible apply Kept.ite
    | (extract_lets +onlyGivenNames x
       first
         | (refine Kept.cut x ?_ fun hx => ?_; unfold x; clear x; rotate_left; clear_value x)
         | (have _t : Jnl := x; clear _t; unfold x; clear x)
         | clear_value x)
    | refine Kept.update ?_ rfl rfl rfl (Nat.le_refl _) (Nat.le_refl _)
    | refine Kept.update ?_ rfl rfl rfl (Nat.le_succ _) (Nat.le_refl _)
    | refine Kept.update ?_ rfl rfl rfl (Nat.le_refl _) (Nat.le_succ _)

theorem finish_kept (e : Ev) (st : Nat) (reason : Nat) {s : State} (h_ : Kept q_ j_ a_ s) :
    Kept q_ j_ a_ (finish e st reason s) := by
  unfold finish
  repeat' first
    | with_reducible assumption
    | intro _
    | with_reducible apply Kept.ite
    | (extract_lets +onlyGivenNames x
       first
         | (refine Kept.cut x ?_ fun hx => ?_; unfold x; clear x; rotate_left; clear_value x)
         | (refine Kept.cut2 x ?_ fun hx => ?_; unfold x; clear x; rotate_left; clear_value x)
         | (refine Kept.cut1 x ?_ fun hx => ?_; unfold x; clear x; rotate_left; clear_value x)
         | clear_value x)
    | with_reducible apply oweFinal_kept
    | with_reducible apply closeEv_kept
    | with_reducible apply commitFinal_kept
    | with_reducible apply planFinal_kept
    | with_reducible apply reportCompletion_kept
    | with_reducible apply inc_kept
    | split
    | refine Kept.update ?_ rfl rfl rfl (Nat.le_refl _) (Nat.le_refl _)

theorem flushOwed_kept  {s : State} (h_ : Kept q_ j_ a_ s) :
    Kept q_ j_ a_ (flushOwed s) := by
  unfold flushOwed
  repeat' first
    | with_reducible assumption
    | intro _
    | with_reducible apply Kept.ite
    | with_reducible apply Kept.ite1
    | with_reducible apply Kept.ite2
    | (extract_lets +onlyGivenNames x
       first
         | (refine Kept.cut x ?_ fun hx => ?_; unfold x; clear x; rotate_left; clear_value x)
         | (refine Kept.cut2 x ?_ fun hx => ?_; unfold x; clear x; rotate_left; clear_value x)
         | (refine Kept.cut1 x ?_ fun hx => ?_; unfold x; clear x; rotate_left; clear_value x)
         | (have _t : Jnl := x; clear _t; unfold x; clear x)
         | clear_value x)
    | with_reducible apply commitFinal_kept
    | with_reducible apply reportCompletion_kept
    | with_reducible apply Kept.foldl
    | with_reducible apply Kept.foldl1
    | with_reducible apply Kept.foldl2
    | split
    | refine Kept.update ?_ rfl rfl rfl (Nat.le_refl _) (Nat.le_refl _)
    | refine Kept.update ?_ rfl rfl rfl (Nat.le_succ _) (Nat.le_refl _)
    | refine Kept.update ?_ rfl rfl rfl (Nat.le_refl _) (Nat.le_succ _)

theorem finalise_kept (e : Ev) (st : Nat) (reason : Nat) {s : State} (h_ : Kept q_ j_ a_ s) :
    Kept q_ j_ a_ (finalise e st reason s) := by
  unfold finalise
  repeat' first
    | with_reducible assumption
    | intro _
    | with_reducible apply Kept.ite
    | (extract_lets +onlyGivenNames x
       first
         | (refine Kept.cut x ?_ fun hx => ?_; unfold x; clear x; rotate_left; clear_value x)
         | clear_value x)
    | with_reducible apply finish_kept
    | with_reducible apply resolveLater_kept
    | split

theorem failWhere_kept (p : Ev → Bool) (reason : Nat) {s : State} (h_ : Kept q_ j_ a_ s) :
    Kept q_ j_ a_ (failWhere p reason s) := by
  unfold failWhere
  repeat' first
    | with_reducible assumption
    | intro _
    | with_reducible apply Kept.ite
    | with_reducible apply Kept.ite1
    | with_reducible apply Kept.ite2
    | (extract_lets +onlyGivenNames x
       first
         | (refine Kept.cut x ?_ fun hx => ?_; unfold x; clear x; rotate_left; clear_value x)
         | clear_value x)
    | with_reducible apply finish_kept
    | with_reducible apply resolveLater_kept
    | with_reducible apply Kept.foldl
    | with_reducible apply Kept.foldl1
    | with_reducible apply Kept.foldl2
    | split
    | refine Kept.update ?_ rfl rfl rfl (Nat.le_refl _) (Nat.le_refl _)

theorem displace_kept (ports : List Nat) {s : State} (h_ : Kept q_ j_ a_ s) :
    Kept q_ j_ a_ (displace ports s) := by
  unfold displace
  repeat' first
    | with_reducible assumption
    | intro _
    | with_reducible apply Kept.ite
    | (extract_lets +onlyGivenNames x
       first
         | (refine Kept.cut x ?_ fun hx => ?_; unfold x; clear x; rotate_left; clear_value x)
         | (refine Kept.cutF x ?_ fun hf1 => ?_; unfold x; clear x; rotate_left; clear_value x)
         | (refine Kept.cutF2 x ?_ fun hf2 => ?_; unfold x; clear x; rotate_left; clear_value x)
         | (refine Kept.cutF3 x ?_ fun hf3 => ?_; unfold x; clear x; rotate_left; clear_value x)
         | (refine Kept.cutF4 x ?_ fun hf4 => ?_; unfold x; clear x; rotate_left; clear_value x)
         | clear_value x)
    | with_reducible apply hf1
    | with_reducible apply hf2
    | with_reducible apply hf3
    | with_reducible apply hf4
    | with_reducible apply failWhere_kept
    | with_reducible apply raise0_kept
    | split

end Sys2Proof.Machine
end

