-- ==== Sys2Proof/Laws/KeptDrive.lean ====
section
/-! SUPPORT. Element drives: every operation keeps the register space and the
drives canonical, the queue of waiting commands, and the sequence numbers (`Kept`). -/

set_option linter.tactic.unusedName false
set_option linter.unreachableTactic false
set_option linter.unusedTactic false

namespace Sys2Proof.Machine

variable {q_ : List Instr} {j_ a_ : Nat} {s : State}

theorem bankPut_kept (k : Nat) (v : BankSt) {s : State} (h_ : Kept q_ j_ a_ s) :
    Kept q_ j_ a_ (bankPut s k v) := by
  unfold bankPut
  repeat' first
    | with_reducible assumption
    | intro _
    | with_reducible apply Kept.ite
    | (extract_lets +onlyGivenNames x
       first
         | (refine Kept.cut x ?_ fun hx => ?_; unfold x; clear x; rotate_left; clear_value x)
         | clear_value x)
    | refine Kept.update ?_ rfl rfl rfl (Nat.le_refl _) (Nat.le_refl _)

theorem drvPut_kept (e : Nat) (d : Drv) (h : Kept q_ j_ a_ s) : Kept q_ j_ a_ (drvPut s e d) := by
  unfold drvPut
  split
  · rename_i he
    have h1 := Kept.setDrv e d he h
    exact wrWord_kept _ _ (Kept.ite h1 (wrWord_kept _ _ h1))
  · exact h


theorem clearElem_kept (e : Nat) {s : State} (h_ : Kept q_ j_ a_ s) :
    Kept q_ j_ a_ (clearElem s e) := by
  unfold clearElem
  repeat' first
    | with_reducible assumption
    | intro _
    | with_reducible apply Kept.ite
    | with_reducible apply drvPut_kept

theorem clearBank_kept (k : Nat) {s : State} (h_ : Kept q_ j_ a_ s) :
    Kept q_ j_ a_ (clearBank k s) := by
  unfold clearBank
  repeat' first
    | with_reducible assumption
    | intro _
    | with_reducible apply Kept.ite
    | with_reducible apply Kept.ite1
    | with_reducible apply Kept.ite2
    | with_reducible apply clearElem_kept
    | with_reducible apply Kept.foldl
    | with_reducible apply Kept.foldl1
    | with_reducible apply Kept.foldl2

theorem tickElem_kept (e : Nat) {s : State} (h_ : Kept q_ j_ a_ s) :
    Kept q_ j_ a_ (tickElem s e) := by
  unfold tickElem
  repeat' first
    | with_reducible assumption
    | intro _
    | with_reducible apply Kept.ite
    | (extract_lets +onlyGivenNames x
       first
         | (refine Kept.cut x ?_ fun hx => ?_; unfold x; clear x; rotate_left; clear_value x)
         | clear_value x)
    | with_reducible apply drvPut_kept
    | with_reducible apply raise_kept
    | split

theorem execSlewTick_kept (bank : Nat) {s : State} (h_ : Kept q_ j_ a_ s) :
    KeptO q_ j_ a_ (execSlewTick bank s) := by
  unfold execSlewTick
  repeat' first
    | with_reducible assumption
    | intro _
    | with_reducible apply Kept.ite
    | with_reducible apply Kept.ite1
    | with_reducible apply Kept.ite2
    | with_reducible apply Kept.next
    | with_reducible apply tickElem_kept
    | with_reducible apply Kept.foldl
    | with_reducible apply Kept.foldl1
    | with_reducible apply Kept.foldl2
    | split

theorem driveCmd_kept (e : Nat) (u : Nat) (dh : Int) (tstate : Nat) {s : State} (h_ : Kept q_ j_ a_ s) :
    Kept q_ j_ a_ (driveCmd e u dh tstate s) := by
  unfold driveCmd
  repeat' first
    | with_reducible assumption
    | intro _
    | with_reducible apply Kept.ite
    | (extract_lets +onlyGivenNames x
       first
         | (refine Kept.cut x ?_ fun hx => ?_; unfold x; clear x; rotate_left; clear_value x)
         | clear_value x)
    | with_reducible apply drvPut_kept
    | split
    | refine Kept.update ?_ rfl rfl rfl (Nat.le_refl _) (Nat.le_refl _)

theorem kickStart_kept (m : EMove) {s : State} (h_ : Kept q_ j_ a_ s) :
    Kept q_ j_ a_ (kickStart m s).2 := by
  unfold kickStart
  repeat' first
    | with_reducible assumption
    | intro _
    | with_reducible apply Kept.ite
    | with_reducible apply Kept.ite1
    | with_reducible apply Kept.ite2
    | (extract_lets +onlyGivenNames x
       first
         | (refine Kept.cut x ?_ fun hx => ?_; unfold x; clear x; rotate_left; clear_value x)
         | (refine Kept.cut2 x ?_ fun hx => ?_; unfold x; clear x; rotate_left; clear_value x)
         | (refine Kept.cut1 x ?_ fun hx => ?_; unfold x; clear x; rotate_left; clear_value x)
         | clear_value x)
    | with_reducible apply drvPut_kept
    | with_reducible apply injParity_kept
    | with_reducible apply raise_kept
    | split

theorem execKickWaveformEnd_kept (elem : Nat) {s : State} (h_ : Kept q_ j_ a_ s) :
    KeptO q_ j_ a_ (execKickWaveformEnd elem s) := by
  unfold execKickWaveformEnd
  repeat' first
    | with_reducible assumption
    | intro _
    | with_reducible apply Kept.ite
    | (extract_lets +onlyGivenNames x
       first
         | (refine Kept.cut x ?_ fun hx => ?_; unfold x; clear x; rotate_left; clear_value x)
         | clear_value x)
    | with_reducible apply Kept.next
    | with_reducible apply drvPut_kept
    | with_reducible apply raise_kept
    | split
    | refine Kept.update ?_ rfl rfl rfl (Nat.le_refl _) (Nat.le_refl _)

theorem execRampStart_kept (elem : Nat) {s : State} (h_ : Kept q_ j_ a_ s) :
    KeptO q_ j_ a_ (execRampStart elem s) := by
  unfold execRampStart
  repeat' first
    | with_reducible assumption
    | intro _
    | with_reducible apply Kept.ite
    | (extract_lets +onlyGivenNames x
       first
         | (refine Kept.cut x ?_ fun hx => ?_; unfold x; clear x; rotate_left; clear_value x)
         | clear_value x)
    | with_reducible apply Kept.next
    | with_reducible apply drvPut_kept
    | split
    | refine Kept.update ?_ rfl rfl rfl (Nat.le_refl _) (Nat.le_refl _)

theorem execHandoverEnd_kept (elem : Nat) {s : State} (h_ : Kept q_ j_ a_ s) :
    KeptO q_ j_ a_ (execHandoverEnd elem s) := by
  unfold execHandoverEnd
  repeat' first
    | with_reducible assumption
    | intro _
    | with_reducible apply Kept.ite
    | (extract_lets +onlyGivenNames x
       first
         | (refine Kept.cut x ?_ fun hx => ?_; unfold x; clear x; rotate_left; clear_value x)
         | clear_value x)
    | with_reducible apply Kept.next
    | with_reducible apply drvPut_kept
    | split
    | refine Kept.update ?_ rfl rfl rfl (Nat.le_refl _) (Nat.le_refl _)

theorem execDriveFreeze_kept (elem : Nat) {s : State} (h_ : Kept q_ j_ a_ s) :
    KeptO q_ j_ a_ (execDriveFreeze elem s) := by
  unfold execDriveFreeze
  repeat' first
    | with_reducible assumption
    | intro _
    | with_reducible apply Kept.ite
    | (extract_lets +onlyGivenNames x
       first
         | (refine Kept.cut x ?_ fun hx => ?_; unfold x; clear x; rotate_left; clear_value x)
         | clear_value x)
    | with_reducible apply Kept.next
    | with_reducible apply drvPut_kept
    | split
    | refine Kept.update ?_ rfl rfl rfl (Nat.le_refl _) (Nat.le_refl _)

theorem clrSet_kept (bit : Nat) {s0 : State} (h_ : Kept q_ j_ a_ s0) :
    Kept q_ j_ a_ (clrSet bit s0) := by
  unfold clrSet
  repeat' first
    | with_reducible assumption
    | intro _
    | with_reducible apply Kept.ite
    | with_reducible apply Kept.ite1
    | with_reducible apply Kept.ite2
    | (extract_lets +onlyGivenNames x
       first
         | (refine Kept.cut x ?_ fun hx => ?_; unfold x; clear x; rotate_left; clear_value x)
         | clear_value x)
    | with_reducible apply clearBank_kept
    | with_reducible apply wrWord_kept
    | with_reducible apply Kept.foldl
    | with_reducible apply Kept.foldl1
    | with_reducible apply Kept.foldl2
    | split
    | refine Kept.update ?_ rfl rfl rfl (Nat.le_refl _) (Nat.le_refl _)

theorem clrRelease_kept (bit : Nat) {s0 : State} (h_ : Kept q_ j_ a_ s0) :
    Kept q_ j_ a_ (clrRelease bit s0) := by
  unfold clrRelease
  repeat' first
    | with_reducible assumption
    | intro _
    | with_reducible apply Kept.ite
    | with_reducible apply Kept.ite1
    | with_reducible apply Kept.ite2
    | (extract_lets +onlyGivenNames x
       first
         | (refine Kept.cut x ?_ fun hx => ?_; unfold x; clear x; rotate_left; clear_value x)
         | clear_value x)
    | with_reducible apply wrWord_kept
    | with_reducible apply Kept.foldl
    | with_reducible apply Kept.foldl1
    | with_reducible apply Kept.foldl2
    | split
    | refine Kept.update ?_ rfl rfl rfl (Nat.le_refl _) (Nat.le_refl _)

theorem execElemClrNAssert_kept  {s : State} (h_ : Kept q_ j_ a_ s) :
    KeptO q_ j_ a_ (execElemClrNAssert s) := by
  unfold execElemClrNAssert
  repeat' first
    | with_reducible assumption
    | intro _
    | with_reducible apply Kept.ite
    | with_reducible apply Kept.next
    | with_reducible apply clrSet_kept

theorem execElemClrNRelease_kept  {s : State} (h_ : Kept q_ j_ a_ s) :
    KeptO q_ j_ a_ (execElemClrNRelease s) := by
  unfold execElemClrNRelease
  repeat' first
    | with_reducible assumption
    | intro _
    | with_reducible apply Kept.ite
    | with_reducible apply Kept.next
    | with_reducible apply clrRelease_kept

theorem parkCold_kept (k : Nat) {s : State} (h_ : Kept q_ j_ a_ s) :
    Kept q_ j_ a_ (parkCold k s) := by
  unfold parkCold
  repeat' first
    | with_reducible assumption
    | intro _
    | with_reducible apply Kept.ite
    | with_reducible apply clearBank_kept
    | with_reducible apply wrWord_kept

theorem parkAll_kept  {s : State} (h_ : Kept q_ j_ a_ s) :
    Kept q_ j_ a_ (parkAll s) := by
  unfold parkAll
  repeat' first
    | with_reducible assumption
    | intro _
    | with_reducible apply Kept.ite
    | with_reducible apply Kept.ite1
    | with_reducible apply Kept.ite2
    | with_reducible apply parkCold_kept
    | with_reducible apply clrSet_kept
    | with_reducible apply Kept.foldl
    | with_reducible apply Kept.foldl1
    | with_reducible apply Kept.foldl2
    | split

theorem execBankSelfPark_kept  {s : State} (h_ : Kept q_ j_ a_ s) :
    KeptO q_ j_ a_ (execBankSelfPark s) := by
  unfold execBankSelfPark
  repeat' first
    | with_reducible assumption
    | intro _
    | with_reducible apply Kept.ite
    | with_reducible apply Kept.ite1
    | with_reducible apply Kept.ite2
    | (extract_lets +onlyGivenNames x
       first
         | (refine Kept.cut x ?_ fun hx => ?_; unfold x; clear x; rotate_left; clear_value x)
         | clear_value x)
    | with_reducible apply Kept.next
    | with_reducible apply parkCold_kept
    | with_reducible apply bankPut_kept
    | with_reducible apply Kept.foldl
    | with_reducible apply Kept.foldl1
    | with_reducible apply Kept.foldl2
    | split
    | refine Kept.update ?_ rfl rfl rfl (Nat.le_refl _) (Nat.le_refl _)

end Sys2Proof.Machine
end

