-- ==== Sys2Proof/Laws/KeptHooks.lean ====
section
/-! SUPPORT. What a change of a configuration field sets going: every operation keeps the register space and the
drives canonical, the queue of waiting commands, and the sequence numbers (`Kept`). -/

set_option linter.tactic.unusedName false
set_option linter.unreachableTactic false
set_option linter.unusedTactic false

namespace Sys2Proof.Machine

variable {q_ : List Instr} {j_ a_ : Nat} {s : State}

theorem noteUpdate_kept (c : Nat) (tick : Nat) {s : State} (h_ : Kept q_ j_ a_ s) :
    Kept q_ j_ a_ (noteUpdate c tick s) := by
  unfold noteUpdate
  repeat' first
    | with_reducible assumption
    | intro _
    | with_reducible apply Kept.ite
    | (extract_lets +onlyGivenNames x
       first
         | (refine Kept.cut x ?_ fun hx => ?_; unfold x; clear x; rotate_left; clear_value x)
         | (refine Kept.cut2 x ?_ fun hx => ?_; unfold x; clear x; rotate_left; clear_value x)
         | clear_value x)
    | with_reducible apply tick_kept
    | refine Kept.update ?_ rfl rfl rfl (Nat.le_refl _) (Nat.le_refl _)

theorem reshed_kept  {s : State} (h_ : Kept q_ j_ a_ s) :
    Kept q_ j_ a_ (reshed s) := by
  unfold reshed
  repeat' first
    | with_reducible assumption
    | intro _
    | with_reducible apply Kept.ite
    | (extract_lets +onlyGivenNames x
       first
         | (refine Kept.cut x ?_ fun hx => ?_; unfold x; clear x; rotate_left; clear_value x)
         | clear_value x)
    | with_reducible apply raise0_kept
    | split
    | refine Kept.update ?_ rfl rfl rfl (Nat.le_refl _) (Nat.le_refl _)

theorem lightPut_kept (k : Nat) (v : Nat) {s : State} (h_ : Kept q_ j_ a_ s) :
    Kept q_ j_ a_ (lightPut k v s) := by
  unfold lightPut
  repeat' first
    | with_reducible assumption
    | intro _
    | with_reducible apply Kept.ite
    | (extract_lets +onlyGivenNames x
       first
         | (refine Kept.cut x ?_ fun hx => ?_; unfold x; clear x; rotate_left; clear_value x)
         | clear_value x)
    | refine Kept.update ?_ rfl rfl rfl (Nat.le_refl _) (Nat.le_refl _)

theorem losRestart_kept (k : Nat) {s : State} (h_ : Kept q_ j_ a_ s) :
    Kept q_ j_ a_ (losRestart k s) := by
  unfold losRestart
  repeat' first
    | with_reducible assumption
    | intro _
    | with_reducible apply Kept.ite
    | with_reducible apply lightPut_kept

theorem setptPut_kept (k : Nat) (v : Nat × Nat × Option Nat) {s : State} (h_ : Kept q_ j_ a_ s) :
    Kept q_ j_ a_ (setptPut s k v) := by
  unfold setptPut
  repeat' first
    | with_reducible assumption
    | intro _
    | with_reducible apply Kept.ite
    | (extract_lets +onlyGivenNames x
       first
         | (refine Kept.cut x ?_ fun hx => ?_; unfold x; clear x; rotate_left; clear_value x)
         | clear_value x)
    | refine Kept.update ?_ rfl rfl rfl (Nat.le_refl _) (Nat.le_refl _)

theorem setptLos_kept (k : Nat) (v : Bool) {s : State} (h_ : Kept q_ j_ a_ s) :
    Kept q_ j_ a_ (setptLos k v s) := by
  unfold setptLos
  repeat' first
    | with_reducible assumption
    | intro _
    | with_reducible apply Kept.ite
    | with_reducible apply notifyAll_kept
    | with_reducible apply wr_kept
    | split

theorem setptShow_kept (k : Nat) {s : State} (h_ : Kept q_ j_ a_ s) :
    Kept q_ j_ a_ (setptShow k s) := by
  unfold setptShow
  repeat' first
    | with_reducible assumption
    | intro _
    | with_reducible apply Kept.ite
    | with_reducible apply wr_kept

theorem setptLatch_kept (k : Nat) {s : State} (h_ : Kept q_ j_ a_ s) :
    Kept q_ j_ a_ (setptLatch k s) := by
  unfold setptLatch
  repeat' first
    | with_reducible assumption
    | intro _
    | with_reducible apply Kept.ite
    | (extract_lets +onlyGivenNames x
       first
         | (refine Kept.cut x ?_ fun hx => ?_; unfold x; clear x; rotate_left; clear_value x)
         | clear_value x)
    | refine Kept.update ?_ rfl rfl rfl (Nat.le_refl _) (Nat.le_refl _)

theorem setptRestart_kept (newMode : Bool) (k : Nat) {s : State} (h_ : Kept q_ j_ a_ s) :
    Kept q_ j_ a_ (setptRestart newMode k s) := by
  unfold setptRestart
  repeat' first
    | with_reducible assumption
    | intro _
    | with_reducible apply Kept.ite
    | (extract_lets +onlyGivenNames x
       first
         | (refine Kept.cut x ?_ fun hx => ?_; unfold x; clear x; rotate_left; clear_value x)
         | (refine Kept.cut2 x ?_ fun hx => ?_; unfold x; clear x; rotate_left; clear_value x)
         | clear_value x)
    | with_reducible apply setptLatch_kept
    | with_reducible apply setptShow_kept
    | with_reducible apply setptLos_kept
    | with_reducible apply setptPut_kept
    | split

theorem setptTake_kept (k : Nat) (m : Option Nat) {s0 : State} (h_ : Kept q_ j_ a_ s0) :
    Kept q_ j_ a_ (setptTake k m s0) := by
  unfold setptTake
  repeat' first
    | with_reducible assumption
    | intro _
    | with_reducible apply Kept.ite
    | (extract_lets +onlyGivenNames x
       first
         | (refine Kept.cut x ?_ fun hx => ?_; unfold x; clear x; rotate_left; clear_value x)
         | (refine Kept.cut2 x ?_ fun hx => ?_; unfold x; clear x; rotate_left; clear_value x)
         | (refine Kept.cut1 x ?_ fun hx => ?_; unfold x; clear x; rotate_left; clear_value x)
         | clear_value x)
    | with_reducible apply setptLatch_kept
    | with_reducible apply setptShow_kept
    | with_reducible apply setptLos_kept
    | with_reducible apply setptPut_kept
    | with_reducible apply wr_kept
    | split
    | refine Kept.update ?_ rfl rfl rfl (Nat.le_refl _) (Nat.le_refl _)

theorem osrChange_kept (old : Nat) {s : State} (h_ : Kept q_ j_ a_ s) :
    Kept q_ j_ a_ (osrChange old s) := by
  unfold osrChange
  repeat' first
    | with_reducible assumption
    | intro _
    | with_reducible apply Kept.ite
    | with_reducible apply Kept.ite1
    | with_reducible apply Kept.ite2
    | (extract_lets +onlyGivenNames x
       first
         | (refine Kept.cut x ?_ fun hx => ?_; unfold x; clear x; rotate_left; clear_value x)
         | clear_value x)
    | with_reducible apply Kept.foldl
    | with_reducible apply Kept.foldl1
    | with_reducible apply Kept.foldl2
    | split
    | refine Kept.update ?_ rfl rfl rfl (Nat.le_refl _) (Nat.le_refl _)

theorem fieldHook_kept (a : Nat) (old : Nat) {s : State} (h_ : Kept q_ j_ a_ s) :
    Kept q_ j_ a_ (fieldHook a old s) := by
  unfold fieldHook
  repeat' first
    | with_reducible assumption
    | intro _
    | with_reducible apply Kept.ite
    | (extract_lets +onlyGivenNames x
       first
         | (refine Kept.cut x ?_ fun hx => ?_; unfold x; clear x; rotate_left; clear_value x)
         | clear_value x)
    | with_reducible apply osrChange_kept
    | with_reducible apply setptRestart_kept
    | with_reducible apply setptShow_kept
    | with_reducible apply losRestart_kept
    | with_reducible apply reshed_kept
    | split

theorem fieldHooks_kept (s0 : State) (l : List Nat) {s : State} (h_ : Kept q_ j_ a_ s) :
    Kept q_ j_ a_ (fieldHooks s0 l s) := by
  unfold fieldHooks
  repeat' first
    | with_reducible assumption
    | intro _
    | with_reducible apply Kept.ite
    | with_reducible apply Kept.ite1
    | with_reducible apply Kept.ite2
    | with_reducible apply fieldHook_kept
    | with_reducible apply Kept.foldl
    | with_reducible apply Kept.foldl1
    | with_reducible apply Kept.foldl2
    | split

end Sys2Proof.Machine
end

