-- ==== Sys2Proof/Laws/KeptModeOps.lean ====
section
/-! SUPPORT. Modes and overlays: every operation keeps the register space and the
drives canonical, the queue of waiting commands, and the sequence numbers (`Kept`). -/

set_option linter.tactic.unusedName false
set_option linter.unreachableTactic false
set_option linter.unusedTactic false

namespace Sys2Proof.Machine

variable {q_ : List Instr} {j_ a_ : Nat} {s : State}

theorem putMasked_kept (a : Nat) (mask : Nat) (v : Nat) {s : State} (h_ : Kept q_ j_ a_ s) :
    Kept q_ j_ a_ (putMasked a mask v s) := by
  unfold putMasked
  repeat' first
    | with_reducible assumption
    | intro _
    | with_reducible apply Kept.ite
    | with_reducible apply Kept.ite1
    | with_reducible apply Kept.ite2
    | with_reducible apply mergeWord_kept
    | with_reducible apply Kept.foldl
    | with_reducible apply Kept.foldl1
    | with_reducible apply Kept.foldl2

theorem busyFor_kept (a : Nat) {s : State} (h_ : Kept q_ j_ a_ s) :
    Kept q_ j_ a_ (busyFor a s) := by
  unfold busyFor
  repeat' first
    | with_reducible assumption
    | intro _
    | with_reducible apply Kept.ite
    | (extract_lets +onlyGivenNames x
       first
         | (refine Kept.cut x ?_ fun hx => ?_; unfold x; clear x; rotate_left; clear_value x)
         | clear_value x)
    | split
    | refine Kept.update ?_ rfl rfl rfl (Nat.le_refl _) (Nat.le_refl _)

theorem settleP_kept (k : Nat) {s : State} (h_ : Kept q_ j_ a_ s) :
    Kept q_ j_ a_ (settleP k s) := by
  unfold settleP
  repeat' first
    | with_reducible assumption
    | intro _
    | with_reducible apply Kept.ite
    | (extract_lets +onlyGivenNames x
       first
         | (refine Kept.cut x ?_ fun hx => ?_; unfold x; clear x; rotate_left; clear_value x)
         | clear_value x)
    | with_reducible apply settle_kept
    | split
    | refine Kept.update ?_ rfl rfl rfl (Nat.le_refl _) (Nat.le_refl _)

theorem moveField_kept (f : Nat × Nat × Nat) {s : State} (h_ : Kept q_ j_ a_ s) :
    Kept q_ j_ a_ (moveField f s) := by
  unfold moveField
  repeat' first
    | with_reducible assumption
    | intro _
    | with_reducible apply Kept.ite
    | with_reducible apply busyFor_kept
    | with_reducible apply putMasked_kept
    | split

theorem overlayTo_kept (olds : List (Nat × Nat × Nat)) (named : List (Nat × Nat × Nat)) {s : State} (h_ : Kept q_ j_ a_ s) :
    Kept q_ j_ a_ (overlayTo olds named s) := by
  unfold overlayTo
  repeat' first
    | with_reducible assumption
    | intro _
    | with_reducible apply Kept.ite
    | with_reducible apply Kept.ite1
    | with_reducible apply Kept.ite2
    | (extract_lets +onlyGivenNames x
       first
         | (refine Kept.cut x ?_ fun hx => ?_; unfold x; clear x; rotate_left; clear_value x)
         | (refine Kept.cut2 x ?_ fun hx => ?_; unfold x; clear x; rotate_left; clear_value x)
         | (refine Kept.cut1 x ?_ fun hx => ?_; unfold x; clear x; rotate_left; clear_value x)
         | clear_value x)
    | with_reducible apply moveField_kept
    | with_reducible apply fieldHooks_kept
    | with_reducible apply settle_kept
    | with_reducible apply wr_kept
    | with_reducible apply Kept.foldl
    | with_reducible apply Kept.foldl1
    | with_reducible apply Kept.foldl2

theorem overlayMove_kept (a : Nat) (b : Nat) {s : State} (h_ : Kept q_ j_ a_ s) :
    Kept q_ j_ a_ (overlayMove a b s) := by
  unfold overlayMove
  repeat' first
    | with_reducible assumption
    | intro _
    | with_reducible apply Kept.ite
    | with_reducible apply overlayTo_kept

theorem keepAndResolve_kept  {s : State} (h_ : Kept q_ j_ a_ s) :
    Kept q_ j_ a_ (keepAndResolve s) := by
  unfold keepAndResolve
  repeat' first
    | with_reducible assumption
    | intro _
    | with_reducible apply Kept.ite
    | with_reducible apply Kept.ite1
    | with_reducible apply Kept.ite2
    | (extract_lets +onlyGivenNames x
       first
         | (refine Kept.cut x ?_ fun hx => ?_; unfold x; clear x; rotate_left; clear_value x)
         | clear_value x)
    | with_reducible apply evGoto_kept
    | with_reducible apply Kept.foldl
    | with_reducible apply Kept.foldl1
    | with_reducible apply Kept.foldl2
    | split
    | refine Kept.update ?_ rfl rfl rfl (Nat.le_refl _) (Nat.le_refl _)

theorem plansResume_kept  {s : State} (h_ : Kept q_ j_ a_ s) :
    Kept q_ j_ a_ (plansResume s) := by
  unfold plansResume
  repeat' first
    | with_reducible assumption
    | intro _
    | with_reducible apply Kept.ite
    | (extract_lets +onlyGivenNames x
       first
         | (refine Kept.cut x ?_ fun hx => ?_; unfold x; clear x; rotate_left; clear_value x)
         | clear_value x)
    | refine Kept.update ?_ rfl rfl rfl (Nat.le_refl _) (Nat.le_refl _)

theorem rulesFrom_kept (p : Nat → Bool) {s : State} (h_ : Kept q_ j_ a_ s) :
    Kept q_ j_ a_ (rulesFrom p s) := by
  unfold rulesFrom
  repeat' first
    | with_reducible assumption
    | intro _
    | with_reducible apply Kept.ite
    | with_reducible apply Kept.ite1
    | with_reducible apply Kept.ite2
    | (extract_lets +onlyGivenNames x
       first
         | (refine Kept.cut x ?_ fun hx => ?_; unfold x; clear x; rotate_left; clear_value x)
         | clear_value x)
    | with_reducible apply Kept.foldl
    | with_reducible apply Kept.foldl1
    | with_reducible apply Kept.foldl2
    | refine Kept.update ?_ rfl rfl rfl (Nat.le_refl _) (Nat.le_refl _)

theorem entryHits_kept (old : Nat) (m : Nat) {s : State} (h_ : Kept q_ j_ a_ s) :
    Kept q_ j_ a_ (entryHits old m s) := by
  unfold entryHits
  repeat' first
    | with_reducible assumption
    | intro _
    | with_reducible apply Kept.ite
    | (extract_lets +onlyGivenNames x
       first
         | (refine Kept.cut x ?_ fun hx => ?_; unfold x; clear x; rotate_left; clear_value x)
         | (refine Kept.cutF x ?_ fun hf1 => ?_; unfold x; clear x; rotate_left; clear_value x)
         | (refine Kept.cutF2 x ?_ fun hf2 => ?_; unfold x; clear x; rotate_left; clear_value x)
         | (refine Kept.cutF3 x ?_ fun hf3 => ?_; unfold x; clear x; rotate_left; clear_value x)
         | (refine Kept.cutF4 x ?_ fun hf4 => ?_; unfold x; clear x; rotate_left; clear_value x)
         | clear_value x)
    | with_reducible apply hf1
    | with_reducible apply hf2
    | with_reducible apply hf3
    | with_reducible apply hf4
    | with_reducible apply rulesFrom_kept
    | with_reducible apply plansResume_kept
    | split
    | refine Kept.update ?_ rfl rfl rfl (Nat.le_refl _) (Nat.le_refl _)

theorem chanPut_kept (c : Nat) (v : Chan) {s : State} (h_ : Kept q_ j_ a_ s) :
    Kept q_ j_ a_ (chanPut s c v) := by
  unfold chanPut
  repeat' first
    | with_reducible assumption
    | intro _
    | with_reducible apply Kept.ite
    | (extract_lets +onlyGivenNames x
       first
         | (refine Kept.cut x ?_ fun hx => ?_; unfold x; clear x; rotate_left; clear_value x)
         | clear_value x)
    | split
    | refine Kept.update ?_ rfl rfl rfl (Nat.le_refl _) (Nat.le_refl _)

theorem chanDark_kept (c : Nat) {s : State} (h_ : Kept q_ j_ a_ s) :
    Kept q_ j_ a_ (chanDark c s) := by
  unfold chanDark
  repeat' first
    | with_reducible assumption
    | intro _
    | with_reducible apply Kept.ite
    | (extract_lets +onlyGivenNames x
       first
         | (refine Kept.cut x ?_ fun hx => ?_; unfold x; clear x; rotate_left; clear_value x)
         | (refine Kept.cut2 x ?_ fun hx => ?_; unfold x; clear x; rotate_left; clear_value x)
         | (refine Kept.cut1 x ?_ fun hx => ?_; unfold x; clear x; rotate_left; clear_value x)
         | clear_value x)
    | with_reducible apply chanPut_kept
    | refine Kept.update ?_ rfl rfl rfl (Nat.le_refl _) (Nat.le_refl _)

theorem enterDark_kept  {s : State} (h_ : Kept q_ j_ a_ s) :
    Kept q_ j_ a_ (enterDark s) := by
  unfold enterDark
  repeat' first
    | with_reducible assumption
    | intro _
    | with_reducible apply Kept.ite
    | (extract_lets +onlyGivenNames x
       first
         | (refine Kept.cut x ?_ fun hx => ?_; unfold x; clear x; rotate_left; clear_value x)
         | clear_value x)
    | with_reducible apply chanDark_kept
    | with_reducible apply parkAll_kept
    | with_reducible apply wr_kept
    | refine Kept.update ?_ rfl rfl rfl (Nat.le_refl _) (Nat.le_refl _)

theorem treesIdle_kept  {s : State} (h_ : Kept q_ j_ a_ s) :
    Kept q_ j_ a_ (treesIdle s) := by
  unfold treesIdle
  repeat' first
    | with_reducible assumption
    | intro _
    | with_reducible apply Kept.ite
    | (extract_lets +onlyGivenNames x
       first
         | (refine Kept.cut x ?_ fun hx => ?_; unfold x; clear x; rotate_left; clear_value x)
         | clear_value x)
    | refine Kept.update ?_ rfl rfl rfl (Nat.le_refl _) (Nat.le_refl _)

theorem abandonRun_kept  {s : State} (h_ : Kept q_ j_ a_ s) :
    Kept q_ j_ a_ (abandonRun s) := by
  unfold abandonRun
  repeat' first
    | with_reducible assumption
    | intro _
    | with_reducible apply Kept.ite
    | (extract_lets +onlyGivenNames x
       first
         | (refine Kept.cut x ?_ fun hx => ?_; unfold x; clear x; rotate_left; clear_value x)
         | clear_value x)
    | with_reducible apply treesIdle_kept
    | with_reducible apply wr_kept
    | split
    | refine Kept.update ?_ rfl rfl rfl (Nat.le_refl _) (Nat.le_refl _)

theorem recordEntry_kept (new : Nat) {s : State} (h_ : Kept q_ j_ a_ s) :
    Kept q_ j_ a_ (recordEntry new s) := by
  unfold recordEntry
  repeat' first
    | with_reducible assumption
    | intro _
    | with_reducible apply Kept.ite
    | (extract_lets +onlyGivenNames x
       first
         | (refine Kept.cut x ?_ fun hx => ?_; unfold x; clear x; rotate_left; clear_value x)
         | clear_value x)
    | split
    | refine Kept.update ?_ rfl rfl rfl (Nat.le_refl _) (Nat.le_refl _)

theorem entryActions_kept (old : Nat) (new : Nat) {s : State} (h_ : Kept q_ j_ a_ s) :
    Kept q_ j_ a_ (entryActions old new s) := by
  unfold entryActions
  repeat' first
    | with_reducible assumption
    | intro _
    | with_reducible apply Kept.ite
    | with_reducible apply Kept.ite1
    | with_reducible apply Kept.ite2
    | (extract_lets +onlyGivenNames x
       first
         | (refine Kept.cut x ?_ fun hx => ?_; unfold x; clear x; rotate_left; clear_value x)
         | clear_value x)
    | with_reducible apply recordEntry_kept
    | with_reducible apply abandonRun_kept
    | with_reducible apply treesIdle_kept
    | with_reducible apply enterDark_kept
    | with_reducible apply keepAndResolve_kept
    | with_reducible apply failWhere_kept
    | with_reducible apply stopSched_kept
    | with_reducible apply Kept.foldl
    | with_reducible apply Kept.foldl1
    | with_reducible apply Kept.foldl2
    | split

theorem enterMode_kept (new : Nat) (cause : Nat) {s : State} (h_ : Kept q_ j_ a_ s) :
    Kept q_ j_ a_ (enterMode new cause s) := by
  unfold enterMode
  repeat' first
    | with_reducible assumption
    | intro _
    | with_reducible apply Kept.ite
    | (extract_lets +onlyGivenNames x
       first
         | (refine Kept.cut x ?_ fun hx => ?_; unfold x; clear x; rotate_left; clear_value x)
         | clear_value x)
    | with_reducible apply entryActions_kept
    | with_reducible apply entryHits_kept
    | with_reducible apply overlayMove_kept
    | with_reducible apply notifyAll_kept
    | with_reducible apply commit_kept
    | with_reducible apply wr_kept

theorem setSlot_kept (b : Bool) (st : Nat) {s0 : State} (h_ : Kept q_ j_ a_ s0) :
    Kept q_ j_ a_ (setSlot b st s0) := by
  unfold setSlot
  repeat' first
    | with_reducible assumption
    | intro _
    | with_reducible apply Kept.ite
    | (extract_lets +onlyGivenNames x
       first
         | (refine Kept.cut x ?_ fun hx => ?_; unfold x; clear x; rotate_left; clear_value x)
         | clear_value x)
    | with_reducible apply crcHit_kept
    | with_reducible apply wr_kept
    | split
    | refine Kept.update ?_ rfl rfl rfl (Nat.le_refl _) (Nat.le_refl _)

theorem setTrial_kept (n : Nat) {s : State} (h_ : Kept q_ j_ a_ s) :
    Kept q_ j_ a_ (setTrial n s) := by
  unfold setTrial
  repeat' first
    | with_reducible assumption
    | intro _
    | with_reducible apply Kept.ite
    | (extract_lets +onlyGivenNames x
       first
         | (refine Kept.cut x ?_ fun hx => ?_; unfold x; clear x; rotate_left; clear_value x)
         | clear_value x)
    | refine Kept.update ?_ rfl rfl rfl (Nat.le_refl _) (Nat.le_refl _)

theorem abandonUpdate_kept  {s : State} (h_ : Kept q_ j_ a_ s) :
    Kept q_ j_ a_ (abandonUpdate s) := by
  unfold abandonUpdate
  repeat' first
    | with_reducible assumption
    | intro _
    | with_reducible apply Kept.ite
    | with_reducible apply setSlot_kept
    | with_reducible apply wr_kept
    | split

theorem modeTickBy_kept (c : Nat) (stop : Nat) {s : State} (h_ : Kept q_ j_ a_ s) :
    Kept q_ j_ a_ (modeTickBy c stop s) := by
  unfold modeTickBy
  repeat' first
    | with_reducible assumption
    | intro _
    | with_reducible apply Kept.ite
    | (extract_lets +onlyGivenNames x
       first
         | (refine Kept.cut x ?_ fun hx => ?_; unfold x; clear x; rotate_left; clear_value x)
         | clear_value x)
    | with_reducible apply abandonUpdate_kept
    | with_reducible apply enterMode_kept
    | split

theorem modeTick_kept  {s : State} (h_ : Kept q_ j_ a_ s) :
    Kept q_ j_ a_ (modeTick s) := by
  unfold modeTick
  repeat' first
    | with_reducible assumption
    | intro _
    | with_reducible apply Kept.ite
    | with_reducible apply modeTickBy_kept

theorem consume_kept (h : Hdr) (r : Req) (a : Ans) {s : State} (h_ : Kept q_ j_ a_ s) :
    Kept q_ j_ a_ (consume h r a s) := by
  unfold consume
  repeat' first
    | with_reducible assumption
    | intro _
    | with_reducible apply Kept.ite
    | (extract_lets +onlyGivenNames x
       first
         | (refine Kept.cut x ?_ fun hx => ?_; unfold x; clear x; rotate_left; clear_value x)
         | clear_value x)
    | with_reducible apply sessPut_kept
    | with_reducible apply wr_kept
    | refine Kept.update ?_ rfl rfl rfl (Nat.le_refl _) (Nat.le_refl _)

theorem answerCopies_kept (h : Hdr) (a : Ans) {s : State} (h_ : Kept q_ j_ a_ s) :
    Kept q_ j_ a_ (answerCopies h a s) := by
  unfold answerCopies
  repeat' first
    | with_reducible assumption
    | intro _
    | with_reducible apply Kept.ite
    | with_reducible apply Kept.ite1
    | with_reducible apply Kept.ite2
    | (extract_lets +onlyGivenNames x
       first
         | (refine Kept.cut x ?_ fun hx => ?_; unfold x; clear x; rotate_left; clear_value x)
         | (refine Kept.cut2 x ?_ fun hx => ?_; unfold x; clear x; rotate_left; clear_value x)
         | (refine Kept.cut1 x ?_ fun hx => ?_; unfold x; clear x; rotate_left; clear_value x)
         | clear_value x)
    | with_reducible apply sendAnswer_kept
    | with_reducible apply sessPut_kept
    | with_reducible apply incS_kept
    | with_reducible apply Kept.foldl
    | with_reducible apply Kept.foldl1
    | with_reducible apply Kept.foldl2
    | refine Kept.update ?_ rfl rfl rfl (Nat.le_refl _) (Nat.le_refl _)

theorem answerLate_kept (h : Hdr) (a : Ans) {s : State} (h_ : Kept q_ j_ a_ s) :
    Kept q_ j_ a_ (answerLate h a s) := by
  unfold answerLate
  repeat' first
    | with_reducible assumption
    | intro _
    | with_reducible apply Kept.ite
    | with_reducible apply answerCopies_kept
    | with_reducible apply consume_kept
    | with_reducible apply sendAnswer_kept
    | split
    | refine Kept.update ?_ rfl rfl rfl (Nat.le_refl _) (Nat.le_refl _)

theorem startRun_kept (cause : Nat) {s : State} (h_ : Kept q_ j_ a_ s) :
    Kept q_ j_ a_ (startRun cause s) := by
  unfold startRun
  repeat' first
    | with_reducible assumption
    | intro _
    | with_reducible apply Kept.ite
    | (extract_lets +onlyGivenNames x
       first
         | (refine Kept.cut x ?_ fun hx => ?_; unfold x; clear x; rotate_left; clear_value x)
         | clear_value x)
    | with_reducible apply enterMode_kept
    | with_reducible apply treesIdle_kept
    | with_reducible apply wr_kept
    | refine Kept.update ?_ rfl rfl rfl (Nat.le_refl _) (Nat.le_refl _)

theorem finishLeave_kept (h : Hdr) {s : State} (h_ : Kept q_ j_ a_ s) :
    Kept q_ j_ a_ (finishLeave h s) := by
  unfold finishLeave
  repeat' first
    | with_reducible assumption
    | intro _
    | with_reducible apply Kept.ite
    | (extract_lets +onlyGivenNames x
       first
         | (refine Kept.cut x ?_ fun hx => ?_; unfold x; clear x; rotate_left; clear_value x)
         | clear_value x)
    | with_reducible apply answerLate_kept
    | with_reducible apply enterMode_kept
    | with_reducible apply wr_kept
    | split
    | refine Kept.update ?_ rfl rfl rfl (Nat.le_refl _) (Nat.le_refl _)

theorem leaveNow_kept  {s : State} (h_ : Kept q_ j_ a_ s) :
    Kept q_ j_ a_ (leaveNow s) := by
  unfold leaveNow
  repeat' first
    | with_reducible assumption
    | intro _
    | with_reducible apply Kept.ite
    | (extract_lets +onlyGivenNames x
       first
         | (refine Kept.cut x ?_ fun hx => ?_; unfold x; clear x; rotate_left; clear_value x)
         | clear_value x)
    | with_reducible apply finishLeave_kept
    | with_reducible apply startRun_kept
    | with_reducible apply answerLate_kept
    | split
    | refine Kept.update ?_ rfl rfl rfl (Nat.le_refl _) (Nat.le_refl _)

end Sys2Proof.Machine
end

