-- ==== Sys2Proof/Laws/KeptDomain.lean ====
section
/-! SUPPORT. Timing domains: every operation keeps the register space and the
drives canonical, the queue of waiting commands, and the sequence numbers (`Kept`). -/

set_option linter.tactic.unusedName false
set_option linter.unreachableTactic false
set_option linter.unusedTactic false

namespace Sys2Proof.Machine

variable {q_ : List Instr} {j_ a_ : Nat} {s : State}

theorem cntPut_kept (d : Nat) (c : Nat) {s : State} (h_ : Kept q_ j_ a_ s) :
    Kept q_ j_ a_ (cntPut d c s) := by
  unfold cntPut
  repeat' first
    | with_reducible assumption
    | intro _
    | with_reducible apply Kept.ite
    | (extract_lets +onlyGivenNames x
       first
         | (refine Kept.cut x ?_ fun hx => ?_; unfold x; clear x; rotate_left; clear_value x)
         | clear_value x)
    | refine Kept.update ?_ rfl rfl rfl (Nat.le_refl _) (Nat.le_refl _)

theorem phasePut_kept (d : Nat) (p : Int) {s : State} (h_ : Kept q_ j_ a_ s) :
    Kept q_ j_ a_ (phasePut d p s) := by
  unfold phasePut
  repeat' first
    | with_reducible assumption
    | intro _
    | with_reducible apply Kept.ite
    | (extract_lets +onlyGivenNames x
       first
         | (refine Kept.cut x ?_ fun hx => ?_; unfold x; clear x; rotate_left; clear_value x)
         | clear_value x)
    | with_reducible apply wrS_kept
    | refine Kept.update ?_ rfl rfl rfl (Nat.le_refl _) (Nat.le_refl _)

theorem tickDomain_kept (d : Nat) {s : State} (h_ : Kept q_ j_ a_ s) :
    Kept q_ j_ a_ (tickDomain s d) := by
  unfold tickDomain
  repeat' first
    | with_reducible assumption
    | intro _
    | with_reducible apply Kept.ite
    | (extract_lets +onlyGivenNames x
       first
         | (refine Kept.cut x ?_ fun hx => ?_; unfold x; clear x; rotate_left; clear_value x)
         | clear_value x)
    | with_reducible apply phasePut_kept
    | with_reducible apply cntPut_kept
    | split

theorem tick_kept  {s : State} (h_ : Kept q_ j_ a_ s) :
    Kept q_ j_ a_ (tick s) := by
  unfold tick
  repeat' first
    | with_reducible assumption
    | intro _
    | with_reducible apply Kept.ite
    | with_reducible apply Kept.ite1
    | with_reducible apply Kept.ite2
    | (extract_lets +onlyGivenNames x
       first
         | (refine Kept.cut x ?_ fun hx => ?_; unfold x; clear x; rotate_left; clear_value x)
         | clear_value x)
    | with_reducible apply tickDomain_kept
    | with_reducible apply Kept.foldl
    | with_reducible apply Kept.foldl1
    | with_reducible apply Kept.foldl2
    | refine Kept.update ?_ rfl rfl rfl (Nat.le_refl _) (Nat.le_refl _)

theorem rcRestart_kept (p : Nat → Bool) {s : State} (h_ : Kept q_ j_ a_ s) :
    Kept q_ j_ a_ (rcRestart p s) := by
  unfold rcRestart
  repeat' first
    | with_reducible assumption
    | intro _
    | with_reducible apply Kept.ite
    | with_reducible apply Kept.ite1
    | with_reducible apply Kept.ite2
    | (extract_lets +onlyGivenNames x
       first
         | (refine Kept.cut x ?_ fun hx => ?_; unfold x; clear x; rotate_left; clear_value x)
         | clear_value x)
    | with_reducible apply Kept.foldl
    | with_reducible apply Kept.foldl1
    | with_reducible apply Kept.foldl2
    | split
    | refine Kept.update ?_ rfl rfl rfl (Nat.le_refl _) (Nat.le_refl _)

theorem ppsSquelch_kept  {s : State} (h_ : Kept q_ j_ a_ s) :
    Kept q_ j_ a_ (ppsSquelch s) := by
  unfold ppsSquelch
  repeat' first
    | with_reducible assumption
    | intro _
    | with_reducible apply Kept.ite
    | (extract_lets +onlyGivenNames x
       first
         | (refine Kept.cut x ?_ fun hx => ?_; unfold x; clear x; rotate_left; clear_value x)
         | clear_value x)
    | split
    | refine Kept.update ?_ rfl rfl rfl (Nat.le_refl _) (Nat.le_refl _)

theorem domShow_kept (d : Nat) (st : Nat) {s : State} (h_ : Kept q_ j_ a_ s) :
    Kept q_ j_ a_ (domShow d st s) := by
  unfold domShow
  repeat' first
    | with_reducible assumption
    | intro _
    | with_reducible apply Kept.ite
    | (extract_lets +onlyGivenNames x
       first
         | (refine Kept.cut x ?_ fun hx => ?_; unfold x; clear x; rotate_left; clear_value x)
         | clear_value x)
    | with_reducible apply ppsSquelch_kept
    | with_reducible apply notifyAll_kept
    | with_reducible apply commit_kept
    | with_reducible apply servoPut_kept
    | with_reducible apply gatesFall_kept
    | with_reducible apply raise0_kept
    | with_reducible apply wr_kept
    | split
    | refine Kept.update ?_ rfl rfl rfl (Nat.le_refl _) (Nat.le_refl _)

theorem domFound_kept (d : Nat) {s : State} (h_ : Kept q_ j_ a_ s) :
    Kept q_ j_ a_ (domFound d s) := by
  unfold domFound
  repeat' first
    | with_reducible assumption
    | intro _
    | with_reducible apply Kept.ite
    | (extract_lets +onlyGivenNames x
       first
         | (refine Kept.cut x ?_ fun hx => ?_; unfold x; clear x; rotate_left; clear_value x)
         | clear_value x)
    | with_reducible apply rcRestart_kept
    | with_reducible apply rulesFrom_kept
    | split

theorem domLost_kept (d : Nat) {s : State} (h_ : Kept q_ j_ a_ s) :
    Kept q_ j_ a_ (domLost d s) := by
  unfold domLost
  repeat' first
    | with_reducible assumption
    | intro _
    | with_reducible apply Kept.ite
    | with_reducible apply Kept.ite1
    | with_reducible apply Kept.ite2
    | (extract_lets +onlyGivenNames x
       first
         | (refine Kept.cut x ?_ fun hx => ?_; unfold x; clear x; rotate_left; clear_value x)
         | (refine Kept.cutF x ?_ fun hf1 => ?_; unfold x; clear x; rotate_left; clear_value x)
         | (refine Kept.cutF2 x ?_ fun hf2 => ?_; unfold x; clear x; rotate_left; clear_value x)
         | (refine Kept.cutF3 x ?_ fun hf3 => ?_; unfold x; clear x; rotate_left; clear_value x)
         | (refine Kept.cutF4 x ?_ fun hf4 => ?_; unfold x; clear x; rotate_left; clear_value x)
         | clear_value x)
    | with_reducible apply hf1
    | with_reducible apply hf2
    | with_reducible apply hf3
    | with_reducible apply hf4
    | with_reducible apply failWhere_kept
    | with_reducible apply stopSched_kept
    | with_reducible apply Kept.foldl
    | with_reducible apply Kept.foldl1
    | with_reducible apply Kept.foldl2
    | split

theorem domSet_kept (d : Nat) (st : Nat) {s : State} (h_ : Kept q_ j_ a_ s) :
    Kept q_ j_ a_ (domSet d st s) := by
  unfold domSet
  repeat' first
    | with_reducible assumption
    | intro _
    | with_reducible apply Kept.ite
    | (extract_lets +onlyGivenNames x
       first
         | (refine Kept.cut x ?_ fun hx => ?_; unfold x; clear x; rotate_left; clear_value x)
         | clear_value x)
    | with_reducible apply domLost_kept
    | with_reducible apply domFound_kept
    | with_reducible apply domShow_kept
    | split

theorem enableDomains_kept  {s : State} (h_ : Kept q_ j_ a_ s) :
    Kept q_ j_ a_ (enableDomains s) := by
  unfold enableDomains
  repeat' first
    | with_reducible assumption
    | intro _
    | with_reducible apply Kept.ite
    | with_reducible apply Kept.ite1
    | with_reducible apply Kept.ite2
    | with_reducible apply domSet_kept
    | with_reducible apply Kept.foldl
    | with_reducible apply Kept.foldl1
    | with_reducible apply Kept.foldl2
    | split

theorem execDomainFadjWrite_kept (dom : Nat) (value : Int) {s : State} (h_ : Kept q_ j_ a_ s) :
    KeptO q_ j_ a_ (execDomainFadjWrite dom value s) := by
  unfold execDomainFadjWrite
  repeat' first
    | with_reducible assumption
    | intro _
    | with_reducible apply Kept.ite
    | with_reducible apply Kept.next
    | with_reducible apply wrS_kept
    | split

theorem execDomainPhadjWrite_kept (dom : Nat) (value : Int) {s : State} (h_ : Kept q_ j_ a_ s) :
    KeptO q_ j_ a_ (execDomainPhadjWrite dom value s) := by
  unfold execDomainPhadjWrite
  repeat' first
    | with_reducible assumption
    | intro _
    | with_reducible apply Kept.ite
    | with_reducible apply Kept.next
    | with_reducible apply phasePut_kept
    | split

theorem stepGo_kept (dom : Nat) {s : State} (h_ : Kept q_ j_ a_ s) :
    Kept q_ j_ a_ (stepGo dom s) := by
  unfold stepGo
  repeat' first
    | with_reducible assumption
    | intro _
    | with_reducible apply Kept.ite
    | with_reducible apply raise0_kept
    | with_reducible apply wr_kept
    | split

theorem execDomainStepGo_kept (dom : Nat) (sec : Nat) (ns : Nat) {s : State} (h_ : Kept q_ j_ a_ s) :
    KeptO q_ j_ a_ (execDomainStepGo dom sec ns s) := by
  unfold execDomainStepGo
  repeat' first
    | with_reducible assumption
    | intro _
    | with_reducible apply Kept.ite
    | with_reducible apply Kept.next
    | with_reducible apply stepGo_kept
    | with_reducible apply phasePut_kept
    | with_reducible apply wr_kept
    | split

theorem execDomainStepApply_kept (dom : Nat) {s : State} (h_ : Kept q_ j_ a_ s) :
    KeptO q_ j_ a_ (execDomainStepApply dom s) := by
  unfold execDomainStepApply
  repeat' first
    | with_reducible assumption
    | intro _
    | with_reducible apply Kept.ite
    | (extract_lets +onlyGivenNames x
       first
         | (refine Kept.cut x ?_ fun hx => ?_; unfold x; clear x; rotate_left; clear_value x)
         | clear_value x)
    | with_reducible apply Kept.next
    | with_reducible apply rcRestart_kept
    | with_reducible apply cntPut_kept
    | with_reducible apply notifyAll_kept
    | with_reducible apply raise0_kept
    | with_reducible apply wr_kept
    | split

theorem execHoldoverExpiry_kept (dom : Nat) {s : State} (h_ : Kept q_ j_ a_ s) :
    KeptO q_ j_ a_ (execHoldoverExpiry dom s) := by
  unfold execHoldoverExpiry
  repeat' first
    | with_reducible assumption
    | intro _
    | with_reducible apply Kept.ite
    | with_reducible apply Kept.next
    | with_reducible apply domSet_kept
    | split

theorem noDomain_kept  {s : State} (h_ : Kept q_ j_ a_ s) :
    Kept q_ j_ a_ (noDomain s) := by
  unfold noDomain
  repeat' first
    | with_reducible assumption
    | intro _
    | with_reducible apply Kept.ite
    | with_reducible apply raise0_kept
    | with_reducible apply inc_kept

theorem takePtp_kept {port typ : Nat} {s : State} {r : PtpTag × Option Nat × State} (hr : takePtp port typ s = some r)
    (h : Kept q_ j_ a_ s) : Kept q_ j_ a_ r.2.2 := by
  unfold takePtp at hr
  repeat' split at hr
  all_goals first
    | (obtain rfl := Option.some.inj hr; exact takeRing_kept _ _ h)
    | exact absurd hr (by simp)


theorem withPtp_kept (port typ : Nat) (act : PtpTag → Nat → State → State) {s0 : State}
    (hact : ∀ (g : PtpTag) (d : Nat) {s : State}, Kept q_ j_ a_ s → Kept q_ j_ a_ (act g d s)) (h : Kept q_ j_ a_ s0) :
    Kept q_ j_ a_ (withPtp port typ act s0) := by
  unfold withPtp
  split
  · exact h
  · rename_i hr; exact noDomain_kept (takePtp_kept hr h)
  · rename_i hr
    have hk := takePtp_kept hr h
    split
    · exact hact _ _ hk
    · exact inc_kept _ _ hk


theorem ptpPair_kept (d : Nat) (port : Nat) (t1 : Int) (t2 : Int) (cs : Int) {s : State} (h_ : Kept q_ j_ a_ s) :
    Kept q_ j_ a_ (ptpPair d port t1 t2 cs s) := by
  unfold ptpPair
  repeat' first
    | with_reducible assumption
    | intro _
    | with_reducible apply Kept.ite
    | (extract_lets +onlyGivenNames x
       first
         | (refine Kept.cut x ?_ fun hx => ?_; unfold x; clear x; rotate_left; clear_value x)
         | clear_value x)
    | with_reducible apply servoPut_kept
    | split
    | refine Kept.update ?_ rfl rfl rfl (Nat.le_refl _) (Nat.le_refl _)

theorem execPtpSyncRx_kept (port : Nat) (seq : Nat) (logInterval : Int) (twoStep : Bool) (t1 : Int) (corr : Int) {s0 : State} (h_ : Kept q_ j_ a_ s0) :
    KeptO q_ j_ a_ (execPtpSyncRx port seq logInterval twoStep t1 corr s0) := by
  unfold execPtpSyncRx
  repeat' first
    | with_reducible assumption
    | intro _
    | with_reducible apply Kept.ite
    | (extract_lets +onlyGivenNames x
       first
         | (refine Kept.cut x ?_ fun hx => ?_; unfold x; clear x; rotate_left; clear_value x)
         | clear_value x)
    | with_reducible apply Kept.next
    | with_reducible apply ptpPair_kept
    | with_reducible apply withPtp_kept
    | with_reducible apply ptpPut_kept
    | with_reducible apply inc_kept
    | split
    | refine Kept.update ?_ rfl rfl rfl (Nat.le_refl _) (Nat.le_refl _)

theorem execPtpFollowUpRx_kept (port : Nat) (seq : Nat) (t1 : Int) (corr : Int) {s0 : State} (h_ : Kept q_ j_ a_ s0) :
    KeptO q_ j_ a_ (execPtpFollowUpRx port seq t1 corr s0) := by
  unfold execPtpFollowUpRx
  repeat' first
    | with_reducible assumption
    | intro _
    | with_reducible apply Kept.ite
    | (extract_lets +onlyGivenNames x
       first
         | (refine Kept.cut x ?_ fun hx => ?_; unfold x; clear x; rotate_left; clear_value x)
         | clear_value x)
    | with_reducible apply Kept.next
    | with_reducible apply ptpPair_kept
    | with_reducible apply withPtp_kept
    | with_reducible apply ptpPut_kept
    | split
    | refine Kept.update ?_ rfl rfl rfl (Nat.le_refl _) (Nat.le_refl _)

theorem execPtpDelayRespRx_kept (port : Nat) (seq : Nat) (logInterval : Int) (t4 : Int) (corr : Int) {s0 : State} (h_ : Kept q_ j_ a_ s0) :
    KeptO q_ j_ a_ (execPtpDelayRespRx port seq logInterval t4 corr s0) := by
  unfold execPtpDelayRespRx
  repeat' first
    | with_reducible assumption
    | intro _
    | with_reducible apply Kept.ite
    | (extract_lets +onlyGivenNames x
       first
         | (refine Kept.cut x ?_ fun hx => ?_; unfold x; clear x; rotate_left; clear_value x)
         | clear_value x)
    | with_reducible apply Kept.next
    | with_reducible apply withPtp_kept
    | with_reducible apply ptpPut_kept
    | with_reducible apply inc_kept
    | split
    | refine Kept.update ?_ rfl rfl rfl (Nat.le_refl _) (Nat.le_refl _)

theorem selectTransmitter_kept (d : Nat) {s : State} (h_ : Kept q_ j_ a_ s) :
    Kept q_ j_ a_ (selectTransmitter d s) := by
  unfold selectTransmitter
  repeat' first
    | with_reducible assumption
    | intro _
    | with_reducible apply Kept.ite
    | (extract_lets +onlyGivenNames x
       first
         | (refine Kept.cut x ?_ fun hx => ?_; unfold x; clear x; rotate_left; clear_value x)
         | clear_value x)
    | with_reducible apply wr_kept
    | split

theorem classHold_kept (d : Nat) {s : State} (h_ : Kept q_ j_ a_ s) :
    Kept q_ j_ a_ (classHold d s) := by
  unfold classHold
  repeat' first
    | with_reducible assumption
    | intro _
    | with_reducible apply Kept.ite
    | with_reducible apply domSet_kept
    | split

theorem execPtpAnnounceRx_kept (port : Nat) (cls : Nat) (vector : Nat) (qualified : Bool) {s0 : State} (h_ : Kept q_ j_ a_ s0) :
    KeptO q_ j_ a_ (execPtpAnnounceRx port cls vector qualified s0) := by
  unfold execPtpAnnounceRx
  repeat' first
    | with_reducible assumption
    | intro _
    | with_reducible apply Kept.ite
    | (extract_lets +onlyGivenNames x
       first
         | (refine Kept.cut x ?_ fun hx => ?_; unfold x; clear x; rotate_left; clear_value x)
         | clear_value x)
    | with_reducible apply Kept.next
    | with_reducible apply classHold_kept
    | with_reducible apply selectTransmitter_kept
    | with_reducible apply withPtp_kept
    | with_reducible apply ptpPut_kept
    | with_reducible apply inc_kept
    | refine Kept.update ?_ rfl rfl rfl (Nat.le_refl _) (Nat.le_refl _)

theorem annLost_kept (d : Nat) (port : Nat) {s : State} (h_ : Kept q_ j_ a_ s) :
    Kept q_ j_ a_ (annLost d port s) := by
  unfold annLost
  repeat' first
    | with_reducible assumption
    | intro _
    | with_reducible apply Kept.ite
    | (extract_lets +onlyGivenNames x
       first
         | (refine Kept.cut x ?_ fun hx => ?_; unfold x; clear x; rotate_left; clear_value x)
         | clear_value x)
    | with_reducible apply selectTransmitter_kept
    | with_reducible apply ptpPut_kept
    | refine Kept.update ?_ rfl rfl rfl (Nat.le_refl _) (Nat.le_refl _)

theorem execDomainHoldoverEntry_kept (dom : Nat) (cause : Nat) {s : State} (h_ : Kept q_ j_ a_ s) :
    KeptO q_ j_ a_ (execDomainHoldoverEntry dom cause s) := by
  unfold execDomainHoldoverEntry
  repeat' first
    | with_reducible assumption
    | intro _
    | with_reducible apply Kept.ite
    | (extract_lets +onlyGivenNames x
       first
         | (refine Kept.cut x ?_ fun hx => ?_; unfold x; clear x; rotate_left; clear_value x)
         | clear_value x)
    | with_reducible apply Kept.next
    | with_reducible apply annLost_kept
    | with_reducible apply classHold_kept
    | with_reducible apply domSet_kept
    | split

theorem execDelayReqTx_kept (dom : Nat) (port : Nat) {s : State} (h_ : Kept q_ j_ a_ s) :
    KeptO q_ j_ a_ (execDelayReqTx dom port s) := by
  unfold execDelayReqTx
  repeat' first
    | with_reducible assumption
    | intro _
    | with_reducible apply Kept.ite
    | (extract_lets +onlyGivenNames x
       first
         | (refine Kept.cut x ?_ fun hx => ?_; unfold x; clear x; rotate_left; clear_value x)
         | clear_value x)
    | with_reducible apply Kept.next
    | with_reducible apply ptpPut_kept
    | with_reducible apply enqueue_kept
    | with_reducible apply inc_kept
    | split
    | refine Kept.update ?_ rfl rfl rfl (Nat.le_refl _) (Nat.le_refl _)

theorem execPpsInPulse_kept (input : Nat) {s : State} (h_ : Kept q_ j_ a_ s) :
    KeptO q_ j_ a_ (execPpsInPulse input s) := by
  unfold execPpsInPulse
  repeat' first
    | with_reducible assumption
    | intro _
    | with_reducible apply Kept.ite
    | (extract_lets +onlyGivenNames x
       first
         | (refine Kept.cut x ?_ fun hx => ?_; unfold x; clear x; rotate_left; clear_value x)
         | clear_value x)
    | with_reducible apply Kept.next
    | with_reducible apply servoPut_kept
    | with_reducible apply raise0_kept
    | with_reducible apply wrS_kept
    | split
    | refine Kept.update ?_ rfl rfl rfl (Nat.le_refl _) (Nat.le_refl _)

theorem execPpsOutEdge_kept  {s : State} (h_ : Kept q_ j_ a_ s) :
    KeptO q_ j_ a_ (execPpsOutEdge s) := by
  unfold execPpsOutEdge
  repeat' first
    | with_reducible assumption
    | intro _
    | with_reducible apply Kept.ite
    | (extract_lets +onlyGivenNames x
       first
         | (refine Kept.cut x ?_ fun hx => ?_; unfold x; clear x; rotate_left; clear_value x)
         | clear_value x)
    | with_reducible apply Kept.next
    | split
    | refine Kept.update ?_ rfl rfl rfl (Nat.le_refl _) (Nat.le_refl _)

end Sys2Proof.Machine
end

