-- ==== Sys2Proof/Laws/KeptWaveOps.lean ====
section
/-! SUPPORT. Waves: every operation keeps the register space and the
drives canonical, the queue of waiting commands, and the sequence numbers (`Kept`). -/

set_option linter.tactic.unusedName false
set_option linter.unreachableTactic false
set_option linter.unusedTactic false

namespace Sys2Proof.Machine

variable {q_ : List Instr} {j_ a_ : Nat} {s : State}

theorem refuseWave_kept (moves : List EMove) (close : Bool) {s : State} (h_ : Kept q_ j_ a_ s) :
    Kept q_ j_ a_ (refuseWave moves close s) := by
  unfold refuseWave
  repeat' first
    | with_reducible assumption
    | intro _
    | with_reducible apply Kept.ite
    | with_reducible apply Kept.ite1
    | with_reducible apply Kept.ite2
    | (extract_lets +onlyGivenNames x
       first
         | (refine Kept.cut x ?_ fun hx => ?_; unfold x; clear x; rotate_left; clear_value x)
         | clear_value x)
    | with_reducible apply raise_kept
    | with_reducible apply wrWord_kept
    | with_reducible apply Kept.foldl
    | with_reducible apply Kept.foldl1
    | with_reducible apply Kept.foldl2
    | split
    | refine Kept.update ?_ rfl rfl rfl (Nat.le_refl _) (Nat.le_refl _)

theorem assignBank_kept (k : Nat) {s : State} (h_ : Kept q_ j_ a_ s) :
    Kept q_ j_ a_ (assignBank k s) := by
  unfold assignBank
  repeat' first
    | with_reducible assumption
    | intro _
    | with_reducible apply Kept.ite
    | (extract_lets +onlyGivenNames x
       first
         | (refine Kept.cut x ?_ fun hx => ?_; unfold x; clear x; rotate_left; clear_value x)
         | clear_value x)
    | with_reducible apply bankPut_kept
    | split
    | refine Kept.update ?_ rfl rfl rfl (Nat.le_refl _) (Nat.le_refl _)

theorem armWave_kept (dom : Nat) (t0 : Nat) (start : Nat) (units : List (Nat × SUnit)) {s : State} (h_ : Kept q_ j_ a_ s) :
    Kept q_ j_ a_ (armWave dom t0 start units s).2 := by
  unfold armWave
  repeat' first
    | with_reducible assumption
    | intro _
    | with_reducible apply Kept.ite
    | with_reducible apply Kept.ite1
    | with_reducible apply Kept.ite2
    | (extract_lets +onlyGivenNames x
       first
         | (refine Kept.cut x ?_ fun hx => ?_; unfold x; clear x; rotate_left; clear_value x)
         | (refine Kept.cut1 x ?_ fun hx => ?_; unfold x; clear x; rotate_left; clear_value x)
         | clear_value x)
    | with_reducible apply assignBank_kept
    | with_reducible apply refuseWave_kept
    | with_reducible apply abandonStep_kept
    | with_reducible apply reshed_kept
    | with_reducible apply Kept.foldl
    | with_reducible apply Kept.foldl1
    | with_reducible apply Kept.foldl2
    | split
    | refine Kept.update ?_ rfl rfl rfl (Nat.le_refl _) (Nat.le_refl _)

theorem retarget_kept (m : EMove) {s0 : State} (h_ : Kept q_ j_ a_ s0) :
    Kept q_ j_ a_ (retarget m s0) := by
  unfold retarget
  repeat' first
    | with_reducible assumption
    | intro _
    | with_reducible apply Kept.ite
    | with_reducible apply Kept.ite1
    | with_reducible apply Kept.ite2
    | (extract_lets +onlyGivenNames x
       first
         | (refine Kept.cut x ?_ fun hx => ?_; unfold x; clear x; rotate_left; clear_value x)
         | (refine Kept.cutF x ?_ fun hf1 => ?_; unfold x; clear x; rotate_left; clear_value x)
         | (refine Kept.cutF2 x ?_ fun hf2 => ?_; unfold x; clear x; rotate_left; clear_value x)
         | (refine Kept.cutF3 x ?_ fun hf3 => ?_; unfold x; clear x; rotate_left; clear_value x)
         | (refine Kept.cutF4 x ?_ fun hf4 => ?_; unfold x; clear x; rotate_left; clear_value x)
         | clear_value x)
    | with_reducible apply hf1
    | with_reducible apply hf2
    | with_reducible apply hf3
    | with_reducible apply hf4
    | with_reducible apply corrApply_kept
    | with_reducible apply wr_kept
    | with_reducible apply Kept.foldl
    | with_reducible apply Kept.foldl1
    | with_reducible apply Kept.foldl2
    | refine Kept.update ?_ rfl rfl rfl (Nat.le_refl _) (Nat.le_refl _)

theorem retargetHeld_kept (m : EMove) {s : State} (h_ : Kept q_ j_ a_ s) :
    Kept q_ j_ a_ (retargetHeld m s) := by
  unfold retargetHeld
  repeat' first
    | with_reducible assumption
    | intro _
    | with_reducible apply Kept.ite
    | with_reducible apply retarget_kept
    | with_reducible apply wr_kept

theorem voaCommand_kept (l : Nat) (t : Nat) {s : State} (h_ : Kept q_ j_ a_ s) :
    Kept q_ j_ a_ (voaCommand l t s) := by
  unfold voaCommand
  repeat' first
    | with_reducible assumption
    | intro _
    | with_reducible apply Kept.ite
    | (extract_lets +onlyGivenNames x
       first
         | (refine Kept.cut x ?_ fun hx => ?_; unfold x; clear x; rotate_left; clear_value x)
         | clear_value x)
    | with_reducible apply wr_kept
    | refine Kept.update ?_ rfl rfl rfl (Nat.le_refl _) (Nat.le_refl _)

theorem openVoa_kept (p : Nat × Nat) {s : State} (h_ : Kept q_ j_ a_ s) :
    Kept q_ j_ a_ (openVoa p s) := by
  unfold openVoa
  repeat' first
    | with_reducible assumption
    | intro _
    | with_reducible apply Kept.ite
    | with_reducible apply Kept.ite1
    | with_reducible apply Kept.ite2
    | (extract_lets +onlyGivenNames x
       first
         | (refine Kept.cut x ?_ fun hx => ?_; unfold x; clear x; rotate_left; clear_value x)
         | (refine Kept.cut2 x ?_ fun hx => ?_; unfold x; clear x; rotate_left; clear_value x)
         | (refine Kept.cut1 x ?_ fun hx => ?_; unfold x; clear x; rotate_left; clear_value x)
         | clear_value x)
    | with_reducible apply voaCommand_kept
    | with_reducible apply corrApply_kept
    | with_reducible apply wr_kept
    | with_reducible apply Kept.foldl
    | with_reducible apply Kept.foldl1
    | with_reducible apply Kept.foldl2
    | split
    | refine Kept.update ?_ rfl rfl rfl (Nat.le_refl _) (Nat.le_refl _)

theorem blockVoa_kept (l : Nat) {s : State} (h_ : Kept q_ j_ a_ s) :
    Kept q_ j_ a_ (blockVoa l s) := by
  unfold blockVoa
  repeat' first
    | with_reducible assumption
    | intro _
    | with_reducible apply Kept.ite
    | with_reducible apply voaCommand_kept
    | with_reducible apply wr_kept
    | split

theorem showFlags_kept (o : Nat) {s : State} (h_ : Kept q_ j_ a_ s) :
    Kept q_ j_ a_ (showFlags o s) := by
  unfold showFlags
  repeat' first
    | with_reducible assumption
    | intro _
    | with_reducible apply Kept.ite
    | (extract_lets +onlyGivenNames x
       first
         | (refine Kept.cut x ?_ fun hx => ?_; unfold x; clear x; rotate_left; clear_value x)
         | (refine Kept.cut1 x ?_ fun hx => ?_; unfold x; clear x; rotate_left; clear_value x)
         | clear_value x)
    | with_reducible apply wr_kept
    | split
    | refine Kept.update ?_ rfl rfl rfl (Nat.le_refl _) (Nat.le_refl _)

theorem dropRepair_kept (n : Nat) (r : Option Route) {s : State} (h_ : Kept q_ j_ a_ s) :
    Kept q_ j_ a_ (dropRepair n r s) := by
  unfold dropRepair
  repeat' first
    | with_reducible assumption
    | intro _
    | with_reducible apply Kept.ite
    | with_reducible apply Kept.ite1
    | with_reducible apply Kept.ite2
    | (extract_lets +onlyGivenNames x
       first
         | (refine Kept.cut x ?_ fun hx => ?_; unfold x; clear x; rotate_left; clear_value x)
         | (refine Kept.cut2 x ?_ fun hx => ?_; unfold x; clear x; rotate_left; clear_value x)
         | (refine Kept.cut1 x ?_ fun hx => ?_; unfold x; clear x; rotate_left; clear_value x)
         | (refine Kept.cutF x ?_ fun hf1 => ?_; unfold x; clear x; rotate_left; clear_value x)
         | (refine Kept.cutF2 x ?_ fun hf2 => ?_; unfold x; clear x; rotate_left; clear_value x)
         | (refine Kept.cutF3 x ?_ fun hf3 => ?_; unfold x; clear x; rotate_left; clear_value x)
         | (refine Kept.cutF4 x ?_ fun hf4 => ?_; unfold x; clear x; rotate_left; clear_value x)
         | clear_value x)
    | with_reducible apply hf1
    | with_reducible apply hf2
    | with_reducible apply hf3
    | with_reducible apply hf4
    | split
    | refine Kept.update ?_ rfl rfl rfl (Nat.le_refl _) (Nat.le_refl _)

theorem putConn_kept (n : Nat) (r : Option Route) {s0 : State} (h_ : Kept q_ j_ a_ s0) :
    Kept q_ j_ a_ (putConn n r s0) := by
  unfold putConn
  repeat' first
    | with_reducible assumption
    | intro _
    | with_reducible apply Kept.ite
    | with_reducible apply Kept.ite1
    | with_reducible apply Kept.ite2
    | (extract_lets +onlyGivenNames x
       first
         | (refine Kept.cut x ?_ fun hx => ?_; unfold x; clear x; rotate_left; clear_value x)
         | clear_value x)
    | with_reducible apply dropRepair_kept
    | with_reducible apply showFlags_kept
    | with_reducible apply wr_kept
    | with_reducible apply Kept.foldl
    | with_reducible apply Kept.foldl1
    | with_reducible apply Kept.foldl2
    | split
    | refine Kept.update ?_ rfl rfl rfl (Nat.le_refl _) (Nat.le_refl _)

theorem countMove_kept (c : Chg) {s : State} (h_ : Kept q_ j_ a_ s) :
    Kept q_ j_ a_ (countMove c s) := by
  unfold countMove
  repeat' first
    | with_reducible assumption
    | intro _
    | with_reducible apply Kept.ite
    | with_reducible apply incS_kept
    | split

theorem loseElems_kept (l : List Nat) {s : State} (h_ : Kept q_ j_ a_ s) :
    Kept q_ j_ a_ (loseElems l s) := by
  unfold loseElems
  repeat' first
    | with_reducible assumption
    | intro _
    | with_reducible apply Kept.ite
    | with_reducible apply Kept.ite1
    | with_reducible apply Kept.ite2
    | (extract_lets +onlyGivenNames x
       first
         | (refine Kept.cut x ?_ fun hx => ?_; unfold x; clear x; rotate_left; clear_value x)
         | (refine Kept.cut1 x ?_ fun hx => ?_; unfold x; clear x; rotate_left; clear_value x)
         | clear_value x)
    | with_reducible apply setRepairs_kept
    | with_reducible apply setMapBit_kept
    | with_reducible apply Kept.foldl
    | with_reducible apply Kept.foldl1
    | with_reducible apply Kept.foldl2
    | split

theorem declareFailed_kept (e : Nat) {s : State} (h_ : Kept q_ j_ a_ s) :
    Kept q_ j_ a_ (declareFailed e s) := by
  unfold declareFailed
  repeat' first
    | with_reducible assumption
    | intro _
    | with_reducible apply Kept.ite
    | (extract_lets +onlyGivenNames x
       first
         | (refine Kept.cut x ?_ fun hx => ?_; unfold x; clear x; rotate_left; clear_value x)
         | clear_value x)
    | with_reducible apply loseElems_kept
    | with_reducible apply clearElem_kept
    | with_reducible apply raise_kept
    | with_reducible apply wr_kept

theorem noteRound_kept (e : Nat) (mism : Bool) (hres : Bool) {s : State} (h_ : Kept q_ j_ a_ s) :
    Kept q_ j_ a_ (noteRound e mism hres s) := by
  unfold noteRound
  repeat' first
    | with_reducible assumption
    | intro _
    | with_reducible apply Kept.ite
    | (extract_lets +onlyGivenNames x
       first
         | (refine Kept.cut x ?_ fun hx => ?_; unfold x; clear x; rotate_left; clear_value x)
         | (refine Kept.cutF x ?_ fun hf1 => ?_; unfold x; clear x; rotate_left; clear_value x)
         | (refine Kept.cutF2 x ?_ fun hf2 => ?_; unfold x; clear x; rotate_left; clear_value x)
         | (refine Kept.cutF3 x ?_ fun hf3 => ?_; unfold x; clear x; rotate_left; clear_value x)
         | (refine Kept.cutF4 x ?_ fun hf4 => ?_; unfold x; clear x; rotate_left; clear_value x)
         | clear_value x)
    | with_reducible apply hf1
    | with_reducible apply hf2
    | with_reducible apply hf3
    | with_reducible apply hf4
    | split
    | refine Kept.update ?_ rfl rfl rfl (Nat.le_refl _) (Nat.le_refl _)

theorem execReadbackVisit_kept (bank : Nat) (latched : Nat) (vh : Nat) {s : State} (h_ : Kept q_ j_ a_ s) :
    KeptO q_ j_ a_ (execReadbackVisit bank latched vh s) := by
  unfold execReadbackVisit
  apply Kept.next
  apply Kept.ite h_
  extract_lets b i e d seen mism s0 k cur hres comp again w s1 c s2 s3 s5 s4
  have h0 : Kept q_ j_ a_ s0 := wrWord_kept _ _ h_
  clear_value s0 seen mism hres comp again
  have hw : ∀ F v t, Kept q_ j_ a_ t → Kept q_ j_ a_ (w F v t) := fun F v t ht => wr_kept _ _ _ ht
  have h1 : Kept q_ j_ a_ s1 := hw _ _ _ (hw _ _ _ (hw _ _ _ (hw _ _ _ (hw _ _ _ (bankPut_kept _ _ h0)))))
  clear_value s1
  have h2 : Kept q_ j_ a_ s2 := Kept.ite (raise_kept _ _ _ h1) h1
  clear_value s2
  have h3 : Kept q_ j_ a_ s3 := Kept.ite (raise_kept _ _ _ h2) h2
  clear_value s3
  have h5 : Kept q_ j_ a_ s5 := Kept.ite (raise_kept _ _ _ h3) h3
  clear_value s5
  have h4 : Kept q_ j_ a_ s4 := Kept.ite h5 (noteRound_kept _ _ _ h5)
  clear_value s4
  exact Kept.ite (declareFailed_kept _ h4) h4


end Sys2Proof.Machine
end

