-- ==== Sys2Proof/Laws/KeptEventPlace.lean ====
section
/-! SUPPORT. The placement of waves: every operation keeps the register space and the
drives canonical, the queue of waiting commands, and the sequence numbers (`Kept`). -/

set_option linter.tactic.unusedName false
set_option linter.unreachableTactic false
set_option linter.unusedTactic false

namespace Sys2Proof.Machine

variable {q_ : List Instr} {j_ a_ : Nat} {s : State}

theorem rsStatus_kept (bit : Nat) {s : State} (h_ : Kept q_ j_ a_ s) :
    Kept q_ j_ a_ (rsStatus bit s) := by
  unfold rsStatus
  repeat' first
    | with_reducible assumption
    | intro _
    | with_reducible apply Kept.ite
    | with_reducible apply raise0_kept

theorem shiftOne_kept (e : Ev) {s : State} (h_ : Kept q_ j_ a_ s) :
    Kept q_ j_ a_ (shiftOne e s) := by
  unfold shiftOne
  repeat' first
    | with_reducible assumption
    | intro _
    | with_reducible apply Kept.ite
    | (extract_lets +onlyGivenNames x
       first
         | (refine Kept.cut x ?_ fun hx => ?_; unfold x; clear x; rotate_left; clear_value x)
         | clear_value x)
    | with_reducible apply finalise_kept
    | with_reducible apply evGoto_kept
    | with_reducible apply showEv_kept
    | with_reducible apply evSet_kept
    | with_reducible apply evStatus_kept
    | split
    | refine Kept.update ?_ rfl rfl rfl (Nat.le_refl _) (Nat.le_refl _)

theorem shiftLater_kept (aseq : Nat) {s : State} (h_ : Kept q_ j_ a_ s) :
    Kept q_ j_ a_ (shiftLater aseq s) := by
  unfold shiftLater
  repeat' first
    | with_reducible assumption
    | intro _
    | with_reducible apply Kept.ite
    | with_reducible apply Kept.ite1
    | with_reducible apply Kept.ite2
    | with_reducible apply shiftOne_kept
    | with_reducible apply Kept.foldl
    | with_reducible apply Kept.foldl1
    | with_reducible apply Kept.foldl2
    | split
    | refine Kept.update ?_ rfl rfl rfl (Nat.le_refl _) (Nat.le_refl _)

theorem placeEv_kept (e : Ev) {s : State} (h_ : Kept q_ j_ a_ s) :
    Kept q_ j_ a_ (placeEv e s) := by
  unfold placeEv
  repeat' first
    | with_reducible assumption
    | intro _
    | with_reducible apply Kept.ite
    | (extract_lets +onlyGivenNames x
       first
         | (refine Kept.cut x ?_ fun hx => ?_; unfold x; clear x; rotate_left; clear_value x)
         | clear_value x)
    | with_reducible apply shiftLater_kept
    | with_reducible apply rsStatus_kept
    | with_reducible apply finalise_kept
    | with_reducible apply evGoto_kept
    | with_reducible apply evStatus_kept
    | split
    | refine Kept.update ?_ rfl rfl rfl (Nat.le_refl _) (Nat.le_refl _)

theorem placeReady_kept  {s : State} (h_ : Kept q_ j_ a_ s) :
    Kept q_ j_ a_ (placeReady s) := by
  unfold placeReady
  repeat' first
    | with_reducible assumption
    | intro _
    | with_reducible apply Kept.ite
    | with_reducible apply Kept.ite1
    | with_reducible apply Kept.ite2
    | with_reducible apply placeEv_kept
    | with_reducible apply Kept.foldl
    | with_reducible apply Kept.foldl1
    | with_reducible apply Kept.foldl2
    | split
    | refine Kept.update ?_ rfl rfl rfl (Nat.le_refl _) (Nat.le_refl _)

end Sys2Proof.Machine
end

