-- ==== Sys2Proof/Laws/KeptEventRows.lean ====
section
/-! SUPPORT. The event commands: every operation keeps the register space and the
drives canonical, the queue of waiting commands, and the sequence numbers (`Kept`). -/

set_option linter.tactic.unusedName false
set_option linter.unreachableTactic false
set_option linter.unusedTactic false

namespace Sys2Proof.Machine

variable {q_ : List Instr} {j_ a_ : Nat} {s : State}

theorem acceptEvent_kept (okA okB : Bool) (session sseq : Nat) (r : EvReq) (v : Nat × Nat × List Nat) (extra : List Nat)
    (h : Kept q_ j_ a_ s) : Kept q_ j_ a_ (acceptEvent okA okB session sseq r v extra s) := by
  unfold acceptEvent
  extract_lets x jn s0 s1 tab e src s2
  have h0 : Kept q_ j_ a_ s0 := ⟨h.regs, h.drives, h.queue, h.jseq, Nat.le_succ_of_le h.aseq⟩
  clear_value s0
  have h1 : Kept q_ j_ a_ s1 := wr_kept _ _ _ (commitV_kept _ _ _ _ _ _ _ _ h0)
  clear_value s1
  have ht : Kept q_ j_ a_ tab.2 := by unfold tab; exact allocTab_kept h1
  clear_value tab
  have h2 : Kept q_ j_ a_ src := ht
  have h3 : Kept q_ j_ a_ s2 := Kept.update h2 rfl rfl rfl (Nat.le_refl _) (Nat.le_refl _)
  exact showPending_kept (showEv_kept _ _ h3)



theorem noteFull_kept (reason : Nat) {s : State} (h_ : Kept q_ j_ a_ s) :
    Kept q_ j_ a_ (noteFull reason s) := by
  unfold noteFull
  repeat' first
    | with_reducible assumption
    | intro _
    | with_reducible apply Kept.ite
    | with_reducible apply evStatus_kept
    | split

theorem groupReady_kept (e : Ev) {s : State} (h_ : Kept q_ j_ a_ s) :
    Kept q_ j_ a_ (groupReady e s) := by
  unfold groupReady
  repeat' first
    | with_reducible assumption
    | intro _
    | with_reducible apply Kept.ite
    | with_reducible apply notifyTo_kept
    | split

theorem takeSol_kept (e : Ev) (rep : List (Nat × Nat)) (x : Sol) {s : State} (h_ : Kept q_ j_ a_ s) :
    Kept q_ j_ a_ (takeSol e rep x s) := by
  unfold takeSol
  repeat' first
    | with_reducible assumption
    | intro _
    | with_reducible apply Kept.ite
    | (extract_lets +onlyGivenNames x
       first
         | (refine Kept.cut x ?_ fun hx => ?_; unfold x; clear x; rotate_left; clear_value x)
         | clear_value x)
    | with_reducible apply groupReady_kept
    | with_reducible apply evGoto_kept
    | refine Kept.update ?_ rfl rfl rfl (Nat.le_refl _) (Nat.le_refl _)

theorem failSol_kept (e : Ev) (reason : Nat) {s : State} (h_ : Kept q_ j_ a_ s) :
    Kept q_ j_ a_ (failSol e reason s) := by
  unfold failSol
  repeat' first
    | with_reducible assumption
    | intro _
    | with_reducible apply Kept.ite
    | with_reducible apply rsStatus_kept
    | with_reducible apply finalise_kept
    | split

theorem solveEv_kept (e : Ev) (cands : List Cand) (exhausted : Bool) (tenths : Nat) {s : State} (h : Kept q_ j_ a_ s) :
    Kept q_ j_ a_ (solveEv e cands exhausted tenths s) := by
  unfold solveEv
  extract_lets f ds rep s0 l e1
  have h0 : Kept q_ j_ a_ s0 := noteSolve_kept _ _ h
  clear_value s0 f ds rep l e1
  repeat' first
    | with_reducible assumption
    | with_reducible apply Kept.ite
    | with_reducible apply finalise_kept
    | with_reducible apply takeSol_kept
    | with_reducible apply failSol_kept
    | split

theorem execSolveComplete_kept (cands : List Cand) (exhausted : Bool) (tenths : Nat) {s : State} (h_ : Kept q_ j_ a_ s) :
    KeptO q_ j_ a_ (execSolveComplete cands exhausted tenths s) := by
  unfold execSolveComplete
  repeat' first
    | with_reducible assumption
    | intro _
    | with_reducible apply Kept.ite
    | (extract_lets +onlyGivenNames x
       first
         | (refine Kept.cut x ?_ fun hx => ?_; unfold x; clear x; rotate_left; clear_value x)
         | clear_value x)
    | with_reducible apply Kept.next
    | with_reducible apply solveEv_kept
    | with_reducible apply placeReady_kept
    | split
    | refine Kept.update ?_ rfl rfl rfl (Nat.le_refl _) (Nat.le_refl _)

theorem armEvents_kept (dom : Nat) (t0 : Nat) (start : Nat) (es : List Ev) {s : State} (h_ : Kept q_ j_ a_ s) :
    Kept q_ j_ a_ (armEvents dom t0 start es s) := by
  unfold armEvents
  repeat' first
    | with_reducible assumption
    | intro _
    | with_reducible apply Kept.ite
    | with_reducible apply Kept.ite1
    | with_reducible apply Kept.ite2
    | (extract_lets +onlyGivenNames x
       first
         | (refine Kept.cut x ?_ fun hx => ?_; unfold x; clear x; rotate_left; clear_value x)
         | (refine Kept.cut2 x ?_ fun hx => ?_; unfold x; clear x; rotate_left; clear_value x)
         | (refine Kept.cut1 x ?_ fun hx => ?_; unfold x; clear x; rotate_left; clear_value x)
         | clear_value x)
    | with_reducible apply placeReady_kept
    | with_reducible apply armWave_kept
    | with_reducible apply finalise_kept
    | with_reducible apply evGoto_kept
    | with_reducible apply evSet_kept
    | with_reducible apply Kept.foldl
    | with_reducible apply Kept.foldl1
    | with_reducible apply Kept.foldl2
    | split
    | refine Kept.update ?_ rfl rfl rfl (Nat.le_refl _) (Nat.le_refl _)

theorem execWaveArm_kept (aseq : Nat) {s : State} (h_ : Kept q_ j_ a_ s) :
    KeptO q_ j_ a_ (execWaveArm aseq s) := by
  unfold execWaveArm
  repeat' first
    | with_reducible assumption
    | intro _
    | with_reducible apply Kept.ite
    | (extract_lets +onlyGivenNames x
       first
         | (refine Kept.cut x ?_ fun hx => ?_; unfold x; clear x; rotate_left; clear_value x)
         | (refine Kept.cut2 x ?_ fun hx => ?_; unfold x; clear x; rotate_left; clear_value x)
         | (refine Kept.cut1 x ?_ fun hx => ?_; unfold x; clear x; rotate_left; clear_value x)
         | clear_value x)
    | with_reducible apply Kept.next
    | with_reducible apply armEvents_kept
    | with_reducible apply shiftOne_kept
    | with_reducible apply armWave_kept
    | with_reducible apply setRepairs_kept
    | split
    | refine Kept.update ?_ rfl rfl rfl (Nat.le_refl _) (Nat.le_refl _)

theorem startMoves_kept (l : List EMove) {s : State} (h_ : Kept q_ j_ a_ s) :
    Kept q_ j_ a_ (startMoves l s).1 := by
  unfold startMoves
  repeat' first
    | with_reducible assumption
    | intro _
    | with_reducible apply Kept.ite
    | with_reducible apply Kept.ite1
    | with_reducible apply Kept.ite2
    | (extract_lets +onlyGivenNames x
       first
         | (refine Kept.cut x ?_ fun hx => ?_; unfold x; clear x; rotate_left; clear_value x)
         | (refine Kept.cut2 x ?_ fun hx => ?_; unfold x; clear x; rotate_left; clear_value x)
         | (refine Kept.cut1 x ?_ fun hx => ?_; unfold x; clear x; rotate_left; clear_value x)
         | clear_value x)
    | with_reducible apply retargetHeld_kept
    | with_reducible apply retarget_kept
    | with_reducible apply kickStart_kept
    | with_reducible apply Kept.foldl
    | with_reducible apply Kept.foldl1
    | with_reducible apply Kept.foldl2
    | split

theorem applyChg_kept (c : Chg) {s : State} (h_ : Kept q_ j_ a_ s) :
    Kept q_ j_ a_ (applyChg c s) := by
  unfold applyChg
  repeat' first
    | with_reducible assumption
    | intro _
    | with_reducible apply Kept.ite
    | (extract_lets +onlyGivenNames x
       first
         | (refine Kept.cut x ?_ fun hx => ?_; unfold x; clear x; rotate_left; clear_value x)
         | clear_value x)
    | with_reducible apply countMove_kept
    | with_reducible apply putConn_kept
    | with_reducible apply blockVoa_kept
    | split
    | refine Kept.update ?_ rfl rfl rfl (Nat.le_refl _) (Nat.le_refl _)

theorem repairChg_kept (c : Chg) {s : State} (h_ : Kept q_ j_ a_ s) :
    Kept q_ j_ a_ (repairChg c s) := by
  unfold repairChg
  repeat' first
    | with_reducible assumption
    | intro _
    | with_reducible apply Kept.ite
    | with_reducible apply applyChg_kept
    | with_reducible apply setRepairs_kept
    | split
    | refine Kept.update ?_ rfl rfl rfl (Nat.le_refl _) (Nat.le_refl _)

theorem noteLastWave_kept (no : Nat) (started : List Nat) {s : State} (h_ : Kept q_ j_ a_ s) :
    Kept q_ j_ a_ (noteLastWave no started s) := by
  unfold noteLastWave
  repeat' first
    | with_reducible assumption
    | intro _
    | with_reducible apply Kept.ite
    | with_reducible apply Kept.ite1
    | with_reducible apply Kept.ite2
    | (extract_lets +onlyGivenNames x
       first
         | (refine Kept.cut x ?_ fun hx => ?_; unfold x; clear x; rotate_left; clear_value x)
         | clear_value x)
    | with_reducible apply wr_kept
    | with_reducible apply Kept.foldl
    | with_reducible apply Kept.foldl1
    | with_reducible apply Kept.foldl2
    | split

theorem creditEv_kept (w : Wave) (bad : List (Nat × Chg)) (e : Ev) {s : State} (h_ : Kept q_ j_ a_ s) :
    Kept q_ j_ a_ (creditEv w bad e s) := by
  unfold creditEv
  repeat' first
    | with_reducible assumption
    | intro _
    | with_reducible apply Kept.ite
    | (extract_lets +onlyGivenNames x
       first
         | (refine Kept.cut x ?_ fun hx => ?_; unfold x; clear x; rotate_left; clear_value x)
         | (refine Kept.cut2 x ?_ fun hx => ?_; unfold x; clear x; rotate_left; clear_value x)
         | (refine Kept.cut1 x ?_ fun hx => ?_; unfold x; clear x; rotate_left; clear_value x)
         | clear_value x)
    | with_reducible apply showEv_kept
    | with_reducible apply evSet_kept
    | split
    | refine Kept.update ?_ rfl rfl rfl (Nat.le_refl _) (Nat.le_refl _)

theorem failEvents_kept (l : List Nat) {s : State} (h_ : Kept q_ j_ a_ s) :
    Kept q_ j_ a_ (failEvents l s) := by
  unfold failEvents
  repeat' first
    | with_reducible assumption
    | intro _
    | with_reducible apply Kept.ite
    | with_reducible apply Kept.ite1
    | with_reducible apply Kept.ite2
    | with_reducible apply finalise_kept
    | with_reducible apply Kept.foldl
    | with_reducible apply Kept.foldl1
    | with_reducible apply Kept.foldl2
    | split
    | refine Kept.update ?_ rfl rfl rfl (Nat.le_refl _) (Nat.le_refl _)

theorem startWave_kept (w : Wave) {s : State} (h_ : Kept q_ j_ a_ s) :
    Kept q_ j_ a_ (startWave w s) := by
  unfold startWave
  repeat' first
    | with_reducible assumption
    | intro _
    | with_reducible apply Kept.ite
    | with_reducible apply Kept.ite1
    | with_reducible apply Kept.ite2
    | (extract_lets +onlyGivenNames x
       first
         | (refine Kept.cut x ?_ fun hx => ?_; unfold x; clear x; rotate_left; clear_value x)
         | (refine Kept.cut2 x ?_ fun hx => ?_; unfold x; clear x; rotate_left; clear_value x)
         | (refine Kept.cut1 x ?_ fun hx => ?_; unfold x; clear x; rotate_left; clear_value x)
         | clear_value x)
    | with_reducible apply failEvents_kept
    | with_reducible apply creditEv_kept
    | with_reducible apply noteLastWave_kept
    | with_reducible apply repairChg_kept
    | with_reducible apply applyChg_kept
    | with_reducible apply startMoves_kept
    | with_reducible apply showFlags_kept
    | with_reducible apply openVoa_kept
    | with_reducible apply commit_kept
    | with_reducible apply wr_kept
    | with_reducible apply Kept.foldl
    | with_reducible apply Kept.foldl1
    | with_reducible apply Kept.foldl2
    | split
    | refine Kept.update ?_ rfl rfl rfl (Nat.le_refl _) (Nat.le_refl _)

theorem execWaveStart_kept  {s : State} (h_ : Kept q_ j_ a_ s) :
    KeptO q_ j_ a_ (execWaveStart s) := by
  unfold execWaveStart
  repeat' first
    | with_reducible assumption
    | intro _
    | with_reducible apply Kept.ite
    | (extract_lets +onlyGivenNames x
       first
         | (refine Kept.cut x ?_ fun hx => ?_; unfold x; clear x; rotate_left; clear_value x)
         | clear_value x)
    | with_reducible apply Kept.next
    | with_reducible apply startWave_kept
    | with_reducible apply placeReady_kept
    | with_reducible apply leaveNow_kept
    | with_reducible apply reshed_kept
    | split
    | refine Kept.update ?_ rfl rfl rfl (Nat.le_refl _) (Nat.le_refl _)

theorem applyRestated_kept (e : Ev) {s : State} (h_ : Kept q_ j_ a_ s) :
    Kept q_ j_ a_ (applyRestated e s) := by
  unfold applyRestated
  repeat' first
    | with_reducible assumption
    | intro _
    | with_reducible apply Kept.ite
    | with_reducible apply Kept.ite1
    | with_reducible apply Kept.ite2
    | (extract_lets +onlyGivenNames x
       first
         | (refine Kept.cut x ?_ fun hx => ?_; unfold x; clear x; rotate_left; clear_value x)
         | (refine Kept.cut1 x ?_ fun hx => ?_; unfold x; clear x; rotate_left; clear_value x)
         | clear_value x)
    | with_reducible apply setRepairs_kept
    | with_reducible apply wr_kept
    | with_reducible apply Kept.foldl
    | with_reducible apply Kept.foldl1
    | with_reducible apply Kept.foldl2
    | split
    | refine Kept.update ?_ rfl rfl rfl (Nat.le_refl _) (Nat.le_refl _)

theorem execEventDone_kept (aseq : Nat) {s : State} (h_ : Kept q_ j_ a_ s) :
    KeptO q_ j_ a_ (execEventDone aseq s) := by
  unfold execEventDone
  repeat' first
    | with_reducible assumption
    | intro _
    | with_reducible apply Kept.ite
    | with_reducible apply Kept.next
    | with_reducible apply applyRestated_kept
    | with_reducible apply placeReady_kept
    | with_reducible apply finalise_kept
    | split
    | refine Kept.update ?_ rfl rfl rfl (Nat.le_refl _) (Nat.le_refl _)

theorem execEventDeadlineExpiry_kept (aseq : Nat) {s : State} (h_ : Kept q_ j_ a_ s) :
    KeptO q_ j_ a_ (execEventDeadlineExpiry aseq s) := by
  unfold execEventDeadlineExpiry
  repeat' first
    | with_reducible assumption
    | intro _
    | with_reducible apply Kept.ite
    | with_reducible apply Kept.next
    | with_reducible apply placeReady_kept
    | with_reducible apply finalise_kept
    | split
    | refine Kept.update ?_ rfl rfl rfl (Nat.le_refl _) (Nat.le_refl _)

theorem execDeferralLimitExpiry_kept (aseq : Nat) {s : State} (h_ : Kept q_ j_ a_ s) :
    KeptO q_ j_ a_ (execDeferralLimitExpiry aseq s) := by
  unfold execDeferralLimitExpiry
  repeat' first
    | with_reducible assumption
    | intro _
    | with_reducible apply Kept.ite
    | (extract_lets +onlyGivenNames x
       first
         | (refine Kept.cut x ?_ fun hx => ?_; unfold x; clear x; rotate_left; clear_value x)
         | (refine Kept.cut2 x ?_ fun hx => ?_; unfold x; clear x; rotate_left; clear_value x)
         | (refine Kept.cut1 x ?_ fun hx => ?_; unfold x; clear x; rotate_left; clear_value x)
         | clear_value x)
    | with_reducible apply Kept.next
    | with_reducible apply placeReady_kept
    | with_reducible apply finalise_kept
    | split
    | refine Kept.update ?_ rfl rfl rfl (Nat.le_refl _) (Nat.le_refl _)

theorem sendEcho_kept (body : List Nat) {s : State} (h_ : Kept q_ j_ a_ s) :
    Kept q_ j_ a_ (sendEcho body s) := by
  unfold sendEcho
  repeat' first
    | with_reducible assumption
    | intro _
    | with_reducible apply Kept.ite
    | with_reducible apply Kept.ite1
    | with_reducible apply Kept.ite2
    | (extract_lets +onlyGivenNames x
       first
         | (refine Kept.cut x ?_ fun hx => ?_; unfold x; clear x; rotate_left; clear_value x)
         | (have _t : Jnl := x; clear _t; unfold x; clear x)
         | clear_value x)
    | with_reducible apply kcp_kept
    | with_reducible apply enqueue_kept
    | with_reducible apply Kept.foldl
    | with_reducible apply Kept.foldl1
    | with_reducible apply Kept.foldl2
    | split
    | refine Kept.update ?_ rfl rfl rfl (Nat.le_refl _) (Nat.le_refl _)
    | refine Kept.update ?_ rfl rfl rfl (Nat.le_succ _) (Nat.le_refl _)
    | refine Kept.update ?_ rfl rfl rfl (Nat.le_refl _) (Nat.le_succ _)

theorem noteCommit_kept (okA : Bool) (okB : Bool) (session : Nat) (type : Nat) (seq : Nat) (sig : Nat) (e : Ev) {s : State} (h_ : Kept q_ j_ a_ s) :
    Kept q_ j_ a_ (noteCommit okA okB session type seq sig e s) := by
  unfold noteCommit
  repeat' first
    | with_reducible assumption
    | intro _
    | with_reducible apply Kept.ite
    | (extract_lets +onlyGivenNames x
       first
         | (refine Kept.cut x ?_ fun hx => ?_; unfold x; clear x; rotate_left; clear_value x)
         | clear_value x)
    | with_reducible apply sendEcho_kept
    | with_reducible apply evSet_kept
    | with_reducible apply commitV_kept
    | refine Kept.update ?_ rfl rfl rfl (Nat.le_refl _) (Nat.le_refl _)

theorem commitGroup_kept (okA : Bool) (okB : Bool) (session : Nat) (type : Nat) (seq : Nat) (sig : Nat) (e : Ev) {s : State} (h_ : Kept q_ j_ a_ s) :
    Kept q_ j_ a_ (commitGroup okA okB session type seq sig e s) := by
  unfold commitGroup
  repeat' first
    | with_reducible assumption
    | intro _
    | with_reducible apply Kept.ite
    | with_reducible apply noteCommit_kept
    | with_reducible apply placeReady_kept

theorem execCommitEcho_kept (port : Nat) (gid : Nat) (members : Nat) (instant : Nat) (sig : GSig) {s : State} (h_ : Kept q_ j_ a_ s) :
    KeptO q_ j_ a_ (execCommitEcho port gid members instant sig s) := by
  unfold execCommitEcho
  repeat' first
    | with_reducible assumption
    | intro _
    | with_reducible apply Kept.ite
    | (extract_lets +onlyGivenNames x
       first
         | (refine Kept.cut x ?_ fun hx => ?_; unfold x; clear x; rotate_left; clear_value x)
         | clear_value x)
    | with_reducible apply Kept.next
    | with_reducible apply commitGroup_kept
    | with_reducible apply takeRing_kept
    | with_reducible apply raise0_kept
    | with_reducible apply incS_kept
    | split
    | refine Kept.update ?_ rfl rfl rfl (Nat.le_refl _) (Nat.le_refl _)

theorem execGroupCommitCutoff_kept (aseq : Nat) {s : State} (h_ : Kept q_ j_ a_ s) :
    KeptO q_ j_ a_ (execGroupCommitCutoff aseq s) := by
  unfold execGroupCommitCutoff
  repeat' first
    | with_reducible assumption
    | intro _
    | with_reducible apply Kept.ite
    | with_reducible apply Kept.next
    | with_reducible apply placeReady_kept
    | with_reducible apply finalise_kept
    | split
    | refine Kept.update ?_ rfl rfl rfl (Nat.le_refl _) (Nat.le_refl _)

theorem leaveUnrouted_kept (wait : List Nat) (d : Nat) {s : State} (h_ : Kept q_ j_ a_ s) :
    Kept q_ j_ a_ (leaveUnrouted wait d s) := by
  unfold leaveUnrouted
  repeat' first
    | with_reducible assumption
    | intro _
    | with_reducible apply Kept.ite
    | (extract_lets +onlyGivenNames x
       first
         | (refine Kept.cut x ?_ fun hx => ?_; unfold x; clear x; rotate_left; clear_value x)
         | clear_value x)
    | with_reducible apply rsStatus_kept
    | with_reducible apply putConn_kept
    | with_reducible apply blockVoa_kept
    | with_reducible apply wr_kept
    | split

theorem execRepairSolve_kept (cands : List Cand) (tenths : Nat) {s0 : State} (h_ : Kept q_ j_ a_ s0) :
    KeptO q_ j_ a_ (execRepairSolve cands tenths s0) := by
  unfold execRepairSolve
  repeat' first
    | with_reducible assumption
    | intro _
    | with_reducible apply Kept.ite
    | with_reducible apply Kept.ite1
    | with_reducible apply Kept.ite2
    | (extract_lets +onlyGivenNames x
       first
         | (refine Kept.cut x ?_ fun hx => ?_; unfold x; clear x; rotate_left; clear_value x)
         | (refine Kept.cut2 x ?_ fun hx => ?_; unfold x; clear x; rotate_left; clear_value x)
         | (refine Kept.cut1 x ?_ fun hx => ?_; unfold x; clear x; rotate_left; clear_value x)
         | clear_value x)
    | with_reducible apply Kept.next
    | with_reducible apply leaveUnrouted_kept
    | with_reducible apply rsStatus_kept
    | with_reducible apply noteSolve_kept
    | with_reducible apply keepAndResolve_kept
    | with_reducible apply commit_kept
    | with_reducible apply requeueRepairs_kept
    | with_reducible apply setRepairs_kept
    | with_reducible apply Kept.foldl
    | with_reducible apply Kept.foldl1
    | with_reducible apply Kept.foldl2
    | split
    | refine Kept.update ?_ rfl rfl rfl (Nat.le_refl _) (Nat.le_refl _)

theorem execReoptimisation_kept (out : Nat) {s : State} (h_ : Kept q_ j_ a_ s) :
    KeptO q_ j_ a_ (execReoptimisation out s) := by
  unfold execReoptimisation
  repeat' first
    | with_reducible assumption
    | intro _
    | with_reducible apply Kept.ite
    | (extract_lets +onlyGivenNames x
       first
         | (refine Kept.cut x ?_ fun hx => ?_; unfold x; clear x; rotate_left; clear_value x)
         | clear_value x)
    | with_reducible apply Kept.next
    | with_reducible apply acceptEvent_kept
    | split
    | refine Kept.update ?_ rfl rfl rfl (Nat.le_refl _) (Nat.le_refl _)

theorem moveWaves_kept (e : Ev) {s : State} (h_ : Kept q_ j_ a_ s) :
    Kept q_ j_ a_ (moveWaves e s) := by
  unfold moveWaves
  repeat' first
    | with_reducible assumption
    | intro _
    | with_reducible apply Kept.ite
    | (extract_lets +onlyGivenNames x
       first
         | (refine Kept.cut x ?_ fun hx => ?_; unfold x; clear x; rotate_left; clear_value x)
         | clear_value x)
    | with_reducible apply shiftLater_kept
    | with_reducible apply finalise_kept
    | with_reducible apply evGoto_kept
    | with_reducible apply evStatus_kept
    | split
    | refine Kept.update ?_ rfl rfl rfl (Nat.le_refl _) (Nat.le_refl _)

theorem lateOne_kept (e : Ev) {s : State} (h_ : Kept q_ j_ a_ s) :
    Kept q_ j_ a_ (lateOne e s) := by
  unfold lateOne
  repeat' first
    | with_reducible assumption
    | intro _
    | with_reducible apply Kept.ite
    | (extract_lets +onlyGivenNames x
       first
         | (refine Kept.cut x ?_ fun hx => ?_; unfold x; clear x; rotate_left; clear_value x)
         | clear_value x)
    | with_reducible apply moveWaves_kept
    | with_reducible apply shiftLater_kept
    | with_reducible apply evGoto_kept
    | with_reducible apply evStatus_kept
    | split
    | refine Kept.update ?_ rfl rfl rfl (Nat.le_refl _) (Nat.le_refl _)

theorem lateWhere_kept (p : Ev → Bool) {s : State} (h_ : Kept q_ j_ a_ s) :
    Kept q_ j_ a_ (lateWhere p s) := by
  unfold lateWhere
  repeat' first
    | with_reducible assumption
    | intro _
    | with_reducible apply Kept.ite
    | with_reducible apply Kept.ite1
    | with_reducible apply Kept.ite2
    | with_reducible apply lateOne_kept
    | with_reducible apply Kept.foldl
    | with_reducible apply Kept.foldl1
    | with_reducible apply Kept.foldl2
    | split
    | refine Kept.update ?_ rfl rfl rfl (Nat.le_refl _) (Nat.le_refl _)

theorem lateEvents_kept  {s : State} (h_ : Kept q_ j_ a_ s) :
    Kept q_ j_ a_ (lateEvents s) := by
  unfold lateEvents
  repeat' first
    | with_reducible assumption
    | intro _
    | with_reducible apply Kept.ite
    | with_reducible apply lateWhere_kept

end Sys2Proof.Machine
end

