-- ==== Sys2Proof/Laws/KeptClock.lean ====
section
/-! SUPPORT. The clock: every operation keeps the register space and the
drives canonical, the queue of waiting commands, and the sequence numbers (`Kept`). -/

set_option linter.tactic.unusedName false
set_option linter.unreachableTactic false
set_option linter.unusedTactic false

namespace Sys2Proof.Machine

variable {q_ : List Instr} {j_ a_ : Nat} {s : State}

theorem usableNow_kept (d : Nat) {s : State} (h_ : Kept q_ j_ a_ s) :
    Kept q_ j_ a_ (usableNow d s) := by
  unfold usableNow
  repeat' first
    | with_reducible assumption
    | intro _
    | with_reducible apply Kept.ite
    | with_reducible apply lateWhere_kept
    | with_reducible apply placeReady_kept
    | split

theorem execDomainEstimate_kept (dom : Nat) (offset : Int) (cls : Nat) {s : State} (h_ : Kept q_ j_ a_ s) :
    KeptO q_ j_ a_ (execDomainEstimate dom offset cls s) := by
  unfold execDomainEstimate
  repeat' first
    | with_reducible assumption
    | intro _
    | with_reducible apply Kept.ite
    | (extract_lets +onlyGivenNames x
       first
         | (refine Kept.cut x ?_ fun hx => ?_; unfold x; clear x; rotate_left; clear_value x)
         | clear_value x)
    | with_reducible apply Kept.next
    | with_reducible apply usableNow_kept
    | with_reducible apply domSet_kept
    | with_reducible apply servoPut_kept
    | with_reducible apply wrS_kept
    | with_reducible apply wr_kept
    | split
    | refine Kept.update ?_ rfl rfl rfl (Nat.le_refl _) (Nat.le_refl _)

theorem execEpochReached_kept (dom : Nat) {s : State} (h_ : Kept q_ j_ a_ s) :
    KeptO q_ j_ a_ (execEpochReached dom s) := by
  unfold execEpochReached
  repeat' first
    | with_reducible assumption
    | intro _
    | with_reducible apply Kept.ite
    | with_reducible apply Kept.next
    | with_reducible apply usableNow_kept
    | with_reducible apply rcRestart_kept
    | split

end Sys2Proof.Machine
end

