-- ==== Sys2Proof/Laws/KeptBoot.lean ====
section
/-! SUPPORT. Reset, load and calibration runs: every operation keeps the register space and the
drives canonical, the queue of waiting commands, and the sequence numbers (`Kept`). -/

set_option linter.tactic.unusedName false
set_option linter.unreachableTactic false
set_option linter.unusedTactic false

namespace Sys2Proof.Machine

variable {q_ : List Instr} {j_ a_ : Nat} {s : State}

theorem enterReset_kept (x y : Bool) (h : Kept q_ j_ a_ s) : Kept q_ j_ a_ (enterReset x y s) := by
  unfold enterReset
  extract_lets fl hist cause latched s0 m0 j0 new n s1 s2 s3
  have hf := Kept.noDrv (Kept.filterRegs (fun c => keptWord x c.1) h)
  have h0 : Kept q_ j_ a_ new := Kept.update hf rfl rfl rfl (Nat.le_refl _) (Nat.le_refl _)
  clear_value new
  have h2 : Kept q_ j_ a_ s2 := Kept.foldl (fun s i hs => wr_kept _ _ _ hs) (wr_kept _ _ _ (wr_kept _ _ _ h0))
  have h3 : Kept q_ j_ a_ s3 := Kept.ite h2 (wr_kept _ _ _ h2)
  exact Kept.ite (clrSet_kept _ h3) h3


theorem execPorstNAssert_kept  {s : State} (h_ : Kept q_ j_ a_ s) :
    KeptO q_ j_ a_ (execPorstNAssert s) := by
  unfold execPorstNAssert
  repeat' first
    | with_reducible assumption
    | intro _
    | with_reducible apply Kept.ite
    | with_reducible apply Kept.next
    | with_reducible apply enterReset_kept
    | split

theorem showWords_kept (l : List (Nat × Nat)) {s : State} (h_ : Kept q_ j_ a_ s) :
    Kept q_ j_ a_ (showWords l s) := by
  unfold showWords
  repeat' first
    | with_reducible assumption
    | intro _
    | with_reducible apply Kept.ite
    | with_reducible apply Kept.ite1
    | with_reducible apply Kept.ite2
    | with_reducible apply mergeWord_kept
    | with_reducible apply Kept.foldl
    | with_reducible apply Kept.foldl1
    | with_reducible apply Kept.foldl2

theorem loadWords_kept (l : List (Nat × Nat)) {s : State} (h_ : Kept q_ j_ a_ s) :
    Kept q_ j_ a_ (loadWords l s) := by
  unfold loadWords
  repeat' first
    | with_reducible assumption
    | intro _
    | with_reducible apply Kept.ite
    | with_reducible apply Kept.ite1
    | with_reducible apply Kept.ite2
    | with_reducible apply mergeWord_kept
    | with_reducible apply Kept.foldl
    | with_reducible apply Kept.foldl1
    | with_reducible apply Kept.foldl2

theorem showOtp_kept  {s : State} (h_ : Kept q_ j_ a_ s) :
    Kept q_ j_ a_ (showOtp s) := by
  unfold showOtp
  repeat' first
    | with_reducible assumption
    | intro _
    | with_reducible apply Kept.ite
    | (extract_lets +onlyGivenNames x
       first
         | (refine Kept.cut x ?_ fun hx => ?_; unfold x; clear x; rotate_left; clear_value x)
         | (refine Kept.cut2 x ?_ fun hx => ?_; unfold x; clear x; rotate_left; clear_value x)
         | (refine Kept.cut1 x ?_ fun hx => ?_; unfold x; clear x; rotate_left; clear_value x)
         | clear_value x)
    | with_reducible apply showWords_kept
    | with_reducible apply wr_kept
    | split

theorem latchOtp_kept  {s : State} (h_ : Kept q_ j_ a_ s) :
    Kept q_ j_ a_ (latchOtp s) := by
  unfold latchOtp
  repeat' first
    | with_reducible assumption
    | intro _
    | with_reducible apply Kept.ite
    | (extract_lets +onlyGivenNames x
       first
         | (refine Kept.cut x ?_ fun hx => ?_; unfold x; clear x; rotate_left; clear_value x)
         | clear_value x)
    | with_reducible apply showOtp_kept
    | with_reducible apply wr_kept

theorem dropTried_kept  {s : State} (h_ : Kept q_ j_ a_ s) :
    Kept q_ j_ a_ (dropTried s) := by
  unfold dropTried
  repeat' first
    | with_reducible assumption
    | intro _
    | with_reducible apply Kept.ite
    | with_reducible apply Kept.ite1
    | with_reducible apply Kept.ite2
    | with_reducible apply setSlot_kept
    | with_reducible apply Kept.foldl
    | with_reducible apply Kept.foldl1
    | with_reducible apply Kept.foldl2
    | split

theorem loadChannel_kept (c : Nat) (im : Image) {s : State} (h_ : Kept q_ j_ a_ s) :
    Kept q_ j_ a_ (loadChannel c im s) := by
  unfold loadChannel
  repeat' first
    | with_reducible assumption
    | intro _
    | with_reducible apply Kept.ite
    | with_reducible apply Kept.ite1
    | with_reducible apply Kept.ite2
    | (extract_lets +onlyGivenNames x
       first
         | (refine Kept.cut x ?_ fun hx => ?_; unfold x; clear x; rotate_left; clear_value x)
         | (refine Kept.cut1 x ?_ fun hx => ?_; unfold x; clear x; rotate_left; clear_value x)
         | clear_value x)
    | with_reducible apply chanPut_kept
    | with_reducible apply raise0_kept
    | with_reducible apply Kept.foldl
    | with_reducible apply Kept.foldl1
    | with_reducible apply Kept.foldl2
    | split
    | refine Kept.update ?_ rfl rfl rfl (Nat.le_refl _) (Nat.le_refl _)

theorem showRecord_kept (r : CalRec × Nat) {s : State} (h_ : Kept q_ j_ a_ s) :
    Kept q_ j_ a_ (showRecord r s) := by
  unfold showRecord
  repeat' first
    | with_reducible assumption
    | intro _
    | with_reducible apply Kept.ite
    | with_reducible apply wr_kept

theorem setModel_kept (e : Nat) {s : State} (h_ : Kept q_ j_ a_ s) :
    Kept q_ j_ a_ (setModel e s) := by
  unfold setModel
  repeat' first
    | with_reducible assumption
    | intro _
    | with_reducible apply Kept.ite
    | with_reducible apply wr_kept

theorem restoreMark_kept (x : Nat) {s : State} (h_ : Kept q_ j_ a_ s) :
    Kept q_ j_ a_ (restoreMark x s) := by
  unfold restoreMark
  repeat' first
    | with_reducible assumption
    | intro _
    | with_reducible apply Kept.ite
    | (extract_lets +onlyGivenNames x
       first
         | (refine Kept.cut x ?_ fun hx => ?_; unfold x; clear x; rotate_left; clear_value x)
         | clear_value x)
    | with_reducible apply setMapBit_kept
    | with_reducible apply wr_kept
    | split

theorem putRecord_kept (r : CalRec) {s : State} (h_ : Kept q_ j_ a_ s) :
    Kept q_ j_ a_ (putRecord r s) := by
  unfold putRecord
  repeat' first
    | with_reducible assumption
    | intro _
    | with_reducible apply Kept.ite
    | with_reducible apply Kept.ite1
    | with_reducible apply Kept.ite2
    | (extract_lets +onlyGivenNames x
       first
         | (refine Kept.cut x ?_ fun hx => ?_; unfold x; clear x; rotate_left; clear_value x)
         | (refine Kept.cut2 x ?_ fun hx => ?_; unfold x; clear x; rotate_left; clear_value x)
         | (refine Kept.cut1 x ?_ fun hx => ?_; unfold x; clear x; rotate_left; clear_value x)
         | clear_value x)
    | with_reducible apply restoreMark_kept
    | with_reducible apply setModel_kept
    | with_reducible apply putCal_kept
    | with_reducible apply setMapBit_kept
    | with_reducible apply Kept.foldl
    | with_reducible apply Kept.foldl1
    | with_reducible apply Kept.foldl2
    | refine Kept.update ?_ rfl rfl rfl (Nat.le_refl _) (Nat.le_refl _)

theorem loadRecord_kept (im : Image) {s : State} (h_ : Kept q_ j_ a_ s) :
    Kept q_ j_ a_ (loadRecord im s) := by
  unfold loadRecord
  repeat' first
    | with_reducible assumption
    | intro _
    | with_reducible apply Kept.ite
    | with_reducible apply putRecord_kept
    | with_reducible apply showRecord_kept
    | split
    | refine Kept.update ?_ rfl rfl rfl (Nat.le_refl _) (Nat.le_refl _)

theorem loadKeys_kept (im : Image) {s : State} (h_ : Kept q_ j_ a_ s) :
    Kept q_ j_ a_ (loadKeys im s) := by
  unfold loadKeys
  repeat' first
    | with_reducible assumption
    | intro _
    | with_reducible apply Kept.ite
    | with_reducible apply Kept.ite1
    | with_reducible apply Kept.ite2
    | (extract_lets +onlyGivenNames x
       first
         | (refine Kept.cut x ?_ fun hx => ?_; unfold x; clear x; rotate_left; clear_value x)
         | clear_value x)
    | with_reducible apply wr_kept
    | with_reducible apply wrWord_kept
    | with_reducible apply Kept.foldl
    | with_reducible apply Kept.foldl1
    | with_reducible apply Kept.foldl2

theorem showImage_kept (b : Bool) (im : Image) {s : State} (h_ : Kept q_ j_ a_ s) :
    Kept q_ j_ a_ (showImage b im s) := by
  unfold showImage
  repeat' first
    | with_reducible assumption
    | intro _
    | with_reducible apply Kept.ite
    | (extract_lets +onlyGivenNames x
       first
         | (refine Kept.cut x ?_ fun hx => ?_; unfold x; clear x; rotate_left; clear_value x)
         | clear_value x)
    | with_reducible apply wr_kept
    | with_reducible apply wrWord_kept
    | refine Kept.update ?_ rfl rfl rfl (Nat.le_refl _) (Nat.le_refl _)

theorem loadPlan_kept (im : Image) {s : State} (h_ : Kept q_ j_ a_ s) :
    Kept q_ j_ a_ (loadPlan im s) := by
  unfold loadPlan
  repeat' first
    | with_reducible assumption
    | intro _
    | with_reducible apply Kept.ite
    | with_reducible apply Kept.ite1
    | with_reducible apply Kept.ite2
    | (extract_lets +onlyGivenNames x
       first
         | (refine Kept.cut x ?_ fun hx => ?_; unfold x; clear x; rotate_left; clear_value x)
         | (refine Kept.cut2 x ?_ fun hx => ?_; unfold x; clear x; rotate_left; clear_value x)
         | (refine Kept.cut1 x ?_ fun hx => ?_; unfold x; clear x; rotate_left; clear_value x)
         | clear_value x)
    | with_reducible apply wr_kept
    | with_reducible apply wrWord_kept
    | with_reducible apply Kept.foldl
    | with_reducible apply Kept.foldl1
    | with_reducible apply Kept.foldl2

theorem applyImage_kept (b : Bool) (im : Image) {s : State} (h_ : Kept q_ j_ a_ s) :
    Kept q_ j_ a_ (applyImage b im s) := by
  unfold applyImage
  repeat' first
    | with_reducible assumption
    | intro _
    | with_reducible apply Kept.ite
    | with_reducible apply Kept.ite1
    | with_reducible apply Kept.ite2
    | (extract_lets +onlyGivenNames x
       first
         | (refine Kept.cut x ?_ fun hx => ?_; unfold x; clear x; rotate_left; clear_value x)
         | (refine Kept.cut1 x ?_ fun hx => ?_; unfold x; clear x; rotate_left; clear_value x)
         | clear_value x)
    | with_reducible apply loadPlan_kept
    | with_reducible apply showImage_kept
    | with_reducible apply loadKeys_kept
    | with_reducible apply loadRecord_kept
    | with_reducible apply loadChannel_kept
    | with_reducible apply loadWords_kept
    | with_reducible apply showWords_kept
    | with_reducible apply fieldHooks_kept
    | with_reducible apply bankPut_kept
    | with_reducible apply clearRings_kept
    | with_reducible apply wr_kept
    | with_reducible apply Kept.foldl
    | with_reducible apply Kept.foldl1
    | with_reducible apply Kept.foldl2
    | refine Kept.update ?_ rfl rfl rfl (Nat.le_refl _) (Nat.le_refl _)

theorem tryLoad_kept (l : List Bool) (f : Bool) (h : Kept q_ j_ a_ s) : Kept q_ j_ a_ (tryLoad l f s) := by
  induction l generalizing s f with
  | nil => exact ⟨h.regs, h.drives, h.queue, h.jseq, h.aseq⟩
  | cons b l ih =>
    unfold tryLoad
    repeat' first
    | with_reducible assumption
    | intro _
    | with_reducible apply Kept.ite
    | (extract_lets +onlyGivenNames x
       first
         | (refine Kept.cut x ?_ fun hx => ?_; unfold x; clear x; rotate_left; clear_value x)
         | clear_value x)
    | with_reducible apply ih
    | with_reducible apply applyImage_kept
    | with_reducible apply setTrial_kept
    | with_reducible apply setSlot_kept
    | with_reducible apply raise_kept
    | with_reducible apply wr_kept
    | split
    | refine Kept.update ?_ rfl rfl rfl (Nat.le_refl _) (Nat.le_refl _)


theorem startLoad_kept  {s : State} (h_ : Kept q_ j_ a_ s) :
    Kept q_ j_ a_ (startLoad s) := by
  unfold startLoad
  repeat' first
    | with_reducible assumption
    | intro _
    | with_reducible apply Kept.ite
    | (extract_lets +onlyGivenNames x
       first
         | (refine Kept.cut x ?_ fun hx => ?_; unfold x; clear x; rotate_left; clear_value x)
         | clear_value x)
    | with_reducible apply tryLoad_kept
    | with_reducible apply dropTried_kept
    | with_reducible apply latchOtp_kept
    | with_reducible apply enterMode_kept
    | with_reducible apply wr_kept
    | split

theorem execPorstNRelease_kept (mid : Nat) (supplies : Bool) (otp : Option Otp) (flash : Option Flash) {s : State} (h_ : Kept q_ j_ a_ s) :
    KeptO q_ j_ a_ (execPorstNRelease mid supplies otp flash s) := by
  unfold execPorstNRelease
  repeat' first
    | with_reducible assumption
    | intro _
    | with_reducible apply Kept.ite
    | (extract_lets +onlyGivenNames x
       first
         | (refine Kept.cut x ?_ fun hx => ?_; unfold x; clear x; rotate_left; clear_value x)
         | clear_value x)
    | with_reducible apply Kept.next
    | with_reducible apply startLoad_kept
    | with_reducible apply wr_kept
    | split
    | refine Kept.update ?_ rfl rfl rfl (Nat.le_refl _) (Nat.le_refl _)

theorem execPwrInternalReset_kept (supplies : Bool) {s : State} (h_ : Kept q_ j_ a_ s) :
    KeptO q_ j_ a_ (execPwrInternalReset supplies s) := by
  unfold execPwrInternalReset
  repeat' first
    | with_reducible assumption
    | intro _
    | with_reducible apply Kept.ite
    | (extract_lets +onlyGivenNames x
       first
         | (refine Kept.cut x ?_ fun hx => ?_; unfold x; clear x; rotate_left; clear_value x)
         | clear_value x)
    | with_reducible apply Kept.next
    | with_reducible apply startLoad_kept
    | with_reducible apply enterReset_kept
    | split
    | refine Kept.update ?_ rfl rfl rfl (Nat.le_refl _) (Nat.le_refl _)

theorem execLoadComplete_kept (ms : Nat) {s : State} (h_ : Kept q_ j_ a_ s) :
    KeptO q_ j_ a_ (execLoadComplete ms s) := by
  unfold execLoadComplete
  repeat' first
    | with_reducible assumption
    | intro _
    | with_reducible apply Kept.ite
    | (extract_lets +onlyGivenNames x
       first
         | (refine Kept.cut x ?_ fun hx => ?_; unfold x; clear x; rotate_left; clear_value x)
         | clear_value x)
    | with_reducible apply Kept.next
    | with_reducible apply holdCause_kept
    | with_reducible apply enableDomains_kept
    | with_reducible apply enterMode_kept
    | with_reducible apply wr_kept
    | split

theorem execMidStrapChange_kept (mid : Nat) {s : State} (h_ : Kept q_ j_ a_ s) :
    KeptO q_ j_ a_ (execMidStrapChange mid s) := by
  unfold execMidStrapChange
  repeat' first
    | with_reducible assumption
    | intro _
    | with_reducible apply Kept.ite
    | with_reducible apply Kept.next
    | with_reducible apply raise0_kept
    | split

theorem execDarkCheck_kept  {s : State} (h_ : Kept q_ j_ a_ s) :
    KeptO q_ j_ a_ (execDarkCheck s) := by
  unfold execDarkCheck
  repeat' first
    | with_reducible assumption
    | intro _
    | with_reducible apply Kept.ite
    | (extract_lets +onlyGivenNames x
       first
         | (refine Kept.cut x ?_ fun hx => ?_; unfold x; clear x; rotate_left; clear_value x)
         | clear_value x)
    | with_reducible apply Kept.next
    | split
    | refine Kept.update ?_ rfl rfl rfl (Nat.le_refl _) (Nat.le_refl _)

theorem confirmSlot_kept (b : Bool) {s : State} (h_ : Kept q_ j_ a_ s) :
    Kept q_ j_ a_ (confirmSlot b s) := by
  unfold confirmSlot
  repeat' first
    | with_reducible assumption
    | intro _
    | with_reducible apply Kept.ite
    | (extract_lets +onlyGivenNames x
       first
         | (refine Kept.cut x ?_ fun hx => ?_; unfold x; clear x; rotate_left; clear_value x)
         | (refine Kept.cut2 x ?_ fun hx => ?_; unfold x; clear x; rotate_left; clear_value x)
         | (refine Kept.cut1 x ?_ fun hx => ?_; unfold x; clear x; rotate_left; clear_value x)
         | clear_value x)
    | with_reducible apply showOtp_kept
    | with_reducible apply setSlot_kept
    | with_reducible apply commit_kept
    | with_reducible apply injHit_kept
    | with_reducible apply raise_kept
    | split
    | refine Kept.update ?_ rfl rfl rfl (Nat.le_refl _) (Nat.le_refl _)

theorem execDarkRelease_kept  {s : State} (h_ : Kept q_ j_ a_ s) :
    KeptO q_ j_ a_ (execDarkRelease s) := by
  unfold execDarkRelease
  repeat' first
    | with_reducible assumption
    | intro _
    | with_reducible apply Kept.ite
    | (extract_lets +onlyGivenNames x
       first
         | (refine Kept.cut x ?_ fun hx => ?_; unfold x; clear x; rotate_left; clear_value x)
         | clear_value x)
    | with_reducible apply Kept.next
    | with_reducible apply confirmSlot_kept
    | with_reducible apply losResume_kept
    | with_reducible apply lateEvents_kept
    | with_reducible apply enterMode_kept
    | with_reducible apply clrRelease_kept
    | split
    | refine Kept.update ?_ rfl rfl rfl (Nat.le_refl _) (Nat.le_refl _)

theorem execCalRunStart_kept  {s : State} (h_ : Kept q_ j_ a_ s) :
    KeptO q_ j_ a_ (execCalRunStart s) := by
  unfold execCalRunStart
  repeat' first
    | with_reducible assumption
    | intro _
    | with_reducible apply Kept.ite
    | with_reducible apply Kept.next
    | with_reducible apply startRun_kept
    | split

theorem execMpWatchdogExpiry_kept  {s : State} (h_ : Kept q_ j_ a_ s) :
    KeptO q_ j_ a_ (execMpWatchdogExpiry s) := by
  unfold execMpWatchdogExpiry
  repeat' first
    | with_reducible assumption
    | intro _
    | with_reducible apply Kept.ite
    | (extract_lets +onlyGivenNames x
       first
         | (refine Kept.cut x ?_ fun hx => ?_; unfold x; clear x; rotate_left; clear_value x)
         | clear_value x)
    | with_reducible apply Kept.next
    | with_reducible apply islandUp_kept
    | with_reducible apply modeTick_kept
    | with_reducible apply degOn_kept
    | with_reducible apply raise0_kept
    | split

theorem channelLost_kept (i : Nat) {s : State} (h_ : Kept q_ j_ a_ s) :
    Kept q_ j_ a_ (channelLost i s) := by
  unfold channelLost
  repeat' first
    | with_reducible assumption
    | intro _
    | with_reducible apply Kept.ite
    | with_reducible apply wr_kept
    | split

theorem execIslandSupplyFault_kept (island : Nat) {s : State} (h_ : Kept q_ j_ a_ s) :
    KeptO q_ j_ a_ (execIslandSupplyFault island s) := by
  unfold execIslandSupplyFault
  repeat' first
    | with_reducible assumption
    | intro _
    | with_reducible apply Kept.ite
    | (extract_lets +onlyGivenNames x
       first
         | (refine Kept.cut x ?_ fun hx => ?_; unfold x; clear x; rotate_left; clear_value x)
         | clear_value x)
    | with_reducible apply Kept.next
    | with_reducible apply channelLost_kept
    | with_reducible apply enterReset_kept
    | with_reducible apply islandDown_kept
    | with_reducible apply logIsland_kept
    | with_reducible apply modeTick_kept
    | with_reducible apply degOn_kept
    | with_reducible apply raise0_kept
    | with_reducible apply inc_kept
    | split
    | refine Kept.update ?_ rfl rfl rfl (Nat.le_refl _) (Nat.le_refl _)

end Sys2Proof.Machine
end

