-- ==== Sys2Proof/Laws/KeptCalRun.lean ====
section
/-! SUPPORT. Calibration runs: every operation keeps the register space and the
drives canonical, the queue of waiting commands, and the sequence numbers (`Kept`). -/

set_option linter.tactic.unusedName false
set_option linter.unreachableTactic false
set_option linter.unusedTactic false

namespace Sys2Proof.Machine

variable {q_ : List Instr} {j_ a_ : Nat} {s : State}

theorem heatAt_kept (l : List (Nat × Nat)) {s : State} (h_ : Kept q_ j_ a_ s) :
    Kept q_ j_ a_ (heatAt l s) := by
  unfold heatAt
  repeat' first
    | with_reducible assumption
    | intro _
    | with_reducible apply Kept.ite
    | with_reducible apply Kept.ite1
    | with_reducible apply Kept.ite2
    | with_reducible apply wrWord_kept
    | with_reducible apply Kept.foldl
    | with_reducible apply Kept.foldl1
    | with_reducible apply Kept.foldl2

theorem suspectMark_kept (x : Nat) {s : State} (h_ : Kept q_ j_ a_ s) :
    Kept q_ j_ a_ (suspectMark x s) := by
  unfold suspectMark
  repeat' first
    | with_reducible assumption
    | intro _
    | with_reducible apply Kept.ite
    | (extract_lets +onlyGivenNames x
       first
         | (refine Kept.cut x ?_ fun hx => ?_; unfold x; clear x; rotate_left; clear_value x)
         | clear_value x)
    | with_reducible apply markSuspect_kept
    | with_reducible apply putCal_kept
    | with_reducible apply notifyAll_kept
    | with_reducible apply raise0_kept
    | with_reducible apply setMapBit_kept
    | split

theorem qualify_kept (x : Nat) {s : State} (h_ : Kept q_ j_ a_ s) :
    Kept q_ j_ a_ (qualify x s) := by
  unfold qualify
  repeat' first
    | with_reducible assumption
    | intro _
    | with_reducible apply Kept.ite
    | (extract_lets +onlyGivenNames x
       first
         | (refine Kept.cut x ?_ fun hx => ?_; unfold x; clear x; rotate_left; clear_value x)
         | clear_value x)
    | with_reducible apply putCal_kept
    | with_reducible apply setMapBit_kept
    | with_reducible apply wr_kept
    | split

theorem markRun_kept (faults : List Nat) (measured : List Nat) (suspects : List Nat) {s : State} (h_ : Kept q_ j_ a_ s) :
    Kept q_ j_ a_ (markRun faults measured suspects s) := by
  unfold markRun
  repeat' first
    | with_reducible assumption
    | intro _
    | with_reducible apply Kept.ite
    | with_reducible apply Kept.ite1
    | with_reducible apply Kept.ite2
    | (extract_lets +onlyGivenNames x
       first
         | (refine Kept.cut x ?_ fun hx => ?_; unfold x; clear x; rotate_left; clear_value x)
         | clear_value x)
    | with_reducible apply qualify_kept
    | with_reducible apply suspectMark_kept
    | with_reducible apply showFlags_kept
    | with_reducible apply wr_kept
    | with_reducible apply Kept.foldl
    | with_reducible apply Kept.foldl1
    | with_reducible apply Kept.foldl2

theorem qualityCheck_kept  {s : State} (h_ : Kept q_ j_ a_ s) :
    Kept q_ j_ a_ (qualityCheck s) := by
  unfold qualityCheck
  repeat' first
    | with_reducible assumption
    | intro _
    | with_reducible apply Kept.ite
    | (extract_lets +onlyGivenNames x
       first
         | (refine Kept.cut x ?_ fun hx => ?_; unfold x; clear x; rotate_left; clear_value x)
         | clear_value x)
    | with_reducible apply notifyAll_kept
    | with_reducible apply raise0_kept
    | split

theorem storeRecord_kept  {s0 : State} (h_ : Kept q_ j_ a_ s0) :
    Kept q_ j_ a_ (storeRecord s0) := by
  unfold storeRecord
  repeat' first
    | with_reducible assumption
    | intro _
    | with_reducible apply Kept.ite
    | (extract_lets +onlyGivenNames x
       first
         | (refine Kept.cut x ?_ fun hx => ?_; unfold x; clear x; rotate_left; clear_value x)
         | clear_value x)
    | with_reducible apply showRecord_kept
    | with_reducible apply crcHit_kept
    | split
    | refine Kept.update ?_ rfl rfl rfl (Nat.le_refl _) (Nat.le_refl _)

theorem failRecord_kept  {s0 : State} (h_ : Kept q_ j_ a_ s0) :
    Kept q_ j_ a_ (failRecord s0) := by
  unfold failRecord
  repeat' first
    | with_reducible assumption
    | intro _
    | with_reducible apply Kept.ite
    | (extract_lets +onlyGivenNames x
       first
         | (refine Kept.cut x ?_ fun hx => ?_; unfold x; clear x; rotate_left; clear_value x)
         | clear_value x)
    | with_reducible apply crcHit_kept
    | with_reducible apply raise0_kept
    | split
    | refine Kept.update ?_ rfl rfl rfl (Nat.le_refl _) (Nat.le_refl _)

theorem bringRun_kept (m : CalMeas) {s : State} (h_ : Kept q_ j_ a_ s) :
    Kept q_ j_ a_ (bringRun m s) := by
  unfold bringRun
  repeat' first
    | with_reducible assumption
    | intro _
    | with_reducible apply Kept.ite
    | with_reducible apply Kept.ite1
    | with_reducible apply Kept.ite2
    | (extract_lets +onlyGivenNames x
       first
         | (refine Kept.cut x ?_ fun hx => ?_; unfold x; clear x; rotate_left; clear_value x)
         | (refine Kept.cut1 x ?_ fun hx => ?_; unfold x; clear x; rotate_left; clear_value x)
         | clear_value x)
    | with_reducible apply setModel_kept
    | with_reducible apply putCal_kept
    | with_reducible apply Kept.foldl
    | with_reducible apply Kept.foldl1
    | with_reducible apply Kept.foldl2
    | split
    | refine Kept.update ?_ rfl rfl rfl (Nat.le_refl _) (Nat.le_refl _)

theorem execCalRunEnd_kept (outcome : Nat) (meas : CalMeas) (failed : List Nat) {s : State} (h_ : Kept q_ j_ a_ s) :
    KeptO q_ j_ a_ (execCalRunEnd outcome meas failed s) := by
  unfold execCalRunEnd
  repeat' first
    | with_reducible assumption
    | intro _
    | with_reducible apply Kept.ite
    | (extract_lets +onlyGivenNames x
       first
         | (refine Kept.cut x ?_ fun hx => ?_; unfold x; clear x; rotate_left; clear_value x)
         | clear_value x)
    | with_reducible apply Kept.next
    | with_reducible apply bringRun_kept
    | with_reducible apply failRecord_kept
    | with_reducible apply storeRecord_kept
    | with_reducible apply qualityCheck_kept
    | with_reducible apply markRun_kept
    | with_reducible apply stopRun_kept
    | with_reducible apply putCal_kept
    | with_reducible apply raise0_kept
    | with_reducible apply wr_kept
    | split

theorem noteLight_kept  {s : State} (h_ : Kept q_ j_ a_ s) :
    Kept q_ j_ a_ (noteLight s) := by
  unfold noteLight
  repeat' first
    | with_reducible assumption
    | intro _
    | with_reducible apply Kept.ite
    | (extract_lets +onlyGivenNames x
       first
         | (refine Kept.cut x ?_ fun hx => ?_; unfold x; clear x; rotate_left; clear_value x)
         | clear_value x)
    | split
    | refine Kept.update ?_ rfl rfl rfl (Nat.le_refl _) (Nat.le_refl _)

theorem execCalLightWatch_kept (rawX : Int) (rawY : Int) {s : State} (h_ : Kept q_ j_ a_ s) :
    KeptO q_ j_ a_ (execCalLightWatch rawX rawY s) := by
  unfold execCalLightWatch
  repeat' first
    | with_reducible assumption
    | intro _
    | with_reducible apply Kept.ite
    | with_reducible apply Kept.next
    | with_reducible apply noteLight_kept
    | with_reducible apply pcvConvert_kept
    | split

end Sys2Proof.Machine
end

