-- ==== Sys2Proof/Laws/KeptCalib.lean ====
section
/-! SUPPORT. Background calibration: every operation keeps the register space and the
drives canonical, the queue of waiting commands, and the sequence numbers (`Kept`). -/

set_option linter.tactic.unusedName false
set_option linter.unreachableTactic false
set_option linter.unusedTactic false

namespace Sys2Proof.Machine

variable {q_ : List Instr} {j_ a_ : Nat} {s : State}

theorem correctionReady_kept (n : Nat) (fields : List (Nat × Nat × Nat)) {s : State} (h_ : Kept q_ j_ a_ s) :
    Kept q_ j_ a_ (correctionReady n fields s) := by
  unfold correctionReady
  repeat' first
    | with_reducible assumption
    | intro _
    | with_reducible apply Kept.ite
    | (extract_lets +onlyGivenNames x
       first
         | (refine Kept.cut x ?_ fun hx => ?_; unfold x; clear x; rotate_left; clear_value x)
         | (refine Kept.cut1 x ?_ fun hx => ?_; unfold x; clear x; rotate_left; clear_value x)
         | (refine Kept.cutF x ?_ fun hf1 => ?_; unfold x; clear x; rotate_left; clear_value x)
         | (refine Kept.cutF2 x ?_ fun hf2 => ?_; unfold x; clear x; rotate_left; clear_value x)
         | (refine Kept.cutF3 x ?_ fun hf3 => ?_; unfold x; clear x; rotate_left; clear_value x)
         | (refine Kept.cutF4 x ?_ fun hf4 => ?_; unfold x; clear x; rotate_left; clear_value x)
         | clear_value x)
    | with_reducible apply hf1
    | with_reducible apply hf2
    | with_reducible apply hf3
    | with_reducible apply hf4
    | with_reducible apply rampStart_kept
    | with_reducible apply corrApply_kept
    | split
    | refine Kept.update ?_ rfl rfl rfl (Nat.le_refl _) (Nat.le_refl _)

theorem stepEnd_kept (n : Nat) (agrees : Bool) (fields : List (Nat × Nat × Nat)) {s : State} (h_ : Kept q_ j_ a_ s) :
    Kept q_ j_ a_ (stepEnd n agrees fields s) := by
  unfold stepEnd
  repeat' first
    | with_reducible assumption
    | intro _
    | with_reducible apply Kept.ite
    | (extract_lets +onlyGivenNames x
       first
         | (refine Kept.cut x ?_ fun hx => ?_; unfold x; clear x; rotate_left; clear_value x)
         | clear_value x)
    | with_reducible apply correctionReady_kept
    | with_reducible apply suspectMark_kept
    | with_reducible apply incS_kept
    | split
    | refine Kept.update ?_ rfl rfl rfl (Nat.le_refl _) (Nat.le_refl _)

theorem b1Step_kept (n : Nat) (sum : Nat) {s : State} (h_ : Kept q_ j_ a_ s) :
    Kept q_ j_ a_ (b1Step n sum s) := by
  unfold b1Step
  repeat' first
    | with_reducible assumption
    | intro _
    | with_reducible apply Kept.ite
    | (extract_lets +onlyGivenNames x
       first
         | (refine Kept.cut x ?_ fun hx => ?_; unfold x; clear x; rotate_left; clear_value x)
         | clear_value x)
    | with_reducible apply stepEnd_kept
    | split
    | refine Kept.update ?_ rfl rfl rfl (Nat.le_refl _) (Nat.le_refl _)

theorem execBgB1Model_kept (loop : Nat) (sum : Nat) {s : State} (h_ : Kept q_ j_ a_ s) :
    KeptO q_ j_ a_ (execBgB1Model loop sum s) := by
  unfold execBgB1Model
  repeat' first
    | with_reducible assumption
    | intro _
    | with_reducible apply Kept.ite
    | with_reducible apply Kept.next
    | with_reducible apply b1Step_kept
    | with_reducible apply ucsPut_kept
    | with_reducible apply stepAbort_kept
    | with_reducible apply noteVisit_kept
    | split

theorem b2Step_kept (e : Nat) (kpi : Nat) (low : Nat) (swing : Nat) (umod : Option Nat) (dark : Option Nat) {s : State} (h_ : Kept q_ j_ a_ s) :
    Kept q_ j_ a_ (b2Step e kpi low swing umod dark s) := by
  unfold b2Step
  repeat' first
    | with_reducible assumption
    | intro _
    | with_reducible apply Kept.ite
    | (extract_lets +onlyGivenNames x
       first
         | (refine Kept.cut x ?_ fun hx => ?_; unfold x; clear x; rotate_left; clear_value x)
         | clear_value x)
    | with_reducible apply stepEnd_kept

theorem execBgB2Curvature_kept (elem : Nat) (kpi : Nat) (low : Nat) (swing : Nat) (umod : Option Nat) (dark : Option Nat) {s : State} (h_ : Kept q_ j_ a_ s) :
    KeptO q_ j_ a_ (execBgB2Curvature elem kpi low swing umod dark s) := by
  unfold execBgB2Curvature
  repeat' first
    | with_reducible assumption
    | intro _
    | with_reducible apply Kept.ite
    | with_reducible apply Kept.next
    | with_reducible apply b2Step_kept
    | with_reducible apply stepAbort_kept
    | with_reducible apply noteVisit_kept
    | with_reducible apply raise0_kept
    | split

theorem b3Step_kept (input : Nat) (taps : List (Int × Int)) {s : State} (h_ : Kept q_ j_ a_ s) :
    Kept q_ j_ a_ (b3Step input taps s) := by
  unfold b3Step
  repeat' first
    | with_reducible assumption
    | intro _
    | with_reducible apply Kept.ite
    | with_reducible apply Kept.ite1
    | with_reducible apply Kept.ite2
    | (extract_lets +onlyGivenNames x
       first
         | (refine Kept.cut x ?_ fun hx => ?_; unfold x; clear x; rotate_left; clear_value x)
         | (refine Kept.cut2 x ?_ fun hx => ?_; unfold x; clear x; rotate_left; clear_value x)
         | (refine Kept.cut1 x ?_ fun hx => ?_; unfold x; clear x; rotate_left; clear_value x)
         | clear_value x)
    | with_reducible apply stepEnd_kept
    | with_reducible apply Kept.foldl
    | with_reducible apply Kept.foldl1
    | with_reducible apply Kept.foldl2

theorem execBgB3InputTap_kept (input : Nat) (rawX : Int) (rawY : Int) (taps : List (Int × Int)) {s : State} (h_ : Kept q_ j_ a_ s) :
    KeptO q_ j_ a_ (execBgB3InputTap input rawX rawY taps s) := by
  unfold execBgB3InputTap
  repeat' first
    | with_reducible assumption
    | intro _
    | with_reducible apply Kept.ite
    | (extract_lets +onlyGivenNames x
       first
         | (refine Kept.cut x ?_ fun hx => ?_; unfold x; clear x; rotate_left; clear_value x)
         | clear_value x)
    | with_reducible apply Kept.next
    | with_reducible apply b3Step_kept
    | with_reducible apply pcvConvert_kept
    | with_reducible apply noteVisit_kept
    | with_reducible apply raise0_kept
    | split

theorem execCorrectionInForce_kept (loop : Nat) {s : State} (h_ : Kept q_ j_ a_ s) :
    KeptO q_ j_ a_ (execCorrectionInForce loop s) := by
  unfold execCorrectionInForce
  repeat' first
    | with_reducible assumption
    | intro _
    | with_reducible apply Kept.ite
    | with_reducible apply Kept.next
    | with_reducible apply corrApply_kept
    | split

theorem execCorrectionGradualStart_kept (loop : Nat) {s : State} (h_ : Kept q_ j_ a_ s) :
    KeptO q_ j_ a_ (execCorrectionGradualStart loop s) := by
  unfold execCorrectionGradualStart
  repeat' first
    | with_reducible assumption
    | intro _
    | with_reducible apply Kept.ite
    | (extract_lets +onlyGivenNames x
       first
         | (refine Kept.cut x ?_ fun hx => ?_; unfold x; clear x; rotate_left; clear_value x)
         | clear_value x)
    | with_reducible apply Kept.next
    | with_reducible apply rampStart_kept
    | with_reducible apply raise0_kept
    | with_reducible apply incS_kept
    | split

theorem writeRecord_kept (ok : Bool) {s : State} (h_ : Kept q_ j_ a_ s) :
    Kept q_ j_ a_ (writeRecord ok s) := by
  unfold writeRecord
  repeat' first
    | with_reducible assumption
    | intro _
    | with_reducible apply Kept.ite
    | with_reducible apply failRecord_kept
    | with_reducible apply storeRecord_kept
    | split

theorem execCalRecordWrite_kept (ok : Bool) {s : State} (h_ : Kept q_ j_ a_ s) :
    KeptO q_ j_ a_ (execCalRecordWrite ok s) := by
  unfold execCalRecordWrite
  repeat' first
    | with_reducible assumption
    | intro _
    | with_reducible apply Kept.ite
    | (extract_lets +onlyGivenNames x
       first
         | (refine Kept.cut x ?_ fun hx => ?_; unfold x; clear x; rotate_left; clear_value x)
         | clear_value x)
    | with_reducible apply Kept.next
    | with_reducible apply writeRecord_kept
    | split
    | refine Kept.update ?_ rfl rfl rfl (Nat.le_refl _) (Nat.le_refl _)

theorem waitedRecord_kept  {s : State} (h_ : Kept q_ j_ a_ s) :
    Kept q_ j_ a_ (waitedRecord s) := by
  unfold waitedRecord
  repeat' first
    | with_reducible assumption
    | intro _
    | with_reducible apply Kept.ite
    | with_reducible apply writeRecord_kept
    | split
    | refine Kept.update ?_ rfl rfl rfl (Nat.le_refl _) (Nat.le_refl _)

end Sys2Proof.Machine
end

