-- ==== Sys2Proof/Laws/KeptNet.lean ====
section
/-! SUPPORT. The network ports: every operation keeps the register space and the
drives canonical, the queue of waiting commands, and the sequence numbers (`Kept`). -/

set_option linter.tactic.unusedName false
set_option linter.unreachableTactic false
set_option linter.unusedTactic false

namespace Sys2Proof.Machine

variable {q_ : List Instr} {j_ a_ : Nat} {s : State}

theorem cntHalf_kept (p : Nat) (i : Nat) {s : State} (h_ : Kept q_ j_ a_ s) :
    Kept q_ j_ a_ (cntHalf p i s) := by
  unfold cntHalf
  repeat' first
    | with_reducible assumption
    | intro _
    | with_reducible apply Kept.ite
    | with_reducible apply raise0_kept
    | with_reducible apply wr_kept

theorem cntAdd_kept (p : Nat) (i : Nat) (n : Nat) {s : State} (h_ : Kept q_ j_ a_ s) :
    Kept q_ j_ a_ (cntAdd p i n s) := by
  unfold cntAdd
  repeat' first
    | with_reducible assumption
    | intro _
    | with_reducible apply Kept.ite
    | (extract_lets +onlyGivenNames x
       first
         | (refine Kept.cut x ?_ fun hx => ?_; unfold x; clear x; rotate_left; clear_value x)
         | clear_value x)
    | with_reducible apply cntHalf_kept
    | with_reducible apply wrWord_kept
    | split

theorem cntUp_kept (p : Nat) (i : Nat) {s : State} (h_ : Kept q_ j_ a_ s) :
    Kept q_ j_ a_ (cntUp p i s) := by
  unfold cntUp
  repeat' first
    | with_reducible assumption
    | intro _
    | with_reducible apply Kept.ite
    | with_reducible apply cntAdd_kept

theorem octAdd_kept (p : Nat) (i : Nat) (n : Nat) {s : State} (h_ : Kept q_ j_ a_ s) :
    Kept q_ j_ a_ (octAdd p i n s) := by
  unfold octAdd
  repeat' first
    | with_reducible assumption
    | intro _
    | with_reducible apply Kept.ite
    | (extract_lets +onlyGivenNames x
       first
         | (refine Kept.cut x ?_ fun hx => ?_; unfold x; clear x; rotate_left; clear_value x)
         | clear_value x)
    | with_reducible apply cntHalf_kept
    | with_reducible apply wrWord_kept
    | split

theorem showLink_kept (p : Nat) (up : Bool) (hiBer : Bool) (lf : Bool) (rf : Bool) {s : State} (h_ : Kept q_ j_ a_ s) :
    Kept q_ j_ a_ (showLink p up hiBer lf rf s) := by
  unfold showLink
  repeat' first
    | with_reducible assumption
    | intro _
    | with_reducible apply Kept.ite
    | with_reducible apply wr_kept

theorem execLinkUp_kept (port : Nat) (rxlat : Nat) (txlat : Nat) {s : State} (h_ : Kept q_ j_ a_ s) :
    KeptO q_ j_ a_ (execLinkUp port rxlat txlat s) := by
  unfold execLinkUp
  repeat' first
    | with_reducible assumption
    | intro _
    | with_reducible apply Kept.ite
    | (extract_lets +onlyGivenNames x
       first
         | (refine Kept.cut x ?_ fun hx => ?_; unfold x; clear x; rotate_left; clear_value x)
         | clear_value x)
    | with_reducible apply Kept.next
    | with_reducible apply showLink_kept
    | with_reducible apply wr_kept
    | split

theorem execLinkDown_kept (port : Nat) (hiBer : Bool) (lfault : Bool) (rfault : Bool) {s : State} (h_ : Kept q_ j_ a_ s) :
    KeptO q_ j_ a_ (execLinkDown port hiBer lfault rfault s) := by
  unfold execLinkDown
  repeat' first
    | with_reducible assumption
    | intro _
    | with_reducible apply Kept.ite
    | with_reducible apply Kept.ite1
    | with_reducible apply Kept.ite2
    | (extract_lets +onlyGivenNames x
       first
         | (refine Kept.cut x ?_ fun hx => ?_; unfold x; clear x; rotate_left; clear_value x)
         | clear_value x)
    | with_reducible apply Kept.next
    | with_reducible apply showLink_kept
    | with_reducible apply dropDown_kept
    | with_reducible apply leaveRound_kept
    | with_reducible apply showDepth_kept
    | with_reducible apply portPut_kept
    | with_reducible apply raise0_kept
    | with_reducible apply Kept.foldl
    | with_reducible apply Kept.foldl1
    | with_reducible apply Kept.foldl2
    | split
    | refine Kept.update ?_ rfl rfl rfl (Nat.le_refl _) (Nat.le_refl _)

theorem failPort_kept (p : Nat) {s : State} (h_ : Kept q_ j_ a_ s) :
    Kept q_ j_ a_ (failPort p s) := by
  unfold failPort
  repeat' first
    | with_reducible assumption
    | intro _
    | with_reducible apply Kept.ite
    | with_reducible apply Kept.ite1
    | with_reducible apply Kept.ite2
    | (extract_lets +onlyGivenNames x
       first
         | (refine Kept.cut x ?_ fun hx => ?_; unfold x; clear x; rotate_left; clear_value x)
         | clear_value x)
    | with_reducible apply degOn_kept
    | with_reducible apply dropDown_kept
    | with_reducible apply leaveRound_kept
    | with_reducible apply showDepth_kept
    | with_reducible apply portPut_kept
    | with_reducible apply raise0_kept
    | with_reducible apply Kept.foldl
    | with_reducible apply Kept.foldl1
    | with_reducible apply Kept.foldl2
    | split
    | refine Kept.update ?_ rfl rfl rfl (Nat.le_refl _) (Nat.le_refl _)

theorem execPortFail_kept (port : Nat) (memErr : Bool) {s : State} (h_ : Kept q_ j_ a_ s) :
    KeptO q_ j_ a_ (execPortFail port memErr s) := by
  unfold execPortFail
  repeat' first
    | with_reducible assumption
    | intro _
    | with_reducible apply Kept.ite
    | with_reducible apply Kept.next
    | with_reducible apply failPort_kept
    | with_reducible apply modeTick_kept
    | with_reducible apply raise0_kept
    | split

theorem execPortRestored_kept (port : Nat) {s : State} (h_ : Kept q_ j_ a_ s) :
    KeptO q_ j_ a_ (execPortRestored port s) := by
  unfold execPortRestored
  repeat' first
    | with_reducible assumption
    | intro _
    | with_reducible apply Kept.ite
    | (extract_lets +onlyGivenNames x
       first
         | (refine Kept.cut x ?_ fun hx => ?_; unfold x; clear x; rotate_left; clear_value x)
         | clear_value x)
    | with_reducible apply Kept.next
    | with_reducible apply modeTick_kept
    | with_reducible apply degOff_kept
    | with_reducible apply portPut_kept
    | split
    | refine Kept.update ?_ rfl rfl rfl (Nat.le_refl _) (Nat.le_refl _)

theorem pauseLoad_kept (p : Nat) (quanta : Nat) {s : State} (h_ : Kept q_ j_ a_ s) :
    Kept q_ j_ a_ (pauseLoad p quanta s) := by
  unfold pauseLoad
  repeat' first
    | with_reducible assumption
    | intro _
    | with_reducible apply Kept.ite
    | (extract_lets +onlyGivenNames x
       first
         | (refine Kept.cut x ?_ fun hx => ?_; unfold x; clear x; rotate_left; clear_value x)
         | clear_value x)
    | with_reducible apply portPut_kept
    | with_reducible apply wr_kept
    | refine Kept.update ?_ rfl rfl rfl (Nat.le_refl _) (Nat.le_refl _)

theorem pauseRx_kept (p : Nat) (quanta : Nat) {s : State} (h_ : Kept q_ j_ a_ s) :
    Kept q_ j_ a_ (pauseRx p quanta s) := by
  unfold pauseRx
  repeat' first
    | with_reducible assumption
    | intro _
    | with_reducible apply Kept.ite
    | (extract_lets +onlyGivenNames x
       first
         | (refine Kept.cut x ?_ fun hx => ?_; unfold x; clear x; rotate_left; clear_value x)
         | clear_value x)
    | with_reducible apply pauseLoad_kept
    | with_reducible apply cntUp_kept
    | with_reducible apply raise0_kept
    | split

theorem execPauseFrame_kept (port : Nat) (quanta : Nat) {s : State} (h_ : Kept q_ j_ a_ s) :
    KeptO q_ j_ a_ (execPauseFrame port quanta s) := by
  unfold execPauseFrame
  repeat' first
    | with_reducible assumption
    | intro _
    | with_reducible apply Kept.ite
    | with_reducible apply Kept.next
    | with_reducible apply pauseRx_kept
    | split

theorem execPauseExpiry_kept (port : Nat) {s : State} (h_ : Kept q_ j_ a_ s) :
    KeptO q_ j_ a_ (execPauseExpiry port s) := by
  unfold execPauseExpiry
  repeat' first
    | with_reducible assumption
    | intro _
    | with_reducible apply Kept.ite
    | with_reducible apply Kept.next
    | with_reducible apply pauseLoad_kept
    | split

theorem answerAsk_kept (p : Nat) (f : RxFrame) {s : State} (h_ : Kept q_ j_ a_ s) :
    Kept q_ j_ a_ (answerAsk p f s) := by
  unfold answerAsk
  repeat' first
    | with_reducible assumption
    | intro _
    | with_reducible apply Kept.ite
    | with_reducible apply enqueue_kept
    | split

theorem ringDrop_kept (p : Nat) (r : Nat) {s : State} (h_ : Kept q_ j_ a_ s) :
    Kept q_ j_ a_ (ringDrop p r s) := by
  unfold ringDrop
  repeat' first
    | with_reducible assumption
    | intro _
    | with_reducible apply Kept.ite
    | (extract_lets +onlyGivenNames x
       first
         | (refine Kept.cut x ?_ fun hx => ?_; unfold x; clear x; rotate_left; clear_value x)
         | clear_value x)
    | with_reducible apply cntUp_kept
    | with_reducible apply raise0_kept
    | split

theorem deliverRing_kept (p : Nat) (r : Nat) (f : RxFrame) {s : State} (h_ : Kept q_ j_ a_ s) :
    Kept q_ j_ a_ (deliverRing p r f s) := by
  unfold deliverRing
  repeat' first
    | with_reducible assumption
    | intro _
    | with_reducible apply Kept.ite
    | (extract_lets +onlyGivenNames x
       first
         | (refine Kept.cut x ?_ fun hx => ?_; unfold x; clear x; rotate_left; clear_value x)
         | (refine Kept.cut2 x ?_ fun hx => ?_; unfold x; clear x; rotate_left; clear_value x)
         | (refine Kept.cut1 x ?_ fun hx => ?_; unfold x; clear x; rotate_left; clear_value x)
         | clear_value x)
    | with_reducible apply failPort_kept
    | with_reducible apply cntUp_kept
    | with_reducible apply noDomain_kept
    | with_reducible apply modeTick_kept
    | with_reducible apply ringSet_kept
    | with_reducible apply eccHit_kept
    | split

theorem countFec_kept (p : Nat) (f : RxFrame) {s : State} (h_ : Kept q_ j_ a_ s) :
    Kept q_ j_ a_ (countFec p f s) := by
  unfold countFec
  repeat' first
    | with_reducible assumption
    | intro _
    | with_reducible apply Kept.ite
    | (extract_lets +onlyGivenNames x
       first
         | (refine Kept.cut x ?_ fun hx => ?_; unfold x; clear x; rotate_left; clear_value x)
         | clear_value x)
    | with_reducible apply cntAdd_kept
    | with_reducible apply raise0_kept
    | split

theorem acceptFrame_kept (port : Nat) (r : Nat) (f : RxFrame) {s : State} (h_ : Kept q_ j_ a_ s) :
    Kept q_ j_ a_ (acceptFrame port r f s) := by
  unfold acceptFrame
  repeat' first
    | with_reducible assumption
    | intro _
    | with_reducible apply Kept.ite
    | (extract_lets +onlyGivenNames x
       first
         | (refine Kept.cut x ?_ fun hx => ?_; unfold x; clear x; rotate_left; clear_value x)
         | (refine Kept.cut2 x ?_ fun hx => ?_; unfold x; clear x; rotate_left; clear_value x)
         | (refine Kept.cut1 x ?_ fun hx => ?_; unfold x; clear x; rotate_left; clear_value x)
         | clear_value x)
    | with_reducible apply deliverRing_kept
    | with_reducible apply ringDrop_kept
    | with_reducible apply answerAsk_kept
    | with_reducible apply police_kept
    | split

theorem execFrameRx_kept (port : Nat) (f : RxFrame) {s : State} (h_ : Kept q_ j_ a_ s) :
    KeptO q_ j_ a_ (execFrameRx port f s) := by
  unfold execFrameRx
  apply Kept.next
  apply Kept.ite h_
  extract_lets inj s1 s2
  have h1 : Kept q_ j_ a_ s1 := by unfold s1; exact countFec_kept _ _ (injHit_kept _ _ h_)
  clear_value s1
  clear_value inj
  split
  · apply cntUp_kept _ _ h1
  · apply Kept.ite
    · apply Kept.ite (pauseRx_kept _ _ h1) (cntUp_kept _ _ h1)
    · exact acceptFrame_kept _ _ _ (octAdd_kept _ _ _ (cntUp_kept _ _ h1))

theorem execSafetyBufferTimeout_kept (port : Nat) {s : State} (h_ : Kept q_ j_ a_ s) :
    KeptO q_ j_ a_ (execSafetyBufferTimeout port s) := by
  unfold execSafetyBufferTimeout
  repeat' first
    | with_reducible assumption
    | intro _
    | with_reducible apply Kept.ite
    | with_reducible apply Kept.next
    | with_reducible apply takeRing_kept
    | split

theorem execFrameTxComplete_kept (port : Nat) {s : State} (h_ : Kept q_ j_ a_ s) :
    KeptO q_ j_ a_ (execFrameTxComplete port s) := by
  unfold execFrameTxComplete
  repeat' first
    | with_reducible assumption
    | intro _
    | with_reducible apply Kept.ite
    | (extract_lets +onlyGivenNames x
       first
         | (refine Kept.cut x ?_ fun hx => ?_; unfold x; clear x; rotate_left; clear_value x)
         | clear_value x)
    | with_reducible apply Kept.next
    | with_reducible apply octAdd_kept
    | with_reducible apply cntUp_kept
    | with_reducible apply bumpEgs_kept
    | with_reducible apply showDepth_kept
    | with_reducible apply portPut_kept
    | split
    | refine Kept.update ?_ rfl rfl rfl (Nat.le_refl _) (Nat.le_refl _)

end Sys2Proof.Machine
end

