-- ==== Sys2Proof/Laws/KeptSnap.lean ====
section
/-! SUPPORT. Scrubbing and snapshots: every operation keeps the register space and the
drives canonical, the queue of waiting commands, and the sequence numbers (`Kept`). -/

set_option linter.tactic.unusedName false
set_option linter.unreachableTactic false
set_option linter.unusedTactic false

namespace Sys2Proof.Machine

variable {q_ : List Instr} {j_ a_ : Nat} {s : State}

theorem wordError_kept (b : Blk) (sel : Nat) (c : Cause) {s : State} (h_ : Kept q_ j_ a_ s) :
    Kept q_ j_ a_ (wordError b sel c s) := by
  unfold wordError
  repeat' first
    | with_reducible assumption
    | intro _
    | with_reducible apply Kept.ite
    | (extract_lets +onlyGivenNames x
       first
         | (refine Kept.cut x ?_ fun hx => ?_; unfold x; clear x; rotate_left; clear_value x)
         | clear_value x)
    | with_reducible apply binPut_kept
    | with_reducible apply countOnly_kept
    | with_reducible apply raise_kept
    | split
    | refine Kept.update ?_ rfl rfl rfl (Nat.le_refl _) (Nat.le_refl _)

theorem touch_kept (a : Nat) (master : Nat) (acc : Nat) (flips : Nat) {s : State} (h_ : Kept q_ j_ a_ s) :
    Kept q_ j_ a_ (touch a master acc flips s) := by
  unfold touch
  repeat' first
    | with_reducible assumption
    | intro _
    | with_reducible apply Kept.ite
    | (extract_lets +onlyGivenNames x
       first
         | (refine Kept.cut x ?_ fun hx => ?_; unfold x; clear x; rotate_left; clear_value x)
         | (refine Kept.cut2 x ?_ fun hx => ?_; unfold x; clear x; rotate_left; clear_value x)
         | (refine Kept.cut1 x ?_ fun hx => ?_; unfold x; clear x; rotate_left; clear_value x)
         | clear_value x)
    | with_reducible apply wordError_kept
    | with_reducible apply countOnly_kept
    | with_reducible apply injParity_kept
    | with_reducible apply injHit_kept
    | split
    | refine Kept.update ?_ rfl rfl rfl (Nat.le_refl _) (Nat.le_refl _)

theorem execScrubAccess_kept (addr : Nat) (flips : Nat) {s : State} (h_ : Kept q_ j_ a_ s) :
    KeptO q_ j_ a_ (execScrubAccess addr flips s) := by
  unfold execScrubAccess
  repeat' first
    | with_reducible assumption
    | intro _
    | with_reducible apply Kept.ite
    | with_reducible apply Kept.next
    | with_reducible apply touch_kept
    | split

theorem clearStatus_kept (b : Blk) (mask : Nat) {s : State} (h_ : Kept q_ j_ a_ s) :
    Kept q_ j_ a_ (clearStatus b mask s) := by
  unfold clearStatus
  repeat' first
    | with_reducible assumption
    | intro _
    | with_reducible apply Kept.ite
    | with_reducible apply wrWord_kept

theorem clearFirst_kept (b : Blk) {s : State} (h_ : Kept q_ j_ a_ s) :
    Kept q_ j_ a_ (clearFirst b s) := by
  unfold clearFirst
  repeat' first
    | with_reducible assumption
    | intro _
    | with_reducible apply Kept.ite
    | with_reducible apply wrWord_kept

theorem armInject_kept (b : Blk) {s : State} (h_ : Kept q_ j_ a_ s) :
    Kept q_ j_ a_ (armInject b s) := by
  unfold armInject
  repeat' first
    | with_reducible assumption
    | intro _
    | with_reducible apply Kept.ite
    | (extract_lets +onlyGivenNames x
       first
         | (refine Kept.cut x ?_ fun hx => ?_; unfold x; clear x; rotate_left; clear_value x)
         | clear_value x)
    | with_reducible apply wrWord_kept

theorem execStatusClear_kept (blk : Nat) (mask : Nat) {s : State} (h_ : Kept q_ j_ a_ s) :
    KeptO q_ j_ a_ (execStatusClear blk mask s) := by
  unfold execStatusClear
  repeat' first
    | with_reducible assumption
    | intro _
    | with_reducible apply Kept.ite
    | with_reducible apply Kept.next
    | with_reducible apply clearStatus_kept
    | split
    | refine Kept.update ?_ rfl rfl rfl (Nat.le_refl _) (Nat.le_refl _)

theorem execFirstInfoClear_kept (blk : Nat) {s : State} (h_ : Kept q_ j_ a_ s) :
    KeptO q_ j_ a_ (execFirstInfoClear blk s) := by
  unfold execFirstInfoClear
  repeat' first
    | with_reducible assumption
    | intro _
    | with_reducible apply Kept.ite
    | with_reducible apply Kept.next
    | with_reducible apply clearFirst_kept
    | split
    | refine Kept.update ?_ rfl rfl rfl (Nat.le_refl _) (Nat.le_refl _)

theorem execInjectArm_kept (blk : Nat) (sel : Nat) (mask : Nat) {s : State} (h_ : Kept q_ j_ a_ s) :
    KeptO q_ j_ a_ (execInjectArm blk sel mask s) := by
  unfold execInjectArm
  repeat' first
    | with_reducible assumption
    | intro _
    | with_reducible apply Kept.ite
    | with_reducible apply Kept.next
    | with_reducible apply armInject_kept
    | with_reducible apply wrWord_kept
    | split
    | refine Kept.update ?_ rfl rfl rfl (Nat.le_refl _) (Nat.le_refl _)

theorem execSnapPin_kept  {s : State} (h_ : Kept q_ j_ a_ s) :
    KeptO q_ j_ a_ (execSnapPin s) := by
  unfold execSnapPin
  repeat' first
    | with_reducible assumption
    | intro _
    | with_reducible apply Kept.ite
    | with_reducible apply Kept.next
    | with_reducible apply snapTrigger_kept

theorem snapUnschedule_kept  {s : State} (h_ : Kept q_ j_ a_ s) :
    Kept q_ j_ a_ (snapUnschedule s) := by
  unfold snapUnschedule
  repeat' first
    | with_reducible assumption
    | intro _
    | with_reducible apply Kept.ite
    | (extract_lets +onlyGivenNames x
       first
         | (refine Kept.cut x ?_ fun hx => ?_; unfold x; clear x; rotate_left; clear_value x)
         | clear_value x)
    | with_reducible apply wr_kept
    | refine Kept.update ?_ rfl rfl rfl (Nat.le_refl _) (Nat.le_refl _)

theorem snapSchedule_kept (name : Nat) (at_ : Nat) {s : State} (h_ : Kept q_ j_ a_ s) :
    Kept q_ j_ a_ (snapSchedule name at_ s) := by
  unfold snapSchedule
  repeat' first
    | with_reducible assumption
    | intro _
    | with_reducible apply Kept.ite
    | (extract_lets +onlyGivenNames x
       first
         | (refine Kept.cut x ?_ fun hx => ?_; unfold x; clear x; rotate_left; clear_value x)
         | clear_value x)
    | with_reducible apply wr_kept
    | refine Kept.update ?_ rfl rfl rfl (Nat.le_refl _) (Nat.le_refl _)

theorem execSnapshotScheduledTrigger_kept  {s : State} (h_ : Kept q_ j_ a_ s) :
    KeptO q_ j_ a_ (execSnapshotScheduledTrigger s) := by
  unfold execSnapshotScheduledTrigger
  repeat' first
    | with_reducible assumption
    | intro _
    | with_reducible apply Kept.ite
    | (extract_lets +onlyGivenNames x
       first
         | (refine Kept.cut x ?_ fun hx => ?_; unfold x; clear x; rotate_left; clear_value x)
         | clear_value x)
    | with_reducible apply Kept.next
    | with_reducible apply snapUnschedule_kept
    | with_reducible apply raise0_kept
    | with_reducible apply snapTrigger_kept
    | split

theorem snapRelease_kept  {s : State} (h_ : Kept q_ j_ a_ s) :
    Kept q_ j_ a_ (snapRelease s) := by
  unfold snapRelease
  repeat' first
    | with_reducible assumption
    | intro _
    | with_reducible apply Kept.ite
    | with_reducible apply wr_kept

theorem snapExport_kept  {s : State} (h_ : Kept q_ j_ a_ s) :
    Kept q_ j_ a_ (snapExport s) := by
  unfold snapExport
  repeat' first
    | with_reducible assumption
    | intro _
    | with_reducible apply Kept.ite
    | with_reducible apply Kept.ite1
    | with_reducible apply Kept.ite2
    | (extract_lets +onlyGivenNames x
       first
         | (refine Kept.cut x ?_ fun hx => ?_; unfold x; clear x; rotate_left; clear_value x)
         | clear_value x)
    | with_reducible apply addRecordAt_kept
    | with_reducible apply wr_kept
    | with_reducible apply Kept.foldl
    | with_reducible apply Kept.foldl1
    | with_reducible apply Kept.foldl2
    | split

theorem execSnapshotExportEnd_kept  {s : State} (h_ : Kept q_ j_ a_ s) :
    KeptO q_ j_ a_ (execSnapshotExportEnd s) := by
  unfold execSnapshotExportEnd
  repeat' first
    | with_reducible assumption
    | intro _
    | with_reducible apply Kept.ite
    | with_reducible apply Kept.next
    | with_reducible apply wr_kept
    | split

end Sys2Proof.Machine
end

