-- ==== Sys2Proof/Laws/KeptKcp.lean ====
section
/-! SUPPORT. KCP requests: every operation keeps the register space and the
drives canonical, the queue of waiting commands, and the sequence numbers (`Kept`). -/

set_option linter.tactic.unusedName false
set_option linter.unreachableTactic false
set_option linter.unusedTactic false

namespace Sys2Proof.Machine

variable {q_ : List Instr} {j_ a_ : Nat} {s : State}

theorem sigFail_kept (k : Nat) {s : State} (h_ : Kept q_ j_ a_ s) :
    Kept q_ j_ a_ (sigFail k s) := by
  unfold sigFail
  repeat' first
    | with_reducible assumption
    | intro _
    | with_reducible apply Kept.ite
    | with_reducible apply raise0_kept
    | with_reducible apply incS_kept

theorem accepted_kept (h : Hdr) (type : Nat) (payload : List Nat) {s : State} (h_ : Kept q_ j_ a_ s) :
    Kept q_ j_ a_ (accepted h type payload s) := by
  unfold accepted
  repeat' first
    | with_reducible assumption
    | intro _
    | with_reducible apply Kept.ite
    | with_reducible apply commitV_kept

theorem rejected_kept (h : Hdr) (type : Nat) (reason : Nat) (index : Nat) {s : State} (h_ : Kept q_ j_ a_ s) :
    Kept q_ j_ a_ (rejected h type reason index s) := by
  unfold rejected
  repeat' first
    | with_reducible assumption
    | intro _
    | with_reducible apply Kept.ite
    | with_reducible apply commitV_kept

theorem refuse_kept (h : Hdr) (r : Req) (reason : Nat) (index : Nat) {s : State} (h_ : Kept q_ j_ a_ s) :
    Kept q_ j_ a_ (refuse h r reason index s).2 := by
  unfold refuse
  repeat' first
    | with_reducible assumption
    | intro _
    | with_reducible apply Kept.ite
    | with_reducible apply Kept.ite1
    | with_reducible apply Kept.ite2
    | with_reducible apply rejected_kept
    | split

theorem closeSess_kept (k : Nat) {s : State} (h_ : Kept q_ j_ a_ s) :
    Kept q_ j_ a_ (closeSess k s) := by
  unfold closeSess
  repeat' first
    | with_reducible assumption
    | intro _
    | with_reducible apply Kept.ite
    | (extract_lets +onlyGivenNames x
       first
         | (refine Kept.cut x ?_ fun hx => ?_; unfold x; clear x; rotate_left; clear_value x)
         | clear_value x)
    | with_reducible apply sessPut_kept
    | with_reducible apply wr_kept
    | refine Kept.update ?_ rfl rfl rfl (Nat.le_refl _) (Nat.le_refl _)

theorem sessEntry_kept (h : Hdr) (type : Nat) (op : Nat) (k : Nat) (slot : Nat) (rights : Nat) (key : Nat) {s : State} (h_ : Kept q_ j_ a_ s) :
    Kept q_ j_ a_ (sessEntry h type op k slot rights key s) := by
  unfold sessEntry
  repeat' first
    | with_reducible assumption
    | intro _
    | with_reducible apply Kept.ite
    | with_reducible apply commitV_kept

theorem sendHeld_kept (k : Nat) {s : State} (h_ : Kept q_ j_ a_ s) :
    Kept q_ j_ a_ (sendHeld k s) := by
  unfold sendHeld
  repeat' first
    | with_reducible assumption
    | intro _
    | with_reducible apply Kept.ite
    | with_reducible apply Kept.ite1
    | with_reducible apply Kept.ite2
    | (extract_lets +onlyGivenNames x
       first
         | (refine Kept.cut x ?_ fun hx => ?_; unfold x; clear x; rotate_left; clear_value x)
         | clear_value x)
    | with_reducible apply sendCompletion_kept
    | with_reducible apply sessPut_kept
    | with_reducible apply Kept.foldl
    | with_reducible apply Kept.foldl1
    | with_reducible apply Kept.foldl2
    | refine Kept.update ?_ rfl rfl rfl (Nat.le_refl _) (Nat.le_refl _)

theorem openSess_kept (k : Nat) (slot : Nat) (resume : Bool) (planobs : Bool) (key : Nat) (peer : Peer) {s : State} (h_ : Kept q_ j_ a_ s) :
    Kept q_ j_ a_ (openSess k slot resume planobs key peer s) := by
  unfold openSess
  repeat' first
    | with_reducible assumption
    | intro _
    | with_reducible apply Kept.ite
    | (extract_lets +onlyGivenNames x
       first
         | (refine Kept.cut x ?_ fun hx => ?_; unfold x; clear x; rotate_left; clear_value x)
         | clear_value x)
    | with_reducible apply sessPut_kept
    | with_reducible apply wr_kept
    | split
    | refine Kept.update ?_ rfl rfl rfl (Nat.le_refl _) (Nat.le_refl _)

theorem acceptOpen_kept (h : Hdr) (slot : Nat) (resume : Bool) (planobs : Bool) (openId : Nat) (key : Nat) (modNonce : Nat) {s : State} (h_ : Kept q_ j_ a_ s) :
    Kept q_ j_ a_ (acceptOpen h slot resume planobs openId key modNonce s) := by
  unfold acceptOpen
  repeat' first
    | with_reducible assumption
    | intro _
    | with_reducible apply Kept.ite
    | (extract_lets +onlyGivenNames x
       first
         | (refine Kept.cut x ?_ fun hx => ?_; unfold x; clear x; rotate_left; clear_value x)
         | clear_value x)
    | with_reducible apply openSess_kept
    | with_reducible apply sendHeld_kept
    | with_reducible apply sessEntry_kept
    | with_reducible apply sendAnswer_kept
    | with_reducible apply sessPut_kept
    | split
    | refine Kept.update ?_ rfl rfl rfl (Nat.le_refl _) (Nat.le_refl _)

theorem journalTakes_kept (h : Hdr) {s : State} (h_ : Kept q_ j_ a_ s) :
    Kept q_ j_ a_ (journalTakes h s).2 := by
  unfold journalTakes
  repeat' first
    | with_reducible assumption
    | intro _
    | with_reducible apply Kept.ite
    | with_reducible apply Kept.ite1
    | with_reducible apply Kept.ite2
    | (extract_lets +onlyGivenNames x
       first
         | (refine Kept.cut x ?_ fun hx => ?_; unfold x; clear x; rotate_left; clear_value x)
         | clear_value x)
    | with_reducible apply saveHist_kept
    | with_reducible apply retireCopy_kept
    | split

theorem doRead_kept (h : Hdr) (r : Req) (count : Nat) (mode : Nat) (addrs : List Nat) {s : State} (h_ : Kept q_ j_ a_ s) :
    Kept q_ j_ a_ (doRead h r count mode addrs s).2 := by
  unfold doRead
  repeat' first
    | with_reducible assumption
    | intro _
    | with_reducible apply Kept.ite
    | with_reducible apply Kept.ite1
    | with_reducible apply Kept.ite2
    | (extract_lets +onlyGivenNames x
       first
         | (refine Kept.cut x ?_ fun hx => ?_; unfold x; clear x; rotate_left; clear_value x)
         | (refine Kept.cut2 x ?_ fun hx => ?_; unfold x; clear x; rotate_left; clear_value x)
         | (refine Kept.cut1 x ?_ fun hx => ?_; unfold x; clear x; rotate_left; clear_value x)
         | clear_value x)
    | with_reducible apply refuse_kept
    | with_reducible apply readWordsIn_kept
    | with_reducible apply commitV_kept
    | split
    | refine Kept.update ?_ rfl rfl rfl (Nat.le_refl _) (Nat.le_refl _)

theorem doQuery_kept (h : Hdr) (r : Req) (key : Nat) (session : Nat) (num : Nat) {s : State} (h_ : Kept q_ j_ a_ s) :
    Kept q_ j_ a_ (doQuery h r key session num s).2 := by
  unfold doQuery
  repeat' first
    | with_reducible assumption
    | intro _
    | with_reducible apply Kept.ite
    | with_reducible apply Kept.ite1
    | with_reducible apply Kept.ite2
    | with_reducible apply refuse_kept
    | split

theorem answerQueries_kept  {s : State} (h_ : Kept q_ j_ a_ s) :
    Kept q_ j_ a_ (answerQueries s) := by
  unfold answerQueries
  repeat' first
    | with_reducible assumption
    | intro _
    | with_reducible apply Kept.ite
    | with_reducible apply Kept.ite1
    | with_reducible apply Kept.ite2
    | with_reducible apply answerLate_kept
    | with_reducible apply Kept.foldl
    | with_reducible apply Kept.foldl1
    | with_reducible apply Kept.foldl2
    | split
    | refine Kept.update ?_ rfl rfl rfl (Nat.le_refl _) (Nat.le_refl _)

theorem doAttest_kept (r : Req) (nonce : Nat) {s : State} (h_ : Kept q_ j_ a_ s) :
    Kept q_ j_ a_ (doAttest r nonce s).2 := by
  unfold doAttest
  repeat' first
    | with_reducible assumption
    | intro _
    | with_reducible apply Kept.ite
    | with_reducible apply Kept.ite1
    | with_reducible apply Kept.ite2
    | (extract_lets +onlyGivenNames x
       first
         | (refine Kept.cut x ?_ fun hx => ?_; unfold x; clear x; rotate_left; clear_value x)
         | clear_value x)
    | split
    | refine Kept.update ?_ rfl rfl rfl (Nat.le_refl _) (Nat.le_refl _)

theorem doJread_kept (h : Hdr) (r : Req) (jseq : Nat) (count : Nat) {s : State} (h_ : Kept q_ j_ a_ s) :
    Kept q_ j_ a_ (doJread h r jseq count s).2 := by
  unfold doJread
  repeat' first
    | with_reducible assumption
    | intro _
    | with_reducible apply Kept.ite
    | with_reducible apply Kept.ite1
    | with_reducible apply Kept.ite2
    | (extract_lets +onlyGivenNames x
       first
         | (refine Kept.cut x ?_ fun hx => ?_; unfold x; clear x; rotate_left; clear_value x)
         | clear_value x)
    | with_reducible apply refuse_kept
    | split
    | refine Kept.update ?_ rfl rfl rfl (Nat.le_refl _) (Nat.le_refl _)

theorem doWrite_kept (h : Hdr) (r : Req) (items : List (Nat × Nat × Nat)) {s : State} (h_ : Kept q_ j_ a_ s) :
    Kept q_ j_ a_ (doWrite h r items s).2 := by
  unfold doWrite
  repeat' first
    | with_reducible assumption
    | intro _
    | with_reducible apply Kept.ite
    | with_reducible apply Kept.ite1
    | with_reducible apply Kept.ite2
    | (extract_lets +onlyGivenNames x
       first
         | (refine Kept.cut x ?_ fun hx => ?_; unfold x; clear x; rotate_left; clear_value x)
         | clear_value x)
    | with_reducible apply refuse_kept
    | with_reducible apply applyItem_kept
    | with_reducible apply commitEntries_kept
    | with_reducible apply Kept.foldl
    | with_reducible apply Kept.foldl1
    | with_reducible apply Kept.foldl2
    | split
    | refine Kept.update ?_ rfl rfl rfl (Nat.le_refl _) (Nat.le_refl _)

theorem doEvent_kept (h : Hdr) (r : Req) (e : EvReq) (arrival : Nat) {s : State} (h_ : Kept q_ j_ a_ s) :
    Kept q_ j_ a_ (doEvent h r e arrival s).2 := by
  unfold doEvent
  repeat' first
    | with_reducible assumption
    | intro _
    | with_reducible apply Kept.ite
    | with_reducible apply Kept.ite1
    | with_reducible apply Kept.ite2
    | with_reducible apply refuse_kept
    | with_reducible apply noteFull_kept
    | with_reducible apply acceptEvent_kept
    | split
    | refine Kept.update ?_ rfl rfl rfl (Nat.le_refl _) (Nat.le_refl _)

theorem doCancel_kept (h : Hdr) (r : Req) (session : Nat) (sseq : Nat) {s : State} (h_ : Kept q_ j_ a_ s) :
    Kept q_ j_ a_ (doCancel h r session sseq s).2 := by
  unfold doCancel
  repeat' first
    | with_reducible assumption
    | intro _
    | with_reducible apply Kept.ite
    | with_reducible apply Kept.ite1
    | with_reducible apply Kept.ite2
    | (extract_lets +onlyGivenNames x
       first
         | (refine Kept.cut x ?_ fun hx => ?_; unfold x; clear x; rotate_left; clear_value x)
         | (refine Kept.cut2 x ?_ fun hx => ?_; unfold x; clear x; rotate_left; clear_value x)
         | clear_value x)
    | with_reducible apply refuse_kept
    | with_reducible apply accepted_kept
    | with_reducible apply placeReady_kept
    | with_reducible apply finalise_kept
    | with_reducible apply sendCompletion_kept
    | with_reducible apply sendBody_kept
    | split
    | refine Kept.update ?_ rfl rfl rfl (Nat.le_refl _) (Nat.le_refl _)

theorem doGroupCommit_kept (h : Hdr) (r : Req) (gid : Nat) (members : Nat) (instant : Nat) (sig : GSig) {s : State} (h_ : Kept q_ j_ a_ s) :
    Kept q_ j_ a_ (doGroupCommit h r gid members instant sig s).2 := by
  unfold doGroupCommit
  repeat' first
    | with_reducible assumption
    | intro _
    | with_reducible apply Kept.ite
    | with_reducible apply Kept.ite1
    | with_reducible apply Kept.ite2
    | with_reducible apply refuse_kept
    | with_reducible apply accepted_kept
    | with_reducible apply sigFail_kept
    | with_reducible apply commitGroup_kept
    | split
    | refine Kept.update ?_ rfl rfl rfl (Nat.le_refl _) (Nat.le_refl _)

theorem doGroupAbort_kept (h : Hdr) (r : Req) (gid : Nat) {s : State} (h_ : Kept q_ j_ a_ s) :
    Kept q_ j_ a_ (doGroupAbort h r gid s).2 := by
  unfold doGroupAbort
  repeat' first
    | with_reducible assumption
    | intro _
    | with_reducible apply Kept.ite
    | with_reducible apply Kept.ite1
    | with_reducible apply Kept.ite2
    | (extract_lets +onlyGivenNames x
       first
         | (refine Kept.cut x ?_ fun hx => ?_; unfold x; clear x; rotate_left; clear_value x)
         | clear_value x)
    | with_reducible apply refuse_kept
    | with_reducible apply accepted_kept
    | with_reducible apply placeReady_kept
    | with_reducible apply finalise_kept
    | with_reducible apply evStatus_kept
    | split
    | refine Kept.update ?_ rfl rfl rfl (Nat.le_refl _) (Nat.le_refl _)

theorem doMode_kept (h : Hdr) (r : Req) (op : Nat) (arg : Nat) (rsvd : Nat) {s : State} (h_ : Kept q_ j_ a_ s) :
    Kept q_ j_ a_ (doMode h r op arg rsvd s).2 := by
  unfold doMode
  repeat' first
    | with_reducible assumption
    | intro _
    | with_reducible apply Kept.ite
    | with_reducible apply Kept.ite1
    | with_reducible apply Kept.ite2
    | (extract_lets +onlyGivenNames x
       first
         | (refine Kept.cut x ?_ fun hx => ?_; unfold x; clear x; rotate_left; clear_value x)
         | clear_value x)
    | with_reducible apply refuse_kept
    | with_reducible apply accepted_kept
    | with_reducible apply modeTickBy_kept
    | with_reducible apply wr_kept
    | split
    | refine Kept.update ?_ rfl rfl rfl (Nat.le_refl _) (Nat.le_refl _)

theorem doSnapshot_kept (h : Hdr) (r : Req) (op : Nat) (instant : Nat) {s : State} (h_ : Kept q_ j_ a_ s) :
    Kept q_ j_ a_ (doSnapshot h r op instant s).2 := by
  unfold doSnapshot
  repeat' first
    | with_reducible assumption
    | intro _
    | with_reducible apply Kept.ite
    | with_reducible apply Kept.ite1
    | with_reducible apply Kept.ite2
    | (extract_lets +onlyGivenNames x
       first
         | (refine Kept.cut x ?_ fun hx => ?_; unfold x; clear x; rotate_left; clear_value x)
         | (refine Kept.cutF x ?_ fun hf1 => ?_; unfold x; clear x; rotate_left; clear_value x)
         | (refine Kept.cutF2 x ?_ fun hf2 => ?_; unfold x; clear x; rotate_left; clear_value x)
         | (refine Kept.cutF3 x ?_ fun hf3 => ?_; unfold x; clear x; rotate_left; clear_value x)
         | (refine Kept.cutF4 x ?_ fun hf4 => ?_; unfold x; clear x; rotate_left; clear_value x)
         | clear_value x)
    | with_reducible apply hf1
    | with_reducible apply hf2
    | with_reducible apply hf3
    | with_reducible apply hf4
    | with_reducible apply refuse_kept
    | with_reducible apply accepted_kept
    | with_reducible apply snapExport_kept
    | with_reducible apply snapRelease_kept
    | with_reducible apply snapSchedule_kept
    | with_reducible apply snapUnschedule_kept
    | with_reducible apply snapTrigger_kept
    | split
    | refine Kept.update ?_ rfl rfl rfl (Nat.le_refl _) (Nat.le_refl _)

theorem putSlot_kept (b : Bool) (im : Option Image) {s : State} (h_ : Kept q_ j_ a_ s) :
    Kept q_ j_ a_ (putSlot b im s) := by
  unfold putSlot
  repeat' first
    | with_reducible assumption
    | intro _
    | with_reducible apply Kept.ite
    | (extract_lets +onlyGivenNames x
       first
         | (refine Kept.cut x ?_ fun hx => ?_; unfold x; clear x; rotate_left; clear_value x)
         | clear_value x)
    | split
    | refine Kept.update ?_ rfl rfl rfl (Nat.le_refl _) (Nat.le_refl _)

theorem endUpdate_kept (cause : Nat) {s : State} (h_ : Kept q_ j_ a_ s) :
    Kept q_ j_ a_ (endUpdate cause s) := by
  unfold endUpdate
  repeat' first
    | with_reducible assumption
    | intro _
    | with_reducible apply Kept.ite
    | with_reducible apply waitedRecord_kept
    | with_reducible apply modeTickBy_kept
    | with_reducible apply wr_kept
    | split

theorem doUpdBegin_kept (h : Hdr) (r : Req) (total : Nat) {s : State} (h_ : Kept q_ j_ a_ s) :
    Kept q_ j_ a_ (doUpdBegin h r total s).2 := by
  unfold doUpdBegin
  repeat' first
    | with_reducible assumption
    | intro _
    | with_reducible apply Kept.ite
    | with_reducible apply Kept.ite1
    | with_reducible apply Kept.ite2
    | (extract_lets +onlyGivenNames x
       first
         | (refine Kept.cut x ?_ fun hx => ?_; unfold x; clear x; rotate_left; clear_value x)
         | clear_value x)
    | with_reducible apply putSlot_kept
    | with_reducible apply refuse_kept
    | with_reducible apply accepted_kept
    | with_reducible apply modeTickBy_kept
    | with_reducible apply setSlot_kept
    | with_reducible apply wr_kept
    | split
    | refine Kept.update ?_ rfl rfl rfl (Nat.le_refl _) (Nat.le_refl _)

theorem doUpdData_kept (h : Hdr) (r : Req) (offset : Nat) (len : Nat) (digest : Nat) (differs : Bool) {s : State} (h_ : Kept q_ j_ a_ s) :
    Kept q_ j_ a_ (doUpdData h r offset len digest differs s).2 := by
  unfold doUpdData
  repeat' first
    | with_reducible assumption
    | intro _
    | with_reducible apply Kept.ite
    | with_reducible apply Kept.ite1
    | with_reducible apply Kept.ite2
    | (extract_lets +onlyGivenNames x
       first
         | (refine Kept.cut x ?_ fun hx => ?_; unfold x; clear x; rotate_left; clear_value x)
         | clear_value x)
    | with_reducible apply refuse_kept
    | with_reducible apply accepted_kept
    | with_reducible apply wr_kept
    | split
    | refine Kept.update ?_ rfl rfl rfl (Nat.le_refl _) (Nat.le_refl _)

theorem doUpdFinish_kept (h : Hdr) (r : Req) (content : Option Image) {s : State} (h_ : Kept q_ j_ a_ s) :
    Kept q_ j_ a_ (doUpdFinish h r content s).2 := by
  unfold doUpdFinish
  repeat' first
    | with_reducible assumption
    | intro _
    | with_reducible apply Kept.ite
    | with_reducible apply Kept.ite1
    | with_reducible apply Kept.ite2
    | (extract_lets +onlyGivenNames x
       first
         | (refine Kept.cut x ?_ fun hx => ?_; unfold x; clear x; rotate_left; clear_value x)
         | clear_value x)
    | with_reducible apply endUpdate_kept
    | with_reducible apply putSlot_kept
    | with_reducible apply refuse_kept
    | with_reducible apply accepted_kept
    | with_reducible apply setSlot_kept
    | with_reducible apply raise_kept
    | with_reducible apply wr_kept
    | split
    | refine Kept.update ?_ rfl rfl rfl (Nat.le_refl _) (Nat.le_refl _)

theorem doUpdActivate_kept (h : Hdr) (r : Req) (how : Nat) {s : State} (h_ : Kept q_ j_ a_ s) :
    Kept q_ j_ a_ (doUpdActivate h r how s).2 := by
  unfold doUpdActivate
  repeat' first
    | with_reducible assumption
    | intro _
    | with_reducible apply Kept.ite
    | with_reducible apply Kept.ite1
    | with_reducible apply Kept.ite2
    | (extract_lets +onlyGivenNames x
       first
         | (refine Kept.cut x ?_ fun hx => ?_; unfold x; clear x; rotate_left; clear_value x)
         | (have _t : Jnl := x; clear _t; unfold x; clear x)
         | clear_value x)
    | with_reducible apply refuse_kept
    | with_reducible apply accepted_kept
    | with_reducible apply setTrial_kept
    | with_reducible apply setSlot_kept
    | split
    | refine Kept.update ?_ rfl rfl rfl (Nat.le_refl _) (Nat.le_refl _)
    | refine Kept.update ?_ rfl rfl rfl (Nat.le_succ _) (Nat.le_refl _)
    | refine Kept.update ?_ rfl rfl rfl (Nat.le_refl _) (Nat.le_succ _)

theorem doUpdAbandon_kept (h : Hdr) (r : Req) {s : State} (h_ : Kept q_ j_ a_ s) :
    Kept q_ j_ a_ (doUpdAbandon h r s).2 := by
  unfold doUpdAbandon
  repeat' first
    | with_reducible assumption
    | intro _
    | with_reducible apply Kept.ite
    | with_reducible apply Kept.ite1
    | with_reducible apply Kept.ite2
    | with_reducible apply refuse_kept
    | with_reducible apply accepted_kept
    | with_reducible apply modeTickBy_kept
    | with_reducible apply abandonUpdate_kept
    | split

theorem doClose_kept (h : Hdr) (r : Req) {s : State} (h_ : Kept q_ j_ a_ s) :
    Kept q_ j_ a_ (doClose h r s).2 := by
  unfold doClose
  repeat' first
    | with_reducible assumption
    | intro _
    | with_reducible apply Kept.ite
    | with_reducible apply Kept.ite1
    | with_reducible apply Kept.ite2
    | (extract_lets +onlyGivenNames x
       first
         | (refine Kept.cut x ?_ fun hx => ?_; unfold x; clear x; rotate_left; clear_value x)
         | clear_value x)
    | with_reducible apply sessEntry_kept
    | with_reducible apply closeSess_kept

theorem perform_kept (h : Hdr) (r : Req) {s : State} (h_ : Kept q_ j_ a_ s) :
    Kept q_ j_ a_ (perform h r s).2 := by
  unfold perform
  repeat' first
    | with_reducible assumption
    | intro _
    | with_reducible apply Kept.ite
    | with_reducible apply Kept.ite1
    | with_reducible apply Kept.ite2
    | with_reducible apply doClose_kept
    | with_reducible apply doUpdAbandon_kept
    | with_reducible apply doUpdActivate_kept
    | with_reducible apply doUpdFinish_kept
    | with_reducible apply doUpdData_kept
    | with_reducible apply doUpdBegin_kept
    | with_reducible apply doSnapshot_kept
    | with_reducible apply doMode_kept
    | with_reducible apply doGroupAbort_kept
    | with_reducible apply doGroupCommit_kept
    | with_reducible apply doCancel_kept
    | with_reducible apply doEvent_kept
    | with_reducible apply doWrite_kept
    | with_reducible apply doJread_kept
    | with_reducible apply doAttest_kept
    | with_reducible apply doQuery_kept
    | with_reducible apply doRead_kept
    | with_reducible apply refuse_kept
    | split
    | refine Kept.update ?_ rfl rfl rfl (Nat.le_refl _) (Nat.le_refl _)

theorem attempt_kept (h : Hdr) (r : Req) {s : State} (h_ : Kept q_ j_ a_ s) :
    Kept q_ j_ a_ (attempt h r s).2 := by
  unfold attempt
  repeat' first
    | with_reducible assumption
    | intro _
    | with_reducible apply Kept.ite
    | with_reducible apply Kept.ite1
    | with_reducible apply Kept.ite2
    | (extract_lets +onlyGivenNames x
       first
         | (refine Kept.cut x ?_ fun hx => ?_; unfold x; clear x; rotate_left; clear_value x)
         | (refine Kept.cut2 x ?_ fun hx => ?_; unfold x; clear x; rotate_left; clear_value x)
         | (refine Kept.cut1 x ?_ fun hx => ?_; unfold x; clear x; rotate_left; clear_value x)
         | clear_value x)
    | with_reducible apply perform_kept
    | with_reducible apply journalTakes_kept
    | split

theorem serve_kept (h : Hdr) (r : Req) {s : State} (h_ : Kept q_ j_ a_ s) :
    Kept q_ j_ a_ (serve h r s) := by
  unfold serve
  repeat' first
    | with_reducible assumption
    | intro _
    | with_reducible apply Kept.ite
    | (extract_lets +onlyGivenNames x
       first
         | (refine Kept.cut x ?_ fun hx => ?_; unfold x; clear x; rotate_left; clear_value x)
         | (refine Kept.cut2 x ?_ fun hx => ?_; unfold x; clear x; rotate_left; clear_value x)
         | (refine Kept.cut1 x ?_ fun hx => ?_; unfold x; clear x; rotate_left; clear_value x)
         | clear_value x)
    | with_reducible apply attempt_kept
    | with_reducible apply leaveNow_kept
    | with_reducible apply answerCopies_kept
    | with_reducible apply consume_kept
    | with_reducible apply sendAnswer_kept
    | with_reducible apply sessPut_kept
    | split
    | refine Kept.update ?_ rfl rfl rfl (Nat.le_refl _) (Nat.le_refl _)

theorem drainHeld_kept (n k : Nat) (h : Kept q_ j_ a_ s) : Kept q_ j_ a_ (drainHeld n k s) := by
  induction n generalizing s with
  | zero => exact h
  | succ n ih =>
    unfold drainHeld
    repeat' first
    | with_reducible assumption
    | intro _
    | with_reducible apply Kept.ite
    | (extract_lets +onlyGivenNames x
       first
         | (refine Kept.cut x ?_ fun hx => ?_; unfold x; clear x; rotate_left; clear_value x)
         | (refine Kept.cut2 x ?_ fun hx => ?_; unfold x; clear x; rotate_left; clear_value x)
         | (refine Kept.cut1 x ?_ fun hx => ?_; unfold x; clear x; rotate_left; clear_value x)
         | clear_value x)
    | with_reducible apply ih
    | with_reducible apply serve_kept
    | with_reducible apply sessPut_kept
    | split
    | refine Kept.update ?_ rfl rfl rfl (Nat.le_refl _) (Nat.le_refl _)


theorem serveDup_kept (h : Hdr) (r : Req) (a : Ans) {s : State} (h_ : Kept q_ j_ a_ s) :
    Kept q_ j_ a_ (serveDup h r a s) := by
  unfold serveDup
  repeat' first
    | with_reducible assumption
    | intro _
    | with_reducible apply Kept.ite
    | (extract_lets +onlyGivenNames x
       first
         | (refine Kept.cut x ?_ fun hx => ?_; unfold x; clear x; rotate_left; clear_value x)
         | (refine Kept.cut2 x ?_ fun hx => ?_; unfold x; clear x; rotate_left; clear_value x)
         | (refine Kept.cut1 x ?_ fun hx => ?_; unfold x; clear x; rotate_left; clear_value x)
         | clear_value x)
    | with_reducible apply attempt_kept
    | with_reducible apply sendAnswer_kept
    | with_reducible apply incS_kept
    | split
    | refine Kept.update ?_ rfl rfl rfl (Nat.le_refl _) (Nat.le_refl _)

theorem bySeq_kept (h : Hdr) (r : Req) {s : State} (h_ : Kept q_ j_ a_ s) :
    Kept q_ j_ a_ (bySeq h r s) := by
  unfold bySeq
  repeat' first
    | with_reducible assumption
    | intro _
    | with_reducible apply Kept.ite
    | (extract_lets +onlyGivenNames x
       first
         | (refine Kept.cut x ?_ fun hx => ?_; unfold x; clear x; rotate_left; clear_value x)
         | (refine Kept.cut2 x ?_ fun hx => ?_; unfold x; clear x; rotate_left; clear_value x)
         | (refine Kept.cut1 x ?_ fun hx => ?_; unfold x; clear x; rotate_left; clear_value x)
         | clear_value x)
    | with_reducible apply serveDup_kept
    | with_reducible apply drainHeld_kept
    | with_reducible apply serve_kept
    | with_reducible apply sendAnswer_kept
    | with_reducible apply sessPut_kept
    | with_reducible apply incS_kept
    | split
    | refine Kept.update ?_ rfl rfl rfl (Nat.le_refl _) (Nat.le_refl _)

theorem kcp_kept (h0 : Hdr) (r0 : Req) {s : State} (h_ : Kept q_ j_ a_ s) :
    Kept q_ j_ a_ (kcp h0 r0 s) := by
  unfold kcp
  repeat' first
    | with_reducible assumption
    | intro _
    | with_reducible apply Kept.ite
    | (extract_lets +onlyGivenNames x
       first
         | (refine Kept.cut x ?_ fun hx => ?_; unfold x; clear x; rotate_left; clear_value x)
         | clear_value x)
    | with_reducible apply bySeq_kept
    | with_reducible apply drainHeld_kept
    | with_reducible apply sigFail_kept
    | with_reducible apply cntUp_kept
    | with_reducible apply modeTick_kept
    | with_reducible apply sendAnswer_kept
    | with_reducible apply takeRing_kept
    | split

theorem rejectOpen_kept (h : Hdr) (reason : Nat) {s : State} (h_ : Kept q_ j_ a_ s) :
    Kept q_ j_ a_ (rejectOpen h reason s) := by
  unfold rejectOpen
  repeat' first
    | with_reducible assumption
    | intro _
    | with_reducible apply Kept.ite
    | (extract_lets +onlyGivenNames x
       first
         | (refine Kept.cut x ?_ fun hx => ?_; unfold x; clear x; rotate_left; clear_value x)
         | (refine Kept.cut2 x ?_ fun hx => ?_; unfold x; clear x; rotate_left; clear_value x)
         | (refine Kept.cut1 x ?_ fun hx => ?_; unfold x; clear x; rotate_left; clear_value x)
         | clear_value x)
    | with_reducible apply journalTakes_kept
    | with_reducible apply rejected_kept
    | with_reducible apply sendAnswer_kept
    | split

theorem kcpOpen_kept (h0 : Hdr) (slot : Nat) (resume : Bool) (planobs : Bool) (openId : Nat) (sigOk : Bool) (key : Nat) (modNonce : Nat) {s : State} (h_ : Kept q_ j_ a_ s) :
    Kept q_ j_ a_ (kcpOpen h0 slot resume planobs openId sigOk key modNonce s) := by
  unfold kcpOpen
  repeat' first
    | with_reducible assumption
    | intro _
    | with_reducible apply Kept.ite
    | (extract_lets +onlyGivenNames x
       first
         | (refine Kept.cut x ?_ fun hx => ?_; unfold x; clear x; rotate_left; clear_value x)
         | (refine Kept.cut2 x ?_ fun hx => ?_; unfold x; clear x; rotate_left; clear_value x)
         | (refine Kept.cut1 x ?_ fun hx => ?_; unfold x; clear x; rotate_left; clear_value x)
         | (refine Kept.cutF x ?_ fun hf1 => ?_; unfold x; clear x; rotate_left; clear_value x)
         | (refine Kept.cutF2 x ?_ fun hf2 => ?_; unfold x; clear x; rotate_left; clear_value x)
         | (refine Kept.cutF3 x ?_ fun hf3 => ?_; unfold x; clear x; rotate_left; clear_value x)
         | (refine Kept.cutF4 x ?_ fun hf4 => ?_; unfold x; clear x; rotate_left; clear_value x)
         | clear_value x)
    | with_reducible apply hf1
    | with_reducible apply hf2
    | with_reducible apply hf3
    | with_reducible apply hf4
    | with_reducible apply rejectOpen_kept
    | with_reducible apply kcp_kept
    | with_reducible apply journalTakes_kept
    | with_reducible apply acceptOpen_kept
    | with_reducible apply sigFail_kept
    | with_reducible apply cntUp_kept
    | with_reducible apply modeTick_kept
    | with_reducible apply sendAnswer_kept
    | with_reducible apply takeRing_kept
    | split

theorem execOpenSession_kept (h : Hdr) (slot : Nat) (resume : Bool) (planobs : Bool) (openId : Nat) (sigOk : Bool) (key : Nat) (modNonce : Nat) {s : State} (h_ : Kept q_ j_ a_ s) :
    KeptO q_ j_ a_ (execOpenSession h slot resume planobs openId sigOk key modNonce s) := by
  unfold execOpenSession
  repeat' first
    | with_reducible assumption
    | intro _
    | with_reducible apply Kept.ite
    | with_reducible apply Kept.next
    | with_reducible apply kcpOpen_kept

theorem execCloseSession_kept (h : Hdr) {s : State} (h_ : Kept q_ j_ a_ s) :
    KeptO q_ j_ a_ (execCloseSession h s) := by
  unfold execCloseSession
  repeat' first
    | with_reducible assumption
    | intro _
    | with_reducible apply Kept.ite
    | with_reducible apply Kept.next
    | with_reducible apply kcp_kept

theorem execSessionIdleTimeout_kept (session : Nat) {s : State} (h_ : Kept q_ j_ a_ s) :
    KeptO q_ j_ a_ (execSessionIdleTimeout session s) := by
  unfold execSessionIdleTimeout
  repeat' first
    | with_reducible assumption
    | intro _
    | with_reducible apply Kept.ite
    | (extract_lets +onlyGivenNames x
       first
         | (refine Kept.cut x ?_ fun hx => ?_; unfold x; clear x; rotate_left; clear_value x)
         | clear_value x)
    | with_reducible apply Kept.next
    | with_reducible apply sessEntry_kept
    | with_reducible apply closeSess_kept
    | split

theorem execReorderTimeout_kept (session : Nat) (seq : Nat) {s : State} (h_ : Kept q_ j_ a_ s) :
    KeptO q_ j_ a_ (execReorderTimeout session seq s) := by
  unfold execReorderTimeout
  repeat' first
    | with_reducible assumption
    | intro _
    | with_reducible apply Kept.ite
    | (extract_lets +onlyGivenNames x
       first
         | (refine Kept.cut x ?_ fun hx => ?_; unfold x; clear x; rotate_left; clear_value x)
         | (refine Kept.cut1 x ?_ fun hx => ?_; unfold x; clear x; rotate_left; clear_value x)
         | clear_value x)
    | with_reducible apply Kept.next
    | with_reducible apply sessPut_kept
    | with_reducible apply incS_kept
    | split
    | refine Kept.update ?_ rfl rfl rfl (Nat.le_refl _) (Nat.le_refl _)

theorem execReadWords_kept (h : Hdr) (count : Nat) (mode : Nat) (addrs : List Nat) {s : State} (h_ : Kept q_ j_ a_ s) :
    KeptO q_ j_ a_ (execReadWords h count mode addrs s) := by
  unfold execReadWords
  repeat' first
    | with_reducible assumption
    | intro _
    | with_reducible apply Kept.ite
    | with_reducible apply Kept.next
    | with_reducible apply kcp_kept

theorem execWriteWords_kept (h : Hdr) (items : List (Nat × Nat × Nat)) {s : State} (h_ : Kept q_ j_ a_ s) :
    KeptO q_ j_ a_ (execWriteWords h items s) := by
  unfold execWriteWords
  repeat' first
    | with_reducible assumption
    | intro _
    | with_reducible apply Kept.ite
    | with_reducible apply Kept.next
    | with_reducible apply kcp_kept

theorem execAttest_kept (h : Hdr) (nonce : Nat) {s : State} (h_ : Kept q_ j_ a_ s) :
    KeptO q_ j_ a_ (execAttest h nonce s) := by
  unfold execAttest
  repeat' first
    | with_reducible assumption
    | intro _
    | with_reducible apply Kept.ite
    | with_reducible apply Kept.next
    | with_reducible apply kcp_kept

theorem execJread_kept (h : Hdr) (jseq : Nat) (count : Nat) {s : State} (h_ : Kept q_ j_ a_ s) :
    KeptO q_ j_ a_ (execJread h jseq count s) := by
  unfold execJread
  repeat' first
    | with_reducible assumption
    | intro _
    | with_reducible apply Kept.ite
    | with_reducible apply Kept.next
    | with_reducible apply kcp_kept

theorem execSubmitEvent_kept (h : Hdr) (e : EvReq) (arrival : Nat) {s : State} (h_ : Kept q_ j_ a_ s) :
    KeptO q_ j_ a_ (execSubmitEvent h e arrival s) := by
  unfold execSubmitEvent
  repeat' first
    | with_reducible assumption
    | intro _
    | with_reducible apply Kept.ite
    | with_reducible apply Kept.next
    | with_reducible apply kcp_kept

theorem execCancelEvent_kept (h : Hdr) (session : Nat) (sseq : Nat) {s : State} (h_ : Kept q_ j_ a_ s) :
    KeptO q_ j_ a_ (execCancelEvent h session sseq s) := by
  unfold execCancelEvent
  repeat' first
    | with_reducible assumption
    | intro _
    | with_reducible apply Kept.ite
    | with_reducible apply Kept.next
    | with_reducible apply kcp_kept

theorem execQueryEvent_kept (h : Hdr) (key : Nat) (session : Nat) (num : Nat) {s : State} (h_ : Kept q_ j_ a_ s) :
    KeptO q_ j_ a_ (execQueryEvent h key session num s) := by
  unfold execQueryEvent
  repeat' first
    | with_reducible assumption
    | intro _
    | with_reducible apply Kept.ite
    | with_reducible apply Kept.next
    | with_reducible apply kcp_kept

theorem execGroupCommit_kept (h : Hdr) (gid : Nat) (members : Nat) (instant : Nat) (sig : GSig) {s : State} (h_ : Kept q_ j_ a_ s) :
    KeptO q_ j_ a_ (execGroupCommit h gid members instant sig s) := by
  unfold execGroupCommit
  repeat' first
    | with_reducible assumption
    | intro _
    | with_reducible apply Kept.ite
    | with_reducible apply Kept.next
    | with_reducible apply kcp_kept

theorem execGroupAbort_kept (h : Hdr) (gid : Nat) {s : State} (h_ : Kept q_ j_ a_ s) :
    KeptO q_ j_ a_ (execGroupAbort h gid s) := by
  unfold execGroupAbort
  repeat' first
    | with_reducible assumption
    | intro _
    | with_reducible apply Kept.ite
    | with_reducible apply Kept.next
    | with_reducible apply kcp_kept

theorem execSetResting_kept (h : Hdr) (arg : Nat) {s : State} (h_ : Kept q_ j_ a_ s) :
    KeptO q_ j_ a_ (execSetResting h arg s) := by
  unfold execSetResting
  repeat' first
    | with_reducible assumption
    | intro _
    | with_reducible apply Kept.ite
    | with_reducible apply Kept.next
    | with_reducible apply kcp_kept

theorem execEnterMaintain_kept (h : Hdr) {s : State} (h_ : Kept q_ j_ a_ s) :
    KeptO q_ j_ a_ (execEnterMaintain h s) := by
  unfold execEnterMaintain
  repeat' first
    | with_reducible assumption
    | intro _
    | with_reducible apply Kept.ite
    | with_reducible apply Kept.next
    | with_reducible apply kcp_kept

theorem execLeaveMaintain_kept (h : Hdr) {s : State} (h_ : Kept q_ j_ a_ s) :
    KeptO q_ j_ a_ (execLeaveMaintain h s) := by
  unfold execLeaveMaintain
  repeat' first
    | with_reducible assumption
    | intro _
    | with_reducible apply Kept.ite
    | with_reducible apply Kept.next
    | with_reducible apply kcp_kept

theorem execRecalibrate_kept (h : Hdr) {s : State} (h_ : Kept q_ j_ a_ s) :
    KeptO q_ j_ a_ (execRecalibrate h s) := by
  unfold execRecalibrate
  repeat' first
    | with_reducible assumption
    | intro _
    | with_reducible apply Kept.ite
    | with_reducible apply Kept.next
    | with_reducible apply kcp_kept

theorem execSnapshotTrigger_kept (h : Hdr) {s : State} (h_ : Kept q_ j_ a_ s) :
    KeptO q_ j_ a_ (execSnapshotTrigger h s) := by
  unfold execSnapshotTrigger
  repeat' first
    | with_reducible assumption
    | intro _
    | with_reducible apply Kept.ite
    | with_reducible apply Kept.next
    | with_reducible apply kcp_kept

theorem execSnapshotSchedule_kept (h : Hdr) (instant : Nat) {s : State} (h_ : Kept q_ j_ a_ s) :
    KeptO q_ j_ a_ (execSnapshotSchedule h instant s) := by
  unfold execSnapshotSchedule
  repeat' first
    | with_reducible assumption
    | intro _
    | with_reducible apply Kept.ite
    | with_reducible apply Kept.next
    | with_reducible apply kcp_kept

theorem execSnapshotCancelSchedule_kept (h : Hdr) {s : State} (h_ : Kept q_ j_ a_ s) :
    KeptO q_ j_ a_ (execSnapshotCancelSchedule h s) := by
  unfold execSnapshotCancelSchedule
  repeat' first
    | with_reducible assumption
    | intro _
    | with_reducible apply Kept.ite
    | with_reducible apply Kept.next
    | with_reducible apply kcp_kept

theorem execSnapshotRelease_kept (h : Hdr) {s : State} (h_ : Kept q_ j_ a_ s) :
    KeptO q_ j_ a_ (execSnapshotRelease h s) := by
  unfold execSnapshotRelease
  repeat' first
    | with_reducible assumption
    | intro _
    | with_reducible apply Kept.ite
    | with_reducible apply Kept.next
    | with_reducible apply kcp_kept

theorem execSnapshotExport_kept (h : Hdr) {s : State} (h_ : Kept q_ j_ a_ s) :
    KeptO q_ j_ a_ (execSnapshotExport h s) := by
  unfold execSnapshotExport
  repeat' first
    | with_reducible assumption
    | intro _
    | with_reducible apply Kept.ite
    | with_reducible apply Kept.next
    | with_reducible apply kcp_kept

theorem execUpdateBegin_kept (h : Hdr) (total : Nat) {s : State} (h_ : Kept q_ j_ a_ s) :
    KeptO q_ j_ a_ (execUpdateBegin h total s) := by
  unfold execUpdateBegin
  repeat' first
    | with_reducible assumption
    | intro _
    | with_reducible apply Kept.ite
    | with_reducible apply Kept.next
    | with_reducible apply kcp_kept

theorem execUpdateData_kept (h : Hdr) (offset : Nat) (len : Nat) (digest : Nat) (differs : Bool) {s : State} (h_ : Kept q_ j_ a_ s) :
    KeptO q_ j_ a_ (execUpdateData h offset len digest differs s) := by
  unfold execUpdateData
  repeat' first
    | with_reducible assumption
    | intro _
    | with_reducible apply Kept.ite
    | with_reducible apply Kept.next
    | with_reducible apply kcp_kept

theorem execUpdateFinish_kept (h : Hdr) (content : Option Image) {s : State} (h_ : Kept q_ j_ a_ s) :
    KeptO q_ j_ a_ (execUpdateFinish h content s) := by
  unfold execUpdateFinish
  repeat' first
    | with_reducible assumption
    | intro _
    | with_reducible apply Kept.ite
    | with_reducible apply Kept.next
    | with_reducible apply kcp_kept

theorem execUpdateActivate_kept (h : Hdr) (how : Nat) {s : State} (h_ : Kept q_ j_ a_ s) :
    KeptO q_ j_ a_ (execUpdateActivate h how s) := by
  unfold execUpdateActivate
  repeat' first
    | with_reducible assumption
    | intro _
    | with_reducible apply Kept.ite
    | with_reducible apply Kept.next
    | with_reducible apply kcp_kept

theorem execUpdateAbandon_kept (h : Hdr) {s : State} (h_ : Kept q_ j_ a_ s) :
    KeptO q_ j_ a_ (execUpdateAbandon h s) := by
  unfold execUpdateAbandon
  repeat' first
    | with_reducible assumption
    | intro _
    | with_reducible apply Kept.ite
    | with_reducible apply Kept.next
    | with_reducible apply kcp_kept

end Sys2Proof.Machine
end

