-- ==== Sys2Proof/Tests/Slice0.lean ====
section
/-! SUPPORT. Ill-formed terms that the checks refuse, single steps against worked examples of the manual, and for every clause of a
statement a state and operands that meet its hypotheses. -/

set_option Elab.async false

namespace Sys2Proof.Tests

open Sys2Proof Machine

/-- A state with fields set. -/
def st (l : List (Fld × List Nat × Nat)) (s : State := State.reset) : State :=
  l.foldl (fun s p => s.wr p.1 p.2.1 p.2.2) s

/-- A result is `.ok x`, as a Bool that the kernel evaluates; so for `.error x`. -/
def okIs {ε α : Type} [DecidableEq α] (x : α) : Except ε α → Bool
  | .ok y => decide (y = x)
  | .error _ => false
def errIs {ε α : Type} [DecidableEq ε] (x : ε) : Except ε α → Bool
  | .ok _ => false
  | .error y => decide (y = x)

theorem okIs_eq {ε α : Type} [DecidableEq α] {x : α} : {r : Except ε α} → okIs x r = true → r = .ok x
  | .ok y, h => by rw [of_decide_eq_true (p := y = x) h]
theorem errIs_eq {ε α : Type} [DecidableEq ε] {x : ε} : {r : Except ε α} → errIs x r = true → r = .error x
  | .error y, h => by rw [of_decide_eq_true (p := y = x) h]

/-! Well-formedness: for each check a term that breaks it alone, which the check refuses. -/

def hG : Hdr := ⟨0, 0, 1, 0, false, true, true, true, 1, 36, Peer.none, none⟩
def sgG : GSig := ⟨true, 0⟩
def rdG : Reads := ⟨0, 0, true, true⟩
/-- No such port. -/
def hB : Hdr := { hG with port := 2 }
def evG : EvReq := ⟨0, false, false, false, 1, 0, 0, 0, 0, 0, 36, [0]⟩
def frG : RxFrame := ⟨true, 0, 0, 64, 0x0800, 0, none, false, 0, 0, false, false, 0, false, 0, 1, 0, 0, true⟩
def cmG : CalMeas := ⟨[], [], [], [], [], []⟩
def tG : Tries Int := ⟨(0, 0), (0, 0), (0, 0)⟩
def tP : Tries (Int × Int) := ⟨((0, 0), (0, 0)), ((0, 0), (0, 0)), ((0, 0), (0, 0))⟩

theorem test_ill_formed_1 : ([
    .porstNRelease 64 false none none, .calRunEnd 0 cmG [], .calRunEnd 6 cmG [],
    .calRunEnd 1 { cmG with sens := [⟨36864, tG, tG, tG⟩] } [],
    .calRunEnd 1 { cmG with inTaps := [⟨35839, tP, tP⟩] } [],
    .calRunEnd 1 { cmG with elems := [⟨34816, tG, tG, tG, tG, tG, [tG, tG, tG, tG], [tG, tG, tG, tG]⟩] } [],
    .calRunEnd 1 { cmG with elems := [⟨0, tG, tG, tG, tG, tG, [tG], [tG, tG, tG, tG]⟩] } [],
    .calRunEnd 1 { cmG with elems := [⟨0, tG, tG, tG, tG, tG, [tG, tG, tG, tG], []⟩] } [],
    .calRunEnd 1 { cmG with voas := [⟨35840, List.replicate 17 tP, tP⟩] } [],
    .calRunEnd 1 { cmG with voas := [⟨34816, [tP], tP⟩] } [],
    .calRunEnd 1 { cmG with outTaps := [⟨35840, tP, tP⟩] } [],
    .calRunEnd 1 { cmG with paths := [⟨512, 0, 0, 0, tG⟩] } [],
    .calRunEnd 1 { cmG with paths := [⟨0, 2, 0, 0, tG⟩] } [], .calRunEnd 1 cmG [34816], .setResting hB 0,
    .setResting hG 256, .enterMaintain hB, .leaveMaintain hB, .recalibrate hB, .slewTick 16,
    .kickWaveformEnd 34816, .rampStart 34816, .handoverEnd 34816, .readbackVisit 16 0 0, .driveFreeze 34816,
    .sensorSample 36864 none false, .comparatorCrossing 1024, .comparatorSelfTest 1024 false] : List Instr).all (fun i => !i.wf) = true := by decide +kernel

theorem test_ill_formed_2 : ([
    .loopUpdate 35840 0 false, .loopUpdate 0 32 false, .loopEntryRewrite 35840, .clusterFail 4,
    .clusterOwnershipReturn 4, .setptMeasurement 8 0 0, .setptLosTimeout 8, .domainEstimate 8 0 0,
    .domainFadjWrite 8 0, .domainPhadjWrite 8 0, .domainStepGo 8 0 0, .domainStepGo 0 (2 ^ 48) 0,
    .domainStepGo 0 0 1000000000, .domainStepApply 8, .domainHoldoverEntry 8 0, .domainHoldoverEntry 0 256,
    .holdoverExpiry 8, .ptpSyncRx 2 0 0 false 0 0, .ptpSyncRx 0 65536 0 false 0 0, .ptpFollowUpRx 2 0 0 0,
    .ptpFollowUpRx 0 65536 0 0, .ptpDelayRespRx 2 0 0 0 0, .ptpDelayRespRx 0 65536 0 0 0,
    .ptpAnnounceRx 2 0 0 false, .delayReqTx 8 0, .delayReqTx 0 2, .ppsInPulse 2, .submitEvent hB evG 0] : List Instr).all (fun i => !i.wf) = true := by decide +kernel

theorem test_ill_formed_3 : ([
    .submitEvent hG { evG with len := 8193 } 0, .solveComplete [⟨[⟨0, 256, 0⟩], []⟩] false 0,
    .solveComplete [⟨[], [(0, ⟨512, 0, 0⟩)]⟩] false 0, .waveArm 4294967296, .eventDone 4294967296,
    .eventDeadlineExpiry 4294967296, .cancelEvent hB 0 0, .cancelEvent hG 32 0, .cancelEvent hG 0 4294967296,
    .queryEvent hB 0 0 0, .queryEvent hG 256 0 0, .queryEvent hG 0 32 0, .queryEvent hG 0 0 4294967296,
    .groupCommit hB 0 0 0 sgG, .groupCommit hG 4294967296 0 0 sgG, .groupCommit hG 0 18446744073709551616 0 sgG,
    .groupCommit hG 0 0 18446744073709551616 sgG, .groupCommit hG 0 0 0 { sgG with bits := 2 ^ 1056 },
    .groupAbort hB 0, .groupAbort hG 4294967296, .commitEcho 2 0 0 0 sgG, .commitEcho 0 4294967296 0 0 sgG,
    .commitEcho 0 0 18446744073709551616 0 sgG, .commitEcho 0 0 0 18446744073709551616 sgG,
    .commitEcho 0 0 0 0 { sgG with bits := 2 ^ 1056 }, .groupCommitCutoff 4294967296,
    .repairSolve [⟨[⟨0, 256, 0⟩], []⟩] 0, .repairSolve [⟨[], [(0, ⟨512, 0, 0⟩)]⟩] 0] : List Instr).all (fun i => !i.wf) = true := by decide +kernel

theorem test_ill_formed_4 : ([
    .reoptimisation 512, .ruleFire 64, .trigEdge 8 false, .ruleHoldoffExpiry 64, .rearmRule 64, .releaseClaim 64,
    .ruleEnable 64 false, .scheduleStart 8, .scheduleStop 8, .scheduleStepSubmit 8, .bgB1Model 35840 0,
    .bgB1Model 0 (64 * 131072), .bgB2Curvature 34816 0 0 0 none none, .bgB2Curvature 0 65536 0 0 none none,
    .bgB2Curvature 0 0 65536 0 none none, .bgB2Curvature 0 0 0 65536 none none,
    .bgB2Curvature 0 0 0 0 (some 131072) none, .bgB2Curvature 0 0 0 0 none (some 65536),
    .bgB3InputTap 512 0 0 [(0, 0), (0, 0)], .bgB3InputTap 0 0 0 [], .correctionInForce 36864,
    .correctionGradualStart 36864, .guardContactChange 8 0 false, .guardContactChange 0 2 false,
    .guardFilterExpiry 2 0 0, .guardFilterExpiry 0 8 0, .guardFilterExpiry 0 0 2,
    .xlinkPeriodicMsg { rdG with chan := 2 }] : List Instr).all (fun i => !i.wf) = true := by decide +kernel

theorem test_ill_formed_5 : ([
    .xlinkPeriodicMsg { rdG with pins := 256 }, .xlinkChangeMsg { rdG with chan := 2 },
    .xlinkChangeMsg { rdG with pins := 256 }, .crossCheckFault 2 0, .testPulseCheck 2 (List.replicate 16 false),
    .testPulseCheck 0 [], .startupOpenTestRestore [], .discrepancyTick 2, .soReadbackFault 2 0,
    .soReadbackFault 0 4, .outputTestStart 2 0, .outputTestStart 0 4, .outputTestPass 2, .outputTestTimeout 2,
    .vsafeFault 2, .vsafeRecover 2, .srstNPressStart 2, .srstNPressRelease 2 0, .maintNChange 2 false,
    .darkVerify 2 0 false, .darkVerify 0 512 false, .lockoutCauseClear 2 0, .lockoutCauseClear 0 5,
    .telegramCopyRx 2 0 [], .telegramCopyRx 0 2 [], .telegramCopyRx 0 0 [256], .telegramPartnerTimeout 2,
    .telegramWatchdogExpiry 2] : List Instr).all (fun i => !i.wf) = true := by decide +kernel

theorem test_ill_formed_6 : ([
    .linkUp 2 0 0, .linkDown 2 false false false, .portFail 2 false, .portRestored 2, .frameRx 2 frG,
    .frameRx 0 { frG with dst := 2 ^ 48 }, .frameRx 0 { frG with vid := some 4096 }, .pauseFrame 2 0,
    .pauseFrame 0 65536, .pauseExpiry 2, .safetyBufferTimeout 2, .frameEnqueue 65536 0 0 0, .frameEnqueue 0 2 0 0,
    .shaperRefill 65536, .egressSelect 2, .frameTxComplete 2, .gateEntryChange 2, .queueSamplerVisit 16 0,
    .queueSamplerVisit 0 65536, .telemetryHoldExpiry 65536, .openSession hB 0 false false 0 false 0 0,
    .openSession hG 31 false false 0 false 0 0, .closeSession hB, .sessionIdleTimeout 32, .reorderTimeout 32 0,
    .reorderTimeout 0 4294967296, .readWords hB 0 0 [], .readWords { hG with len := 65536 } 0 0 []] : List Instr).all (fun i => !i.wf) = true := by decide +kernel

theorem test_ill_formed_7 : ([
    .readWords { hG with odd := some (.unknown 4) } 0 0 [],
    .readWords { hG with odd := some (.mode 1 4 0) } 0 0 [], .readWords hG 65536 0 [], .readWords hG 0 256 [],
    .readWords hG 0 0 [4294967296], .writeWords hB [], .writeWords hG [(0, 0, 4294967296)], .attest hB 0,
    .attest hG (2 ^ 256), .jread hB 0 0, .jread hG 18446744073709551616 0, .jread hG 0 65536,
    .journalCopySelfCheck 2 false, .journalResyncDone 2, .updateBegin hB 0, .updateBegin hG 4294967296,
    .updateData hB 0 0 0 false, .updateData hG 4294967296 0 0 false, .updateData hG 0 65536 0 false,
    .updateFinish hB none, .updateActivate hB 0, .updateActivate hG 256, .updateAbandon hB, .islandSupplyFault 30,
    .islandRestartAttempt 30 false, .islandBackInService 30 0, .islandBackInService 0 256,
    .thermalRoundPublish []] : List Instr).all (fun i => !i.wf) = true := by decide +kernel

theorem test_ill_formed_8 : ([
    .islandRestartWrite 30, .autoSuspendExpiry 30, .scrubAccess 4294967296 0, .scrubAccess 0 33,
    .pcvConversion 32 0, .statusClear 34 0, .statusClear 0 4294967296, .firstInfoClear 34, .injectArm 34 0 0,
    .injectArm 0 8 0, .injectArm 0 0 65536, .snapshotTrigger hB, .snapshotSchedule hB 0,
    .snapshotSchedule hG 18446744073709551616, .snapshotCancelSchedule hB, .snapshotRelease hB,
    .snapshotExport hB, .midStrapChange 64, .deferralLimitExpiry 4294967296, .epochReached 8,
    .srstNAcceptTimeout 2, .safetyChannelClockLoss 2, .islandRequalifyRestart 30, .policerRefill 32] : List Instr).all (fun i => !i.wf) = true := by decide +kernel

theorem test_well_formed_1 : ([
    .porstNRelease 0 false none none, .calRunEnd 1 cmG [], .setResting hG 0, .enterMaintain hG, .leaveMaintain hG,
    .recalibrate hG, .slewTick 0, .kickWaveformEnd 0, .rampStart 0, .handoverEnd 0, .readbackVisit 0 0 0,
    .driveFreeze 0, .sensorSample 0 none false, .comparatorCrossing 0, .comparatorSelfTest 0 false,
    .loopUpdate 0 0 false, .loopEntryRewrite 0, .clusterFail 0, .clusterOwnershipReturn 0,
    .setptMeasurement 0 0 0, .setptLosTimeout 0, .domainEstimate 0 0 0, .domainFadjWrite 0 0,
    .domainPhadjWrite 0 0, .domainStepGo 0 0 0, .domainStepApply 0, .domainHoldoverEntry 0 0, .holdoverExpiry 0] : List Instr).all (fun i => i.wf) = true := by decide +kernel

theorem test_well_formed_2 : ([
    .ptpSyncRx 0 0 0 false 0 0, .ptpFollowUpRx 0 0 0 0, .ptpDelayRespRx 0 0 0 0 0, .ptpAnnounceRx 0 0 0 false,
    .delayReqTx 0 0, .ppsInPulse 0, .submitEvent hG evG 0, .solveComplete [] false 0, .waveArm 0, .eventDone 0,
    .eventDeadlineExpiry 0, .cancelEvent hG 0 0, .queryEvent hG 0 0 0, .groupCommit hG 0 0 0 sgG,
    .groupAbort hG 0, .commitEcho 0 0 0 0 sgG, .groupCommitCutoff 0, .repairSolve [] 0, .reoptimisation 0,
    .ruleFire 0, .trigEdge 0 false, .ruleHoldoffExpiry 0, .rearmRule 0, .releaseClaim 0, .ruleEnable 0 false,
    .scheduleStart 0, .scheduleStop 0, .scheduleStepSubmit 0] : List Instr).all (fun i => i.wf) = true := by decide +kernel

theorem test_well_formed_3 : ([
    .bgB1Model 0 0, .bgB2Curvature 0 0 0 0 none none, .bgB3InputTap 0 0 0 [(0, 0), (0, 0)], .correctionInForce 0,
    .correctionGradualStart 0, .guardContactChange 0 0 false, .guardFilterExpiry 0 0 0, .xlinkPeriodicMsg rdG,
    .xlinkChangeMsg rdG, .crossCheckFault 0 0, .testPulseCheck 0 (List.replicate 16 false),
    .startupOpenTestRestore (List.replicate 16 false), .discrepancyTick 0, .soReadbackFault 0 0,
    .outputTestStart 0 0, .outputTestPass 0, .outputTestTimeout 0, .vsafeFault 0, .vsafeRecover 0,
    .srstNPressStart 0, .srstNPressRelease 0 0, .maintNChange 0 false, .darkVerify 0 0 false,
    .lockoutCauseClear 0 0, .telegramCopyRx 0 0 [], .telegramPartnerTimeout 0, .telegramWatchdogExpiry 0,
    .linkUp 0 0 0] : List Instr).all (fun i => i.wf) = true := by decide +kernel

theorem test_well_formed_4 : ([
    .linkDown 0 false false false, .portFail 0 false, .portRestored 0, .frameRx 0 frG, .pauseFrame 0 0,
    .pauseExpiry 0, .safetyBufferTimeout 0, .frameEnqueue 0 0 0 0, .shaperRefill 0, .egressSelect 0,
    .frameTxComplete 0, .gateEntryChange 0, .queueSamplerVisit 0 0, .telemetryHoldExpiry 0,
    .openSession hG 0 false false 0 false 0 0, .closeSession hG, .sessionIdleTimeout 0, .reorderTimeout 0 0,
    .readWords hG 0 0 [], .writeWords hG [], .attest hG 0, .jread hG 0 0, .journalCopySelfCheck 0 false,
    .journalResyncDone 0, .updateBegin hG 0, .updateData hG 0 0 0 false, .updateFinish hG none,
    .updateActivate hG 0] : List Instr).all (fun i => i.wf) = true := by decide +kernel

theorem test_well_formed_5 : ([
    .updateAbandon hG, .islandSupplyFault 0, .islandRestartAttempt 0 false, .islandBackInService 0 0,
    .thermalRoundPublish (List.replicate 256 0), .islandRestartWrite 0, .autoSuspendExpiry 0, .scrubAccess 0 0,
    .pcvConversion 0 0, .statusClear 0 0, .firstInfoClear 0, .injectArm 0 0 0, .snapshotTrigger hG,
    .snapshotSchedule hG 0, .snapshotCancelSchedule hG, .snapshotRelease hG, .snapshotExport hG,
    .midStrapChange 0, .deferralLimitExpiry 0, .epochReached 0, .srstNAcceptTimeout 0, .safetyChannelClockLoss 0,
    .islandRequalifyRestart 0, .policerRefill 0] : List Instr).all (fun i => i.wf) = true := by decide +kernel

/-! Worked examples of the manual. -/

/-- 02_switching_fabric: the combiner of output b in plane Y, stage 16, row 200. -/
theorem test_element_id : elemOfId 0xC323 = some 34595 ∧ bankOf 34595 = 12 ∧ actIsland 34595 = 24 ∧ voaLoop 1 401 = 35729 := by
  decide

/-- 03_element_drive: HOLD0 80 with KSCALE 0x90 gives 90 codes, the charge 28,800 units, and the ramp loses 7,680 a tick. -/
theorem test_kick_scaled : scaled (st [(R.EDA_ECFG_KSCALE, [bankOf 5, localIx 5], 0x90)]) 5 80 = 90 ∧
    scaledCharge (st [(R.EDA_ECFG_KSCALE, [bankOf 5, localIx 5], 0x90), (R.EDA_KTAB_CHARGE, [bankOf 5, 23], 25600)]) 5 23 = 28800 ∧
    kickEntry 1 false 8 = 23 ∧ rampDec 90 24 = 7680 := by decide +kernel

/-- 04_sensing_light: the plane Y output tap of OUT401. -/
theorem test_corrected_sample : correct (st [(R.ESA_CORR_GAIN0, [35729], 0x9EB100), (R.ESA_CORR_OFS0, [35729], 40),
    (R.ESA_CORR_DARK0, [35729], 300), (R.ESA_CORR_TCAL, [35729], 40), (R.THM_TEMP_VALID, [207], 1),
    (R.THM_TEMP_TEMP, [207], 50 * 256)]) 35729 3145728 0 = 499193052 := by decide +kernel

/-- TD2 of 07_time_domains: its epoch, period and window 1, at exactly 1,900,000,000 s. -/
def wTd2 : State := cntPut 2 (2 ^ 44 * 1900000000000000000) (st [(R.TBU_DOM_EPOCH_SEC_LO, [2], 315964819),
  (R.TBU_DOM_CFG_PERIOD, [2], 5), (R.TBU_DOM_STATE_STATE, [2], 2), (R.TBU_DOM_GW_EN, [2, 1], 1),
  (R.TBU_DOM_GW_OFS, [2, 1], 1428572), (R.TBU_DOM_GW_LEN, [2, 1], 71428)])

/-- 07_time_domains: `TBU.DOM[2].AF`, and the instant that the name 40 65 77 A5 86 01 00 00 stands for. -/
theorem test_air_frame : viewWord wTd2 0x401820 = 0x6577A501 := by decide +kernel
theorem test_instant_name : resolveName wTd2 0x406577A586010000 1900000000000000000 = .ok 1900000000028928822 :=
  okIs_eq (by decide +kernel)

/-- 15_egress_queues: a refill at 12.8 Mbit/s takes −7,904 bits to −7,065.1392 bits. -/
theorem test_refill : refill (-7904000000) 0xC8 32 = -7065139200 := by decide

/-- 07_time_domains R183, 20_registers: no command is a word that the block fetches. -/
theorem test_no_words (n w : Nat) : decodeTableWord n w = none ∧ State.reset.withFetchWord n w = State.reset := ⟨rfl, rfl⟩

/-- A step answers a next state of which `p` holds. -/
def nextIs (s : State) (p : State → Bool) : Bool := match step s with
  | .next t => p t
  | _ => false

/-- R427: a write of 1 clears its STATUS bit alone. -/
theorem test_step_status_clear :
    nextIs { wrWord State.reset 0 6 with pending := [.statusClear 0 2] } (fun t => readN t 0 == 4) = true := by decide +kernel

/-- The idle tick: 8 ns (log entry 4). -/
theorem test_step_idle : nextIs State.reset (fun t => t.time == 8) = true := by decide +kernel

/-- R19, R444: PORST_N is released with the straps at 37 and no image in the flash: LOAD, cause 0x01. -/
theorem test_step_porst_release : nextIs { State.reset with pending := [.porstNRelease 37 true none none] }
    (fun t => modeOf t == mLoad && t.rd R.PWR_MODE_CAUSE [] == 1 && t.rd R.GLB_MID_MID [] == 37) = true := by decide +kernel

/-! Witness states. -/

/-- A channel with fields of its parameter block set. -/
def ch (l : List (Fld × List Nat × Nat)) (v : Chan) : Chan :=
  l.foldl (fun w f => let a := fldAddr f.1 f.2.1
    { w with block := cellSet resetWord w.block a (BitVec.ofNat 32 (setBits (cellGet resetWord w.block a).toNat f.1.lo f.1.width f.2.2)) }) v
/-- Guards 0, 1 and 7 are enabled. -/
def gi017 : List (Fld × List Nat × Nat) := [(R.SAF_GICFG_EN, [0], 1), (R.SAF_GICFG_EN, [1], 1), (R.SAF_GICFG_EN, [7], 1)]
/-- NETA enabled and up, in mode 3 (25 Gbit/s without FEC words); every island on. -/
def wNet : State := st [(R.NI_CFG_EN, [0], 1), (R.NI_CFG_MODE, [0], 3), (R.NI_LINK_UP, [0], 1), (R.NI_LINK_UP, [1], 1)]
def wFrame (len : Nat) : RxFrame := ⟨true, 0, 0, len, 0x88B5, 0xFFFFFFFFFFFF, none, false, 0, 0, false, false, 0, false, 0, 0, 0, 0, true⟩
def wBuf : State := { wNet with netA := { wNet.netA with safety := [⟨80, 0, 0, false, false, none, none⟩, ⟨81, 0, 0, false, false, none, none⟩] } }
def wTx : State := { wNet with netA := { wNet.netA with tx := some (9, ⟨100, .other 1, 0, 0, 0, false⟩) } }
def wEnq : State := portPut (enqueue 65535 0 100 (.other 7) wNet) 0 { wNet.netA with tx := none }
def wEnqD : State := portPut (enqueue 65535 0 100 (.delayReq 7 3 0 0 9) (cntPut 7 (2 ^ 80) wNet)) 0 { wNet.netA with tx := none }
def wOpen : State := qPut (st [(R.EGS_SAMP_EN, [2], 1), (R.EGS_SAMP_FIRST, [2], 5), (R.EGS_SAMP_LAST, [2], 9), (R.EGS_QSTAT_MAXDELAY, [9], 77), (R.EGS_QCFG_SHAPE, [7], 1), (R.EGS_QCFG_RATE, [7], 1000), (R.EGS_QCFG_EN, [7], 1), (R.EGS_QCFG_BURST, [7], 9)] wNet) 7 { Queue.idle with opened := some ⟨5, false, 8, 0, 0, [[1, 2, 3, 4, 5, 6, 7, 8]]⟩, shape := true, fseq := 2 ^ 32 - 1, credit := 5000 }
def wGate : State := { st [(R.EGS_GCTL_EN, [1], 1)] wNet with egs := { wNet.egs with running := [(1, true)] } }
def wList : State := cntPut 0 (2 ^ 44 * 700) (st [(R.EGS_GCTL_EN, [1], 1), (R.EGS_GCTL_NENT, [1], 1), (R.EGS_GCL_INTERVAL, [1, 0], 300), (R.EGS_GCL_INTERVAL, [1, 1], 900), (R.TBU_DOM_STATE_STATE, [0], 2)] wNet)
def wPol : State := { st [(R.EGS_POL_EN, [3], 1), (R.EGS_POL_RATE, [3], 250), (R.EGS_POL_BURST, [3], 144)] wNet with egs := { wNet.egs with pol := [(3, -8000)] } }
def wFailed : State := degOn (degPort 1) { wNet with netB := { wNet.netB with failed := true } }
/-- A drive mid-move on element 5 of bank 0 and one of bank 1. -/
def wDrv (d : Drv) (e : Nat) : State := drvPut State.reset e d
def bank0 : Nat := elemOfLocal 0 3
def bank1 : Nat := elemOfLocal 1 3
def wSlew : State := st [(R.EDA_CLR_COLD, [0], 0), (R.EDA_CLR_COLD, [1], 0)] (drvPut (drvPut State.reset bank0 { Drv.idle with out := 100, cmd := 5000 }) bank1 { Drv.idle with out := 7, cmd := 9 })
def wDrvUp : State := st [(R.EDA_CLR_COLD, [0], 0)] (wDrv { Drv.idle with out := 0xF231, cmd := 0xF300 } bank0)
def wLoaded : State := bankPut (st [(R.EDA_ECFG_PCODE, [1, localIx bank1], 777)] wSlew) 1 ⟨true, true, false, 0⟩
def wRb : State := bankPut (drvPut State.reset bank0 { Drv.idle with phase := 2, acc := 50 * 16384, hold := 50 }) 0 ⟨true, false, false, 2176 + 3⟩
/-- A boundary of EB5 and of the last bank, past the refill of two sensors. -/
def wSens : State := { st [(R.LT_LOOP_RATE, [5], 0), (R.LT_LOOP_RATE, [34815], 0), (R.EDA_CLR_COLD, [bankOf 5], 0)] with time := 125 * bankOf 5, refill := [(5, 0)] }
def wSens2 : State := { st [(R.LT_LOOP_RATE, [34815], 0), (R.EDA_CLR_COLD, [bankOf 34815], 0)] with time := 125 * bankOf 34815, refill := [(34815, 0)] }
def wGrid : State := { State.reset with time := gridOfs State.reset 36863 }
def wDark : State := { State.reset with time := 2000000, chB := { State.reset.chB with force := true, forceAt := 1 } }
def wSlp : State := st [(R.SAF_SLPCFG_EN, [3], 1)] { State.reset with chA := ch [(R.SAF_SLPCFG_EN, [3], 1)] State.reset.chA, chB := ch [(R.SAF_SLPCFG_EN, [3], 1)] State.reset.chB }
def imgNil : Image := ⟨0, 0, 0, false, false, 0, 0, 0, 0, 0, [], [], [], [], none, [], 0, [], false, 0, 0, [], [], 0⟩
def wLoopUp (state hc n : Nat) : State :=
  { st [(R.CE_CLSTAT_LIVE, [], 2^32-1), (R.PWR_MODE_CUR, [], 4), (R.LT_LOOP_STATE, [n], state), (R.LT_LOOP_HCAUSE, [n], hc), (R.LT_LOOP_RATE, [n], State.reset.rd R.CE_RATECFG_DARK []), (R.LT_LOOP_UMOD, [n], 777)]
      (bankPut State.reset (bankOf n) ⟨true, false, false, 0⟩) with
    image := (if state = 0 then some imgNil else none), modes := { State.reset.modes with mpDown := false } }
def wSp : State := { st [(R.PORT_SETPT_MODE, [7], 1), (R.PORT_SETPT_LOS, [7], 0), (R.PORT_SETPT_LOSN, [7], 3)] with modes := { State.reset.modes with mpDown := false } }
def wDom (d state : Nat) : State := { st [(R.TBU_DOM_STATE_STATE, [d], state), (R.TBU_DOM_CFG_EN, [d], 1), (R.TBU_DOM_CFG_LOCK_THR, [d], 100), (R.TBU_DOM_CFG_CLASS_MAX, [d], 6), (R.TBU_DOM_FADJ, [d], 12)] with modes := { State.reset.modes with mpDown := false } }
def wLock (d state : Nat) : State := servoPut (wDom d state) d { Servo.idle with good := 15 }
def wPtp : State := st [(R.TBU_DOM_CFG_PTPDOM, [7], 9), (R.TBU_DOM_CFG_PORTS, [7], 2), (R.TBU_DOM_STATE_TTPORT, [7], 1), (R.TBU_RXLAT, [1], 3)] (wDom 7 1)
def wPtpM (typ : Nat) : State := { wPtp with netB := { wPtp.netB with ptp := [⟨86, 0, 0, false, false, some ⟨typ, 9, false, 5000, true⟩, none⟩] } }
/-- A KCP frame in its ring. -/
def kcpF : RxHeld := ⟨200, 0, 0, false, false, none, none⟩
def imgA : Image := { imgNil with keys := [⟨3, 255, 99⟩], fwVer := 7, digest := 5 }
/-- RUN, session 2 open with every right, SEQ 7 next, MID 5. -/
def wKcp : State := { st [(R.PWR_MODE_CUR, [], 4), (R.PWR_MODE_RESTING, [], 4), (R.GLB_MID_MID, [], 5), (R.JNL_SESS_OPEN, [2], 1), (R.JNL_SESS_RIGHTS, [2], 255), (R.JNL_SESS_NEXT, [2], 7), (R.JNL_SESS_KEYSLOT, [2], 3), (R.JNL_HKEY_VALID, [3], 1), (R.JNL_HKEY_RIGHTS, [3], 255), (R.CL_BOOT_SLOT, [], 1), (R.SNP_CTRL_SRC_EN, [], 15)] with
  modes := { State.reset.modes with mpDown := false }, image := some imgA, jnl := { State.reset.jnl with recovering := false },
  netA := { NetPort.idle with kcp := [kcpF] }, netB := { NetPort.idle with kcp := [kcpF] } }
def hK : Hdr := ⟨1, 5, 2, 7, false, true, true, true, 1, 0, ⟨false, 0, 0, 0, 0⟩, none⟩
def nSess : Nat := 2
def reqA : EvReq := ⟨0, false, false, false, 1, 2 ^ 60, 0, 0, 0, 0, 36, [3]⟩
def wEv : Ev := ⟨2, 6, 44, reqA, 0, 5000000, 0, evAccepted, [3], [], [], 0, 0, 0, 0, 0, false, false, false, false, false, none, 9, 1⟩
def wUse : State := cntPut 0 (2 ^ 44 * 60000) (st [(R.TBU_DOM_STATE_STATE, [0], 2)] wKcp)
def wUpd : State := { st [(R.PWR_MODE_CUR, [], 11), (R.PWR_MODE_C_UPD, [], 1), (R.CL_UPD_OWNED, [], 1), (R.CL_UPD_SESSION, [], 2)] wKcp with otp := { Otp.blank with uikProg := 1 }, updTotal := 70000, updRanges := [(0, 8000)] }
/-- One pending event of session 2 in RUN. -/
def wE (e : Ev) : State := { wUse with evs := [e] }
def evArm : Ev := { wEv with st := evArmed, waves := [(5000000, 5000000, [])], armed := 1, started := 1 }
def evSch : Ev := { wEv with st := evScheduled, req := { reqA with deadline := 3 }, waves := [(5400000, 5000000, [])] }
def evSchM : Ev := { evSch with waves := [(5400000, 5000000, [⟨0, [⟨511, none, some ⟨mkDesc 0 0 4 511, true, 3, 3⟩, true⟩]⟩])] }
def evGrp : Ev := { wEv with st := evSolved, req := { reqA with group := true, gid := 5, members := 36 } }
def reqE : EvReq := { reqA with instant := 2 ^ 60 + 2 ^ 30 * 2 }
def wWave : Wave := ⟨5000000, 0, 5000000, [(44, ⟨0, []⟩)], [], []⟩
def moveK : EMove := ⟨bank0, 1, 70000, true, kickEntry 0 false 8, false, 0x80, 60, 1, 36000, 0, 9⟩
def moveH : EMove := ⟨bank0, 2, 70000, false, 0, false, 0, 0, 0, 0, 0, 9⟩
def wWaveK : Wave := ⟨5000000, 0, 5000000, [], [moveK], []⟩
def wWaveH : Wave := ⟨5000000, 0, 5000000, [], [moveH], []⟩
/-- Output 511 is connected to input 4. -/
def wPath : State := st [(R.RS_CONN_DESC, [511], mkDesc 0 0 4 511), (R.RS_PATH_VALID, [511, 0], 1), (R.RS_PATH_VALID, [511, 1], 1), (R.RS_PATH_AGE, [510, 0], 65530)] wKcp
def wKick : State := { st [(R.EDA_CLR_COLD, [0], 0), (R.LT_LOOP_STATE, [bank0], 2), (R.CAL_EREC_UMOD_S, [bank0], 70000), (R.CAL_EREC_KPI, [bank0], 1), (R.EDA_KTAB_VALID, [0, kickEntry 0 false 8], 1), (R.EDA_KTAB_HOLD0, [0, kickEntry 0 false 8], 60)] wKcp with armed := [wWaveK] }
def wRule : State := st [(R.PLAN_RULE_TTYPE, [9], 3), (R.PLAN_RULE_ACTION, [9], 3), (R.PLAN_RULE_ARG, [9], 8), (R.PLAN_RULE_MODES, [9], 63), (R.PLAN_RCTL_STATE, [9], 1)] wKcp
def wStep : State := { cntPut 0 (2 ^ 44 * 540250) (st [(R.PLAN_SCTL_RUN, [0], 1), (R.PLAN_SCHED_LEN, [0, 0], 2), (R.PLAN_SCHED_MAP, [0, 0], 2), (R.TBU_DOM_GW_EN, [0, 0], 1), (R.TBU_DOM_GW_LEN, [0, 0], 50000)] wUse) with image := some { imgA with maps := [(2, ⟨true, [mkDesc 0 0 4 511]⟩)] }, plan := { PlanSt.idle with cycStart := [(0, 1000000)], claims := [0] }, time := 1000 }
def wSafe : State := { st [(R.SAF_GICFG_EN, [0], 1), (R.SAF_GICFG_EN, [1], 1), (R.SAF_GICFG_EN, [7], 1)] wKcp with chA := ch gi017 { Chan.reset with startOk := true }, chB := ch gi017 { Chan.reset with startOk := true } }
def wTesting : State := { wSafe with chA := ch gi017 { Chan.reset with testing := true }, chB := ch gi017 { Chan.reset with testing := true } }
def wOut : State := { wKcp with
  chA := { Chan.reset with startOk := true, cmd := 15, pins := 15, heard := { Heard.none with cmd := 15, pins := 15 } },
  chB := { Chan.reset with startOk := true, cmd := 15, pins := 15, heard := { Heard.none with cmd := 15, pins := 15 } } }
def wPress : State := { wKcp with chA := { Chan.reset with srstLow := true, srstSeen := true }, chB := { Chan.reset with srstLow := true, srstSeen := true } }
def wAcc : State := { st [(R.PWR_MODE_CUR, [], 8), (R.PWR_MODE_C_STOP, [], 1)] wKcp with chA := { Chan.reset with accepted := true, force := true, trips := [4], heard := { Heard.none with accepted := true } }, chB := { Chan.reset with accepted := true, force := true, heard := { Heard.none with accepted := true } } }
def telA : List Nat :=
  let b := [1, 1, 0, 3, 5, 0, 0, 0] ++ beBytes 4 1 ++ beBytes 4 0 ++ [0x8F, 0, 0, 0] ++ List.replicate 104 0
  b ++ beBytes 4 (crc32c b)
def wTel : State := { st [(R.SAF_TELCFG_EN, [], 1), (R.SAF_TELCFG_SRCID, [], 3)] wOut with chA := ch [(R.SAF_TELCFG_EN, [], 1), (R.SAF_TELCFG_SRCID, [], 3)] wOut.chA, chB := ch [(R.SAF_TELCFG_EN, [], 1), (R.SAF_TELCFG_SRCID, [], 3)] wOut.chB, netB := { NetPort.idle with safety := [⟨146, 0, 0, false, false, none, none⟩] } }
def wDk : State := { st [(R.PWR_MODE_CUR, [], 3), (R.CAL_RECORD_VALID, [], 1)] wKcp with chA := { Chan.reset with startOk := true, crcOk := true, force := false }, chB := { Chan.reset with startOk := true, crcOk := true, force := false }, modes := { wKcp.modes with parked := true, dark := true, ran := true } }
def wLoad : State := st [(R.PWR_MODE_CUR, [], 1)] { wKcp with modes := { wKcp.modes with noImage := true, porst := false } }
def otpA : Otp := { Otp.blank with uikProg := 15 }
def flashA : Flash := ⟨true, some imgA, none, ⟨1, 2, 0, 0, 0, 0, true⟩, SlotDir.blank, none, none⟩
def wCal : State := st [(R.PWR_MODE_CUR, [], 2), (R.CAL_RUN_PHASE, [], 4), (R.CAL_RECORD_VALID, [], 1)] wKcp
def wBg : State := st [(R.CAL_BGCFG_EN, [], 1), (R.CAL_BGCFG_SRC_EN, [], 1), (R.PCV_CTRL_RUN, [], 1), (R.PCV_CTRL_REF_OK, [], 1), (R.PCV_CTRL_REFBUF_EN, [], 1)] wKcp
def wRunQ : State := { st [(R.CE_CLSTAT_LIVE, [], 2^32-1)] wKcp with image := some imgNil }
def wFail (i : Nat) : State := st [(R.PWR_ISL_STATE, [i], 5)] wRunQ
def wShed (i : Nat) : State := st [(R.PWR_ISL_STATE, [i], 3), (R.PWR_ISL_AUTO_SUSP, [i], 1), (R.PWR_MODE_C_SHED, [], 1), (R.PWR_MODE_CUR, [], 10)] { wRunQ with time := 11000000000, modes := { wRunQ.modes with shedIsl := [i] }, therm := { wRunQ.therm with sheds := [(i, [1000000000])] } }
def wStart (i : Nat) : State := st [(R.PWR_ISL_STATE, [i], 1), (R.PWR_MODE_C_DEG, [], 1), (R.PWR_MODE_CUR, [], 6)] { wRunQ with modes := { wRunQ.modes with degCauses := [degIsland i] } }
/-- Port 7's output is carried over element bank0 of a live route. -/
def wCorr (n : Nat) : State := { wBg with corr := [(n, [(0x4000110, 0x40000000, 0)])] }
def wRec : State := st [(R.JNL_RECOV_CAUSE, [], 0xFF)] { wKcp with modes := { wKcp.modes with mpDown := true, downAt := 0 }, jnl := { wKcp.jnl with recovering := true } }
def wHold : State := { wKcp with flash := ⟨true, some imgA, none, ⟨1, 3, 2, 0, 0, 0, true⟩, SlotDir.blank, none, none⟩, image := some imgA, jnl := { wKcp.jnl with stopped := true } }
/-- Background calibration runs; output 4 is connected to input 511 in domain 0 through the centre rows 3. -/
def wLit : State := st [(R.RS_CONN_DESC, [4], mkDesc 0 0 511 4), (R.RS_PATH_VALID, [4, 0], 1), (R.RS_PATH_VALID, [4, 1], 1), (R.RS_PATH_CROW, [4, 0], 3), (R.RS_PATH_CROW, [4, 1], 3)] wBg
def wLit2 : State := cntPut 0 (2 ^ 44 * 30000) (st [(R.TBU_DOM_STATE_STATE, [0], 2), (R.TBU_DOM_CFG_EN, [0], 1), (R.TBU_DOM_GW_EN, [0, 0], 1), (R.TBU_DOM_GW_CLASS, [0, 0], 1), (R.TBU_DOM_GW_LEN, [0, 0], 60000)] wLit)
def wArmOn (n : Nat) (s : State) : State := { s with armed := [{ wWave with voas := [(n, 1)] }] }
def wResync : State := { st [(R.JNL_COPY_STATE, [0], 2)] wKcp with jnl := { wKcp.jnl with copyB := [(5, { Entry.blank with jseq := 5 })] }, modes := { wKcp.modes with degCauses := [degCopy 0] } }
/-- Rule 9 fires at every air frame of domain 0 at 250 ns. -/
def wAfpos : State := { cntPut 0 (2 ^ 44 * 10100000) (st [(R.PLAN_RULE_TTYPE, [9], 5), (R.PLAN_RULE_AFMOD, [9], 1), (R.TBU_DOM_STATE_STATE, [0], 2)] wRule) with time := 50000000 }

/-! One witness for each clause that has hypotheses, named after its statement and clause. -/

theorem witness_StepTakesFront_1 :
    ∃ (s : State) (c : Instr) (rest : List Instr), s.pending = c :: rest :=
  ⟨{ State.reset with pending := [.snapPin, .darkCheck] }, .snapPin, [.darkCheck], by decide +kernel⟩

theorem witness_StepTakesFront_3 :
    ∃ (s : State), s.pending = [] :=
  ⟨State.reset, by decide +kernel⟩

theorem witness_RegisterSpaceStaysCanonical_1 :
    ∃ (s t : State), step s = .next t ∧ s.regsWf = true :=
  ⟨State.reset, tick State.reset, rfl, by decide +kernel⟩

theorem witness_DrivesStaySound_1 :
    ∃ (s t : State), step s = .next t ∧ s.drivesWf = true :=
  ⟨State.reset, tick State.reset, rfl, by decide +kernel⟩

theorem witness_QueueIsFirstInFirstOut_1 :
    ∃ (s t : State), step s = .next t :=
  ⟨State.reset, tick State.reset, rfl⟩

theorem witness_JournalNeverGoesBack_1 :
    ∃ (s t : State), step s = .next t :=
  ⟨State.reset, tick State.reset, rfl⟩

theorem witness_HoldClamp_2 :
    ∃ (s : State) (e : Nat), s.drivesWf = true ∧ e < nElem ∧ islOn s (12 + bankOf e) = true ∧
      drvHeld s e = false ∧ (drvGet s e).phase = 2 ∧ 102 < holdRaw (drvGet s e) :=
  ⟨st [(R.EDA_CLR_COLD,[1],0)] (wDrv { Drv.idle with phase := 2, acc := 102 * 16384, dh := 1 } bank1), bank1,
    by decide +kernel⟩

theorem witness_HoldClamp_3 :
    ∃ (s : State) (e : Nat), e < nElem ∧ (drvGet s e).phase = 1 ∧ 102 < (drvGet s e).h0 :=
  ⟨wDrv { Drv.idle with phase := 1, h0 := 103 } 34815, 34815, by decide +kernel⟩

theorem witness_DomainTimeReads_1a :
    ∃ (s t : State) (d j : Nat), d < 8 ∧ 1 ≤ j ∧ j ≤ 4 ∧ islOn s 6 = true ∧ islOn t 6 = true ∧
      t.latch = (readWord (0x401010 + 0x400 * d) s).2.latch :=
  ⟨cntPut 7 (2 ^ 44 * 5000000123) State.reset, cntPut 7 (2 ^ 44 * 9000000999) (readWord (0x401010 + 0x400 * 7) (cntPut 7 (2 ^ 44 * 5000000123) State.reset)).2, 7, 2,
    by decide +kernel⟩

theorem witness_DomainTimeReads_1b :
    ∃ (s t : State) (d j : Nat), d < 8 ∧ 1 ≤ j ∧ j ≤ 4 ∧ islOn s 6 = true ∧ islOn t 6 = true ∧
      t.latch = (readWord (0x401010 + 0x400 * d) s).2.latch :=
  ⟨cntPut 0 (2 ^ 44 * 5000000123) State.reset, cntPut 0 (2 ^ 44 * 9000000999) (readWord 0x401010 (cntPut 0 (2 ^ 44 * 5000000123) State.reset)).2, 0, 4,
    by decide +kernel⟩

theorem witness_ResetEntries_1a :
    ∃ (s : State), modeOf s ≠ mReset :=
  ⟨wKcp, by decide +kernel⟩

theorem witness_ResetEntries_1b :
    ∃ (s : State), modeOf s ≠ mReset :=
  ⟨wrWord (wDrv { Drv.idle with out := 100 } bank0) 0x2000110 8 |> fun s => s.wr R.PWR_MODE_CUR [] 4,
    by decide +kernel⟩

theorem witness_ResetEntries_2 :
    ∃ (s : State), s.modes.porst = false ∧ modeOf s ≠ mReset ∧ s.modes.latched = [] :=
  ⟨{ wKcp with modes := { wKcp.modes with porst := false } }, by decide +kernel⟩

theorem witness_ResetEntries_3 :
    ∃ (s : State), s.modes.porst = true :=
  ⟨State.reset, by decide +kernel⟩

theorem witness_ResetEntries_4 :
    ∃ (s : State) (f : Flash) (im : Image), s.modes.porst = true ∧ s.modes.latched = [] ∧ f.capable = true ∧
      f.slotA = some im ∧ (slotDir f).stA = 2 ∧ (slotDir f).stB = 0 ∧ (slotDir f).count < 2 ^ 32 - 3 :=
  ⟨State.reset, flashA, imgA, by decide +kernel⟩

theorem witness_ResetEntries_5 :
    ∃ (s : State), s.modes.porst = true ∧ s.modes.latched = [] ∧ (slotDir s.flash).stA = 0 ∧
      (slotDir s.flash).stB = 0 ∧ noOverlays s = true ∧ s.evs = [] :=
  ⟨State.reset, by decide +kernel⟩

theorem witness_ResetEntries_6 :
    ∃ (s : State) (mid : Nat), s.modes.porst = false ∧ mid % 64 ≠ s.rd R.GLB_MID_MID [] :=
  ⟨{ wKcp with modes := { wKcp.modes with porst := false } }, 37, by decide +kernel⟩

theorem witness_LoadAndDark_1 :
    ∃ (s : State), modeOf s = mLoad ∧ s.modes.noImage = true ∧ noOverlays s = true ∧ s.evs = [] :=
  ⟨wLoad, by decide +kernel⟩

theorem witness_LoadAndDark_2 :
    ∃ (s : State), modeOf s = mLoad ∧ s.modes.noImage = false ∧ noOverlays s = true ∧ s.evs = [] ∧
      s.flag R.PWR_MODE_C_LOCKOUT [] = false ∧ s.flag R.PWR_MODE_C_STOP [] = false :=
  ⟨{ wLoad with modes := { wLoad.modes with noImage := false } }, by decide +kernel⟩

theorem witness_LoadAndDark_3 :
    ∃ (s : State), modeOf s = mDark ∧ s.modes.parked = true :=
  ⟨wDk, by decide +kernel⟩

theorem witness_LoadAndDark_4 :
    ∃ (s : State), mayRelease s = true ∧ noOverlays s = true ∧ s.evs = [] ∧
      s.flag R.PWR_MODE_C_LOCKOUT [] = false ∧ s.flag R.PWR_MODE_C_STOP [] = false ∧
      (s.rd R.PWR_MODE_RESTING [] = mRun ∨ s.rd R.PWR_MODE_RESTING [] = mEco) ∧
      s.flag R.PWR_MODE_C_SHED [] = false ∧ s.flag R.PWR_MODE_C_MAINT [] = false ∧
      s.flag R.PWR_MODE_C_DEG [] = false ∧ s.flag R.PWR_MODE_C_UPD [] = false :=
  ⟨wDk, by decide +kernel⟩

theorem witness_CalibrationRuns_1 :
    ∃ (s : State), modeOf s = mDark ∧ (s.modes.dark = true ∨ s.flag R.CAL_RECORD_VALID [] = false) ∧
      runDue s = true ∧ s.rd R.CAL_RUN_PHASE [] = 0 ∧ islServing s 0 = true ∧ s.modes.leaving = none ∧
      noOverlays s = true ∧ s.evs = [] :=
  ⟨st [(R.CAL_RECORD_VALID,[],0)] { wDk with modes := { wDk.modes with ran := false } }, by decide +kernel⟩

theorem witness_CalibrationRuns_2a :
    ∃ (s : State) (o : Nat), modeOf s = mCalibrate ∧ s.rd R.CAL_RUN_PHASE [] ≠ 0 ∧ 2 ≤ o ∧ mayEnd o s = true ∧
      s.modes.calFrom = mDark ∧ noOverlays s = true ∧ s.evs = [] ∧ s.flag R.PWR_MODE_C_LOCKOUT [] = false ∧
      s.flag R.PWR_MODE_C_STOP [] = false :=
  ⟨st [(R.CAL_RUN_PHASE,[],8)] wCal, 5, by decide +kernel⟩

theorem witness_CalibrationRuns_2b :
    ∃ (s : State) (o : Nat), modeOf s = mCalibrate ∧ s.rd R.CAL_RUN_PHASE [] ≠ 0 ∧ 2 ≤ o ∧ mayEnd o s = true ∧
      s.modes.calFrom = mDark ∧ noOverlays s = true ∧ s.evs = [] ∧ s.flag R.PWR_MODE_C_LOCKOUT [] = false ∧
      s.flag R.PWR_MODE_C_STOP [] = false :=
  ⟨wCal, 2, by decide +kernel⟩

theorem witness_CalibrationRuns_3 :
    ∃ (s : State) (m : CalMeas) (failed : List Nat), (Instr.calRunEnd 1 m failed).wf = true ∧
      modeOf s = mCalibrate ∧ s.rd R.CAL_RUN_PHASE [] = 8 ∧ s.modes.calFrom = mDark ∧ noOverlays s = true ∧
      s.evs = [] ∧ s.flag R.PWR_MODE_C_LOCKOUT [] = false ∧ s.flag R.PWR_MODE_C_STOP [] = false :=
  ⟨st [(R.CAL_RUN_PHASE,[],8)] wCal, ⟨[],[],[],[],[],[]⟩, [], by decide +kernel⟩

theorem witness_CalibrationRuns_4 :
    ∃ (s : State), modeOf s = mDark ∧ s.flag R.CAL_RECORD_VALID [] = false ∧ s.rd R.CAL_RUN_PHASE [] = 0 ∧
      pcvRuns s = true ∧ pcvReserved (s.rd R.PCV_SEQ_CH [30]) = false ∧
      pcvReserved (s.rd R.PCV_SEQ_CH [31]) = false :=
  ⟨st [(R.CAL_RECORD_VALID,[],0),(R.PCV_CTRL_RUN,[],1),(R.PCV_CTRL_REF_OK,[],1)] wDk, by decide +kernel⟩

theorem witness_IslandFaults_1a :
    ∃ (s : State) (i : Nat), 2 ≤ i ∧ i < 30 ∧ modeOf s ≠ mReset ∧ islOn s i = true ∧ noOverlays s = true ∧
      s.evs = [] :=
  ⟨wRunQ, 29, by decide +kernel⟩

theorem witness_IslandFaults_1b :
    ∃ (s : State) (i : Nat), 2 ≤ i ∧ i < 30 ∧ modeOf s ≠ mReset ∧ islOn s i = true ∧ noOverlays s = true ∧
      s.evs = [] :=
  ⟨wRunQ, 3, by decide +kernel⟩

theorem witness_IslandFaults_1c :
    ∃ (s : State) (i : Nat), 2 ≤ i ∧ i < 30 ∧ modeOf s ≠ mReset ∧ islOn s i = true ∧ noOverlays s = true ∧
      s.evs = [] :=
  ⟨wRunQ, 2, by decide +kernel⟩

theorem witness_IslandFaults_1d :
    ∃ (s : State) (i : Nat), 2 ≤ i ∧ i < 30 ∧ modeOf s ≠ mReset ∧ islOn s i = true ∧ noOverlays s = true ∧
      s.evs = [] :=
  ⟨wRunQ, 7, by decide +kernel⟩

theorem witness_IslandFaults_2a :
    ∃ (s : State) (i : Nat), i < 2 ∧ modeOf s ≠ mReset ∧ islOn s i = true ∧ s.modes.latched = [] :=
  ⟨wRunQ, 0, by decide +kernel⟩

theorem witness_IslandFaults_2b :
    ∃ (s : State) (i : Nat), i < 2 ∧ modeOf s ≠ mReset ∧ islOn s i = true ∧ s.modes.latched = [] :=
  ⟨wRunQ, 1, by decide +kernel⟩

theorem witness_IslandFaults_3a :
    ∃ (s : State) (i : Nat), islState s i = 5 ∧ restartable i = true ∧
      cellGet (fun _ => 0) s.therm.tries i < 3 ∧ s.modes.mpDown = false ∧
      (s.modes.shedIsl.contains (100 + i) && !mayRestart i s) = false :=
  ⟨wFail 29, 29, by decide +kernel⟩

theorem witness_IslandFaults_3b :
    ∃ (s : State) (i : Nat), islState s i = 5 ∧ restartable i = true ∧
      cellGet (fun _ => 0) s.therm.tries i < 3 ∧ s.modes.mpDown = false ∧
      (s.modes.shedIsl.contains (100 + i) && !mayRestart i s) = false :=
  ⟨wFail 2, 2, by decide +kernel⟩

theorem witness_IslandFaults_4 :
    ∃ (s : State) (i : Nat), islState s i = 5 ∧ restartable i = true ∧
      cellGet (fun _ => 0) s.therm.tries i < 3 ∧ s.modes.mpDown = false ∧
      (s.modes.shedIsl.contains (100 + i) && !mayRestart i s) = false :=
  ⟨wFail 29, 29, by decide +kernel⟩

theorem witness_IslandFaults_5a :
    ∃ (s : State) (i : Nat), i < 30 ∧ islState s i = 1 ∧ startedUp i s = true ∧ noOverlays s = true ∧
      s.evs = [] :=
  ⟨wStart 9, 9, by decide +kernel⟩

theorem witness_IslandFaults_5b :
    ∃ (s : State) (i : Nat), i < 30 ∧ islState s i = 1 ∧ startedUp i s = true ∧ noOverlays s = true ∧
      s.evs = [] :=
  ⟨wStart 29, 29, by decide +kernel⟩

theorem witness_IslandFaults_5c :
    ∃ (s : State) (i : Nat), i < 30 ∧ islState s i = 1 ∧ startedUp i s = true ∧ noOverlays s = true ∧
      s.evs = [] :=
  ⟨st [(R.EDA_CLR_COLD,[0],0)] (wStart 12), 12, by decide +kernel⟩

theorem witness_IslandFaults_6 :
    ∃ (s : State) (i : Nat), 8 ≤ i ∧ i ≤ 11 ∧ islState s i = 0 ∧ s.modes.mpDown = false ∧
      (s.away.contains (i - 8) = true ∨ liveOf s (i - 8) ≠ 8) ∧ noOverlays s = true ∧ s.evs = [] :=
  ⟨st [(R.CE_CLSTAT_LIVE,[],2^31-1)] wRunQ, 11, by decide +kernel⟩

theorem witness_IslandFaults_7 :
    ∃ (s : State), quietRun s = true ∧ islOn s 2 = true ∧ s.modes.mpDown = false ∧ noOverlays s = true ∧
      s.evs = [] :=
  ⟨wRunQ, by decide +kernel⟩

theorem witness_IslandFaults_8a :
    ∃ (s : State) (i : Nat), restartable i = true ∧ restartOk i s = true :=
  ⟨wShed 29, 29, by decide +kernel⟩

theorem witness_IslandFaults_8b :
    ∃ (s : State) (i : Nat), restartable i = true ∧ restartOk i s = true :=
  ⟨wShed 0, 0, by decide +kernel⟩

theorem witness_IslandFaults_9a :
    ∃ (s : State) (i : Nat), (i = 2 ∨ i = 5) ∧
      ((cellGet (fun _ => []) s.therm.sheds i).head?.all fun x => decide (x + 600000000000 ≤ s.time)) = true :=
  ⟨{ wShed 5 with time := 601000000000 }, 5, by decide +kernel⟩

theorem witness_IslandFaults_9b :
    ∃ (s : State) (i : Nat), (i = 2 ∨ i = 5) ∧
      ((cellGet (fun _ => []) s.therm.sheds i).head?.all fun x => decide (x + 600000000000 ≤ s.time)) = true :=
  ⟨wShed 5, 2, by decide +kernel⟩

theorem witness_IslandFaults_10 :
    ∃ (s : State) (i : Nat), ((cellGet (fun _ => []) s.therm.sheds i).head?.any fun x => decide (s.time < x + 600000000000)) = true :=
  ⟨wShed 5, 5, by decide +kernel⟩

theorem witness_ThermalRounds_1 :
    ∃ (s : State), quietRun s = true ∧ noOverlays s = true ∧ s.evs = [] :=
  ⟨{ wRunQ with otp := { wRunQ.otp with pinTrim := (span 0 256).map fun x => (x, (1000, 65536)) } },
    by decide +kernel⟩

theorem witness_Conversions_1 :
    ∃ (s : State) (e : Nat), e < 30 ∧ pcvRuns s = true ∧ s.flag R.PCV_SEQ_EN [e] = true ∧
      pcvReserved (s.rd R.PCV_SEQ_CH [e]) = false :=
  ⟨st [(R.PCV_SEQ_EN,[29],1),(R.PCV_SEQ_CH,[29],9),(R.PCV_CHCAL_GAIN,[9],4194304),(R.PCV_RESULT_CNT,[29],31)] wBg, 29,
    by decide +kernel⟩

theorem witness_Conversions_2 :
    ∃ (s : State) (e : Nat), e < 30 ∧ pcvRuns s = true ∧ s.flag R.PCV_SEQ_EN [e] = true ∧
      pcvReserved (s.rd R.PCV_SEQ_CH [e]) = true :=
  ⟨st [(R.PCV_SEQ_EN,[29],1),(R.PCV_SEQ_CH,[29],55)] wBg, 29, by decide +kernel⟩

theorem witness_Conversions_3a :
    ∃ (s : State), pcvRuns s = true :=
  ⟨st [(R.PCV_CHCAL_GAIN,[6],4194304)] wBg, by decide +kernel⟩

theorem witness_Conversions_3b :
    ∃ (s : State), pcvRuns s = true :=
  ⟨wBg, by decide +kernel⟩

theorem witness_Conversions_4 :
    ∃ (s : State), s.flag R.PCV_CTRL_REFBUF_EN [] = true :=
  ⟨wBg, by decide +kernel⟩

theorem witness_BackgroundSteps_1a :
    ∃ (s : State) (n sum : Nat), bgRuns s = true ∧ n < 35840 ∧ visited s n = true ∧
      islOn s (actIsland n) = true ∧ visitDue s n 1 = true ∧ b1Whole n sum s = true ∧ namedArmed s n = false ∧
      cmdsAgree s n (umodFrom s n (meanOf sum) ((tcoFit (b1Results s n (meanOf sum))).getD (s.rdS R.LT_LOOP_TCO [n]))) (s.rd R.LT_LOOP_UMOD [n]) = true ∧
      (s.ramps.any fun r => r.1 == n) = false :=
  ⟨ucsPut 34820 (List.replicate 64 950) (st [(R.LT_LOOP_UMOD,[34820],900)] wLit), 34820, 64 * 950,
    by decide +kernel⟩

theorem witness_BackgroundSteps_1b :
    ∃ (s : State) (n sum : Nat), bgRuns s = true ∧ n < 35840 ∧ visited s n = true ∧
      islOn s (actIsland n) = true ∧ visitDue s n 1 = true ∧ b1Whole n sum s = true ∧ namedArmed s n = false ∧
      cmdsAgree s n (umodFrom s n (meanOf sum) ((tcoFit (b1Results s n (meanOf sum))).getD (s.rdS R.LT_LOOP_TCO [n]))) (s.rd R.LT_LOOP_UMOD [n]) = true ∧
      (s.ramps.any fun r => r.1 == n) = false :=
  ⟨ucsPut 1021 (List.replicate 64 70010) (st [(R.LT_LOOP_UMOD,[1021],70000),(R.CAL_EREC_KPI,[1021],30000)] wLit), 1021, 64 * 70010,
    by decide +kernel⟩

theorem witness_BackgroundSteps_2a :
    ∃ (s : State) (n sum : Nat), bgRuns s = true ∧ n < 34816 ∧ visited s n = true ∧
      islOn s (actIsland n) = true ∧ visitDue s n 1 = true ∧ b1Whole n sum s = true ∧ namedArmed s n = false ∧
      cmdsAgree s n (umodFrom s n (meanOf sum) ((tcoFit (b1Results s n (meanOf sum))).getD (s.rdS R.LT_LOOP_TCO [n]))) (s.rd R.LT_LOOP_UMOD [n]) = false :=
  ⟨ucsPut 1021 (List.replicate 64 100) { wLit with bgFail := [(1021, 1)] }, 1021, 6400, by decide +kernel⟩

theorem witness_BackgroundSteps_2b :
    ∃ (s : State) (n sum : Nat), bgRuns s = true ∧ n < 34816 ∧ visited s n = true ∧
      islOn s (actIsland n) = true ∧ visitDue s n 1 = true ∧ b1Whole n sum s = true ∧ namedArmed s n = false ∧
      cmdsAgree s n (umodFrom s n (meanOf sum) ((tcoFit (b1Results s n (meanOf sum))).getD (s.rdS R.LT_LOOP_TCO [n]))) (s.rd R.LT_LOOP_UMOD [n]) = false :=
  ⟨ucsPut 1021 (List.replicate 64 100) { wLit with bgFail := [(1021, 2)] }, 1021, 6400, by decide +kernel⟩

theorem witness_BackgroundSteps_3 :
    ∃ (s : State) (n sum : Nat), bgRuns s = true ∧ visited s n = true ∧ islOn s (actIsland n) = true ∧
      visitDue s n 1 = true ∧ b1Whole n sum s = true ∧ namedArmed s n = true :=
  ⟨ucsPut 1021 (List.replicate 64 5) (wArmOn 1021 wLit), 1021, 320, by decide +kernel⟩

theorem witness_BackgroundSteps_4 :
    ∃ (s : State) (e : Nat), bgRuns s = true ∧ e < nElem ∧ visited s e = true ∧ islOn s (actIsland e) = true ∧
      visitDue s e 2 = true ∧ noCalWindow s e = true :=
  ⟨wLit, 1021, by decide +kernel⟩

theorem witness_BackgroundSteps_5a :
    ∃ (s : State) (e low : Nat) (u d : Option Nat), bgRuns s = true ∧ e < nElem ∧ visited s e = true ∧
      islOn s (actIsland e) = true ∧ visitDue s e 2 = true ∧ noCalWindow s e = false ∧ namedArmed s e = false ∧
      atBoundary s e = true ∧ lossAgree (low : Int) (25 * (s.rd R.CAL_EREC_EPS0 [e] : Nat)) = true ∧
      (u.all fun x => codesAgree s e x (s.rd R.LT_LOOP_UMOD [e])) = true ∧
      (d.all fun x => powerAgree (x : Int) (s.rd R.ESA_CORR_DARK0 [e] : Nat)) = true ∧
      (s.ramps.any fun r => r.1 == e) = false :=
  ⟨st [(R.LT_LOOP_UMOD,[1021],70000),(R.CAL_EREC_KPI,[1021],30000),(R.CAL_EREC_EPS0,[1021],10),(R.ESA_CORR_DARK0,[1021],1000)] wLit2, 1021, 252, some 70001, some 1010,
    by decide +kernel⟩

theorem witness_BackgroundSteps_5b :
    ∃ (s : State) (e low : Nat) (u d : Option Nat), bgRuns s = true ∧ e < nElem ∧ visited s e = true ∧
      islOn s (actIsland e) = true ∧ visitDue s e 2 = true ∧ noCalWindow s e = false ∧ namedArmed s e = false ∧
      atBoundary s e = true ∧ lossAgree (low : Int) (25 * (s.rd R.CAL_EREC_EPS0 [e] : Nat)) = true ∧
      (u.all fun x => codesAgree s e x (s.rd R.LT_LOOP_UMOD [e])) = true ∧
      (d.all fun x => powerAgree (x : Int) (s.rd R.ESA_CORR_DARK0 [e] : Nat)) = true ∧
      (s.ramps.any fun r => r.1 == e) = false :=
  ⟨wLit2, 1021, 5, none, none, by decide +kernel⟩

theorem witness_BackgroundSteps_6a :
    ∃ (s : State) (i : Nat), bgRuns s = true ∧ s.rd R.CAL_RUN_PHASE [] = 0 ∧
      s.flag R.CAL_BGCFG_SRC_EN [] = true ∧ i < 512 ∧ (outOfIn (liveRoute s) i).isNone = true ∧
      islOn s (sensIsland (35840 + i)) = true ∧ pcvRuns s = true ∧ visitDue s (35840 + i) 3 = true ∧
      pcvReserved (s.rd R.PCV_SEQ_CH [30]) = false ∧ pcvReserved (s.rd R.PCV_SEQ_CH [31]) = false :=
  ⟨wLit, 510, by decide +kernel⟩

theorem witness_BackgroundSteps_6b :
    ∃ (s : State) (i : Nat), bgRuns s = true ∧ s.rd R.CAL_RUN_PHASE [] = 0 ∧
      s.flag R.CAL_BGCFG_SRC_EN [] = true ∧ i < 512 ∧ (outOfIn (liveRoute s) i).isNone = true ∧
      islOn s (sensIsland (35840 + i)) = true ∧ pcvRuns s = true ∧ visitDue s (35840 + i) 3 = true ∧
      pcvReserved (s.rd R.PCV_SEQ_CH [30]) = false ∧ pcvReserved (s.rd R.PCV_SEQ_CH [31]) = false :=
  ⟨st [(R.ESA_CORR_GAIN0,[36350],0xFFFFFF),(R.ESA_CORR_GAIN1,[36350],0xFFFFFF)] wLit, 510, by decide +kernel⟩

theorem witness_Corrections_1 :
    ∃ (s : State) (n : Nat), (calHolds s = true ∨ (atBoundary s n = true ∧ s.time ≤ readyAt s n + 50000000)) ∧
      s.ramps = [] ∧ (corrGet s n).isEmpty = false :=
  ⟨wCorr 1021, 1021, by decide +kernel⟩

theorem witness_Corrections_2 :
    ∃ (s : State) (n : Nat), (corrGet s n).isEmpty = false ∧ n < nLoop ∧ readyAt s n + 50000000 ≤ s.time :=
  ⟨{ wCorr 34816 with time := 50000010, calx := { (wCorr 34816).calx with ready := [(34816, 11)] } }, 34816,
    by decide +kernel⟩

theorem witness_Corrections_3a :
    ∃ (s : State), s.flag R.CAL_RECORD_DIRTY [] = true ∧ recordDue s = true ∧
      s.flag R.PWR_MODE_C_UPD [] = false ∧ islServing s 0 = true :=
  ⟨{ st [(R.CAL_RECORD_DIRTY,[],1)] wBg with time := 24 * 3600000000000 }, by decide +kernel⟩

theorem witness_Corrections_3b :
    ∃ (s : State), s.flag R.CAL_RECORD_DIRTY [] = true ∧ recordDue s = true ∧
      s.flag R.PWR_MODE_C_UPD [] = false ∧ islServing s 0 = true :=
  ⟨{ st [(R.CAL_RECORD_DIRTY,[],1)] wBg with time := 24 * 3600000000000, flash := { wBg.flash with cr0 := some ⟨7,false,true,0,[],[],[],(0,0),0,[],[]⟩ }, wcal := [(0x1000008, 5)] },
    by decide +kernel⟩

theorem witness_Corrections_4 :
    ∃ (s : State), s.flag R.CAL_RECORD_DIRTY [] = true ∧ recordDue s = true ∧
      s.flag R.PWR_MODE_C_UPD [] = false ∧ islServing s 0 = true :=
  ⟨{ st [(R.CAL_RECORD_DIRTY,[],1)] wBg with time := 24 * 3600000000000 }, by decide +kernel⟩

theorem witness_DriveTicks_1 :
    ∃ (s : State) (e : Nat), s.drivesWf = true ∧ e < nElem ∧ islOn s (12 + bankOf e) = true ∧
      drvHeld s e = false ∧ (drvGet s e).rstep = false ∧
      (if (drvGet s e).hi then s.rd R.EDA_RANGE_THR_DN [bankOf e] ≤ (drvGet s e).out ∧
      s.rd R.EDA_RANGE_THR_DN [bankOf e] ≤ (drvGet s e).cmd else (drvGet s e).out ≤ s.rd R.EDA_RANGE_THR_UP [bankOf e] ∧
      (drvGet s e).cmd ≤ s.rd R.EDA_RANGE_THR_UP [bankOf e]) :=
  ⟨wSlew, bank0, by decide +kernel⟩

theorem witness_DriveTicks_2 :
    ∃ (s : State) (e : Nat), s.drivesWf = true ∧ e < nElem ∧ islOn s (12 + bankOf e) = true ∧
      drvHeld s e = false ∧ (drvGet s e).hi = false ∧ s.rd R.EDA_RANGE_THR_UP [bankOf e] < (drvGet s e).out ∧
      (drvGet s e).out ≤ (drvGet s e).cmd :=
  ⟨wDrvUp, bank0, by decide +kernel⟩

theorem witness_DriveTicks_3 :
    ∃ (e k : Nat), k < 16 ∧ bankOf e ≠ k :=
  ⟨bank1, 0, by decide +kernel⟩

theorem witness_KickPhases_1a :
    ∃ (s : State) (e : Nat), e < nElem ∧ (drvGet s e).phase = 1 :=
  ⟨wDrv { Drv.idle with phase := 1, h0 := 102 } 5, 5, by decide +kernel⟩

theorem witness_KickPhases_1b :
    ∃ (s : State) (e : Nat), e < nElem ∧ (drvGet s e).phase = 1 :=
  ⟨wDrv { Drv.idle with phase := 1, h0 := 103 } 34815, 34815, by decide +kernel⟩

theorem witness_KickPhases_2 :
    ∃ (s : State) (e : Nat), e < nElem ∧ (drvGet s e).phase = 2 :=
  ⟨wDrv { Drv.idle with phase := 2 } 5, 5, by decide +kernel⟩

theorem witness_KickPhases_3 :
    ∃ (s : State) (e : Nat), e < nElem ∧ (drvGet s e).phase = 3 ∧ (drvGet s e).acc = 0 :=
  ⟨wDrv { Drv.idle with phase := 3, ho := true, seg := true, dh := 4 } 34815, 34815, by decide +kernel⟩

theorem witness_KickPhases_4 :
    ∃ (s : State) (e : Nat), e < nElem ∧ drvHeld s e = false :=
  ⟨wSlew, bank0, by decide +kernel⟩

theorem witness_BankClears_1a :
    ∃ (s : State) (e : Nat), s.drivesWf = true ∧ e < nElem ∧ islOn s (12 + bankOf e) = true :=
  ⟨wSlew, bank0, by decide +kernel⟩

theorem witness_BankClears_1b :
    ∃ (s : State) (e : Nat), s.drivesWf = true ∧ e < nElem ∧ islOn s (12 + bankOf e) = true :=
  ⟨wLoaded, bank1, by decide +kernel⟩

theorem witness_BankClears_2 :
    ∃ (s : State) (k : Nat), k < 16 ∧ islOn s (12 + k) = true :=
  ⟨st [(R.EDA_CLR_PIN,[15],1)], 15, by decide +kernel⟩

theorem witness_BankClears_3 :
    ∃ (s : State) (e : Nat), s.drivesWf = true ∧ e < nElem ∧ islOn s (12 + bankOf e) = true ∧
      (bankGet s (bankOf e)).selfPark = true ∧ (bankGet s (bankOf e)).loaded = true :=
  ⟨wLoaded, bank1, by decide +kernel⟩

theorem witness_BankClears_4a :
    ∃ (s : State) (k latched : Nat), k < 16 ∧ islOn s (12 + k) = true ∧
      (drvGet s (elemOfLocal k ((bankGet s k).visits % 2176))).hold ≠ 0 ∧ latched < 2 ^ 30 :=
  ⟨wRb, 0, 0, by decide +kernel⟩

theorem witness_BankClears_4b :
    ∃ (s : State) (k latched : Nat), k < 16 ∧ islOn s (12 + k) = true ∧
      (drvGet s (elemOfLocal k ((bankGet s k).visits % 2176))).hold ≠ 0 ∧ latched < 2 ^ 30 :=
  ⟨st [(R.EDA_RB_MISM,[0,3],1)] wRb, 0, 5, by decide +kernel⟩

theorem witness_SensorSamples_1a :
    ∃ (s : State) (n w : Nat), n < 34816 ∧ sensRuns s n = true ∧ onGrid s n = true ∧
      rawOf (osrOf (sensRate s n)) w < 0xC00000 ∧ cellGet (fun _ => 0) s.rchg n = 0 ∧
      cellGet (fun _ => 2) s.refill n = 0 ∧ cellGet (fun _ => 0) s.osr n = 0 ∧ s.corrBad.contains n = false ∧
      s.modes.busyS.contains n = false ∧ bitN (readN s (Blk.esa.base + 0x18)) 31 = false :=
  ⟨wSens, 5, 2 ^ 192 - 1, by decide +kernel⟩

theorem witness_SensorSamples_1b :
    ∃ (s : State) (n w : Nat), n < 34816 ∧ sensRuns s n = true ∧ onGrid s n = true ∧
      rawOf (osrOf (sensRate s n)) w < 0xC00000 ∧ cellGet (fun _ => 0) s.rchg n = 0 ∧
      cellGet (fun _ => 2) s.refill n = 0 ∧ cellGet (fun _ => 0) s.osr n = 0 ∧ s.corrBad.contains n = false ∧
      s.modes.busyS.contains n = false ∧ bitN (readN s (Blk.esa.base + 0x18)) 31 = false :=
  ⟨wSens2, 34815, 0, by decide +kernel⟩

theorem witness_SensorSamples_2 :
    ∃ (s : State) (n : Nat), n < 36864 ∧ sensRuns s n = true ∧ onGrid s n = true :=
  ⟨wGrid, 36863, by decide +kernel⟩

theorem witness_SensorSamples_3 :
    ∃ (s : State) (n : Nat), onGrid s n = false :=
  ⟨wGrid, 5, by decide +kernel⟩

theorem witness_SensorSamples_4 :
    ∃ (s : State) (x : Nat), x < 1024 ∧ islOn s 4 = true ∧ heldDark s (x % 512) = true ∧
      darkLong s (x % 512) = true :=
  ⟨wDark, 1023, by decide +kernel⟩

theorem witness_SensorSamples_5 :
    ∃ (s : State) (x : Nat), x < 1024 ∧ islOn s 4 = true ∧ heldDark s (x % 512) = false ∧
      spbOn s.chB R.SAF_SLPCFG_EN [x % 512] = true :=
  ⟨wSlp, 515, by decide +kernel⟩

theorem witness_LoopUpdates_1 :
    ∃ (s : State) (n g : Nat), n < 34816 ∧ g < 32 ∧ engLive s g = true ∧ islOn s (8 + g / 8) = true ∧
      ownerOf s n = some (g / 8) ∧ islOn s (actIsland n) = true ∧ s.loopBad.contains n = false ∧ s.ramps = [] ∧
      s.modes.busyL.contains n = false ∧ bitN (readN s (Blk.ce.base + 0x18)) 31 = false ∧ 2 ≤ modeOf s ∧
      elemFailed s n = false ∧ s.rd R.LT_LOOP_RATE [n] = rateAt s s.shed n ∧ (qGet s n).en = false ∧
      modeOf s ≠ mCalibrate ∧ s.rd R.LT_LOOP_STATE [n] = 1 ∧ s.rd R.LT_LOOP_HCAUSE [n] = 0 :=
  ⟨wLoopUp 1 0 5, 5, 0, by decide +kernel⟩

theorem witness_LoopUpdates_2 :
    ∃ (s : State) (n g : Nat), n < 34816 ∧ g < 32 ∧ engLive s g = true ∧ islOn s (8 + g / 8) = true ∧
      ownerOf s n = some (g / 8) ∧ islOn s (actIsland n) = true ∧ s.loopBad.contains n = false ∧ s.ramps = [] ∧
      s.modes.busyL.contains n = false ∧ bitN (readN s (Blk.ce.base + 0x18)) 31 = false ∧ 2 ≤ modeOf s ∧
      elemFailed s n = false ∧ s.rd R.LT_LOOP_RATE [n] = rateAt s s.shed n ∧ (qGet s n).en = false ∧
      s.rd R.LT_LOOP_STATE [n] = 0 ∧ entryLoaded s n = true :=
  ⟨wLoopUp 0 0 34815, 34815, 31, by decide +kernel⟩

theorem witness_LoopEntries_1a :
    ∃ (s : State) (n : Nat), n < nLoop ∧ s.loopBad.contains n = true ∧ s.modes.mpDown = false ∧
      islOn s (actIsland n) = true :=
  ⟨{ wLoopUp 1 0 5 with loopBad := [5] }, 5, by decide +kernel⟩

theorem witness_LoopEntries_1b :
    ∃ (s : State) (n : Nat), n < nLoop ∧ s.loopBad.contains n = true ∧ s.modes.mpDown = false ∧
      islOn s (actIsland n) = true :=
  ⟨{ st [(R.LT_LOOP_STATE,[35839],3)] wKcp with loopBad := [35839,7] }, 35839, by decide +kernel⟩

theorem witness_LoopEntries_1c :
    ∃ (s : State) (n : Nat), n < nLoop ∧ s.loopBad.contains n = true ∧ s.modes.mpDown = false ∧
      islOn s (actIsland n) = true :=
  ⟨{ st [(R.LT_LOOP_STATE,[5],0)] wKcp with loopBad := [5] }, 5, by decide +kernel⟩

theorem witness_LoopEntries_2 :
    ∃ (s : State) (n : Nat), s.loopBad.contains n = false :=
  ⟨wKcp, 5, by decide +kernel⟩

theorem witness_Clusters_1a :
    ∃ (s : State) (c n : Nat), c < 4 ∧ s.away = [] ∧ homeOf n = c ∧ modeOf s = mDark ∧
      s.flag R.PWR_MODE_C_LOCKOUT [] = false ∧ s.flag R.PWR_MODE_C_STOP [] = false :=
  ⟨st [(R.CE_CLSTAT_LIVE,[],2^32-1),(R.PWR_MODE_CUR,[],3)], 3, 34816 + 511, by decide +kernel⟩

theorem witness_Clusters_1b :
    ∃ (s : State) (c n : Nat), c < 4 ∧ s.away = [] ∧ homeOf n = c ∧ modeOf s = mDark ∧
      s.flag R.PWR_MODE_C_LOCKOUT [] = false ∧ s.flag R.PWR_MODE_C_STOP [] = false :=
  ⟨st [(R.CE_CLSTAT_LIVE,[],2^32-1),(R.PWR_MODE_CUR,[],3)], 0, 0, by decide +kernel⟩

theorem witness_Clusters_2 :
    ∃ (s : State) (c n : Nat), c < 4 ∧ s.away.contains c = true ∧ islOn s (8 + c) = true ∧ 0 < liveOf s c ∧
      modeOf s = mDark ∧ s.flag R.PWR_MODE_C_LOCKOUT [] = false ∧ s.flag R.PWR_MODE_C_STOP [] = false ∧
      homeOf n = c :=
  ⟨{ st [(R.CE_CLSTAT_LIVE,[],2^32-1),(R.PWR_MODE_CUR,[],3)] with away := [3] }, 3, 34816 + 511,
    by decide +kernel⟩

theorem witness_SetPointInputs_1a :
    ∃ (s : State) (k a b v : Nat), setptRuns s k = true ∧ s.rd R.PORT_SETPT_MODE [k] ≤ 2 ∧
      ((if s.rd R.PORT_SETPT_MODE [k] = 1 then setptPwm a b else setptPfm (s.rd R.PORT_SETPT_FLO [k]) (s.rd R.PORT_SETPT_FHI [k]) a b) = some v) ∧
      s.flag R.PORT_SETPT_LOS [k] = false :=
  ⟨wSp, 7, 5000, 10000, 32768, by decide +kernel⟩

theorem witness_SetPointInputs_1b :
    ∃ (s : State) (k a b v : Nat), setptRuns s k = true ∧ s.rd R.PORT_SETPT_MODE [k] ≤ 2 ∧
      ((if s.rd R.PORT_SETPT_MODE [k] = 1 then setptPwm a b else setptPfm (s.rd R.PORT_SETPT_FLO [k]) (s.rd R.PORT_SETPT_FHI [k]) a b) = some v) ∧
      s.flag R.PORT_SETPT_LOS [k] = false :=
  ⟨st [(R.PORT_SETPT_MODE,[0],2),(R.PORT_SETPT_LOS,[0],0)] wSp, 0, 11, 20000, 32437, by decide +kernel⟩

theorem witness_SetPointInputs_2 :
    ∃ (s : State) (k a b : Nat), setptRuns s k = true ∧ s.rd R.PORT_SETPT_MODE [k] ≤ 2 ∧
      ((if s.rd R.PORT_SETPT_MODE [k] = 1 then setptPwm a b else setptPfm (s.rd R.PORT_SETPT_FLO [k]) (s.rd R.PORT_SETPT_FHI [k]) a b) = none) ∧
      min 15 ((setptGet s k).1 + 1) < s.rd R.PORT_SETPT_LOSN [k] :=
  ⟨wSp, 7, 500, 10001, by decide +kernel⟩

theorem witness_SetPointInputs_3 :
    ∃ (s : State) (k a e v : Nat), setptRuns s k = true ∧ s.rd R.PORT_SETPT_MODE [k] = 3 ∧
      seqEntry s (56 + k) = some e ∧ pcvTurn s e = true ∧ s.therm.refxBad = false ∧ satS 24 (a : Int) = a ∧
      unsettled s e = false ∧ setptAnalog (pcvCorrect s (56 + k) a) = some v ∧
      s.flag R.PORT_SETPT_LOS [k] = false :=
  ⟨{ st [(R.PORT_SETPT_MODE,[7],3),(R.PORT_SETPT_LOS,[7],0),(R.PCV_SEQ_EN,[2],1),(R.PCV_SEQ_CH,[2],63),(R.PCV_SEQ_RATE,[2],3)] wBg with time := 10000000 }, 7, 4194304, 2, 32768,
    by decide +kernel⟩

theorem witness_SetPointInputs_4 :
    ∃ (s : State) (k : Nat), setptRuns s k = true ∧ s.flag R.PORT_SETPT_LOS [k] = false :=
  ⟨{ wSp with spLev := [(7, (0, 1234, true))] }, 7, by decide +kernel⟩

theorem witness_DomainEstimates_1 :
    ∃ (s : State) (d cls : Nat) (x : Int), d < 8 ∧ islOn s 6 = true ∧ s.rd R.TBU_DOM_STATE_STATE [d] = 1 ∧
      (servoGet s d).est = [] ∧ -(2 ^ 31) ≤ x ∧ x < 2 ^ 31 ∧ cls < 256 ∧
      256 * s.rd R.TBU_DOM_CFG_LOCK_THR [d] < x.natAbs :=
  ⟨wDom 7 1, 7, 255, -2000000000, by decide +kernel⟩

theorem witness_DomainEstimates_2a :
    ∃ (s : State) (d cls : Nat) (x : Int), d < 8 ∧ islOn s 6 = true ∧
      (s.rd R.TBU_DOM_STATE_STATE [d] = 1 ∨ s.rd R.TBU_DOM_STATE_STATE [d] = 3) ∧ (servoGet s d).est = [] ∧
      cls ≤ s.rd R.TBU_DOM_CFG_CLASS_MAX [d] ∧ x.natAbs ≤ 256 * s.rd R.TBU_DOM_CFG_LOCK_THR [d] ∧
      s.flag R.TBU_DOM_STEP_GO [d] = false ∧ 15 ≤ (servoGet s d).good :=
  ⟨wLock 7 1, 7, 6, 0, by decide +kernel⟩

theorem witness_DomainEstimates_2b :
    ∃ (s : State) (d cls : Nat) (x : Int), d < 8 ∧ islOn s 6 = true ∧
      (s.rd R.TBU_DOM_STATE_STATE [d] = 1 ∨ s.rd R.TBU_DOM_STATE_STATE [d] = 3) ∧ (servoGet s d).est = [] ∧
      cls ≤ s.rd R.TBU_DOM_CFG_CLASS_MAX [d] ∧ x.natAbs ≤ 256 * s.rd R.TBU_DOM_CFG_LOCK_THR [d] ∧
      s.flag R.TBU_DOM_STEP_GO [d] = false ∧ 15 ≤ (servoGet s d).good :=
  ⟨wLock 0 3, 0, 6, -1, by decide +kernel⟩

theorem witness_DomainEstimates_3 :
    ∃ (s : State) (d cls : Nat), d < 8 ∧ islOn s 6 = true ∧ s.rd R.TBU_DOM_STATE_STATE [d] = 2 ∧
      (servoGet s d).bad < 3 ∧ s.rd R.TBU_DOM_CFG_CLASS_MAX [d] < cls :=
  ⟨wDom 0 2, 0, 200, by decide +kernel⟩

theorem witness_DomainRates_1a :
    ∃ (s : State) (d : Nat), d < 8 ∧ islOn s 6 = true ∧ s.rd R.TBU_DOM_STATE_STATE [d] ≠ 3 :=
  ⟨wDom 7 1, 7, by decide +kernel⟩

theorem witness_DomainRates_1b :
    ∃ (s : State) (d : Nat), d < 8 ∧ islOn s 6 = true ∧ s.rd R.TBU_DOM_STATE_STATE [d] ≠ 3 :=
  ⟨wDom 7 2, 0, by decide +kernel⟩

theorem witness_DomainRates_2 :
    ∃ (s : State) (d : Nat) (v : Int), d < 8 ∧ islOn s 6 = true ∧ s.rd R.TBU_DOM_STATE_STATE [d] ≠ 3 ∧
      -(2 ^ 31) ≤ v ∧ v < 2 ^ 31 :=
  ⟨wDom 7 1, 7, -2147483648, by decide +kernel⟩

theorem witness_DomainRates_3 :
    ∃ (s : State) (d : Nat), d < 8 ∧ islOn s 6 = true ∧ s.rd R.TBU_DOM_STATE_STATE [d] = 1 ∧
      wantsStep s d = true :=
  ⟨(wDom 7 1).wrS R.TBU_DOM_EST [7] (-256001), 7, by decide +kernel⟩

theorem witness_DomainRates_4 :
    ∃ (s : State) (d : Nat), d < 8 ∧ islOn s 6 = true ∧ s.rd R.TBU_DOM_STATE_STATE [d] ≠ 1 :=
  ⟨wDom 7 2, 7, by decide +kernel⟩

theorem witness_DomainRates_5 :
    ∃ (s : State) (d : Nat), d < 8 ∧ islOn s 6 = true ∧ s.rd R.TBU_DOM_STATE_STATE [d] = 1 ∧
      wantsStep s d = false :=
  ⟨(wDom 7 1).wrS R.TBU_DOM_EST [7] 256000, 7, by decide +kernel⟩

theorem witness_DomainRates_6 :
    ∃ (s : State) (d : Nat), d < 8 ∧ islOn s 6 = true ∧ s.flag R.TBU_DOM_STEP_GO [d] = true ∧ s.evs = [] ∧
      s.rd R.TBU_DOM_STATE_STATE [d] = 1 :=
  ⟨st [(R.TBU_DOM_STEP_GO,[7],1),(R.TBU_DOM_STEP_SEC_LO,[7],9)] (wDom 7 1), 7, by decide +kernel⟩

theorem witness_DomainHoldover_1a :
    ∃ (s : State) (d c : Nat), d < 8 ∧ islOn s 6 = true ∧ s.rd R.TBU_DOM_STATE_STATE [d] = 2 ∧
      (c = 0 ∨ c = 4 ∨ (c = 2 ∧ s.rd R.TBU_DOM_CFG_CLASS_MAX [d] < s.rd R.TBU_DOM_STATE_TTCLASS [d]) ∨ (c = 3 ∧
      s.rd R.TBU_DOM_PPSCFG_PPSMODE [d] = 2)) :=
  ⟨wDom 7 2, 7, 0, by decide +kernel⟩

theorem witness_DomainHoldover_1b :
    ∃ (s : State) (d c : Nat), d < 8 ∧ islOn s 6 = true ∧ s.rd R.TBU_DOM_STATE_STATE [d] = 2 ∧
      (c = 0 ∨ c = 4 ∨ (c = 2 ∧ s.rd R.TBU_DOM_CFG_CLASS_MAX [d] < s.rd R.TBU_DOM_STATE_TTCLASS [d]) ∨ (c = 3 ∧
      s.rd R.TBU_DOM_PPSCFG_PPSMODE [d] = 2)) :=
  ⟨wDom 0 2, 0, 4, by decide +kernel⟩

theorem witness_DomainHoldover_1c :
    ∃ (s : State) (d c : Nat), d < 8 ∧ islOn s 6 = true ∧ s.rd R.TBU_DOM_STATE_STATE [d] = 2 ∧
      (c = 0 ∨ c = 4 ∨ (c = 2 ∧ s.rd R.TBU_DOM_CFG_CLASS_MAX [d] < s.rd R.TBU_DOM_STATE_TTCLASS [d]) ∨ (c = 3 ∧
      s.rd R.TBU_DOM_PPSCFG_PPSMODE [d] = 2)) :=
  ⟨st [(R.TBU_DOM_STATE_TTCLASS,[7],7)] (wDom 7 2), 7, 2, by decide +kernel⟩

theorem witness_DomainHoldover_1d :
    ∃ (s : State) (d c : Nat), d < 8 ∧ islOn s 6 = true ∧ s.rd R.TBU_DOM_STATE_STATE [d] = 2 ∧
      (c = 0 ∨ c = 4 ∨ (c = 2 ∧ s.rd R.TBU_DOM_CFG_CLASS_MAX [d] < s.rd R.TBU_DOM_STATE_TTCLASS [d]) ∨ (c = 3 ∧
      s.rd R.TBU_DOM_PPSCFG_PPSMODE [d] = 2)) :=
  ⟨st [(R.TBU_DOM_PPSCFG_PPSMODE,[1],2)] (wDom 1 2), 1, 3, by decide +kernel⟩

theorem witness_DomainHoldover_2 :
    ∃ (s : State) (d : Nat), d < 8 ∧ islOn s 6 = true ∧ s.rd R.TBU_DOM_STATE_STATE [d] = 2 ∧
      s.rd R.TBU_DOM_STATE_TTPORT [d] = 0 ∧ (ptpGet s d 1).ann.seen = false :=
  ⟨ptpPut (st [(R.TBU_DOM_STATE_TTVALID,[7],1)] (wDom 7 2)) 7 0 { PtpPort.idle with ann := ⟨true, 6, 1⟩ }, 7,
    by decide +kernel⟩

theorem witness_DomainHoldover_3 :
    ∃ (s : State) (d : Nat), d < 8 ∧ s.rd R.TBU_DOM_STATE_STATE [d] = 3 ∧
      (servoGet s d).holdT * 1000000 ≤ s.time - (servoGet s d).hoFrom ∧ s.evs = [] ∧
      (span 0 8).all (fun k => !s.flag R.PLAN_SCTL_RUN [k]) = true :=
  ⟨{ wDom 7 3 with time := 1000000000 }, 7, by decide +kernel⟩

theorem witness_DomainHoldover_4a :
    ∃ (s : State) (d : Nat), d < 8 ∧ domReady s d = true ∧ s.evs = [] :=
  ⟨wDom 7 2, 7, by decide +kernel⟩

theorem witness_DomainHoldover_4b :
    ∃ (s : State) (d : Nat), d < 8 ∧ domReady s d = true ∧ s.evs = [] :=
  ⟨st [(R.CE_RCGEN_DOMAIN,[3],7)] (cntPut 7 (2 ^ 50) (wDom 7 2)), 7, by decide +kernel⟩

theorem witness_PtpMessages_1a :
    ∃ (s : State) (p d : Nat) (li : Int) (f : RxHeld) (l : List RxHeld) (g : PtpTag), p < 2 ∧
      islOn s 6 = true ∧ (portGet s p).ptp = f :: l ∧ f.ptp = some g ∧ g.typ = 0 ∧ g.ok = true ∧
      ptpDomain s p g.dom g.mcast = some d ∧ -7 ≤ li ∧ li ≤ 0 :=
  ⟨wPtpM 0, 1, 7, -7, ⟨86, 0, 0, false, false, some ⟨0, 9, false, 5000, true⟩, none⟩, [], ⟨0, 9, false, 5000, true⟩,
    by decide +kernel⟩

theorem witness_PtpMessages_1b :
    ∃ (s : State) (p d : Nat) (li : Int) (f : RxHeld) (l : List RxHeld) (g : PtpTag), p < 2 ∧
      islOn s 6 = true ∧ (portGet s p).ptp = f :: l ∧ f.ptp = some g ∧ g.typ = 0 ∧ g.ok = true ∧
      ptpDomain s p g.dom g.mcast = some d ∧ -7 ≤ li ∧ li ≤ 0 :=
  ⟨wPtpM 0, 1, 7, 0, ⟨86, 0, 0, false, false, some ⟨0, 9, false, 5000, true⟩, none⟩, [], ⟨0, 9, false, 5000, true⟩,
    by decide +kernel⟩

theorem witness_PtpMessages_2 :
    ∃ (s : State) (p d : Nat) (li : Int) (f : RxHeld) (l : List RxHeld) (g : PtpTag), p < 2 ∧
      islOn s 6 = true ∧ (portGet s p).ptp = f :: l ∧ f.ptp = some g ∧ g.typ = 0 ∧ g.ok = true ∧
      ptpDomain s p g.dom g.mcast = some d ∧ (li < -7 ∨ 0 < li) :=
  ⟨wPtpM 0, 1, 7, 1, ⟨86, 0, 0, false, false, some ⟨0, 9, false, 5000, true⟩, none⟩, [], ⟨0, 9, false, 5000, true⟩,
    by decide +kernel⟩

theorem witness_PtpMessages_3 :
    ∃ (s : State) (p d q : Nat) (t2 c t3 t4 cd : Int) (f : RxHeld) (l : List RxHeld) (g : PtpTag), p < 2 ∧
      islOn s 6 = true ∧ (portGet s p).ptp = f :: l ∧ f.ptp = some g ∧ g.typ = 8 ∧ g.ok = true ∧
      ptpDomain s p g.dom g.mcast = some d ∧ (ptpGet s d p).sync = some (q, t2, c) ∧
      (ptpGet s d p).delay = some (t3, t4, cd) ∧ (t2 - t3).natAbs ≤ 65536000000000 ∧
      s.flag R.TBU_DOM_STATE_TTVALID [d] = true ∧ s.rd R.TBU_DOM_STATE_TTPORT [d] = p ∧
      s.rd R.TBU_DOM_PPSCFG_PPSMODE [d] ≠ 2 :=
  ⟨ptpPut (st [(R.TBU_DOM_STATE_TTVALID,[7],1)] (wPtpM 8)) 7 1 { PtpPort.idle with sync := some (4, 100000, 0), delay := some (90000, 95000, 10) }, 1, 7, 4, 100000, 0, 90000, 95000, 10, ⟨86, 0, 0, false, false, some ⟨8, 9, false, 5000, true⟩, none⟩, [], ⟨8, 9, false, 5000, true⟩,
    by decide +kernel⟩

theorem witness_PtpMessages_4 :
    ∃ (s : State) (p d q : Nat) (li t3 : Int) (f : RxHeld) (l : List RxHeld) (g : PtpTag), p < 2 ∧
      islOn s 6 = true ∧ (portGet s p).ptp = f :: l ∧ f.ptp = some g ∧ g.typ = 9 ∧ g.ok = true ∧
      ptpDomain s p g.dom g.mcast = some d ∧ -7 ≤ li ∧ li ≤ 0 ∧ (ptpGet s d p).t3 = some (q, t3) :=
  ⟨ptpPut (wPtpM 9) 7 1 { PtpPort.idle with t3 := some (4, 100000) }, 1, 7, 4, -7, 100000, ⟨86, 0, 0, false, false, some ⟨9, 9, false, 5000, true⟩, none⟩, [], ⟨9, 9, false, 5000, true⟩,
    by decide +kernel⟩

theorem witness_PtpMessages_5 :
    ∃ (s : State) (p d cls : Nat) (f : RxHeld) (l : List RxHeld) (g : PtpTag), p < 2 ∧ islOn s 6 = true ∧
      (portGet s p).ptp = f :: l ∧ f.ptp = some g ∧ g.typ = 11 ∧ g.ok = true ∧
      ptpDomain s p g.dom g.mcast = some d ∧ d < 8 ∧ (ptpGet s d (1 - p)).ann.seen = false ∧
      s.rd R.TBU_DOM_STATE_STATE [d] ≠ 2 ∧ cls < 256 :=
  ⟨wPtpM 11, 1, 7, 255, ⟨86, 0, 0, false, false, some ⟨11, 9, false, 5000, true⟩, none⟩, [], ⟨11, 9, false, 5000, true⟩,
    by decide +kernel⟩

theorem witness_PtpMessages_6 :
    ∃ (s : State) (p : Nat) (f : RxHeld) (l : List RxHeld) (g : PtpTag), p < 2 ∧ islOn s 6 = true ∧
      (portGet s p).ptp = f :: l ∧ f.ptp = some g ∧ g.typ = 0 ∧ ptpDomain s p g.dom g.mcast = none :=
  ⟨st [(R.TBU_DOM_CFG_MCAST,[7],1)] (wPtpM 0), 1, ⟨86, 0, 0, false, false, some ⟨0, 9, false, 5000, true⟩, none⟩, [], ⟨0, 9, false, 5000, true⟩,
    by decide +kernel⟩

theorem witness_PulsesPerSecond_1a :
    ∃ (s : State) (d : Nat) (x : Int), d < 2 ∧ islOn s 6 = true ∧
      (s.rd R.TBU_DOM_PPSCFG_PPSMODE [d] = 1 ∨ s.rd R.TBU_DOM_PPSCFG_PPSMODE [d] = 2) ∧
      s.rd R.TBU_DOM_STATE_STATE [d] = 1 ∧
      x = ((domCnt s d / 2 ^ 43 * 128 : Nat) : Int) - s.rdS R.TBU_DOM_PPSCFG_PPSDLY [d] * 256 ∧
      (servoGet s d).ppsSec ≠ some ((x - secondError x 256000000000) / 256000000000).toNat ∧
      -(2 ^ 31) ≤ secondError x 256000000000 ∧ secondError x 256000000000 < 2 ^ 31 :=
  ⟨cntPut 1 (2 ^ 44 * 999999) (st [(R.TBU_DOM_PPSCFG_PPSMODE,[1],1)] (wDom 1 1)), 1, 255999744,
    by decide +kernel⟩

theorem witness_PulsesPerSecond_1b :
    ∃ (s : State) (d : Nat) (x : Int), d < 2 ∧ islOn s 6 = true ∧
      (s.rd R.TBU_DOM_PPSCFG_PPSMODE [d] = 1 ∨ s.rd R.TBU_DOM_PPSCFG_PPSMODE [d] = 2) ∧
      s.rd R.TBU_DOM_STATE_STATE [d] = 1 ∧
      x = ((domCnt s d / 2 ^ 43 * 128 : Nat) : Int) - s.rdS R.TBU_DOM_PPSCFG_PPSDLY [d] * 256 ∧
      (servoGet s d).ppsSec ≠ some ((x - secondError x 256000000000) / 256000000000).toNat ∧
      -(2 ^ 31) ≤ secondError x 256000000000 ∧ secondError x 256000000000 < 2 ^ 31 :=
  ⟨cntPut 0 (2 ^ 44 * 999999) (st [(R.TBU_DOM_PPSCFG_PPSMODE,[0],2)] (wDom 0 1)), 0, 255999744,
    by decide +kernel⟩

theorem witness_PulsesPerSecond_2 :
    ∃ (s : State) (d : Nat) (x : Int), d < 2 ∧ islOn s 6 = true ∧
      (s.rd R.TBU_DOM_PPSCFG_PPSMODE [d] = 1 ∨ s.rd R.TBU_DOM_PPSCFG_PPSMODE [d] = 2) ∧
      s.rd R.TBU_DOM_STATE_STATE [d] ≠ 0 ∧
      x = ((domCnt s d / 2 ^ 43 * 128 : Nat) : Int) - s.rdS R.TBU_DOM_PPSCFG_PPSDLY [d] * 256 ∧
      (servoGet s d).ppsSec = some ((x - secondError x 256000000000) / 256000000000).toNat :=
  ⟨servoPut (cntPut 1 (2 ^ 44 * 999999) (st [(R.TBU_DOM_PPSCFG_PPSMODE,[1],1)] (wDom 1 1))) 1 { Servo.idle with ppsSec := some 0 }, 1, 255999744,
    by decide +kernel⟩

theorem witness_PulsesPerSecond_3 :
    ∃ (s : State), islOn s 6 = true ∧ s.flag R.TBU_PPSOUT_EN [] = true ∧
      (s.flag R.TBU_PPSOUT_SQUELCH [] = true → domUsable s (s.rd R.TBU_PPSOUT_DOMAIN []) = true) ∧
      s.rd R.TBU_DOM_STATE_STATE [s.rd R.TBU_PPSOUT_DOMAIN []] ≠ 0 ∧ s.ppsOut = false ∧ ppsCrossed s = true :=
  ⟨st [(R.TBU_PPSOUT_EN,[],1),(R.TBU_PPSOUT_DOMAIN,[],7)] (wDom 7 3), by decide +kernel⟩

theorem witness_PulsesPerSecond_4 :
    ∃ (s : State), ((s.ppsOut = true ∧ s.rd R.TBU_PPSOUT_WIDTH [] * 1000 ≤ ppsPhase s) ∨ (s.ppsOut = false ∧
      ppsCrossed s = false)) :=
  ⟨{ cntPut 7 (2 ^ 44 * 100000) (st [(R.TBU_PPSOUT_EN,[],1),(R.TBU_PPSOUT_DOMAIN,[],7)] (wDom 7 3)) with ppsOut := true },
    by decide +kernel⟩

theorem witness_PulsesPerSecond_5 :
    ∃ (s : State), (s.flag R.TBU_PPSOUT_EN [] = false ∨ (s.flag R.TBU_PPSOUT_SQUELCH [] = true ∧
      domUsable s (s.rd R.TBU_PPSOUT_DOMAIN []) = false)) :=
  ⟨{ wDom 7 3 with ppsOut := true }, by decide +kernel⟩

theorem witness_PulsesPerSecond_6 :
    ∃ (s : State) (d p : Nat), d < 8 ∧ p < 2 ∧ s.flag R.TBU_DOM_CFG_EN [d] = true ∧
      bitN (s.rd R.TBU_DOM_CFG_PORTS [d]) p = true ∧ islOn s 6 = true ∧ islOn s 5 = true ∧
      fits s 65535 1 = true ∧ s.flag R.NI_LINK_UP [0] = true ∧ s.flag R.NI_LINK_UP [1] = true :=
  ⟨st [(R.NI_LINK_UP,[0],1),(R.NI_LINK_UP,[1],1),(R.EGS_QCFG_LIMIT,[65535],64)] wPtp, 7, 1, by decide +kernel⟩

theorem witness_SolveAndArm_1 :
    ∃ (s : State) (e : Ev) (cands : List Cand) (x : Sol), islOn s 7 = true ∧ s.jnl.recovering = false ∧
      modeActive (modeOf s) = true ∧ s.repairs = [] ∧ s.solving = none ∧ s.evs = [e] ∧ e.st = evAccepted ∧
      e.replaced = none ∧ e.req.group = true ∧ e.committed = false ∧
      chooseSol s { e with descs := namedDescs s (projRoute s e.aseq) e.req } (goodSols (foundSols s (projRoute s e.aseq) (namedChanges (projRoute s e.aseq) (isReopt e) (namedDescs s (projRoute s e.aseq) e.req)) (namedDescs s (projRoute s e.aseq) e.req).length cands)) = some x :=
  ⟨wE { evGrp with st := evAccepted }, { evGrp with st := evAccepted }, [], ⟨[], false, false⟩,
    by decide +kernel⟩

theorem witness_SolveAndArm_2 :
    ∃ (s : State) (e : Ev) (d : Nat) (r : Route), islOn s 7 = true ∧ s.jnl.recovering = false ∧
      modeActive (modeOf s) = true ∧ s.repairs = [] ∧ s.solving = none ∧ s.evs = [e] ∧ e.st = evAccepted ∧
      e.replaced = none ∧ e.tab < 1024 ∧ e.req.group = true ∧ e.committed = false ∧ e.req.kind = 0 ∧
      e.req.descs = [d] ∧ dValid d = false ∧ projRoute s e.aseq (dOut d) = some r ∧
      unitSize ⟨0, [⟨dOut d, some r, none, true⟩]⟩ ≤ 8192 :=
  ⟨st [(R.RS_CONN_DESC,[511],mkDesc 0 0 4 511)] (wE { evGrp with st := evAccepted, req := { evGrp.req with descs := [511] } }), { evGrp with st := evAccepted, req := { evGrp.req with descs := [511] } }, 511, ⟨mkDesc 0 0 4 511, false, 0, 0⟩,
    by decide +kernel⟩

theorem witness_SolveAndArm_3a :
    ∃ (s : State) (e : Ev) (t0 f x : Nat) (us : List SUnit), mayArm s = true ∧ s.evs = [e] ∧ 0 < e.aseq ∧
      e.tab < 1024 ∧ (e.st = evScheduled ∨ e.st = evArmed) ∧ nextWave e = some (t0, f, us) ∧
      localOf s e.dom t0 = x ∧ tooClose s x = false ∧
      overBudget s ((movesOf (waveChgs (us.map fun u => (e.aseq, u)))).map (latchMove s (waveChgs (us.map fun u => (e.aseq, u))))) x = false :=
  ⟨wE evSch, evSch, 5400000, 5000000, 5340000, [], by decide +kernel⟩

theorem witness_SolveAndArm_3b :
    ∃ (s : State) (e : Ev) (t0 f x : Nat) (us : List SUnit), mayArm s = true ∧ s.evs = [e] ∧ 0 < e.aseq ∧
      e.tab < 1024 ∧ (e.st = evScheduled ∨ e.st = evArmed) ∧ nextWave e = some (t0, f, us) ∧
      localOf s e.dom t0 = x ∧ tooClose s x = false ∧
      overBudget s ((movesOf (waveChgs (us.map fun u => (e.aseq, u)))).map (latchMove s (waveChgs (us.map fun u => (e.aseq, u))))) x = false :=
  ⟨wE evSchM, evSchM, 5400000, 5000000, 5340000, [⟨0, [⟨511, none, some ⟨mkDesc 0 0 4 511, true, 3, 3⟩, true⟩]⟩],
    by decide +kernel⟩

theorem witness_WavesStart_1 :
    ∃ (s : State) (w : Wave) (e : Ev) (u : SUnit), s.armed = [w] ∧ s.modes.leaving = none ∧ s.evs = [e] ∧
      e.st = evArmed ∧ w.moves = [] ∧ w.voas = [] ∧ w.units = [(e.aseq, u)] ∧ u.chgs = [] ∧ jnlReady s = true :=
  ⟨{ wE evArm with armed := [wWave] }, wWave, evArm, ⟨0, []⟩, by decide +kernel⟩

theorem witness_WavesStart_2 :
    ∃ (s : State) (w : Wave) (m : EMove) (k : Nat), s.armed = [w] ∧ s.modes.leaving = none ∧ s.evs = [] ∧
      w.moves = [m] ∧ w.units = [] ∧ w.voas = [] ∧ m.elem < nElem ∧ bankOf m.elem = k ∧
      loopOff s m.elem = false ∧ drvHeld s m.elem = false ∧ s.ramps = [] ∧ s.corr = [] ∧ m.kick = true ∧
      s.flag R.EDA_KTAB_VALID [k, startEntry s m] = true ∧ bitN (readN s ((Blk.eda k).base + 0x18)) 31 = false :=
  ⟨wKick, wWaveK, moveK, 0, by decide +kernel⟩

theorem witness_WavesStart_3 :
    ∃ (s : State) (w : Wave) (m : EMove), s.armed = [w] ∧ s.modes.leaving = none ∧ s.evs = [] ∧ w.moves = [m] ∧
      w.units = [] ∧ w.voas = [] ∧ m.elem < nElem ∧ loopOff s m.elem = false ∧ drvHeld s m.elem = false ∧
      s.ramps = [] ∧ s.corr = [] ∧ m.kick = false :=
  ⟨{ wKick with armed := [wWaveH] }, wWaveH, moveH, by decide +kernel⟩

theorem witness_RepairsAndRefresh_1 :
    ∃ (s : State), islOn s 7 = true ∧ modeActive (modeOf s) = true ∧ repairList s ≠ [] ∧
      repairList (requeueRepairs [] s) ≠ [] :=
  ⟨{ wKcp with repairs := [(511, mkDesc 0 0 4 511)] }, by decide +kernel⟩

theorem witness_RepairsAndRefresh_2 :
    ∃ (s : State) (cands : List Cand) (c : Cand), islOn s 7 = true ∧ modeActive (modeOf s) = true ∧
      s.evs = [] ∧ s.repairWaves = [] ∧ repairList s ≠ [] ∧
      lowest (repairKey s (armedRoute s) (repairList s)) ((⟨[], []⟩ :: cands).filter (repairOk s (armedRoute s) (repairList s))) = some c :=
  ⟨{ wKcp with repairs := [(511, mkDesc 0 0 4 511)] }, [⟨[⟨511, 3, 3⟩], []⟩], ⟨[⟨511, 3, 3⟩], []⟩,
    by decide +kernel⟩

theorem witness_RepairsAndRefresh_3 :
    ∃ (s : State) (n t0 early x : Nat) (ds : List Nat), validateEvent 0 s.time (reoptReq s (s.rd R.RS_CONN_DESC [n]) x) s = .ok (t0, early, ds) ∧
      reoptFree s = true ∧ reoptWanted s n = true ∧ s.evs = [] ∧
      reoptInstant s (s.rd R.RS_CONN_DESC [n]) = some x :=
  ⟨st [(R.RS_CTRL_REOPT_EN,[],1),(R.RS_CONN_DESC,[3],mkDesc 0 0 4 3),(R.RS_CONN_SUSP,[3],1)] wUse, 3, 150000, 150000, 150000, [mkDesc 0 0 4 3],
    okIs_eq (by decide +kernel), by decide +kernel⟩

theorem witness_RepairsAndRefresh_4 :
    ∃ (s : State), reoptDue s = false :=
  ⟨{ wUse with plan := { PlanSt.idle with reoptAt := some 0 } }, by decide +kernel⟩

theorem witness_RepairsAndRefresh_5 :
    ∃ (s : State) (n p : Nat) (r : Route), n < 512 ∧ p < 2 ∧ islOn s 7 = true ∧ liveRoute s n = some r ∧
      r.routed = true :=
  ⟨wPath, 511, 1, ⟨mkDesc 0 0 4 511, true, 0, 0⟩, by decide +kernel⟩

theorem witness_RepairsAndRefresh_6 :
    ∃ (s : State) (n p : Nat), n < 512 ∧ p < 2 ∧ islOn s 7 = true ∧
      (match liveRoute s n with | some r => r.routed | none => false) = false :=
  ⟨wPath, 510, 0, by decide +kernel⟩

theorem witness_RepairsAndRefresh_7 :
    ∃ (s : State) (e : Nat), islOn s 7 = true ∧ (liveElems s).contains e = true :=
  ⟨wPath, nthD 0 (liveElems wPath) 3, by decide +kernel⟩

theorem witness_EventAcceptance_1 :
    ∃ (s : State) (h : Hdr) (r : EvReq) (ar t0 early : Nat) (ds : List Nat), validateEvent h.session (kcpStamp s h.port ar) r s = .ok (t0, early, ds) ∧
      inTurn h s = true ∧ modeSteady s = true ∧ bitN (s.rd R.JNL_SESS_RIGHTS [h.session]) 2 = true :=
  ⟨wUse, hK, reqE, 0, 20000000, 150000, [3], okIs_eq (by decide +kernel), by decide +kernel⟩

theorem witness_EventAcceptance_2 :
    ∃ (s : State) (h : Hdr) (r : EvReq) (ar x : Nat), validateEvent h.session (kcpStamp s h.port ar) r s = .error x ∧
      inTurn h s = true ∧ modeSteady s = true ∧ bitN (s.rd R.JNL_SESS_RIGHTS [h.session]) 2 = true :=
  ⟨wKcp, hK, reqE, 0, 6, errIs_eq (by decide +kernel), by decide +kernel⟩

theorem witness_EventFinals_1 :
    ∃ (s : State) (e : Ev), s.evs = [e] ∧ 0 < e.session ∧ e.session < 32 ∧ e.tab < 1024 ∧ jnlReady s = true ∧
      e.st = evArmed ∧ e.started = e.waves.length ∧ e.failing = false :=
  ⟨wE evArm, evArm, by decide +kernel⟩

theorem witness_EventFinals_2 :
    ∃ (s : State) (e : Ev), s.evs = [e] ∧ 0 < e.session ∧ e.session < 32 ∧ e.tab < 1024 ∧ jnlReady s = true ∧
      evScheduled ≤ e.st ∧ 0 < e.req.deadline ∧ missesBy s e (e.instant + e.req.deadline * 100000) = true :=
  ⟨wE evSch, evSch, by decide +kernel⟩

theorem witness_EventFinals_3 :
    ∃ (s : State) (e : Ev), s.evs = [e] ∧ 0 < e.session ∧ e.session < 32 ∧ e.tab < 1024 ∧ jnlReady s = true ∧
      evScheduled ≤ e.st ∧ e.late = false ∧
      (e.waves.drop e.armed).any (fun w => decide (w.2.1 + e.req.defer * 100000 < armLo s e)) = true :=
  ⟨cntPut 0 (2 ^ 44 * 6000000) (wE evSch), evSch, by decide +kernel⟩

theorem witness_EventFinals_4 :
    ∃ (s : State) (e : Ev), s.evs = [e] ∧ 0 < e.session ∧ e.session < 32 ∧ e.tab < 1024 ∧ jnlReady s = true ∧
      e.req.group = true ∧ e.committed = false ∧ e.st ≤ evSolved ∧ e.instant ≤ domNs s e.dom + 60000 :=
  ⟨cntPut 0 (2 ^ 44 * 6000000) (wE evGrp), evGrp, by decide +kernel⟩

theorem witness_EventFinals_5 :
    ∃ (s : State) (h : Hdr) (e : Ev), inTurn h s = true ∧ modeSteady s = true ∧
      bitN (s.rd R.JNL_SESS_RIGHTS [h.session]) 2 = true ∧ s.evs = [e] ∧ 0 < e.session ∧ e.session < 32 ∧
      e.tab < 1024 ∧ jnlReady s = true ∧ e.session = h.session ∧ e.req.group = false ∧ e.st < evArmed :=
  ⟨wE wEv, hK, wEv, by decide +kernel⟩

theorem witness_EventFinals_6 :
    ∃ (s : State) (h : Hdr) (e : Ev), inTurn h s = true ∧ modeSteady s = true ∧
      bitN (s.rd R.JNL_SESS_RIGHTS [h.session]) 4 = true ∧ s.evs = [e] ∧ 0 < e.session ∧ e.session < 32 ∧
      e.tab < 1024 ∧ jnlReady s = true ∧ e.req.group = true ∧ e.committed = false :=
  ⟨wE evGrp, hK, evGrp, by decide +kernel⟩

theorem witness_GroupCommits_1 :
    ∃ (s : State) (h : Hdr) (e : Ev) (g : Nat) (p : Placement), placementOf (noteCommit true true h.session 0x09 h.seq g e (takeRing h.port 0 s)) { e with committed := true } e.units = .ok p ∧
      inTurn h s = true ∧ modeSteady s = true ∧ bitN (s.rd R.JNL_SESS_RIGHTS [h.session]) 4 = true ∧
      s.evs = [e] ∧ e.req.group = true ∧ e.st = evSolved ∧ e.committed = false ∧ beforeCutoff s e = true ∧
      modeActive (modeOf s) = true ∧ domReady s e.dom = true :=
  ⟨wE evGrp, hK, evGrp, 99, ⟨[(5000000, 5000000, [⟨0, []⟩])], false, false⟩, okIs_eq (by decide +kernel),
    by decide +kernel⟩

theorem witness_GroupCommits_2 :
    ∃ (s : State) (h : Hdr) (e : Ev), inTurn h s = true ∧ modeSteady s = true ∧
      bitN (s.rd R.JNL_SESS_RIGHTS [h.session]) 4 = true ∧ s.evs = [e] ∧ e.req.group = true ∧ e.st = evSolved ∧
      e.committed = false ∧ beforeCutoff s e = true ∧ domReady s e.dom = false :=
  ⟨st [(R.TBU_DOM_STATE_STATE,[0],0)] (wE evGrp), hK, evGrp, by decide +kernel⟩

theorem witness_GroupCommits_3 :
    ∃ (s : State) (e : Ev) (q g : Nat) (p : Placement), placementOf (noteCommit true true 0 0xC2 0 g e (takeRing q 0 s)) { e with committed := true } e.units = .ok p ∧
      kcpUp s = true ∧ q < 2 ∧ (portGet s q).kcp ≠ [] ∧ s.rd R.NI_IP_GRPADDR [q] ≠ 0 ∧ s.evs = [e] ∧
      e.req.group = true ∧ e.st = evSolved ∧ e.committed = false ∧ beforeCutoff s e = true ∧
      jnlReady s = true ∧ modeActive (modeOf s) = true ∧ domReady s e.dom = true :=
  ⟨st [(R.NI_IP_GRPADDR,[1],7)] (wE evGrp), evGrp, 1, 99, ⟨[(5000000, 5000000, [⟨0, []⟩])], false, false⟩,
    okIs_eq (by decide +kernel), by decide +kernel⟩

theorem witness_GroupCommits_4 :
    ∃ (s : State) (e : Ev) (q : Nat), kcpUp s = true ∧ q < 2 ∧ (portGet s q).kcp ≠ [] ∧
      s.rd R.NI_IP_GRPADDR [q] ≠ 0 ∧ s.evs = [e] ∧ e.req.group = true ∧ e.st = evSolved ∧ e.committed = false ∧
      beforeCutoff s e = true ∧ jnlReady s = true ∧ domReady s e.dom = false :=
  ⟨st [(R.NI_IP_GRPADDR,[1],7),(R.TBU_DOM_STATE_STATE,[0],0)] (wE evGrp), evGrp, 1, by decide +kernel⟩

theorem witness_RulesFire_1a :
    ∃ (s : State) (r : Nat), r < 64 ∧ s.rd R.PLAN_RULE_TTYPE [r] ≠ 4 ∧ s.rd R.PLAN_RULE_TTYPE [r] ≠ 5 ∧
      s.plan.hits.contains r = true ∧ s.rd R.PLAN_RCTL_STATE [r] = 1 ∧ islOn s 7 = true ∧ jnlReady s = true ∧
      ((span 0 8).all fun k => !s.flag R.PLAN_SCTL_RUN [k]) = true ∧
      ((span 0 r).all fun x => !s.plan.hits.contains x && s.rd R.PLAN_RULE_TTYPE [x] != 4 && s.rd R.PLAN_RULE_TTYPE [x] != 5) = true ∧
      noOverlays s = true ∧ s.evs = [] ∧ (s.finals.all fun x => decide (x < 1024)) = true :=
  ⟨{ st [(R.PLAN_RULE_ACTION,[9],1),(R.PLAN_RULE_ARG,[9],5),(R.PLAN_RULE_ONESHOT,[9],1)] wRule with plan := { PlanSt.idle with hits := [9] } }, 9,
    by decide +kernel⟩

theorem witness_RulesFire_1b :
    ∃ (s : State) (r : Nat), r < 64 ∧ s.rd R.PLAN_RULE_TTYPE [r] ≠ 4 ∧ s.rd R.PLAN_RULE_TTYPE [r] ≠ 5 ∧
      s.plan.hits.contains r = true ∧ s.rd R.PLAN_RCTL_STATE [r] = 1 ∧ islOn s 7 = true ∧ jnlReady s = true ∧
      ((span 0 8).all fun k => !s.flag R.PLAN_SCTL_RUN [k]) = true ∧
      ((span 0 r).all fun x => !s.plan.hits.contains x && s.rd R.PLAN_RULE_TTYPE [x] != 4 && s.rd R.PLAN_RULE_TTYPE [x] != 5) = true ∧
      noOverlays s = true ∧ s.evs = [] ∧ (s.finals.all fun x => decide (x < 1024)) = true :=
  ⟨{ st [(R.PLAN_RULE_ACTION,[9],0),(R.PLAN_RULE_CLAIM,[9],1)] wRule with plan := { PlanSt.idle with hits := [9] } }, 9,
    by decide +kernel⟩

theorem witness_RulesFire_2a :
    ∃ (s : State) (r : Nat), r < 64 ∧ s.rd R.PLAN_RULE_TTYPE [r] ≠ 4 ∧ s.rd R.PLAN_RULE_TTYPE [r] ≠ 5 ∧
      s.plan.hits.contains r = true ∧ s.rd R.PLAN_RCTL_STATE [r] = 1 ∧ islOn s 7 = true ∧
      s.rd R.PLAN_RULE_ACTION [r] = 3 ∧ 8 ≤ s.rd R.PLAN_RULE_ARG [r] ∧ jnlReady s = true ∧
      ((span 0 8).all fun k => !s.flag R.PLAN_SCTL_RUN [k]) = true ∧
      ((span 0 r).all fun x => !s.plan.hits.contains x && s.rd R.PLAN_RULE_TTYPE [x] != 4 && s.rd R.PLAN_RULE_TTYPE [x] != 5) = true :=
  ⟨{ wRule with plan := { PlanSt.idle with hits := [9, 9, 14] } }, 9, by decide +kernel⟩

theorem witness_RulesFire_2b :
    ∃ (s : State) (r : Nat), r < 64 ∧ s.rd R.PLAN_RULE_TTYPE [r] ≠ 4 ∧ s.rd R.PLAN_RULE_TTYPE [r] ≠ 5 ∧
      s.plan.hits.contains r = true ∧ s.rd R.PLAN_RCTL_STATE [r] = 1 ∧ islOn s 7 = true ∧
      s.rd R.PLAN_RULE_ACTION [r] = 3 ∧ 8 ≤ s.rd R.PLAN_RULE_ARG [r] ∧ jnlReady s = true ∧
      ((span 0 8).all fun k => !s.flag R.PLAN_SCTL_RUN [k]) = true ∧
      ((span 0 r).all fun x => !s.plan.hits.contains x && s.rd R.PLAN_RULE_TTYPE [x] != 4 && s.rd R.PLAN_RULE_TTYPE [x] != 5) = true :=
  ⟨{ st [(R.PLAN_RULE_ONESHOT,[9],1)] wRule with plan := { PlanSt.idle with hits := [9] } }, 9,
    by decide +kernel⟩

theorem witness_RulesFire_3 :
    ∃ (s : State) (r x : Nat), r < 64 ∧ (s.rd R.PLAN_RULE_TTYPE [r] = 4 ∨ s.rd R.PLAN_RULE_TTYPE [r] = 5) ∧
      ruleReady s r = true ∧ dueInstant s r = some x ∧ pointMissed s r x = false ∧ jnlReady s = true ∧
      ((span 0 8).all fun k => !s.flag R.PLAN_SCTL_RUN [k]) = true ∧
      ((span 0 r).all fun x => !s.plan.hits.contains x && s.rd R.PLAN_RULE_TTYPE [x] != 4 && s.rd R.PLAN_RULE_TTYPE [x] != 5) = true ∧
      noOverlays s = true ∧ s.evs = [] ∧ (s.finals.all fun x => decide (x < 1024)) = true :=
  ⟨wAfpos, 9, 10000250, by decide +kernel⟩

theorem witness_RulesFire_4 :
    ∃ (s : State) (r x : Nat), r < 64 ∧ (s.rd R.PLAN_RULE_TTYPE [r] = 4 ∨ s.rd R.PLAN_RULE_TTYPE [r] = 5) ∧
      ruleReady s r = true ∧ dueInstant s r = some x ∧ pointMissed s r x = true ∧ jnlReady s = true ∧
      ((span 0 8).all fun k => !s.flag R.PLAN_SCTL_RUN [k]) = true ∧
      ((span 0 r).all fun x => !s.plan.hits.contains x && s.rd R.PLAN_RULE_TTYPE [x] != 4 && s.rd R.PLAN_RULE_TTYPE [x] != 5) = true :=
  ⟨{ wAfpos with plan := { PlanSt.idle with activeFrom := 50000000 } }, 9, 10000250, by decide +kernel⟩

theorem witness_RulesFire_6a :
    ∃ (s : State) (r : Nat), r < 64 ∧ s.rd R.PLAN_RCTL_STATE [r] = 3 ∧ otherClaims s r 64 = [] ∧
      (losCount s r ≤ s.rd R.PLAN_RULE_NMIN [r] ∨ 2 < s.rd R.PLAN_RULE_TTYPE [r]) ∧ jnlReady s = true :=
  ⟨st [(R.PLAN_RCTL_STATE,[63],3)] wRule, 63, by decide +kernel⟩

theorem witness_RulesFire_6b :
    ∃ (s : State) (r : Nat), r < 64 ∧ s.rd R.PLAN_RCTL_STATE [r] = 3 ∧ otherClaims s r 64 = [] ∧
      (losCount s r ≤ s.rd R.PLAN_RULE_NMIN [r] ∨ 2 < s.rd R.PLAN_RULE_TTYPE [r]) ∧ jnlReady s = true :=
  ⟨setMapBit (st [(R.PLAN_RCTL_STATE,[9],3),(R.PLAN_RCTL_CLAIMED,[9],1),(R.PLAN_RULE_ARG,[9],2)] { wKcp with image := some { imgA with maps := [(2, ⟨true, [mkDesc 0 0 4 511]⟩)] } }) 0x4405000 1023 true, 9,
    by decide +kernel⟩

theorem witness_RulesFire_7a :
    ∃ (s : State) (r : Nat) (on : Bool), r < 64 ∧ islOn s 7 = true ∧
      (s.rd R.PLAN_RCTL_STATE [r] = (if on then 0 else 2)) ∧ s.rd R.PLAN_RULE_TTYPE [r] ≠ 0 ∧ jnlReady s = true :=
  ⟨{ st [(R.PLAN_RULE_TTYPE,[63],1)] wKcp with time := 70 }, 63, true, by decide +kernel⟩

theorem witness_RulesFire_7b :
    ∃ (s : State) (r : Nat) (on : Bool), r < 64 ∧ islOn s 7 = true ∧
      (s.rd R.PLAN_RCTL_STATE [r] = (if on then 0 else 2)) ∧ s.rd R.PLAN_RULE_TTYPE [r] ≠ 0 ∧ jnlReady s = true :=
  ⟨st [(R.PLAN_RCTL_STATE,[0],2),(R.PLAN_RULE_TTYPE,[0],6)] wKcp, 0, false, by decide +kernel⟩

theorem witness_RulesFire_8 :
    ∃ (s : State) (r : Nat), r < 64 ∧ s.rd R.PLAN_RULE_TTYPE [r] = 0 ∧ s.flag R.PLAN_RCTL_EN [r] = false :=
  ⟨wKcp, 63, by decide +kernel⟩

theorem witness_RulesFire_9 :
    ∃ (s : State) (r : Nat), r < 64 ∧ islOn s 7 = true ∧ s.rd R.PLAN_RCTL_STATE [r] = 2 ∧
      s.flag R.PLAN_RCTL_CLAIMED [r] = false ∧ jnlReady s = true :=
  ⟨{ st [(R.PLAN_RCTL_STATE,[63],2)] wKcp with time := 70 }, 63, by decide +kernel⟩

theorem witness_RulesFire_10 :
    ∃ (s : State) (r : Nat), r < 64 ∧ islOn s 7 = true ∧ s.flag R.PLAN_RCTL_CLAIMED [r] = true ∧
      otherClaims s r 64 = [] ∧ jnlReady s = true :=
  ⟨setMapBit (st [(R.PLAN_RCTL_CLAIMED,[9],1),(R.PLAN_RULE_ARG,[9],2)] { wKcp with image := some { imgA with maps := [(2, ⟨true, [mkDesc 0 0 4 511]⟩)] } }) 0x4405000 1023 true, 9,
    by decide +kernel⟩

theorem witness_Schedules_1 :
    ∃ (s : State) (k : Nat), k < 8 ∧ schedPresent s k = true ∧ s.flag R.PLAN_SCTL_RUN [k] = false ∧
      modeActive (modeOf s) = true ∧ domReady s (s.rd R.PLAN_SCHED_DOMAIN [k]) = true ∧ islOn s 7 = true ∧
      s.evs = [] ∧ jnlReady s = true :=
  ⟨{ wUse with image := some { imgA with plan := [(0x4403380, 5)] } }, 7, by decide +kernel⟩

theorem witness_Schedules_2 :
    ∃ (s : State) (k : Nat), k < 8 ∧ s.flag R.PLAN_SCTL_RUN [k] = true ∧ jnlReady s = true :=
  ⟨st [(R.PLAN_SCTL_RUN,[7],1)] wUse, 7, by decide +kernel⟩

theorem witness_Schedules_3 :
    ∃ (s : State) (k i t0 early : Nat) (ds : List Nat), validateEvent 0 (tickStart s) ⟨1, false, false, false, s.rd R.PLAN_SCHED_MAP [k, i % (s.rd R.PLAN_SCHED_NSTEPS [k] + 1)], windowName s (s.rd R.PLAN_SCHED_DOMAIN [k]) (stepInstant s k i) (s.rd R.PLAN_SCHED_WIDX [k]), 0, 0, 0, 0, 32, []⟩ s = .ok (t0, early, ds) ∧
      k < 8 ∧ s.flag R.PLAN_SCTL_RUN [k] = true ∧ s.evs = [] ∧ cellGet (fun _ => 0) s.plan.stepsOut k < 2 ∧
      plansRun s = true ∧ islOn s 7 = true ∧ ((span 0 k).all fun x => !s.flag R.PLAN_SCTL_RUN [x]) = true ∧
      nextStep s k = i ∧ stepInstant s k i ≤ domNs s (s.rd R.PLAN_SCHED_DOMAIN [k]) + stepLead :=
  ⟨wStep, 0, 0, 1000250, 990250, [mkDesc 0 0 4 511], okIs_eq (by decide +kernel), by decide +kernel⟩

theorem witness_GuardInputs_1 :
    ∃ (x : Nat), x < 8 :=
  ⟨7, by decide +kernel⟩

theorem witness_GuardInputs_2 :
    ∃ (s : State) (c x : Nat), c < 2 ∧ x < 8 ∧ chanOn s c = true ∧ giEn (chanGet s c) x = true ∧
      (chanGet s c).blankB ≤ s.time ∧ (guardGet (chanGet s c) x).st < 2 ∧
      (guardGet (chanGet s c) x).hold = false :=
  ⟨guardUpd 1 7 (fun g => { g with fA := true, pinB := true }) wSafe, 1, 7, by decide +kernel⟩

theorem witness_GuardInputs_3 :
    ∃ (s : State) (c x : Nat), c < 2 ∧ x < 8 ∧ chanOn s c = true ∧ giEn (chanGet s c) x = true ∧
      (chanGet s c).blankB ≤ s.time ∧ (chanGet s c).testing = false ∧ (guardGet (chanGet s c) x).st < 2 ∧
      (guardGet (chanGet s c) x).hold = true ∧ (guardGet (chanGet s c) x).fA = false :=
  ⟨guardUpd 1 7 (fun g => { g with hold := true, pinB := true }) wSafe, 1, 7, by decide +kernel⟩

theorem witness_GuardInputs_4 :
    ∃ (s : State) (c : Nat), s.time < (chanGet s c).blankB :=
  ⟨{ wSafe with chB := { wSafe.chB with blankB := 700000 } }, 1, by decide +kernel⟩

theorem witness_GuardInputs_5a :
    ∃ (s : State) (c x : Nat), c < 2 ∧ x < 8 ∧ chanOn s c = true ∧ (chanGet s c).testing = false ∧
      giEn (chanGet s c) x = true ∧ (guardGet (chanGet s c) x).fA ≠ (guardGet (chanGet s c) x).fB ∧
      (guardGet (chanGet s c) x).st < 3 :=
  ⟨guardUpd 0 7 (fun g => { g with fA := true, dcnt := 20 }) { wSafe with chA := ch [(R.SAF_GICFG_DISC_T,[7],20)] wSafe.chA }, 0, 7,
    by decide +kernel⟩

theorem witness_GuardInputs_5b :
    ∃ (s : State) (c x : Nat), c < 2 ∧ x < 8 ∧ chanOn s c = true ∧ (chanGet s c).testing = false ∧
      giEn (chanGet s c) x = true ∧ (guardGet (chanGet s c) x).fA ≠ (guardGet (chanGet s c) x).fB ∧
      (guardGet (chanGet s c) x).st < 3 :=
  ⟨guardUpd 1 0 (fun g => { g with fB := true, dcnt := 511 }) wSafe, 1, 0, by decide +kernel⟩

theorem witness_TestPulses_1 :
    ∃ (s : State), chanOn s 0 = true ∧ s.chA.testing = false :=
  ⟨{ wSafe with pulse := 2 }, by decide +kernel⟩

theorem witness_TestPulses_2 :
    ∃ (s : State), chanOn s 1 = true ∧ s.chB.testing = false :=
  ⟨{ wSafe with pulse := 1 }, by decide +kernel⟩

theorem witness_TestPulses_3 :
    ∃ (s : State), chanOn s 1 = true ∧ s.chB.testing = false :=
  ⟨wSafe, by decide +kernel⟩

theorem witness_TestPulses_4 :
    ∃ (s : State) (l : List Bool) (x : Nat), s.pulse = 1 ∧ chanOn s 0 = true ∧ x < 8 ∧ giEn s.chA x = true ∧
      (guardGet s.chA x).fA = true ∧ (guardGet s.chA x).fB = true ∧ (guardGet s.chA x).st = 1 ∧
      nthD false l (2 * x) = false ∧ nthD false l (2 * x + 1) = true :=
  ⟨{ guardUpd 0 0 (fun g => { g with fA := true, fB := true, st := 1, susp := 1 }) wSafe with pulse := 1 }, [false,true], 0,
    by decide +kernel⟩

theorem witness_TestPulses_5 :
    ∃ (s : State) (l : List Bool) (x : Nat), s.pulse = 1 ∧ chanOn s 0 = true ∧ x < 8 ∧ giEn s.chA x = true ∧
      (guardGet s.chA x).fA = true ∧ (guardGet s.chA x).fB = true ∧ (guardGet s.chA x).st = 1 ∧
      bitN (guardGet s.chA x).susp 0 = true ∧ nthD false l (2 * x) = true :=
  ⟨{ guardUpd 0 0 (fun g => { g with fA := true, fB := true, st := 1, susp := 1 }) wSafe with pulse := 1 }, [true,true], 0,
    by decide +kernel⟩

theorem witness_TestPulses_6 :
    ∃ (s : State) (l : List Bool) (x : Nat), s.pulse = 2 ∧ chanOn s 1 = true ∧ x < 8 ∧ giEn s.chB x = true ∧
      (guardGet s.chB x).fA = true ∧ (guardGet s.chB x).fB = true ∧ (guardGet s.chB x).st = 1 ∧
      bitN (guardGet s.chB x).susp 1 = true ∧ nthD false l (2 * x) = false :=
  ⟨{ guardUpd 1 0 (fun g => { g with fA := true, fB := true, st := 1, susp := 2 }) wSafe with pulse := 2 }, [false,false], 0,
    by decide +kernel⟩

theorem witness_TestPulses_7a :
    ∃ (s : State), chanOn s 0 = true ∧ chanOn s 1 = true ∧ s.chA.testing = true ∧ s.chB.testing = true :=
  ⟨wTesting, by decide +kernel⟩

theorem witness_TestPulses_7b :
    ∃ (s : State), chanOn s 0 = true ∧ chanOn s 1 = true ∧ s.chA.testing = true ∧ s.chB.testing = true :=
  ⟨wTesting, by decide +kernel⟩

theorem witness_SafetyOutputs_1 :
    ∃ (s : State) (c y : Nat), c < 2 ∧ y < 4 ∧ chanOn s c = true ∧ readsOdd s c y = true ∧
      (chanGet s c).testOut ≠ some y :=
  ⟨{ wOut with chB := { wOut.chB with pins := 143 } }, 1, 3, by decide +kernel⟩

theorem witness_SafetyOutputs_2 :
    ∃ (s : State) (c y : Nat), readsOdd s c y = false :=
  ⟨wOut, 1, 3, by decide +kernel⟩

theorem witness_SafetyOutputs_3 :
    ∃ (s : State) (c y : Nat), c < 2 ∧ y < 4 ∧ chanOn s c = true ∧ bitN s.chA.cmd y = true ∧
      bitN s.chB.cmd y = true ∧ s.chA.testOut = none ∧ s.chB.testOut = none ∧
      outDemand s (chanGet s c) y = false :=
  ⟨wOut, 0, 3, by decide +kernel⟩

theorem witness_SafetyOutputs_4 :
    ∃ (s : State) (c y : Nat), c < 2 ∧ y < 4 ∧ chanOn s c = true ∧ (chanGet s c).testOut = some y ∧
      bitN (chanGet s (1 - c)).cmd y = true ∧ outDemand s (chanGet s c) y = false :=
  ⟨{ wOut with chB := { wOut.chB with testOut := some 3, cmd := 7 } }, 1, 3, by decide +kernel⟩

theorem witness_SafetyOutputs_5 :
    ∃ (s : State) (c y : Nat), c < 2 ∧ y < 4 ∧ chanOn s c = true ∧ (chanGet s c).testOut = some y ∧
      bitN (chanGet s (1 - c)).cmd y = true ∧ outDemand s (chanGet s c) y = false :=
  ⟨{ wOut with chB := { wOut.chB with testOut := some 3, cmd := 7 } }, 1, 3, by decide +kernel⟩

theorem witness_SafetyOutputs_6 :
    ∃ (s : State) (c y : Nat), c < 2 ∧ y < 4 ∧ chanOn s c = true ∧ (chanGet s c).testOut = some y ∧
      outDemand s (chanGet s c) y = true :=
  ⟨{ wOut with chB := { wOut.chB with testOut := some 3, cmd := 7, vsafe := true } }, 1, 3, by decide +kernel⟩

theorem witness_SafetyOutputs_7 :
    ∃ (s : State) (c : Nat), c < 2 ∧ chanOn s c = true :=
  ⟨wOut, 1, by decide +kernel⟩

theorem witness_SafetyOutputs_8 :
    ∃ (s : State) (c : Nat), c < 2 ∧ chanOn s c = true :=
  ⟨{ wOut with chA := { wOut.chA with vsafe := true } }, 0, by decide +kernel⟩

theorem witness_ChannelCycles_1 :
    ∃ (s : State), chanOn s 0 = true ∧ 2 ≤ modeOf s ∧ noOverlays s = true ∧ s.chA.locks ≠ 0 ∧
      s.chA.xbad = true ∧ s.modes.leaving = none ∧ s.evs = [] :=
  ⟨{ wOut with chA := { wOut.chA with locks := 8, xbad := true } }, by decide +kernel⟩

theorem witness_ChannelCycles_2 :
    ∃ (s : State), chanOn s 1 = true ∧ 2 ≤ modeOf s ∧ noOverlays s = true ∧ s.chB.locks ≠ 0 ∧
      s.chB.xbad = true ∧ s.modes.leaving = none ∧ s.evs = [] :=
  ⟨{ wOut with chB := { wOut.chB with locks := 8, xbad := true } }, by decide +kernel⟩

theorem witness_ChannelCycles_3 :
    ∃ (s v : State), latchSdp 0 (keepGrant 0 (adopt 0 (s.incS R.SAF_TELSTAT_AGE []))) = v ∧ chanOn s 0 = true ∧
      2 ≤ modeOf s ∧ s.modes.leaving = none ∧ sosDemand v v.chA = false ∧ v.chA.locks = 0 ∧
      v.chA.testOut = none :=
  ⟨wOut, latchSdp 0 (keepGrant 0 (adopt 0 (wOut.incS R.SAF_TELSTAT_AGE []))), rfl, by decide +kernel⟩

theorem witness_ChannelCycles_4 :
    ∃ (s v : State), latchSdp 1 (keepGrant 1 (adopt 1 s)) = v ∧ chanOn s 1 = true ∧ 2 ≤ modeOf s ∧
      s.modes.leaving = none ∧ sosDemand v v.chB = false ∧ v.chB.locks = 0 ∧ v.chB.testOut = none :=
  ⟨wOut, latchSdp 1 (keepGrant 1 (adopt 1 wOut)), rfl, by decide +kernel⟩

theorem witness_ChannelCycles_5 :
    ∃ (s : State) (c : Nat), c < 2 ∧ chanOn s c = true :=
  ⟨wOut, 1, by decide +kernel⟩

theorem witness_CrossLink_1a :
    ∃ (s : State) (r : Reads), r.chan < 2 ∧ chanOn s 0 = true ∧ chanOn s 1 = true :=
  ⟨{ wOut with chA := { wOut.chA with locks := 4 } }, ⟨0, 15, true, true⟩, by decide +kernel⟩

theorem witness_CrossLink_1b :
    ∃ (s : State) (r : Reads), r.chan < 2 ∧ chanOn s 0 = true ∧ chanOn s 1 = true :=
  ⟨{ wOut with chA := { wOut.chA with xbad := true } }, ⟨1, 15, false, true⟩, by decide +kernel⟩

theorem witness_CrossLink_2 :
    ∃ (s : State) (r : Reads), r.chan < 2 ∧ chanOn s 0 = true ∧ chanOn s 1 = true ∧
      (chanGet s (1 - r.chan)).xbad = false :=
  ⟨{ wOut with chA := { wOut.chA with locks := 4 } }, ⟨0, 15, true, true⟩, by decide +kernel⟩

theorem witness_CrossLink_3a :
    ∃ (s : State) (c i : Nat), c < 2 ∧ chanOn s c = true ∧ itemDiffers s c i = true :=
  ⟨wOut, 1, 5, by decide +kernel⟩

theorem witness_CrossLink_3b :
    ∃ (s : State) (c i : Nat), c < 2 ∧ chanOn s c = true ∧ itemDiffers s c i = true :=
  ⟨wOut, 0, 9, by decide +kernel⟩

theorem witness_CrossLink_4 :
    ∃ (s : State) (c i : Nat), itemDiffers s c i = false :=
  ⟨wOut, 1, 3, by decide +kernel⟩

theorem witness_PressesAndGrants_1 :
    ∃ (s : State) (c : Nat), c < 2 ∧ chanOn s c = true :=
  ⟨wOut, 1, by decide +kernel⟩

theorem witness_PressesAndGrants_2a :
    ∃ (s : State) (c : Nat), c < 2 ∧ chanOn s c = true ∧ (chanGet s c).srstLow = true ∧
      (chanGet s c).srstSeen = true ∧ (chanGet s c).accepted = false :=
  ⟨wPress, 0, by decide +kernel⟩

theorem witness_PressesAndGrants_2b :
    ∃ (s : State) (c : Nat), c < 2 ∧ chanOn s c = true ∧ (chanGet s c).srstLow = true ∧
      (chanGet s c).srstSeen = true ∧ (chanGet s c).accepted = false :=
  ⟨wPress, 0, by decide +kernel⟩

theorem witness_PressesAndGrants_2c :
    ∃ (s : State) (c : Nat), c < 2 ∧ chanOn s c = true ∧ (chanGet s c).srstLow = true ∧
      (chanGet s c).srstSeen = true ∧ (chanGet s c).accepted = false :=
  ⟨wPress, 1, by decide +kernel⟩

theorem witness_PressesAndGrants_2d :
    ∃ (s : State) (c : Nat), c < 2 ∧ chanOn s c = true ∧ (chanGet s c).srstLow = true ∧
      (chanGet s c).srstSeen = true ∧ (chanGet s c).accepted = false :=
  ⟨wPress, 1, by decide +kernel⟩

theorem witness_PressesAndGrants_3 :
    ∃ (s : State) (c : Nat), c < 2 ∧ (chanGet s c).accepted = true ∧ (chanGet s c).heard.accepted = false :=
  ⟨{ wOut with chB := { wOut.chB with accepted := true } }, 1, by decide +kernel⟩

theorem witness_PressesAndGrants_4 :
    ∃ (s : State), s.chA.accepted = true ∧ s.chB.accepted = true ∧ s.chA.heard.accepted = true ∧
      s.chB.heard.accepted = true :=
  ⟨wAcc, by decide +kernel⟩

theorem witness_PressesAndGrants_5 :
    ∃ (s : State), s.chA.accepted = true ∧ s.chB.accepted = true ∧ s.chA.heard.accepted = true ∧
      s.chB.heard.accepted = true ∧ modeOf s = mSafeStop ∧ noOverlays s = true ∧ noCause s = true ∧
      (span 0 8).all (fun x => !giEn s.chA x && !giEn s.chB x) = true ∧ telOn s.chA = false ∧
      telOn s.chB = false ∧ s.chA.vsafe = false ∧ s.chB.vsafe = false ∧ s.chA.xbad = false ∧
      s.chB.xbad = false ∧ s.chA.heard.fresh = 0 ∧ s.chB.heard.fresh = 0 ∧ s.modes.leaving = none :=
  ⟨wAcc, by decide +kernel⟩

theorem witness_PressesAndGrants_6 :
    ∃ (s : State) (c : Nat), c < 2 ∧ chanOn s c = true ∧ s.modes.leaving = none :=
  ⟨wOut, 1, by decide +kernel⟩

theorem witness_PressesAndGrants_7 :
    ∃ (s : State) (c : Nat), c < 2 ∧ chanOn s c = true ∧ 2 ≤ modeOf s ∧ noOverlays s = true ∧
      (chanGet s c).grant = true ∧ s.modes.leaving = none :=
  ⟨{ wOut with chB := { wOut.chB with grant := true } }, 1, by decide +kernel⟩

theorem witness_DarkVerifyAndCauses_1 :
    ∃ (s : State) (n : Nat), n < 512 ∧ chanOn s 0 = true ∧ heldDark s n = true ∧ darkLong s n = true :=
  ⟨{ wOut with time := 2000000, chA := { wOut.chA with force := true, forceAt := 1 } }, 511, by decide +kernel⟩

theorem witness_DarkVerifyAndCauses_2a :
    ∃ (s : State) (n : Nat), n < 512 ∧ chanOn s 1 = true ∧ heldDark s n = true ∧ darkLong s n = true :=
  ⟨{ wOut with time := 2000000, chA := { wOut.chA with force := true, forceAt := 1 } }, 511, by decide +kernel⟩

theorem witness_DarkVerifyAndCauses_2b :
    ∃ (s : State) (n : Nat), n < 512 ∧ chanOn s 1 = true ∧ heldDark s n = true ∧ darkLong s n = true :=
  ⟨{ wOut with time := 2000000, chA := { wOut.chA with force := true, forceAt := 1 } }, 0, by decide +kernel⟩

theorem witness_DarkVerifyAndCauses_3 :
    ∃ (s : State) (c k : Nat), c < 2 ∧ k < 5 ∧ k ≠ 3 ∧ chanOn s c = true ∧ causeGone s c k = true :=
  ⟨{ wOut with chA := { wOut.chA with locks := 255 } }, 0, 4, by decide +kernel⟩

theorem witness_DarkVerifyAndCauses_4 :
    ∃ (s : State) (c : Nat), c < 2 ∧ chanOn s c = true ∧ causeGone s c 3 = true :=
  ⟨{ wSafe with chB := { wSafe.chB with locks := 8, sofault := 5 } }, 1, by decide +kernel⟩

theorem witness_Telegrams_1 :
    ∃ (s : State) (c p : Nat) (b : List Nat) (l : List RxHeld) (e : Nat × Nat × List Nat), c < 2 ∧ p < 2 ∧
      chanOn s c = true ∧ islOn s 5 = true ∧ takeSafety c (portGet s p).safety = some l ∧
      telOn (chanGet s c) = true ∧ copyValid s (chanGet s c) b = true ∧
      ((chanGet s c).half.filter fun e => e.1 != p && decide (s.time ≤ e.2.1 + 5000000)).find? (fun e => e.2.2 == b) = some e ∧
      copyNewer (chanGet s c) b = true ∧ s.modes.leaving = none :=
  ⟨{ wTel with chA := { wTel.chA with half := [(1, 0, [2]), (0, 0, telA)] } }, 0, 1, telA, [⟨146,0,0,true,false,none,none⟩], (0, 0, telA),
    by decide +kernel⟩

theorem witness_Telegrams_2a :
    ∃ (s : State) (c p : Nat) (b : List Nat) (l : List RxHeld), c < 2 ∧ p < 2 ∧ chanOn s c = true ∧
      islOn s 5 = true ∧ takeSafety c (portGet s p).safety = some l ∧ telOn (chanGet s c) = true ∧
      copyValid s (chanGet s c) b = true ∧
      ((chanGet s c).half.filter fun e => e.1 != p && decide (s.time ≤ e.2.1 + 5000000)).all (fun e => copySeq e.2.2 != copySeq b) = true ∧
      s.modes.leaving = none :=
  ⟨wTel, 0, 1, telA, [⟨146,0,0,true,false,none,none⟩], by decide +kernel⟩

theorem witness_Telegrams_2b :
    ∃ (s : State) (c p : Nat) (b : List Nat) (l : List RxHeld), c < 2 ∧ p < 2 ∧ chanOn s c = true ∧
      islOn s 5 = true ∧ takeSafety c (portGet s p).safety = some l ∧ telOn (chanGet s c) = true ∧
      copyValid s (chanGet s c) b = true ∧
      ((chanGet s c).half.filter fun e => e.1 != p && decide (s.time ≤ e.2.1 + 5000000)).all (fun e => copySeq e.2.2 != copySeq b) = true ∧
      s.modes.leaving = none :=
  ⟨{ wTel with time := 5000001, chA := { wTel.chA with half := [(0, 0, telA)] } }, 0, 1, telA, [⟨146,0,0,true,false,none,none⟩],
    by decide +kernel⟩

theorem witness_Telegrams_3 :
    ∃ (s : State) (c : Nat) (e : Nat × Nat × List Nat) (l : List (Nat × Nat × List Nat)), c < 2 ∧
      chanOn s c = true ∧ (chanGet s c).half = e :: l ∧ e.2.1 + 5000000 ≤ s.time :=
  ⟨{ wTel with time := 5000000, chA := { wTel.chA with half := [(0, 0, [1])] } }, 0, (0, 0, [1]), [],
    by decide +kernel⟩

theorem witness_Telegrams_4 :
    ∃ (s : State) (c : Nat), c < 2 ∧ chanOn s c = true ∧ telOn (chanGet s c) = true ∧
      (chanGet s c).wdRun = true ∧ s.modes.leaving = none :=
  ⟨{ wTel with chA := { wTel.chA with wdRun := true } }, 0, by decide +kernel⟩

theorem witness_Telegrams_5 :
    ∃ (s : State), chanOn s 0 = true :=
  ⟨{ wTel with statusSeq := 2 ^ 32 - 1 }, by decide +kernel⟩

theorem witness_NetworkLinkEvents_1 :
    ∃ (s : State) (p : Nat), portOn s p = true ∧ islOn s 6 = true :=
  ⟨wNet, 0, by decide +kernel⟩

theorem witness_NetworkLinkEvents_2 :
    ∃ (s : State) (p : Nat), portOn s p = true ∧ linkUp s p = true :=
  ⟨wEnq, 0, by decide +kernel⟩

theorem witness_NetworkLinkEvents_3a :
    ∃ (s : State) (p quanta : Nat), portOn s p = true ∧ linkUp s p = true ∧
      s.flag R.NI_CFG_PAUSE_HONOUR [p] = true ∧
      (s.rd R.NI_CFG_PAUSE_CAP [p] = 0 ∨ quanta % 2 ^ 16 ≤ s.rd R.NI_CFG_PAUSE_CAP [p]) :=
  ⟨wNet, 0, 65535, by decide +kernel⟩

theorem witness_NetworkLinkEvents_3b :
    ∃ (s : State) (p quanta : Nat), portOn s p = true ∧ linkUp s p = true ∧
      s.flag R.NI_CFG_PAUSE_HONOUR [p] = true ∧
      (s.rd R.NI_CFG_PAUSE_CAP [p] = 0 ∨ quanta % 2 ^ 16 ≤ s.rd R.NI_CFG_PAUSE_CAP [p]) :=
  ⟨wNet, 0, 65536, by decide +kernel⟩

theorem witness_NetworkLinkEvents_4 :
    ∃ (s : State) (p quanta : Nat), portOn s p = true ∧ linkUp s p = true ∧
      s.flag R.NI_CFG_PAUSE_HONOUR [p] = true ∧ s.rd R.NI_CFG_PAUSE_CAP [p] ≠ 0 ∧
      s.rd R.NI_CFG_PAUSE_CAP [p] < quanta % 2 ^ 16 :=
  ⟨st [(R.NI_CFG_PAUSE_CAP,[0],10)] wNet, 0, 11, by decide +kernel⟩

theorem witness_NetworkLinkEvents_5 :
    ∃ (s : State) (p : Nat), portOn s p = true ∧ linkUp s p = true ∧ s.flag R.NI_CFG_PAUSE_HONOUR [p] = false :=
  ⟨st [(R.NI_CFG_PAUSE_HONOUR,[0],0)] wNet, 0, by decide +kernel⟩

theorem witness_NetworkLinkEvents_6a :
    ∃ (p : Nat), p < 2 :=
  ⟨0, by decide +kernel⟩

theorem witness_NetworkLinkEvents_6b :
    ∃ (p : Nat), p < 2 :=
  ⟨1, by decide +kernel⟩

theorem witness_NetworkLinkEvents_7 :
    ∃ (s : State) (p : Nat) (memErr : Bool), portOn s p = true ∧ (memErr = true ∨ linkUp s p = false) :=
  ⟨wNet, 0, true, by decide +kernel⟩

theorem witness_NetworkLinkEvents_8 :
    ∃ (s : State) (p : Nat), p < 2 ∧ linkUp s p = true ∧ (portGet s p).failed = true :=
  ⟨wFailed, 1, by decide +kernel⟩

theorem witness_NetworkFrames_1 :
    ∃ (s : State) (p : Nat) (f : RxFrame), portOn s p = true ∧ linkUp s p = true ∧ 2 ≤ s.rd R.NI_CFG_MODE [p] ∧
      bitN (readN s ((niBlk p).base + 0x18)) 31 = false ∧ f.fcsOk = false :=
  ⟨wNet, 0, { wFrame 80 with fcsOk := false }, by decide +kernel⟩

theorem witness_NetworkFrames_2a :
    ∃ (s : State) (p : Nat) (f : RxFrame), portOn s p = true ∧ linkUp s p = true ∧ 2 ≤ s.rd R.NI_CFG_MODE [p] ∧
      bitN (readN s ((niBlk p).base + 0x18)) 31 = false ∧ f.fcsOk = true ∧ f.uncorr = 0 ∧ 64 ≤ f.len ∧
      f.len ≤ 9216 ∧ f.etype = s.rd R.SAF_TELCFG_ETYPE [] ∧ f.etype ≠ 0x8808 ∧ dstKind s p f.dst = 0 ∧
      f.manyTags = false ∧ f.vid = none ∧ ringUsed (portGet s p).safety + (f.len - 4 + 255) / 256 ≤ 128 :=
  ⟨wNet, 0, { wFrame 64 with dst := 0 }, by decide +kernel⟩

theorem witness_NetworkFrames_2b :
    ∃ (s : State) (p : Nat) (f : RxFrame), portOn s p = true ∧ linkUp s p = true ∧ 2 ≤ s.rd R.NI_CFG_MODE [p] ∧
      bitN (readN s ((niBlk p).base + 0x18)) 31 = false ∧ f.fcsOk = true ∧ f.uncorr = 0 ∧ 64 ≤ f.len ∧
      f.len ≤ 9216 ∧ f.etype = s.rd R.SAF_TELCFG_ETYPE [] ∧ f.etype ≠ 0x8808 ∧ dstKind s p f.dst = 0 ∧
      f.manyTags = false ∧ f.vid = none ∧ ringUsed (portGet s p).safety + (f.len - 4 + 255) / 256 ≤ 128 :=
  ⟨wBuf, 0, { wFrame 9216 with dst := 0 }, by decide +kernel⟩

theorem witness_NetworkFrames_3 :
    ∃ (s : State) (p : Nat) (f : RxFrame), portOn s p = true ∧ linkUp s p = true ∧ 2 ≤ s.rd R.NI_CFG_MODE [p] ∧
      bitN (readN s ((niBlk p).base + 0x18)) 31 = false ∧ f.fcsOk = true ∧ f.uncorr = 0 ∧ 64 ≤ f.len ∧
      f.len ≤ 9216 ∧ f.etype = 0x88F7 ∧ (f.dst = 0x011B19000000 ∨ f.dst = 0x0180C200000E) ∧
      dstKind s p f.dst ≠ 0 ∧ (portGet s p).failed = false ∧ f.manyTags = false ∧ f.vid = none ∧
      ptpUsed f = true ∧ ringUsed (portGet s p).ptp + (f.len - 4 + 255) / 256 ≤ ringSize 1 :=
  ⟨cntPut 7 (2 ^ 60) (st [(R.TBU_DOM_CFG_EN,[7],1),(R.TBU_DOM_CFG_PTPDOM,[7],9)] wNet), 0, { wFrame 86 with etype := 0x88F7, dst := 0x011B19000000, ptpType := 8, ptpDom := 9 },
    by decide +kernel⟩

theorem witness_NetworkFrames_4 :
    ∃ (s : State) (p : Nat) (f : RxHeld) (l : List RxHeld), p < 2 ∧ (portGet s p).safety = f :: l :=
  ⟨wBuf, 0, ⟨80, 0, 0, false, false, none, none⟩, [⟨81, 0, 0, false, false, none, none⟩], by decide +kernel⟩

theorem witness_NetworkFrames_5 :
    ∃ (s : State) (p q : Nat) (f : Frame), p < 2 ∧ (portGet s p).tx = some (q, f) :=
  ⟨wTx, 0, 9, ⟨100, .other 1, 0, 0, 0, false⟩, by decide +kernel⟩

theorem witness_EgressQueues_1a :
    ∃ (s : State) (q len : Nat), islOn s 5 = true ∧ 38176 ≤ q ∧ (q < 65520 ∨ (65530 < q ∧ q < 65536)) ∧
      len ≤ 9216 ∧ fits s q (cellsOf (max 64 len)) = true ∧ linkUp s 0 = true ∧ linkUp s 1 = true ∧
      bitN (readN s (Blk.egs.base + 0x18)) 31 = false :=
  ⟨wNet, 65535, 70, by decide +kernel⟩

theorem witness_EgressQueues_1b :
    ∃ (s : State) (q len : Nat), islOn s 5 = true ∧ 38176 ≤ q ∧ (q < 65520 ∨ (65530 < q ∧ q < 65536)) ∧
      len ≤ 9216 ∧ fits s q (cellsOf (max 64 len)) = true ∧ linkUp s 0 = true ∧ linkUp s 1 = true ∧
      bitN (readN s (Blk.egs.base + 0x18)) 31 = false :=
  ⟨wNet, 65519, 9, by decide +kernel⟩

theorem witness_EgressQueues_2 :
    ∃ (s : State) (q len : Nat), islOn s 5 = true ∧ 38176 ≤ q ∧ (q < 65520 ∨ (65530 < q ∧ q < 65536)) ∧
      len ≤ 9216 ∧ fits s q (cellsOf (max 64 len)) = false :=
  ⟨st [(R.EGS_QCFG_LIMIT,[38176],0)] wNet, 38176, 70, by decide +kernel⟩

theorem witness_EgressQueues_3a :
    ∃ (s : State) (q : Nat), islOn s 5 = true ∧ q < 65520 :=
  ⟨wOpen, 7, by decide +kernel⟩

theorem witness_EgressQueues_3b :
    ∃ (s : State) (q : Nat), islOn s 5 = true ∧ q < 65520 :=
  ⟨wNet, 65519, by decide +kernel⟩

theorem witness_EgressQueues_4 :
    ∃ (s : State) (k : Nat), islOn s 5 = true ∧ k < 32 ∧ s.flag R.EGS_POL_EN [k] = true :=
  ⟨wPol, 3, by decide +kernel⟩

theorem witness_EgressQueues_5a :
    ∃ (s : State) (p q : Nat) (f : Frame), islOn s 5 = true ∧ p < 2 ∧ linkUp s p = true ∧
      s.flag R.NI_LINK_PAUSED [p] = false ∧ (portGet s p).tx = none ∧ s.flag R.EGS_GCTL_EN [p] = false ∧
      roundGet s p 7 = [q] ∧ headFor (qGet s q) p = some f ∧ (qGet s q).shape = false ∧
      f.len ≤ defGet (qGet s q) p + 256 * 2 ^ s.rd R.EGS_QCFG_QSH [q] ∧ servedGet s p 7 = [] :=
  ⟨wEnq, 0, 65535, ⟨100, .other 7, 0, 1, 0, false⟩, by decide +kernel⟩

theorem witness_EgressQueues_5b :
    ∃ (s : State) (p q : Nat) (f : Frame), islOn s 5 = true ∧ p < 2 ∧ linkUp s p = true ∧
      s.flag R.NI_LINK_PAUSED [p] = false ∧ (portGet s p).tx = none ∧ s.flag R.EGS_GCTL_EN [p] = false ∧
      roundGet s p 7 = [q] ∧ headFor (qGet s q) p = some f ∧ (qGet s q).shape = false ∧
      f.len ≤ defGet (qGet s q) p + 256 * 2 ^ s.rd R.EGS_QCFG_QSH [q] ∧ servedGet s p 7 = [] :=
  ⟨wEnqD, 0, 65535, ⟨100, .delayReq 7 3 0 0 9, 0, 1, 0, false⟩, by decide +kernel⟩

theorem witness_EgressQueues_6a :
    ∃ (s : State) (k q : Nat), islOn s 5 = true ∧ k < 16 ∧ s.flag R.EGS_SAMP_EN [k] = true ∧
      s.rd R.EGS_SAMP_FIRST [k] ≤ q ∧ q ≤ s.rd R.EGS_SAMP_LAST [k] :=
  ⟨wOpen, 2, 5, by decide +kernel⟩

theorem witness_EgressQueues_6b :
    ∃ (s : State) (k q : Nat), islOn s 5 = true ∧ k < 16 ∧ s.flag R.EGS_SAMP_EN [k] = true ∧
      s.rd R.EGS_SAMP_FIRST [k] ≤ q ∧ q ≤ s.rd R.EGS_SAMP_LAST [k] :=
  ⟨wOpen, 2, 9, by decide +kernel⟩

theorem witness_EgressQueues_6c :
    ∃ (s : State) (k q : Nat), islOn s 5 = true ∧ k < 16 ∧ s.flag R.EGS_SAMP_EN [k] = true ∧
      s.rd R.EGS_SAMP_FIRST [k] ≤ q ∧ q ≤ s.rd R.EGS_SAMP_LAST [k] :=
  ⟨qPut (st [(R.EGS_SAMP_TQ,[2],70),(R.EGS_DEST_EN,[0],1)] wOpen) 70 { Queue.idle with en := true }, 2, 9,
    by decide +kernel⟩

theorem witness_EgressQueues_7 :
    ∃ (s : State) (q : Nat) (f : OpenFrame), (qGet s q).opened = some f :=
  ⟨wOpen, 7, ⟨5, false, 8, 0, 0, [[1,2,3,4,5,6,7,8]]⟩, by decide +kernel⟩

theorem witness_EgressQueues_8a :
    ∃ (s : State) (p : Nat), islOn s 5 = true ∧ p < 2 ∧ s.flag R.EGS_GCTL_EN [p] = true ∧ listUsable s p = true :=
  ⟨wList, 1, by decide +kernel⟩

theorem witness_EgressQueues_8b :
    ∃ (s : State) (p : Nat), islOn s 5 = true ∧ p < 2 ∧ s.flag R.EGS_GCTL_EN [p] = true ∧ listUsable s p = true :=
  ⟨{ wList with egs := { wList.egs with running := [(1, true)] } }, 1, by decide +kernel⟩

theorem witness_EgressQueues_9 :
    ∃ (s : State) (p : Nat), islOn s 5 = true ∧ p < 2 ∧ s.flag R.EGS_GCTL_EN [p] = true ∧
      listUsable s p = false :=
  ⟨wGate, 1, by decide +kernel⟩

theorem witness_SessionsOpenAndClose_1 :
    ∃ (s : State) (h : Hdr) (slot : Nat), kcpUp s = true ∧ modeSteady s = true ∧ h.port < 2 ∧
      (portGet s h.port).kcp ≠ [] ∧ h.mid = s.rd R.GLB_MID_MID [] ∧ 0 < h.session ∧ h.session < 32 ∧
      badHdr h = false ∧ h.odd = none ∧ slot < 31 ∧ s.flag R.JNL_HKEY_VALID [slot] = true ∧
      sessOpen s h.session = false ∧ (sessGet s h.session).openAns.type = 0 ∧ jnlReady s = true ∧
      h.verA = true ∧ h.verB = true :=
  ⟨wKcp, { hK with session := 31 }, 3, by decide +kernel⟩

theorem witness_SessionsOpenAndClose_2 :
    ∃ (s : State) (h : Hdr), inTurn h s = true ∧ modeSteady s = true :=
  ⟨wKcp, hK, by decide +kernel⟩

theorem witness_SessionsOpenAndClose_3 :
    ∃ (s : State) (k : Nat), 0 < k ∧ k < 32 ∧ sessOpen s k = true ∧ kcpUp s = true ∧ jnlReady s = true :=
  ⟨wKcp, 2, by decide +kernel⟩

theorem witness_SessionsOpenAndClose_4 :
    ∃ (s : State) (k q : Nat), k < 32 ∧ (sessGet s k).window.any (fun x => x.1 == q) = false ∧
      (sessGet s k).held.any (fun x => x.1 == q) = true :=
  ⟨sessPut wKcp 2 { sessGet wKcp 2 with held := [(9, hK, .close), (9, hK, .updAbandon)] }, 2, 9,
    by decide +kernel⟩

theorem witness_RequestsThatRead_1a :
    ∃ (s : State) (h : Hdr) (a : Nat), inTurn h s = true ∧ modeSteady s = true ∧
      bitN (s.rd R.JNL_SESS_RIGHTS [h.session]) 0 = true ∧ addrOk a = true ∧ regOn s a = true ∧
      isRc a = false ∧ cellGet (fun _ => 0) s.latch a = 0 :=
  ⟨wKcp, hK, 0x100010, by decide +kernel⟩

theorem witness_RequestsThatRead_1b :
    ∃ (s : State) (h : Hdr) (a : Nat), inTurn h s = true ∧ modeSteady s = true ∧
      bitN (s.rd R.JNL_SESS_RIGHTS [h.session]) 0 = true ∧ addrOk a = true ∧ regOn s a = true ∧
      isRc a = false ∧ cellGet (fun _ => 0) s.latch a = 0 :=
  ⟨wKcp, hK, 0x124, by decide +kernel⟩

theorem witness_RequestsThatRead_2a :
    ∃ (s : State) (h : Hdr) (n m : Nat) (as l : List Nat), inTurn h s = true ∧ modeSteady s = true ∧
      bitN (s.rd R.JNL_SESS_RIGHTS [h.session]) 0 = true ∧ readAddrs n m as = some l ∧
      firstBad addrOk l 0 = none ∧ l.any isRc = false :=
  ⟨wKcp, hK, 3, 1, [0x100010], [0x100010, 0x100014, 0x100018], by decide +kernel⟩

theorem witness_RequestsThatRead_2b :
    ∃ (s : State) (h : Hdr) (n m : Nat) (as l : List Nat), inTurn h s = true ∧ modeSteady s = true ∧
      bitN (s.rd R.JNL_SESS_RIGHTS [h.session]) 0 = true ∧ readAddrs n m as = some l ∧
      firstBad addrOk l 0 = none ∧ l.any isRc = false :=
  ⟨wKcp, hK, 2, 0, [0x110, 0x114], [0x110, 0x114], by decide +kernel⟩

theorem witness_RequestsThatRead_3 :
    ∃ (s : State) (h : Hdr) (key sn num : Nat) (e : Ev), inTurn h s = true ∧ modeSteady s = true ∧
      bitN (s.rd R.JNL_SESS_RIGHTS [h.session]) 0 = true ∧ key < 2 ∧ pendingBy s key sn num = some e :=
  ⟨{ wKcp with evs := [wEv] }, hK, 1, 0, 44, wEv, by decide +kernel⟩

theorem witness_RequestsThatRead_4 :
    ∃ (s : State) (h : Hdr) (j n : Nat), inTurn h s = true ∧ modeSteady s = true ∧
      bitN (s.rd R.JNL_SESS_RIGHTS [h.session]) 0 = true ∧ 1 ≤ n ∧ n ≤ 64 ∧ oldestJ s ≤ j :=
  ⟨commit 0x0A 0 0 0 0 [1,2] wKcp, hK, 1, 64, by decide +kernel⟩

theorem witness_RequestsThatRead_5 :
    ∃ (s : State) (h : Hdr), inTurn h s = true ∧ modeSteady s = true ∧
      bitN (s.rd R.JNL_SESS_RIGHTS [h.session]) 5 = true :=
  ⟨wKcp, hK, by decide +kernel⟩

theorem witness_WritesApply_1a :
    ∃ (s : State) (h : Hdr) (k m v : Nat), inTurn h s = true ∧ modeSteady s = true ∧
      bitN (s.rd R.JNL_SESS_RIGHTS [h.session]) 1 = true ∧ k < 8 ∧
      firstReject s [(fldAddr R.PORT_SETPT_PHI [k], m, v)] [(fldAddr R.PORT_SETPT_PHI [k], m, v)] 0 = none :=
  ⟨wKcp, hK, 7, 0xFFFF0000, 0x100003E8, by decide +kernel⟩

theorem witness_WritesApply_1b :
    ∃ (s : State) (h : Hdr) (k m v : Nat), inTurn h s = true ∧ modeSteady s = true ∧
      bitN (s.rd R.JNL_SESS_RIGHTS [h.session]) 1 = true ∧ k < 8 ∧
      firstReject s [(fldAddr R.PORT_SETPT_PHI [k], m, v)] [(fldAddr R.PORT_SETPT_PHI [k], m, v)] 0 = none :=
  ⟨wKcp, hK, 0, 0xFFFFFFFF, 0x000A0005, by decide +kernel⟩

theorem witness_WritesApply_2a :
    ∃ (s : State) (h : Hdr) (a m v : Nat), inTurn h s = true ∧ modeSteady s = true ∧
      bitN (s.rd R.JNL_SESS_RIGHTS [h.session]) 1 = true ∧ 0x680000 ≤ a ∧ a < 0x6FFF80 ∧ m % 2 ^ 32 ≠ 0 ∧
      firstReject s [(a, m, v)] [(a, m, v)] 0 = none :=
  ⟨wKcp, hK, 0x680000, 0xFFFFFF, 1000, by decide +kernel⟩

theorem witness_WritesApply_2b :
    ∃ (s : State) (h : Hdr) (a m v : Nat), inTurn h s = true ∧ modeSteady s = true ∧
      bitN (s.rd R.JNL_SESS_RIGHTS [h.session]) 1 = true ∧ 0x680000 ≤ a ∧ a < 0x6FFF80 ∧ m % 2 ^ 32 ≠ 0 ∧
      firstReject s [(a, m, v)] [(a, m, v)] 0 = none :=
  ⟨wKcp, hK, 0x680004, 0xFFFE0000, 0x01200001, by decide +kernel⟩

theorem witness_WritesApply_2c :
    ∃ (s : State) (h : Hdr) (a m v : Nat), inTurn h s = true ∧ modeSteady s = true ∧
      bitN (s.rd R.JNL_SESS_RIGHTS [h.session]) 1 = true ∧ 0x680000 ≤ a ∧ a < 0x6FFF80 ∧ m % 2 ^ 32 ≠ 0 ∧
      firstReject s [(a, m, v)] [(a, m, v)] 0 = none :=
  ⟨wKcp, hK, 0x6FFF78, 0x80000000, 0x80000000, by decide +kernel⟩

theorem witness_ModeRequests_1a :
    ∃ (s : State) (h : Hdr) (m : Nat), inTurn h s = true ∧ bitN (s.rd R.JNL_SESS_RIGHTS [h.session]) 3 = true ∧
      (m = 4 ∨ m = 5) ∧ overlaysSound s = true :=
  ⟨wKcp, hK, 5, by decide +kernel⟩

theorem witness_ModeRequests_1b :
    ∃ (s : State) (h : Hdr) (m : Nat), inTurn h s = true ∧ bitN (s.rd R.JNL_SESS_RIGHTS [h.session]) 3 = true ∧
      (m = 4 ∨ m = 5) ∧ overlaysSound s = true :=
  ⟨wKcp, hK, 4, by decide +kernel⟩

theorem witness_ModeRequests_1c :
    ∃ (s : State) (h : Hdr) (m : Nat), inTurn h s = true ∧ bitN (s.rd R.JNL_SESS_RIGHTS [h.session]) 3 = true ∧
      (m = 4 ∨ m = 5) ∧ overlaysSound s = true :=
  ⟨st [(R.PWR_MODE_CUR,[],6),(R.PWR_MODE_C_DEG,[],1)] wKcp, hK, 5, by decide +kernel⟩

theorem witness_ModeRequests_2a :
    ∃ (s : State) (h : Hdr), inTurn h s = true ∧ bitN (s.rd R.JNL_SESS_RIGHTS [h.session]) 3 = true ∧
      bothGrants s = true ∧ (modeOf s = mRun ∨ modeOf s = mEco ∨ modeOf s = mDegraded) ∧
      s.flag R.PWR_MODE_C_LOCKOUT [] = false ∧ s.flag R.PWR_MODE_C_STOP [] = false ∧
      s.flag R.PWR_MODE_C_SHED [] = false ∧ overlaysSound s = true :=
  ⟨{ wKcp with chA := { Chan.reset with grant := true }, chB := { Chan.reset with grant := true } }, hK,
    by decide +kernel⟩

theorem witness_ModeRequests_2b :
    ∃ (s : State) (h : Hdr), inTurn h s = true ∧ bitN (s.rd R.JNL_SESS_RIGHTS [h.session]) 3 = true ∧
      bothGrants s = true ∧ (modeOf s = mRun ∨ modeOf s = mEco ∨ modeOf s = mDegraded) ∧
      s.flag R.PWR_MODE_C_LOCKOUT [] = false ∧ s.flag R.PWR_MODE_C_STOP [] = false ∧
      s.flag R.PWR_MODE_C_SHED [] = false ∧ overlaysSound s = true :=
  ⟨{ st [(R.PWR_MODE_CUR,[],6),(R.PWR_MODE_C_DEG,[],1)] wKcp with chA := { Chan.reset with grant := true }, chB := { Chan.reset with grant := true } }, hK,
    by decide +kernel⟩

theorem witness_ModeRequests_3 :
    ∃ (s : State) (h : Hdr), inTurn h s = true ∧ modeSteady s = true ∧
      bitN (s.rd R.JNL_SESS_RIGHTS [h.session]) 3 = true ∧ modeOf s = mMaintain ∧ s.modes.leaving = none ∧
      s.armed ≠ [] :=
  ⟨{ st [(R.PWR_MODE_CUR,[],7),(R.PWR_MODE_C_MAINT,[],1)] wKcp with armed := [⟨1,0,0,[],[],[]⟩] }, hK,
    by decide +kernel⟩

theorem witness_ModeRequests_4 :
    ∃ (s : State) (h : Hdr), inTurn h s = true ∧ modeSteady s = true ∧
      bitN (s.rd R.JNL_SESS_RIGHTS [h.session]) 3 = true ∧ (modeOf s = mMaintain ∨ (modeOf s = mDark ∧
      s.flag R.CAL_RECORD_VALID [] = false)) ∧ s.modes.leaving = none ∧ s.armed ≠ [] :=
  ⟨{ st [(R.PWR_MODE_CUR,[],3)] wKcp with armed := [⟨1,0,0,[],[],[]⟩] }, hK, by decide +kernel⟩

theorem witness_ModeRequests_5 :
    ∃ (s : State) (h : Hdr), inTurn h s = true ∧ bitN (s.rd R.JNL_SESS_RIGHTS [h.session]) 3 = true ∧
      modeOf s = mMaintain ∧ s.flag R.PWR_MODE_C_LOCKOUT [] = false ∧ s.flag R.PWR_MODE_C_STOP [] = false ∧
      s.modes.leaving = none ∧ s.armed = [] ∧ s.chA.grant = false ∧ s.chB.grant = false ∧
      overlaysSound s = true :=
  ⟨st [(R.PWR_MODE_CUR,[],7),(R.PWR_MODE_C_MAINT,[],1)] wKcp, hK, by decide +kernel⟩

theorem witness_ModeRequests_6a :
    ∃ (s : State) (h : Hdr), inTurn h s = true ∧ bitN (s.rd R.JNL_SESS_RIGHTS [h.session]) 3 = true ∧
      (modeOf s = mMaintain ∨ (modeOf s = mDark ∧ s.flag R.CAL_RECORD_VALID [] = false)) ∧
      s.flag R.PWR_MODE_C_LOCKOUT [] = false ∧ s.flag R.PWR_MODE_C_STOP [] = false ∧ s.modes.leaving = none ∧
      s.armed = [] ∧ overlaysSound s = true :=
  ⟨st [(R.PWR_MODE_CUR,[],7),(R.PWR_MODE_C_MAINT,[],1)] wKcp, hK, by decide +kernel⟩

theorem witness_ModeRequests_6b :
    ∃ (s : State) (h : Hdr), inTurn h s = true ∧ bitN (s.rd R.JNL_SESS_RIGHTS [h.session]) 3 = true ∧
      (modeOf s = mMaintain ∨ (modeOf s = mDark ∧ s.flag R.CAL_RECORD_VALID [] = false)) ∧
      s.flag R.PWR_MODE_C_LOCKOUT [] = false ∧ s.flag R.PWR_MODE_C_STOP [] = false ∧ s.modes.leaving = none ∧
      s.armed = [] ∧ overlaysSound s = true :=
  ⟨st [(R.PWR_MODE_CUR,[],3)] wKcp, hK, by decide +kernel⟩

theorem witness_SnapshotRequests_1 :
    ∃ (s : State) (h : Hdr), inTurn h s = true ∧ modeSteady s = true ∧
      bitN (s.rd R.JNL_SESS_RIGHTS [h.session]) 7 = true ∧ bitN (s.rd R.SNP_CTRL_SRC_EN []) 1 = true ∧
      s.rd R.SNP_STATE_STATE [] = 0 :=
  ⟨wKcp, hK, by decide +kernel⟩

theorem witness_SnapshotRequests_2 :
    ∃ (s : State) (h : Hdr), inTurn h s = true ∧ modeSteady s = true ∧
      bitN (s.rd R.JNL_SESS_RIGHTS [h.session]) 7 = true ∧ bitN (s.rd R.SNP_CTRL_SRC_EN []) 1 = true ∧
      s.rd R.SNP_STATE_STATE [] ≠ 0 ∧ snapJoins s = false :=
  ⟨st [(R.SNP_STATE_STATE,[],1)] wKcp, hK, by decide +kernel⟩

theorem witness_SnapshotRequests_3a :
    ∃ (s : State) (h : Hdr) (i x : Nat), resolveName s i (domNs s (inDom i)) = .ok x ∧ inTurn h s = true ∧
      modeSteady s = true ∧ bitN (s.rd R.JNL_SESS_RIGHTS [h.session]) 7 = true ∧
      bitN (s.rd R.SNP_CTRL_SRC_EN []) 2 = true ∧ i < 2 ^ 64 :=
  ⟨wUse, hK, 2^60 + 2^59 + 2^56*0, 10240000000, okIs_eq (by decide +kernel), by decide +kernel⟩

theorem witness_SnapshotRequests_3b :
    ∃ (s : State) (h : Hdr) (i x : Nat), resolveName s i (domNs s (inDom i)) = .ok x ∧ inTurn h s = true ∧
      modeSteady s = true ∧ bitN (s.rd R.JNL_SESS_RIGHTS [h.session]) 7 = true ∧
      bitN (s.rd R.SNP_CTRL_SRC_EN []) 2 = true ∧ i < 2 ^ 64 :=
  ⟨st [(R.SNP_FCLASS,[],7)] wUse, hK, 2^60 + 2^59 + 2^56*0, 10240000000, okIs_eq (by decide +kernel),
    by decide +kernel⟩

theorem witness_SnapshotRequests_4 :
    ∃ (s : State) (h : Hdr), inTurn h s = true ∧ modeSteady s = true ∧
      bitN (s.rd R.JNL_SESS_RIGHTS [h.session]) 7 = true :=
  ⟨st [(R.SNP_STATE_SCHED_ARMED,[],1),(R.SNP_SCHED,[1],3)] wKcp, hK, by decide +kernel⟩

theorem witness_SnapshotRequests_5 :
    ∃ (s : State) (h : Hdr), inTurn h s = true ∧ modeSteady s = true ∧
      bitN (s.rd R.JNL_SESS_RIGHTS [h.session]) 7 = true :=
  ⟨st [(R.SNP_STATE_STATE,[],1)] wKcp, hK, by decide +kernel⟩

theorem witness_SnapshotRequests_6 :
    ∃ (s : State) (h : Hdr), inTurn h s = true ∧ modeSteady s = true ∧
      bitN (s.rd R.JNL_SESS_RIGHTS [h.session]) 7 = true ∧ s.rd R.SNP_STATE_STATE [] = 1 :=
  ⟨st [(R.SNP_STATE_STATE,[],1)] wKcp, hK, by decide +kernel⟩

theorem witness_UpdateRequests_1a :
    ∃ (s : State) (h : Hdr), inTurn h s = true ∧ modeSteady s = true ∧
      bitN (s.rd R.JNL_SESS_RIGHTS [h.session]) 6 = true ∧ (modeOf s = mRun ∨ modeOf s = mEco) ∧
      s.flag R.CL_UPD_OWNED [] = false ∧ overlaysSound s = true ∧ (slotDir s.flash).count < 2 ^ 32 - 3 :=
  ⟨wKcp, hK, by decide +kernel⟩

theorem witness_UpdateRequests_1b :
    ∃ (s : State) (h : Hdr), inTurn h s = true ∧ modeSteady s = true ∧
      bitN (s.rd R.JNL_SESS_RIGHTS [h.session]) 6 = true ∧ (modeOf s = mRun ∨ modeOf s = mEco) ∧
      s.flag R.CL_UPD_OWNED [] = false ∧ overlaysSound s = true ∧ (slotDir s.flash).count < 2 ^ 32 - 3 :=
  ⟨st [(R.PWR_MODE_CUR,[],5),(R.PWR_MODE_RESTING,[],5)] wKcp, hK, by decide +kernel⟩

theorem witness_UpdateRequests_2a :
    ∃ (s : State) (h : Hdr) (o n : Nat) (d : Bool), inTurn h s = true ∧ modeSteady s = true ∧
      bitN (s.rd R.JNL_SESS_RIGHTS [h.session]) 6 = true ∧ ownsUpdate h s = true ∧ 1 ≤ n ∧ n ≤ 8000 ∧
      o + n ≤ s.updTotal ∧ (d && meetsRange o (o + n) s.updRanges) = false :=
  ⟨wUpd, hK, 62000, 8000, true, by decide +kernel⟩

theorem witness_UpdateRequests_2b :
    ∃ (s : State) (h : Hdr) (o n : Nat) (d : Bool), inTurn h s = true ∧ modeSteady s = true ∧
      bitN (s.rd R.JNL_SESS_RIGHTS [h.session]) 6 = true ∧ ownsUpdate h s = true ∧ 1 ≤ n ∧ n ≤ 8000 ∧
      o + n ≤ s.updTotal ∧ (d && meetsRange o (o + n) s.updRanges) = false :=
  ⟨wUpd, hK, 7999, 8000, false, by decide +kernel⟩

theorem witness_UpdateRequests_3a :
    ∃ (s : State) (h : Hdr), inTurn h s = true ∧ modeSteady s = true ∧
      bitN (s.rd R.JNL_SESS_RIGHTS [h.session]) 6 = true ∧ ownsUpdate h s = true ∧ modeOf s = mUpdate ∧
      (s.rd R.PWR_MODE_RESTING [] = 4 ∨ s.rd R.PWR_MODE_RESTING [] = 5) ∧ overlaysSound s = true ∧
      (slotDir s.flash).count < 2 ^ 32 - 3 :=
  ⟨wUpd, hK, by decide +kernel⟩

theorem witness_UpdateRequests_3b :
    ∃ (s : State) (h : Hdr), inTurn h s = true ∧ modeSteady s = true ∧
      bitN (s.rd R.JNL_SESS_RIGHTS [h.session]) 6 = true ∧ ownsUpdate h s = true ∧ modeOf s = mUpdate ∧
      (s.rd R.PWR_MODE_RESTING [] = 4 ∨ s.rd R.PWR_MODE_RESTING [] = 5) ∧ overlaysSound s = true ∧
      (slotDir s.flash).count < 2 ^ 32 - 3 :=
  ⟨wUpd, hK, by decide +kernel⟩

theorem witness_UpdateRequests_4 :
    ∃ (s : State) (h : Hdr), inTurn h s = true ∧ modeSteady s = true ∧
      bitN (s.rd R.JNL_SESS_RIGHTS [h.session]) 6 = true ∧ ownsUpdate h s = true ∧ modeOf s = mUpdate ∧
      (s.rd R.PWR_MODE_RESTING [] = 4 ∨ s.rd R.PWR_MODE_RESTING [] = 5) ∧ overlaysSound s = true ∧
      (slotDir s.flash).count < 2 ^ 32 - 3 :=
  ⟨wUpd, hK, by decide +kernel⟩

theorem witness_UpdateRequests_5a :
    ∃ (s : State) (h : Hdr) (how : Nat) (im : Image), inTurn h s = true ∧ modeSteady s = true ∧
      bitN (s.rd R.JNL_SESS_RIGHTS [h.session]) 6 = true ∧ s.flag R.PWR_MODE_C_UPD [] = false ∧
      slotImage s (inactiveSlot s) = some im ∧ slotState s (inactiveSlot s) = 1 ∧ (how ≤ 1 ∨ (how = 2 ∧
      holdAllowed s im = true ∧ (modeOf s = mRun ∨ modeOf s = mEco))) ∧ (slotDir s.flash).count < 2 ^ 32 - 3 :=
  ⟨{ wKcp with flash := ⟨true, some imgA, none, ⟨1, 1, 0, 0, 0, 2, true⟩, SlotDir.blank, none, none⟩ }, hK, 1, imgA,
    by decide +kernel⟩

theorem witness_UpdateRequests_5b :
    ∃ (s : State) (h : Hdr) (how : Nat) (im : Image), inTurn h s = true ∧ modeSteady s = true ∧
      bitN (s.rd R.JNL_SESS_RIGHTS [h.session]) 6 = true ∧ s.flag R.PWR_MODE_C_UPD [] = false ∧
      slotImage s (inactiveSlot s) = some im ∧ slotState s (inactiveSlot s) = 1 ∧ (how ≤ 1 ∨ (how = 2 ∧
      holdAllowed s im = true ∧ (modeOf s = mRun ∨ modeOf s = mEco))) ∧ (slotDir s.flash).count < 2 ^ 32 - 3 :=
  ⟨{ wKcp with flash := ⟨true, some { imgA with holdOk := true }, none, SlotDir.blank, ⟨1, 1, 0, 0, 0, 2, true⟩, none, none⟩, image := some { imgA with holdOk := true } }, hK, 2, { imgA with holdOk := true },
    by decide +kernel⟩

theorem witness_JournalCopies_1 :
    ∃ (s : State) (c : Nat), c < 2 ∧ s.rd R.JNL_COPY_STATE [c] = 1 ∧ s.rd R.JNL_COPY_CHECKS [c] < 3 ∧
      mpWorks s = true :=
  ⟨st [(R.JNL_COPY_STATE,[1],1),(R.JNL_COPY_CHECKS,[1],2)] wKcp, 1, by decide +kernel⟩

theorem witness_JournalCopies_2 :
    ∃ (s : State) (c : Nat), c < 2 ∧ s.rd R.JNL_COPY_STATE [c] = 1 ∧ s.rd R.JNL_COPY_CHECKS [c] < 3 ∧
      mpWorks s = true ∧ copyLive s (1 - c) = true :=
  ⟨st [(R.JNL_COPY_STATE,[0],1)] wKcp, 0, by decide +kernel⟩

theorem witness_JournalCopies_3 :
    ∃ (s : State) (c : Nat), c < 2 ∧ s.rd R.JNL_COPY_STATE [c] = 2 ∧ copyLive s (1 - c) = true ∧
      islOn s 1 = true ∧ s.modes.degCauses = [degCopy c] ∧ modeOf s = mRun ∧
      s.rd R.PWR_MODE_RESTING [] = mRun ∧ s.flag R.PWR_MODE_C_LOCKOUT [] = false ∧
      s.flag R.PWR_MODE_C_STOP [] = false ∧ s.flag R.PWR_MODE_C_SHED [] = false ∧
      s.flag R.PWR_MODE_C_MAINT [] = false ∧ s.flag R.PWR_MODE_C_UPD [] = false :=
  ⟨wResync, 0, by decide +kernel⟩

theorem witness_JournalCopies_4 :
    ∃ (s : State), s.jnl.protect = false ∧ modeOf s ≠ mReset ∧ jnlReady s = true :=
  ⟨wKcp, by decide +kernel⟩

theorem witness_JournalCopies_5 :
    ∃ (s : State), s.jnl.protect = true ∧ modeActive (modeOf s) = false :=
  ⟨{ wDk with jnl := { wDk.jnl with protect := true } }, by decide +kernel⟩

theorem witness_JournalCopies_6 :
    ∃ (s : State), s.jnl.protect = true ∧ s.evs = [] :=
  ⟨{ wKcp with jnl := { wKcp.jnl with protect := true } }, by decide +kernel⟩

theorem witness_Recoveries_1 :
    ∃ (s : State), recoveryDue s = true ∧ jnlReady s = true ∧ s.rd R.JNL_RECOV_CAUSE [] ≠ 0 ∧
      s.modes.degCauses = [] ∧ noOverlays s = true ∧ s.evs = [] :=
  ⟨wRec, by decide +kernel⟩

theorem witness_Recoveries_2 :
    ∃ (s : State), recoveryDue s = true ∧ islOn s 1 = false ∧ modeOf s = mLockout ∧
      s.flag R.PWR_MODE_C_LOCKOUT [] = true ∧ s.modes.degCauses = [] :=
  ⟨st [(R.PWR_ISL_STATE,[1],4),(R.PWR_MODE_CUR,[],9),(R.PWR_MODE_C_LOCKOUT,[],1)] wRec, by decide +kernel⟩

theorem witness_Recoveries_3 :
    ∃ (s : State) (im : Image), slotImage s (inactiveSlot s) = some im ∧ s.jnl.stopped = true ∧
      slotState s (inactiveSlot s) = 3 ∧ s.modes.mpDown = false ∧ islOn s 1 = true ∧ islOn s 2 = true ∧
      s.jnl.protect = false ∧ s.armed = [] ∧ overlaysSound s = true ∧ (slotDir s.flash).count < 2 ^ 32 - 4 :=
  ⟨wHold, imgA, by decide +kernel⟩

theorem witness_FaultSets_1a :
    ∃ (s : State) (i : Nat) (b : Blk), blkAt i = some b ∧ blkOn b s = true :=
  ⟨wrWord State.reset 0x100 0, 0, .glb, by decide +kernel⟩

theorem witness_FaultSets_1b :
    ∃ (s : State) (i : Nat) (b : Blk), blkAt i = some b ∧ blkOn b s = true :=
  ⟨wrWord State.reset Blk.jnl.base 0xFF, 3, .jnl, by decide +kernel⟩

theorem witness_FaultSets_2 :
    ∃ (s : State) (i : Nat) (b : Blk), blkAt i = some b ∧ blkOn b s = true ∧ b ≠ .saf :=
  ⟨wrWord State.reset (Blk.jnl.base + 0xC) 0xFFFF, 3, .jnl, by decide +kernel⟩

theorem witness_FaultSets_3a :
    ∃ (s : State) (i : Nat) (b : Blk), blkAt i = some b ∧ blkOn b s = true ∧ modeOf s = mMaintain :=
  ⟨st [(R.PWR_MODE_CUR,[],7)], 3, .jnl, by decide +kernel⟩

theorem witness_FaultSets_3b :
    ∃ (s : State) (i : Nat) (b : Blk), blkAt i = some b ∧ blkOn b s = true ∧ modeOf s = mMaintain :=
  ⟨st [(R.PWR_MODE_CUR,[],7)], 3, .jnl, by decide +kernel⟩

theorem witness_FaultSets_4 :
    ∃ (s : State) (a sel : Nat) (b : Blk), regOn s a = true ∧ checkerOf a = some (b, sel, true) ∧
      bitN (readN s (b.base + 0x18)) 31 = false :=
  ⟨State.reset, 0x1000000, 0, .ce, by decide +kernel⟩

theorem witness_FaultSets_5a :
    ∃ (s : State) (a sel : Nat) (b : Blk), regOn s a = true ∧ checkerOf a = some (b, sel, true) ∧
      bitN (readN s (b.base + 0x18)) 31 = false :=
  ⟨State.reset, 0x1000000, 0, .ce, by decide +kernel⟩

theorem witness_FaultSets_5b :
    ∃ (s : State) (a sel : Nat) (b : Blk), regOn s a = true ∧ checkerOf a = some (b, sel, true) ∧
      bitN (readN s (b.base + 0x18)) 31 = false :=
  ⟨wrWord State.reset (Blk.rs.base + 0x14) (2^32-1), 0x710000, 0, .rs, by decide +kernel⟩

theorem witness_Snapshots_1 :
    ∃ (s : State), islOn s 1 = true ∧ bitN (s.rd R.SNP_CTRL_SRC_EN []) 0 = true ∧ s.rd R.SNP_STATE_STATE [] = 0 :=
  ⟨st [(R.SNP_SNAPSEQ,[],2^32-1)] wKcp, by decide +kernel⟩

theorem witness_Snapshots_2 :
    ∃ (s : State), islOn s 1 = true ∧ bitN (s.rd R.SNP_CTRL_SRC_EN []) 0 = true ∧
      s.rd R.SNP_STATE_STATE [] ≠ 0 ∧ snapJoins s = true :=
  ⟨{ st [(R.SNP_STATE_STATE,[],1)] wKcp with time := 7, pic := ⟨[], [(0, 1), (4, 2 ^ 26), (8, 7), (12, 0)], []⟩ },
    by decide +kernel⟩

theorem witness_Snapshots_3 :
    ∃ (s : State), islOn s 1 = true ∧ bitN (s.rd R.SNP_CTRL_SRC_EN []) 0 = true ∧
      s.rd R.SNP_STATE_STATE [] ≠ 0 ∧ snapJoins s = false :=
  ⟨st [(R.SNP_STATE_STATE,[],2)] wKcp, by decide +kernel⟩

theorem witness_Snapshots_4a :
    ∃ (s : State), s.rd R.SNP_STATE_STATE [] = 2 :=
  ⟨st [(R.SNP_STATE_STATE,[],2)] wKcp, by decide +kernel⟩

theorem witness_Snapshots_4b :
    ∃ (s : State), s.rd R.SNP_STATE_STATE [] = 2 :=
  ⟨st [(R.SNP_STATE_STATE,[],2),(R.SNP_CTRL_AUTOREL,[],1)] wKcp, by decide +kernel⟩

theorem witness_Snapshots_5 :
    ∃ (s : State), islOn s 1 = true ∧ s.flag R.SNP_STATE_SCHED_ARMED [] = true ∧
      domUsable s (inDom (snapName s)) = false :=
  ⟨st [(R.SNP_STATE_SCHED_ARMED,[],1)] wKcp, by decide +kernel⟩

theorem witness_Snapshots_6 :
    ∃ (s : State), islOn s 1 = true ∧ s.flag R.SNP_STATE_SCHED_ARMED [] = true ∧
      domUsable s (inDom (snapName s)) = true ∧ islOn s 6 = true ∧ s.snapAt ≤ domNs s (inDom (snapName s)) ∧
      s.rd R.SNP_STATE_STATE [] = 0 ∧ bitN (s.rd R.SNP_CTRL_SRC_EN []) 2 = true :=
  ⟨st [(R.SNP_STATE_SCHED_ARMED,[],1)] wUse, by decide +kernel⟩

theorem witness_Snapshots_7 :
    ∃ (s : State) (x : Nat), x < 1024 ∧ islOn s 4 = true ∧ heldDark s (x % 512) = false ∧
      s.flag R.SAF_SLPCFG_EN [x % 512] = true ∧ s.chB.trips.contains (x % 512) = false ∧ islOn s 1 = true ∧
      bitN (s.rd R.SNP_CTRL_SRC_EN []) 4 = true ∧ s.rd R.SNP_STATE_STATE [] = 0 :=
  ⟨wSlp, 515, by decide +kernel⟩

end Sys2Proof.Tests
end

section

/-! SUPPORT. How a step may change the state, said once for every state: no assumption on the state before the step, so that what a
step answers, the canonical register space, the array of drives, the queue and the sequence numbers can each be read off alone. -/

namespace Sys2Proof.Machine

/-- `t` may come from `s` within one command: a canonical register space stays canonical, a sound array of drives stays sound, the
waiting commands stay as they are, and JSEQ and ASEQ do not fall. Unlike `Kept`, each part holds whatever the other parts of `s`
are. -/
structure Evolves (s t : State) : Prop where
  regs : s.regsWf = true → t.regsWf = true
  drives : s.drivesWf = true → t.drivesWf = true
  queue : t.pending = s.pending
  jseq : s.jnl.last ≤ t.jnl.last
  aseq : s.jnl.aseq ≤ t.jnl.aseq

/-- The outcome is a next state, and one that may come from `s`. -/
def EvolvesTo (s : State) : Host.Outcome State Fault Refusal → Prop
  | .next t => Evolves s t
  | _ => False

variable {s₀ s t : State}

/-! Composition. -/

theorem Evolves.next (h : Evolves s t) : EvolvesTo s (.next t) := h

theorem Evolves.refl : Evolves s s := ⟨id, id, rfl, Nat.le_refl _, Nat.le_refl _⟩

theorem Evolves.trans (h : Evolves s₀ s) (h' : Evolves s t) : Evolves s₀ t where
  regs := h'.regs ∘ h.regs
  drives := h'.drives ∘ h.drives
  queue := h'.queue.trans h.queue
  jseq := h.jseq.trans h'.jseq
  aseq := h.aseq.trans h'.aseq

theorem Evolves.ite {c : Prop} [Decidable c] (h : Evolves s₀ s) (h' : Evolves s₀ t) :
    Evolves s₀ (if c then s else t) := by
  split <;> assumption

theorem Evolves.foldl {α : Type} {f : State → α → State} {l : List α} (hf : ∀ s x, Evolves s (f s x))
    (h : Evolves s₀ s) : Evolves s₀ (l.foldl f s) := by
  induction l generalizing s with
  | nil => exact h
  | cons x l ih => exact ih (h.trans (hf s x))

/-- A fold that carries a second value beside the state. -/
theorem Evolves.foldl_fst {α β : Type} {f : State × β → α → State × β} {l : List α} {p : State × β}
    (hf : ∀ p x, Evolves p.1 (f p x).1) (h : Evolves s₀ p.1) : Evolves s₀ (l.foldl f p).1 := by
  induction l generalizing p with
  | nil => exact h
  | cons x l ih => exact ih (h.trans (hf p x))

/-! Changes of the fields. -/

/-- A change of any fields but the register space, the drives and the queue that lowers neither sequence number. -/
theorem Evolves.update {latch time cnt modes egs netA netB jnl sess notes evs armed lastT0 refill rchg osr missed validAt lowRun
    corrBad light totOver setpt spLev updates loopBad loopX away shed moved voaOut repairs solving repairWaves rsLost pathAt finals
    shown plan servo phase rcFrom ppsOut banks chA chB pulse statusSeq therm pic snapAt updTotal updRanges otp flash image wbase wcal
    corr ramps bgFail calx} (h : Evolves s₀ s) (hj : s.jnl.last ≤ jnl.last) (ha : s.jnl.aseq ≤ jnl.aseq) :
    Evolves s₀ ⟨s.regs, latch, time, cnt, modes, egs, netA, netB, jnl, sess, notes, evs, armed, lastT0, refill, rchg, osr, missed,
      validAt, lowRun, corrBad, light, totOver, setpt, spLev, updates, loopBad, loopX, away, shed, moved, voaOut, repairs, solving,
      repairWaves, rsLost, pathAt, finals, shown, plan, servo, phase, rcFrom, ppsOut, s.drv, banks, chA, chB, pulse, statusSeq, therm,
      pic, snapAt, updTotal, updRanges, otp, flash, image, wbase, wcal, corr, ramps, bgFail, calx, s.pending⟩ :=
  ⟨h.regs, h.drives, h.queue, h.jseq.trans hj, h.aseq.trans ha⟩

theorem Evolves.filterRegs (p : Nat × Word → Bool) (h : Evolves s₀ s) : Evolves s₀ { s with regs := s.regs.filter p } :=
  ⟨fun hw => cellWf_filter _ _ _ (h.regs hw), h.drives, h.queue, h.jseq, h.aseq⟩

theorem Evolves.mapRegs (f : Nat → Word → Word) (h : Evolves s₀ s) :
    Evolves s₀ { s with regs := cellMap resetWord f s.regs } :=
  ⟨fun hw => cellWf_map _ _ _ (h.regs hw), h.drives, h.queue, h.jseq, h.aseq⟩

theorem drivesWf_iff : s.drivesWf = true ↔ cellWf (fun _ => Drv.idle) s.drv = true ∧ ∀ c ∈ s.drv, c.1 < nElem := by
  simp [State.drivesWf]

theorem Evolves.setDrv {e : Nat} (d : Drv) (he : e < nElem) (h : Evolves s₀ s) :
    Evolves s₀ { s with drv := cellSet (fun _ => Drv.idle) s.drv e d } := by
  refine ⟨h.regs, fun hw => ?_, h.queue, h.jseq, h.aseq⟩
  obtain ⟨hc, hlt⟩ := drivesWf_iff.1 (h.drives hw)
  refine drivesWf_iff.2 ⟨cellWf_set _ _ _ _ hc, fun c hmem => ?_⟩
  obtain rfl | hmem := cellSet_mem (fun _ => Drv.idle) s.drv e d c hmem
  · exact he
  · exact hlt c hmem

theorem Evolves.dropDrv (p : Nat → Bool) (h : Evolves s₀ s) : Evolves s₀ { s with drv := cellDrop p s.drv } := by
  refine ⟨h.regs, fun hw => ?_, h.queue, h.jseq, h.aseq⟩
  obtain ⟨hc, hlt⟩ := drivesWf_iff.1 (h.drives hw)
  exact drivesWf_iff.2 ⟨cellWf_drop _ _ _ hc, fun c hmem => hlt c (List.mem_filter.1 hmem).1⟩

theorem Evolves.noDrv (h : Evolves s₀ s) : Evolves s₀ { s with drv := [] } :=
  ⟨h.regs, fun _ => rfl, h.queue, h.jseq, h.aseq⟩

/-! Register, fault-set and snapshot operations. -/

theorem wrWord_evolves (a v : Nat) (hs : Evolves s₀ s) : Evolves s₀ (wrWord s a v) :=
  ⟨fun hw => cellWf_set _ _ _ _ (hs.regs hw), hs.drives, hs.queue, hs.jseq, hs.aseq⟩

theorem mergeWord_evolves (mask a v : Nat) (hs : Evolves s₀ s) : Evolves s₀ (mergeWord mask a v s) := by
  grind [mergeWord, wrWord_evolves]

theorem wr_evolves (F : Fld) (ix : List Nat) (v : Nat) (hs : Evolves s₀ s) : Evolves s₀ (State.wr s F ix v) := by
  grind [State.wr, wrWord_evolves]

theorem wrS_evolves (F : Fld) (ix : List Nat) (v : Int) (hs : Evolves s₀ s) : Evolves s₀ (State.wrS s F ix v) := by
  grind [State.wrS, wr_evolves]

theorem inc_evolves (F : Fld) (ix : List Nat) (hs : Evolves s₀ s) : Evolves s₀ (State.inc s F ix) := by
  grind [State.inc, wr_evolves]

theorem incS_evolves (F : Fld) (ix : List Nat) (hs : Evolves s₀ s) : Evolves s₀ (State.incS s F ix) := by
  grind [State.incS, wr_evolves]

theorem setMapBit_evolves (a i : Nat) (v : Bool) (hs : Evolves s₀ s) : Evolves s₀ (setMapBit s a i v) := by
  grind [setMapBit, wrWord_evolves]

theorem dropRange_evolves (lo hi : Nat) (hs : Evolves s₀ s) : Evolves s₀ (dropRange s lo hi) :=
  hs.filterRegs _

theorem record_evolves (b : Blk) (bit : Nat) (c : Cause) (hs : Evolves s₀ s) : Evolves s₀ (record b bit c s) := by
  grind [record, wrWord_evolves]

theorem snapAdd_evolves (en : Nat) (hs : Evolves s₀ s) : Evolves s₀ (snapAdd en s) := by
  grind [snapAdd, Evolves.update]

theorem snapTrigger_evolves (src : Nat) (hs : Evolves s₀ s) : Evolves s₀ (snapTrigger src s) := by
  grind [snapTrigger, Evolves.update, incS_evolves, inc_evolves, record_evolves, snapAdd_evolves, wr_evolves]

theorem raise_evolves (b : Blk) (bit : Nat) (c : Cause) (hs : Evolves s₀ s) : Evolves s₀ (raise b bit c s) := by
  grind [raise, record_evolves, snapTrigger_evolves]

theorem raise0_evolves (b : Blk) (bit : Nat) (hs : Evolves s₀ s) : Evolves s₀ (raise0 b bit s) := by
  grind [raise0, raise_evolves]

theorem injHit_evolves (b : Blk) (sel : Nat) (hs : Evolves s₀ s) : Evolves s₀ (injHit b sel s).2 := by
  grind [injHit, wrWord_evolves]

theorem injParity_evolves (b : Blk) (sel : Nat) (hs : Evolves s₀ s) : Evolves s₀ (injParity b sel s).2 := by
  grind [injParity, injHit_evolves]

theorem countOnly_evolves (b : Blk) (hs : Evolves s₀ s) : Evolves s₀ (countOnly b s) := by
  grind [countOnly, wrWord_evolves]

theorem eccHit_evolves (b : Blk) (sel bit a master acc : Nat) (hs : Evolves s₀ s) :
    Evolves s₀ (eccHit b sel bit a master acc s).2 := by
  grind [eccHit, countOnly_evolves, injHit_evolves, raise_evolves]

theorem crcHit_evolves (b : Blk) (sel : Nat) (hs : Evolves s₀ s) : Evolves s₀ (crcHit b sel s) := by
  grind [crcHit, countOnly_evolves, injHit_evolves]

/-! Egress queues. -/

theorem qPut_evolves (q : Nat) (v : Queue) (hs : Evolves s₀ s) : Evolves s₀ (qPut s q v) := by
  grind [qPut, Evolves.update]

theorem portPut_evolves (p : Nat) (v : NetPort) (hs : Evolves s₀ s) : Evolves s₀ (portPut s p v) := by
  grind [portPut, Evolves.update]

theorem ringSet_evolves (p r : Nat) (l : List RxHeld) (hs : Evolves s₀ s) : Evolves s₀ (ringSet p r l s) := by
  grind [ringSet, portPut_evolves, wr_evolves]

theorem takeRing_evolves (p r : Nat) (hs : Evolves s₀ s) : Evolves s₀ (takeRing p r s) := by
  grind [takeRing, ringSet_evolves]

theorem clearRings_evolves (p : Nat) (hs : Evolves s₀ s) : Evolves s₀ (clearRings p s) := by
  grind [clearRings, Evolves.foldl, Evolves.refl, portPut_evolves, wr_evolves]

theorem showDepth_evolves (q : Nat) (hs : Evolves s₀ s) : Evolves s₀ (showDepth q s) := by
  grind [showDepth, wr_evolves]

theorem bumpEgs_evolves (F : Fld) (ix : List Nat) (hs : Evolves s₀ s) : Evolves s₀ (bumpEgs F ix s) := by
  grind [bumpEgs, inc_evolves, raise0_evolves, wrWord_evolves]

theorem roundPut_evolves (p c : Nat) (l : List Nat) (hs : Evolves s₀ s) : Evolves s₀ (roundPut s p c l) := by
  grind [roundPut, Evolves.update]

theorem servedPut_evolves (p c : Nat) (l : List Nat) (hs : Evolves s₀ s) : Evolves s₀ (servedPut s p c l) := by
  grind [servedPut, Evolves.update]

theorem joinRound_evolves (p q : Nat) (hs : Evolves s₀ s) : Evolves s₀ (joinRound p q s) := by
  grind [joinRound, roundPut_evolves]

theorem leaveRound_evolves (p q : Nat) (hs : Evolves s₀ s) : Evolves s₀ (leaveRound p q s) := by
  grind [leaveRound, qPut_evolves, roundPut_evolves, servedPut_evolves]

theorem dropDown_evolves (p q n : Nat) (hs : Evolves s₀ s) : Evolves s₀ (dropDown p q n s) := by
  induction n generalizing s with
  | zero => exact hs
  | succ n ih => grind [dropDown, bumpEgs_evolves, qPut_evolves, raise0_evolves]

theorem offer_evolves (p q : Nat) (hs : Evolves s₀ s) : Evolves s₀ (offer p q s) := by
  grind [offer, dropDown_evolves, joinRound_evolves]

theorem enqueue_evolves (q port len : Nat) (b : FBody) (hs : Evolves s₀ s) : Evolves s₀ (enqueue q port len b s) := by
  grind [enqueue, Evolves.update, bumpEgs_evolves, eccHit_evolves, offer_evolves, qPut_evolves, raise0_evolves, showDepth_evolves]

theorem closeFrame_evolves (q : Nat) (hs : Evolves s₀ s) : Evolves s₀ (closeFrame q s) := by
  grind [closeFrame, Evolves.update, enqueue_evolves, qPut_evolves]

theorem addRecordAt_evolves (stamp : Nat → Bool × Nat × Nat) (q kind : Nat) (bytes : List Nat) (hs : Evolves s₀ s) :
    Evolves s₀ (addRecordAt stamp q kind bytes s) := by
  grind [addRecordAt, Evolves.update, closeFrame_evolves, qPut_evolves, showDepth_evolves]

theorem addRecord_evolves (q kind : Nat) (bytes : List Nat) (hs : Evolves s₀ s) : Evolves s₀ (addRecord q kind bytes s) := by
  grind [addRecord, addRecordAt_evolves]

theorem gatherAt_evolves (stamp : Nat → Bool × Nat × Nat) (q kind shift : Nat) (bytes : List Nat) (hs : Evolves s₀ s) :
    Evolves s₀ (gatherAt stamp q kind shift bytes s) := by
  grind [gatherAt, Evolves.update, addRecordAt_evolves, qPut_evolves]

theorem gather_evolves (q kind shift : Nat) (bytes : List Nat) (hs : Evolves s₀ s) : Evolves s₀ (gather q kind shift bytes s) := by
  grind [gather, gatherAt_evolves]

theorem settle_evolves (hs : Evolves s₀ s) : Evolves s₀ (settle s) := by
  grind [settle, wr_evolves]

theorem settleQ_evolves (q : Nat) (hs : Evolves s₀ s) : Evolves s₀ (settleQ q s) := by
  grind [settleQ, Evolves.update, settle_evolves]

theorem refillQueue_evolves (q : Nat) (hs : Evolves s₀ s) : Evolves s₀ (refillQueue q s) := by
  grind [refillQueue, Evolves.update, closeFrame_evolves, qPut_evolves, settleQ_evolves]

theorem execShaperRefill_evolves (queue : Nat) : EvolvesTo s (execShaperRefill queue s) := by
  grind [execShaperRefill, Evolves.next, Evolves.refl, refillQueue_evolves]

theorem execFrameEnqueue_evolves (queue port len tag : Nat) : EvolvesTo s (execFrameEnqueue queue port len tag s) := by
  grind [execFrameEnqueue, Evolves.next, Evolves.refl, enqueue_evolves]

theorem gateFallback_evolves (p : Nat) (hs : Evolves s₀ s) : Evolves s₀ (gateFallback p s) := by
  grind [gateFallback, Evolves.update, raise0_evolves]

theorem gatesFall_evolves (d : Nat) (hs : Evolves s₀ s) : Evolves s₀ (gatesFall d s) := by
  grind [gatesFall, Evolves.foldl, Evolves.refl, gateFallback_evolves]

theorem execGateEntryChange_evolves (port : Nat) : EvolvesTo s (execGateEntryChange port s) := by
  grind [execGateEntryChange, Evolves.next, Evolves.refl, Evolves.update, gateFallback_evolves]

theorem dropOversize_evolves (p c q n : Nat) (hs : Evolves s₀ s) : Evolves s₀ (dropOversize p c q n s) := by
  induction n generalizing s with
  | zero => exact hs
  | succ n ih =>
    grind [dropOversize, leaveRound_evolves, bumpEgs_evolves, showDepth_evolves, qPut_evolves, raise0_evolves]

theorem noteDelay_evolves (q : Nat) (f : Frame) (hs : Evolves s₀ s) : Evolves s₀ (noteDelay q f s) := by
  grind [noteDelay, wr_evolves]

theorem startFrame_evolves (p c q : Nat) (f : Frame) (hs : Evolves s₀ s) : Evolves s₀ (startFrame p c q f s) := by
  unfold startFrame
  grind [Evolves.update, leaveRound_evolves, noteDelay_evolves, portPut_evolves, qPut_evolves, roundPut_evolves, servedPut_evolves,
    showDepth_evolves]

theorem drr_evolves (p c n : Nat) (hs : Evolves s₀ s) : Evolves s₀ (drr p c n s) := by
  induction n generalizing s with
  | zero => exact hs
  | succ n ih =>
    unfold drr
    split
    next => exact hs
    next q _ =>
      extract_lets v s1
      have h1 : Evolves s₀ s1 := .ite hs (qPut_evolves _ _ (servedPut_evolves _ _ _ hs))
      clear_value s1
      split
      next => exact hs
      next => exact .ite (startFrame_evolves _ _ _ _ h1) (ih (servedPut_evolves _ _ _ (roundPut_evolves _ _ _ h1)))

theorem pickClass_evolves (p n : Nat) (hs : Evolves s₀ s) : Evolves s₀ (pickClass p n s) := by
  induction n generalizing s with
  | zero => exact hs
  | succ n ih => grind [pickClass, drr_evolves, dropOversize_evolves, Evolves.foldl, Evolves.refl]

theorem servoPut_evolves (d : Nat) (v : Servo) (hs : Evolves s₀ s) : Evolves s₀ (servoPut s d v) := by
  grind [servoPut, Evolves.update]

theorem ptpPut_evolves (d p : Nat) (v : PtpPort) (hs : Evolves s₀ s) : Evolves s₀ (ptpPut s d p v) := by
  grind [ptpPut, Evolves.update, servoPut_evolves]

theorem stampDelayReq_evolves (p : Nat) (hs : Evolves s₀ s) : Evolves s₀ (stampDelayReq p s) := by
  grind [stampDelayReq, Evolves.update, portPut_evolves, ptpPut_evolves]

theorem execEgressSelect_evolves (port : Nat) : EvolvesTo s (execEgressSelect port s) := by
  grind [execEgressSelect, Evolves.next, Evolves.refl, pickClass_evolves, stampDelayReq_evolves]

theorem execQueueSamplerVisit_evolves (k queue : Nat) : EvolvesTo s (execQueueSamplerVisit k queue s) := by
  grind [execQueueSamplerVisit, Evolves.next, Evolves.refl, addRecord_evolves, wr_evolves]

theorem polPut_evolves (k : Nat) (c : Int) (hs : Evolves s₀ s) : Evolves s₀ (polPut s k c) := by
  grind [polPut, Evolves.update]

theorem execPolicerRefill_evolves (k : Nat) : EvolvesTo s (execPolicerRefill k s) := by
  grind [execPolicerRefill, Evolves.next, Evolves.refl, polPut_evolves]

theorem police_evolves (k len : Nat) (hs : Evolves s₀ s) : Evolves s₀ (police k len s).2 := by
  grind [police, bumpEgs_evolves, polPut_evolves, raise0_evolves]

/-! The journal and messages to sessions. -/

theorem degOn_evolves (t : Nat) (hs : Evolves s₀ s) : Evolves s₀ (degOn t s) := by
  grind [degOn, Evolves.update, wr_evolves]

theorem degOff_evolves (t : Nat) (hs : Evolves s₀ s) : Evolves s₀ (degOff t s) := by
  grind [degOff, Evolves.update, wr_evolves]

theorem retireCopy_evolves (c : Nat) (hs : Evolves s₀ s) : Evolves s₀ (retireCopy c s) := by
  grind [retireCopy, degOn_evolves, raise_evolves, wr_evolves]

theorem setRepairs_evolves (l : List (Nat × Nat)) (hs : Evolves s₀ s) : Evolves s₀ (setRepairs l s) := by
  grind [setRepairs, Evolves.update]

theorem requeueRepairs_evolves (extra : List SUnit) (hs : Evolves s₀ s) : Evolves s₀ (requeueRepairs extra s) := by
  grind [requeueRepairs, Evolves.update, setRepairs_evolves]

theorem saveHist_evolves (hs : Evolves s₀ s) : Evolves s₀ (saveHist s) := by
  grind [saveHist, Evolves.update]

theorem writeEntry_evolves (okA okB : Bool) (e : Entry) (hs : Evolves s₀ s) : Evolves s₀ (writeEntry okA okB e s) := by
  unfold writeEntry
  extract_lets s0 s1 s2 s3 j e1 put h jn s4 s5
  have h0 : Evolves s₀ s0 := .ite hs (saveHist_evolves hs)
  have h1 : Evolves s₀ s1 := .ite (retireCopy_evolves _ h0) h0
  have h2 : Evolves s₀ s2 := .ite (retireCopy_evolves _ h1) h1
  have h3 : Evolves s₀ s3 := .foldl (fun _ _ => .ite .refl (crcHit_evolves _ _ .refl)) h2
  have h4 : Evolves s₀ s4 := h3.update (Nat.le_succ _) le_rfl
  have h5 : Evolves s₀ s5 := wr_evolves _ _ _ (wr_evolves _ _ _ h4)
  exact .ite (.ite (addRecord_evolves _ _ _ h5) h5) h3

theorem carryOne_evolves (okA okB : Bool) (e : Ev) (hs : Evolves s₀ s) : Evolves s₀ (carryOne okA okB e s) := by
  grind [carryOne, Evolves.update, Evolves.foldl, Evolves.refl, writeEntry_evolves]

theorem checkpoint_evolves (okA okB : Bool) (hs : Evolves s₀ s) : Evolves s₀ (checkpoint okA okB s) := by
  unfold checkpoint
  extract_lets j s1 jn s2
  have h1 : Evolves s₀ s1 := .foldl (fun _ _ => writeEntry_evolves _ _ _ .refl) hs
  clear_value s1
  have h2 : Evolves s₀ s2 := h1.update le_rfl le_rfl
  exact .foldl (fun _ _ => carryOne_evolves _ _ _ .refl) (wr_evolves _ _ _ h2)

theorem dueCheckpoint_evolves (okA okB : Bool) (hs : Evolves s₀ s) : Evolves s₀ (dueCheckpoint okA okB s) := by
  grind [dueCheckpoint, checkpoint_evolves]

theorem appendEntry_evolves (okA okB : Bool) (e : Entry) (hs : Evolves s₀ s) : Evolves s₀ (appendEntry okA okB e s) := by
  grind [appendEntry, dueCheckpoint_evolves, writeEntry_evolves]

theorem commitEntries_evolves (okA okB : Bool) (l : List Entry) (hs : Evolves s₀ s) : Evolves s₀ (commitEntries okA okB l s) := by
  grind [commitEntries, Evolves.foldl, Evolves.refl, appendEntry_evolves]

theorem commitV_evolves (okA okB : Bool) (kind aseq session type seq : Nat) (payload : List Nat) (hs : Evolves s₀ s) :
    Evolves s₀ (commitV okA okB kind aseq session type seq payload s) := by
  grind [commitV, commitEntries_evolves]

theorem commit_evolves (kind aseq session type seq : Nat) (payload : List Nat) (hs : Evolves s₀ s) :
    Evolves s₀ (commit kind aseq session type seq payload s) := by
  grind [commit, commitV_evolves]

theorem sessPut_evolves (k : Nat) (v : Sess) (hs : Evolves s₀ s) : Evolves s₀ (sessPut s k v) := by
  grind [sessPut, Evolves.update]

theorem sendAnswer_evolves (h : Hdr) (dup : Bool) (a : Ans) (hs : Evolves s₀ s) : Evolves s₀ (sendAnswer h dup a s) := by
  grind [sendAnswer, enqueue_evolves]

theorem sendNote_evolves (k kind : Nat) (params : List Nat) (hs : Evolves s₀ s) : Evolves s₀ (sendNote k kind params s) := by
  grind [sendNote, Evolves.update, enqueue_evolves, sessPut_evolves]

theorem notifyTo_evolves (k kind : Nat) (params : List Nat) (hs : Evolves s₀ s) : Evolves s₀ (notifyTo k kind params s) := by
  grind [notifyTo, Evolves.update, sendNote_evolves]

theorem notifyAll_evolves (kind : Nat) (params : List Nat) (hs : Evolves s₀ s) : Evolves s₀ (notifyAll kind params s) := by
  grind [notifyAll, Evolves.foldl, Evolves.refl, notifyTo_evolves]

theorem sendBody_evolves (dup : Bool) (k cseq : Nat) (body : List Nat) (hs : Evolves s₀ s) : Evolves s₀ (sendBody dup k cseq body s)
    := by
  grind [sendBody, enqueue_evolves]

theorem sendCompletion_evolves (dup : Bool) (c : Compl) (hs : Evolves s₀ s) : Evolves s₀ (sendCompletion dup c s) := by
  grind [sendCompletion, sendBody_evolves]

theorem reportCompletion_evolves (c : Compl) (hs : Evolves s₀ s) : Evolves s₀ (reportCompletion c s) := by
  grind [reportCompletion, Evolves.update, Evolves.foldl, Evolves.refl, notifyTo_evolves, sendCompletion_evolves, sessPut_evolves]

/-! Event records. -/

theorem evStatus_evolves (bit : Nat) (hs : Evolves s₀ s) : Evolves s₀ (evStatus bit s) := by
  grind [evStatus, wrWord_evolves]

theorem evSet_evolves (e : Ev) (hs : Evolves s₀ s) : Evolves s₀ (evSet e s) := by
  grind [evSet, Evolves.update]

theorem evDrop_evolves (aseq : Nat) (hs : Evolves s₀ s) : Evolves s₀ (evDrop aseq s) := by
  grind [evDrop, Evolves.update]

theorem showPending_evolves (hs : Evolves s₀ s) : Evolves s₀ (showPending s) := by
  grind [showPending, wr_evolves]

theorem showEv_evolves (e : Ev) (reason : Nat) (hs : Evolves s₀ s) : Evolves s₀ (showEv e reason s) := by
  unfold showEv
  extract_lets w
  iterate 11 apply wr_evolves
  exact hs

theorem allocTab_evolves (hs : Evolves s₀ s) : Evolves s₀ (allocTab s).2 := by
  grind [allocTab, Evolves.update]

theorem evGoto_evolves (e : Ev) (hs : Evolves s₀ s) : Evolves s₀ (evGoto e s) := by
  grind [evGoto, commit_evolves, evSet_evolves, showEv_evolves]

theorem claimPorts_evolves (l : List Nat) (v : Bool) (hs : Evolves s₀ s) : Evolves s₀ (claimPorts l v s) := by
  grind [claimPorts, Evolves.foldl, Evolves.refl, setMapBit_evolves]

theorem releaseRule_evolves (r : Nat) (hs : Evolves s₀ s) : Evolves s₀ (releaseRule r s) := by
  grind [releaseRule, claimPorts_evolves, wr_evolves]

theorem releaseSched_evolves (k : Nat) (hs : Evolves s₀ s) : Evolves s₀ (releaseSched k s) := by
  grind [releaseSched, Evolves.update, claimPorts_evolves]

theorem stopSched_evolves (k : Nat) (fault : Bool) (hs : Evolves s₀ s) : Evolves s₀ (stopSched k fault s) := by
  grind [stopSched, commit_evolves, raise0_evolves, releaseSched_evolves, wr_evolves]

theorem showStep_evolves (k i : Nat) (hs : Evolves s₀ s) : Evolves s₀ (showStep k i s) := by
  grind [showStep, wr_evolves]

theorem planFinal_evolves (e : Ev) (st : Nat) (hs : Evolves s₀ s) : Evolves s₀ (planFinal e st s) := by
  grind [planFinal, Evolves.update, releaseSched_evolves, showStep_evolves, stopSched_evolves]

theorem discardWaves_evolves (aseq : Nat) (hs : Evolves s₀ s) : Evolves s₀ (discardWaves aseq s) := by
  grind [discardWaves, Evolves.update]

theorem resolveLater_evolves (aseq : Nat) (hs : Evolves s₀ s) : Evolves s₀ (resolveLater aseq s) := by
  grind [resolveLater, Evolves.update, Evolves.foldl, Evolves.refl, evGoto_evolves]

theorem commitFinal_evolves (tab : Nat) (c : Compl) (part : List Nat) (hs : Evolves s₀ s) :
    Evolves s₀ (commitFinal tab c part s).2 := by
  grind [commitFinal, Evolves.update, commit_evolves, dueCheckpoint_evolves]

theorem closeEv_evolves (e : Ev) (reason : Nat) (hs : Evolves s₀ s) : Evolves s₀ (closeEv e reason s) := by
  unfold closeEv
  extract_lets s1 s2 s3
  have h1 : Evolves s₀ s1 := .ite (evStatus_evolves _ hs) hs
  have h2 : Evolves s₀ s2 := .ite (evStatus_evolves _ h1) h1
  have h3 : Evolves s₀ s3 := showPending_evolves (evDrop_evolves _ (discardWaves_evolves _ (showEv_evolves _ _ h2)))
  exact h3.update le_rfl le_rfl

theorem oweFinal_evolves (x : Nat × Compl × List Nat) (hs : Evolves s₀ s) : Evolves s₀ (oweFinal x s) := by
  grind [oweFinal, Evolves.update]

theorem finish_evolves (e : Ev) (st reason : Nat) (hs : Evolves s₀ s) : Evolves s₀ (finish e st reason s) := by
  grind [finish, Evolves.update, closeEv_evolves, commitFinal_evolves, inc_evolves, oweFinal_evolves, planFinal_evolves,
    reportCompletion_evolves]

theorem flushOwed_evolves (hs : Evolves s₀ s) : Evolves s₀ (flushOwed s) := by
  grind [flushOwed, Evolves.update, Evolves.foldl, Evolves.refl, commitFinal_evolves, reportCompletion_evolves]

theorem finalise_evolves (e : Ev) (st reason : Nat) (hs : Evolves s₀ s) : Evolves s₀ (finalise e st reason s) := by
  grind [finalise, finish_evolves, resolveLater_evolves]

theorem failWhere_evolves (p : Ev → Bool) (reason : Nat) (hs : Evolves s₀ s) : Evolves s₀ (failWhere p reason s) := by
  unfold failWhere
  grind [Evolves.foldl, Evolves.refl, finish_evolves, resolveLater_evolves]

theorem displace_evolves (ports : List Nat) (hs : Evolves s₀ s) : Evolves s₀ (displace ports s) := by
  grind [displace, failWhere_evolves, raise0_evolves]

/-! Element drives. -/

theorem bankPut_evolves (k : Nat) (v : BankSt) (hs : Evolves s₀ s) : Evolves s₀ (bankPut s k v) := by
  grind [bankPut, Evolves.update]

theorem drvPut_evolves (e : Nat) (d : Drv) (hs : Evolves s₀ s) : Evolves s₀ (drvPut s e d) := by
  unfold drvPut
  split
  case isTrue he =>
    have h1 := hs.setDrv d he
    exact wrWord_evolves _ _ (.ite h1 (wrWord_evolves _ _ h1))
  case isFalse => exact hs

theorem clearElem_evolves (e : Nat) (hs : Evolves s₀ s) : Evolves s₀ (clearElem s e) := by
  grind [clearElem, drvPut_evolves]

theorem clearBank_evolves (k : Nat) (hs : Evolves s₀ s) : Evolves s₀ (clearBank k s) := by
  grind [clearBank, Evolves.foldl, Evolves.refl, clearElem_evolves]

theorem tickElem_evolves (e : Nat) (hs : Evolves s₀ s) : Evolves s₀ (tickElem s e) := by
  grind [tickElem, drvPut_evolves, raise_evolves]

theorem execSlewTick_evolves (bank : Nat) : EvolvesTo s (execSlewTick bank s) := by
  grind [execSlewTick, Evolves.next, Evolves.refl, Evolves.foldl, tickElem_evolves]

theorem driveCmd_evolves (e u : Nat) (dh : Int) (tstate : Nat) (hs : Evolves s₀ s) : Evolves s₀ (driveCmd e u dh tstate s) := by
  grind [driveCmd, Evolves.update, drvPut_evolves]

theorem kickStart_evolves (m : EMove) (hs : Evolves s₀ s) : Evolves s₀ (kickStart m s).2 := by
  grind [kickStart, drvPut_evolves, injParity_evolves, raise_evolves]

theorem execKickWaveformEnd_evolves (elem : Nat) : EvolvesTo s (execKickWaveformEnd elem s) := by
  grind [execKickWaveformEnd, Evolves.next, Evolves.refl, Evolves.update, drvPut_evolves, raise_evolves]

theorem execRampStart_evolves (elem : Nat) : EvolvesTo s (execRampStart elem s) := by
  grind [execRampStart, Evolves.next, Evolves.refl, Evolves.update, drvPut_evolves]

theorem execHandoverEnd_evolves (elem : Nat) : EvolvesTo s (execHandoverEnd elem s) := by
  grind [execHandoverEnd, Evolves.next, Evolves.refl, Evolves.update, drvPut_evolves]

theorem execDriveFreeze_evolves (elem : Nat) : EvolvesTo s (execDriveFreeze elem s) := by
  grind [execDriveFreeze, Evolves.next, Evolves.refl, Evolves.update, drvPut_evolves]

theorem clrSet_evolves (bit : Nat) (hs : Evolves s₀ s) : Evolves s₀ (clrSet bit s) := by
  grind [clrSet, Evolves.update, Evolves.foldl, Evolves.refl, clearBank_evolves, wrWord_evolves]

theorem clrRelease_evolves (bit : Nat) (hs : Evolves s₀ s) : Evolves s₀ (clrRelease bit s) := by
  grind [clrRelease, Evolves.update, Evolves.foldl, Evolves.refl, wrWord_evolves]

theorem parkCold_evolves (k : Nat) (hs : Evolves s₀ s) : Evolves s₀ (parkCold k s) := by
  grind [parkCold, clearBank_evolves, wrWord_evolves]

theorem parkAll_evolves (hs : Evolves s₀ s) : Evolves s₀ (parkAll s) := by
  grind [parkAll, Evolves.foldl, Evolves.refl, clrSet_evolves, parkCold_evolves]

theorem execBankSelfPark_evolves : EvolvesTo s (execBankSelfPark s) := by
  grind [execBankSelfPark, Evolves.next, Evolves.refl, Evolves.update, Evolves.foldl, bankPut_evolves, parkCold_evolves]

/-! What a change of a configuration field sets going. -/

theorem noteUpdate_evolves (c tick : Nat) (hs : Evolves s₀ s) : Evolves s₀ (noteUpdate c tick s) := by
  grind [noteUpdate, Evolves.update]

theorem reshed_evolves (hs : Evolves s₀ s) : Evolves s₀ (reshed s) := by
  grind [reshed, Evolves.update, raise0_evolves]

theorem lightPut_evolves (k v : Nat) (hs : Evolves s₀ s) : Evolves s₀ (lightPut k v s) := by
  grind [lightPut, Evolves.update]

theorem losRestart_evolves (k : Nat) (hs : Evolves s₀ s) : Evolves s₀ (losRestart k s) := by
  grind [losRestart, lightPut_evolves]

theorem setptPut_evolves (k : Nat) (v : Nat × Nat × Option Nat) (hs : Evolves s₀ s) : Evolves s₀ (setptPut s k v) := by
  grind [setptPut, Evolves.update]

theorem setptLos_evolves (k : Nat) (v : Bool) (hs : Evolves s₀ s) : Evolves s₀ (setptLos k v s) := by
  grind [setptLos, notifyAll_evolves, wr_evolves]

theorem setptShow_evolves (k : Nat) (hs : Evolves s₀ s) : Evolves s₀ (setptShow k s) := by
  grind [setptShow, wr_evolves]

theorem setptLatch_evolves (k : Nat) (hs : Evolves s₀ s) : Evolves s₀ (setptLatch k s) := by
  grind [setptLatch, Evolves.update]

theorem setptRestart_evolves (newMode : Bool) (k : Nat) (hs : Evolves s₀ s) : Evolves s₀ (setptRestart newMode k s) := by
  grind [setptRestart, setptLatch_evolves, setptLos_evolves, setptPut_evolves, setptShow_evolves]

theorem setptTake_evolves (k : Nat) (m : Option Nat) (hs : Evolves s₀ s) : Evolves s₀ (setptTake k m s) := by
  unfold setptTake
  grind [setptLatch_evolves, setptLos_evolves, setptPut_evolves, setptShow_evolves, wr_evolves]

theorem osrChange_evolves (old : Nat) (hs : Evolves s₀ s) : Evolves s₀ (osrChange old s) := by
  grind [osrChange, Evolves.update, Evolves.foldl, Evolves.refl]

theorem fieldHook_evolves (a old : Nat) (hs : Evolves s₀ s) : Evolves s₀ (fieldHook a old s) := by
  grind [fieldHook, losRestart_evolves, osrChange_evolves, reshed_evolves, setptRestart_evolves, setptShow_evolves]

theorem fieldHooks_evolves (s0 : State) (l : List Nat) (hs : Evolves s₀ s) : Evolves s₀ (fieldHooks s0 l s) := by
  grind [fieldHooks, Evolves.foldl, Evolves.refl, fieldHook_evolves]

/-! Modes and overlays. -/

theorem putMasked_evolves (a mask v : Nat) (hs : Evolves s₀ s) : Evolves s₀ (putMasked a mask v s) := by
  grind [putMasked, Evolves.foldl, Evolves.refl, mergeWord_evolves]

theorem busyFor_evolves (a : Nat) (hs : Evolves s₀ s) : Evolves s₀ (busyFor a s) := by
  have hm (m : ModeSt) : Evolves s₀ { s with modes := m } := hs.update le_rfl le_rfl
  unfold busyFor
  dsimp only
  split_ifs <;> first | exact hs | exact hm _

theorem settleP_evolves (k : Nat) (hs : Evolves s₀ s) : Evolves s₀ (settleP k s) := by
  grind [settleP, Evolves.update, settle_evolves]

theorem moveField_evolves (f : Nat × Nat × Nat) (hs : Evolves s₀ s) : Evolves s₀ (moveField f s) := by
  grind [moveField, busyFor_evolves, putMasked_evolves]

theorem overlayTo_evolves (olds named : List (Nat × Nat × Nat)) (hs : Evolves s₀ s) : Evolves s₀ (overlayTo olds named s) := by
  grind [overlayTo, Evolves.foldl, Evolves.refl, fieldHooks_evolves, moveField_evolves, settle_evolves, wr_evolves]

theorem overlayMove_evolves (a b : Nat) (hs : Evolves s₀ s) : Evolves s₀ (overlayMove a b s) := by
  grind [overlayMove, overlayTo_evolves]

theorem keepAndResolve_evolves (hs : Evolves s₀ s) : Evolves s₀ (keepAndResolve s) := by
  grind [keepAndResolve, Evolves.update, Evolves.foldl, Evolves.refl, evGoto_evolves]

theorem plansResume_evolves (hs : Evolves s₀ s) : Evolves s₀ (plansResume s) := by
  grind [plansResume, Evolves.update]

theorem rulesFrom_evolves (p : Nat → Bool) (hs : Evolves s₀ s) : Evolves s₀ (rulesFrom p s) := by
  grind [rulesFrom, Evolves.update, Evolves.foldl, Evolves.refl]

theorem entryHits_evolves (old m : Nat) (hs : Evolves s₀ s) : Evolves s₀ (entryHits old m s) := by
  grind [entryHits, Evolves.update, plansResume_evolves, rulesFrom_evolves]

theorem chanPut_evolves (c : Nat) (v : Chan) (hs : Evolves s₀ s) : Evolves s₀ (chanPut s c v) := by
  grind [chanPut, Evolves.update]

theorem chanDark_evolves (c : Nat) (hs : Evolves s₀ s) : Evolves s₀ (chanDark c s) := by
  grind [chanDark, Evolves.update, chanPut_evolves]

theorem enterDark_evolves (hs : Evolves s₀ s) : Evolves s₀ (enterDark s) := by
  unfold enterDark
  extract_lets s1 s2
  have h1 : Evolves s₀ s1 := chanDark_evolves _ (chanDark_evolves _ (parkAll_evolves hs))
  have h2 : Evolves s₀ s2 := wr_evolves _ _ _ (wr_evolves _ _ _ h1)
  exact h2.update le_rfl le_rfl

theorem treesIdle_evolves (hs : Evolves s₀ s) : Evolves s₀ (treesIdle s) := by
  grind [treesIdle, Evolves.update]

theorem abandonRun_evolves (hs : Evolves s₀ s) : Evolves s₀ (abandonRun s) := by
  grind [abandonRun, Evolves.update, treesIdle_evolves, wr_evolves]

theorem recordEntry_evolves (new : Nat) (hs : Evolves s₀ s) : Evolves s₀ (recordEntry new s) := by
  grind [recordEntry, Evolves.update]

theorem entryActions_evolves (old new : Nat) (hs : Evolves s₀ s) : Evolves s₀ (entryActions old new s) := by
  unfold entryActions
  grind [Evolves.foldl, Evolves.refl, abandonRun_evolves, enterDark_evolves, failWhere_evolves, keepAndResolve_evolves,
    recordEntry_evolves, stopSched_evolves, treesIdle_evolves]

theorem enterMode_evolves (new cause : Nat) (hs : Evolves s₀ s) : Evolves s₀ (enterMode new cause s) := by
  unfold enterMode
  extract_lets old s1 s2 s3
  have h1 : Evolves s₀ s1 := commit_evolves _ _ _ _ _ _ hs
  have h2 : Evolves s₀ s2 := wr_evolves _ _ _ (wr_evolves _ _ _ (wr_evolves _ _ _ h1))
  have h3 : Evolves s₀ s3 := entryActions_evolves _ _ (overlayMove_evolves _ _ h2)
  exact entryHits_evolves _ _ (notifyAll_evolves _ _ h3)

theorem setSlot_evolves (b : Bool) (st : Nat) (hs : Evolves s₀ s) : Evolves s₀ (setSlot b st s) := by
  grind [setSlot, Evolves.update, crcHit_evolves, wr_evolves]

theorem setTrial_evolves (n : Nat) (hs : Evolves s₀ s) : Evolves s₀ (setTrial n s) := by
  grind [setTrial, Evolves.update]

theorem abandonUpdate_evolves (hs : Evolves s₀ s) : Evolves s₀ (abandonUpdate s) := by
  grind [abandonUpdate, setSlot_evolves, wr_evolves]

theorem modeTickBy_evolves (c stop : Nat) (hs : Evolves s₀ s) : Evolves s₀ (modeTickBy c stop s) := by
  grind [modeTickBy, abandonUpdate_evolves, enterMode_evolves]

theorem modeTick_evolves (hs : Evolves s₀ s) : Evolves s₀ (modeTick s) := by
  grind [modeTick, modeTickBy_evolves]

theorem consume_evolves (h : Hdr) (r : Req) (a : Ans) (hs : Evolves s₀ s) : Evolves s₀ (consume h r a s) := by
  grind [consume, Evolves.update, sessPut_evolves, wr_evolves]

theorem answerCopies_evolves (h : Hdr) (a : Ans) (hs : Evolves s₀ s) : Evolves s₀ (answerCopies h a s) := by
  grind [answerCopies, Evolves.update, Evolves.foldl, Evolves.refl, incS_evolves, sendAnswer_evolves, sessPut_evolves]

theorem answerLate_evolves (h : Hdr) (a : Ans) (hs : Evolves s₀ s) : Evolves s₀ (answerLate h a s) := by
  grind [answerLate, answerCopies_evolves, consume_evolves, sendAnswer_evolves]

theorem startRun_evolves (cause : Nat) (hs : Evolves s₀ s) : Evolves s₀ (startRun cause s) := by
  unfold startRun
  extract_lets m1 s1 c s2
  have h1 : Evolves s₀ s1 := enterMode_evolves _ _ (hs.update le_rfl le_rfl)
  have h2 : Evolves s₀ s2 := treesIdle_evolves (h1.update le_rfl le_rfl)
  exact wr_evolves _ _ _ (wr_evolves _ _ _ h2)

theorem finishLeave_evolves (h : Hdr) (hs : Evolves s₀ s) : Evolves s₀ (finishLeave h s) := by
  unfold finishLeave
  dsimp only
  split_ifs <;> grind [Evolves.update, answerLate_evolves, enterMode_evolves, wr_evolves]

theorem leaveNow_evolves (hs : Evolves s₀ s) : Evolves s₀ (leaveNow s) := by
  grind [leaveNow, Evolves.update, answerLate_evolves, finishLeave_evolves, startRun_evolves]

/-! Timing domains. -/

theorem cntPut_evolves (d c : Nat) (hs : Evolves s₀ s) : Evolves s₀ (cntPut d c s) := by
  grind [cntPut, Evolves.update]

theorem phasePut_evolves (d : Nat) (p : Int) (hs : Evolves s₀ s) : Evolves s₀ (phasePut d p s) := by
  grind [phasePut, Evolves.update, wrS_evolves]

theorem tickDomain_evolves (d : Nat) (hs : Evolves s₀ s) : Evolves s₀ (tickDomain s d) := by
  grind [tickDomain, cntPut_evolves, phasePut_evolves]

theorem tick_evolves (hs : Evolves s₀ s) : Evolves s₀ (tick s) := by
  grind [tick, Evolves.update, Evolves.foldl, Evolves.refl, tickDomain_evolves]

theorem rcRestart_evolves (p : Nat → Bool) (hs : Evolves s₀ s) : Evolves s₀ (rcRestart p s) := by
  grind [rcRestart, Evolves.update, Evolves.foldl, Evolves.refl]

theorem ppsSquelch_evolves (hs : Evolves s₀ s) : Evolves s₀ (ppsSquelch s) := by
  grind [ppsSquelch, Evolves.update]

theorem domShow_evolves (d st : Nat) (hs : Evolves s₀ s) : Evolves s₀ (domShow d st s) := by
  unfold domShow
  grind [Evolves.update, commit_evolves, gatesFall_evolves, notifyAll_evolves, ppsSquelch_evolves, raise0_evolves, servoPut_evolves,
    wr_evolves]

theorem domFound_evolves (d : Nat) (hs : Evolves s₀ s) : Evolves s₀ (domFound d s) := by
  grind [domFound, rcRestart_evolves, rulesFrom_evolves]

theorem domLost_evolves (d : Nat) (hs : Evolves s₀ s) : Evolves s₀ (domLost d s) := by
  grind [domLost, Evolves.foldl, Evolves.refl, failWhere_evolves, stopSched_evolves]

theorem domSet_evolves (d st : Nat) (hs : Evolves s₀ s) : Evolves s₀ (domSet d st s) := by
  grind [domSet, domFound_evolves, domLost_evolves, domShow_evolves]

theorem enableDomains_evolves (hs : Evolves s₀ s) : Evolves s₀ (enableDomains s) := by
  grind [enableDomains, Evolves.foldl, Evolves.refl, domSet_evolves]

theorem execDomainFadjWrite_evolves (dom : Nat) (value : Int) : EvolvesTo s (execDomainFadjWrite dom value s) := by
  grind [execDomainFadjWrite, Evolves.next, Evolves.refl, wrS_evolves]

theorem execDomainPhadjWrite_evolves (dom : Nat) (value : Int) : EvolvesTo s (execDomainPhadjWrite dom value s) := by
  grind [execDomainPhadjWrite, Evolves.next, Evolves.refl, phasePut_evolves]

theorem stepGo_evolves (dom : Nat) (hs : Evolves s₀ s) : Evolves s₀ (stepGo dom s) := by
  grind [stepGo, raise0_evolves, wr_evolves]

theorem execDomainStepGo_evolves (dom sec ns : Nat) : EvolvesTo s (execDomainStepGo dom sec ns s) := by
  grind [execDomainStepGo, Evolves.next, Evolves.refl, phasePut_evolves, stepGo_evolves, wr_evolves]

theorem execDomainStepApply_evolves (dom : Nat) : EvolvesTo s (execDomainStepApply dom s) := by
  grind [execDomainStepApply, Evolves.next, Evolves.refl, cntPut_evolves, notifyAll_evolves, raise0_evolves, rcRestart_evolves,
    wr_evolves]

theorem execHoldoverExpiry_evolves (dom : Nat) : EvolvesTo s (execHoldoverExpiry dom s) := by
  grind [execHoldoverExpiry, Evolves.next, Evolves.refl, domSet_evolves]

theorem noDomain_evolves (hs : Evolves s₀ s) : Evolves s₀ (noDomain s) := by
  grind [noDomain, inc_evolves, raise0_evolves]

theorem takePtp_evolves {port typ : Nat} {r : PtpTag × Option Nat × State} (hs : Evolves s₀ s) (hr : takePtp port typ s = some r) :
    Evolves s₀ r.2.2 := by
  grind [takePtp, takeRing_evolves]

theorem withPtp_evolves (port typ : Nat) {act : PtpTag → Nat → State → State} (hact : ∀ g d {t}, Evolves s₀ t → Evolves s₀ (act g d t))
    (hs : Evolves s₀ s) : Evolves s₀ (withPtp port typ act s) := by
  unfold withPtp
  split
  next => exact hs
  next hr => exact noDomain_evolves (takePtp_evolves hs hr)
  next hr =>
    have ht := takePtp_evolves hs hr
    exact .ite (hact _ _ ht) (inc_evolves _ _ ht)

theorem ptpPair_evolves (d port : Nat) (t1 t2 cs : Int) (hs : Evolves s₀ s) : Evolves s₀ (ptpPair d port t1 t2 cs s) := by
  grind [ptpPair, Evolves.update, servoPut_evolves]

theorem execPtpSyncRx_evolves (port seq : Nat) (logInterval : Int) (twoStep : Bool) (t1 corr : Int) :
    EvolvesTo s (execPtpSyncRx port seq logInterval twoStep t1 corr s) := by
  grind [execPtpSyncRx, Evolves.next, Evolves.refl, Evolves.update, inc_evolves, ptpPair_evolves, ptpPut_evolves, withPtp_evolves]

theorem execPtpFollowUpRx_evolves (port seq : Nat) (t1 corr : Int) : EvolvesTo s (execPtpFollowUpRx port seq t1 corr s) := by
  grind [execPtpFollowUpRx, Evolves.next, Evolves.refl, Evolves.update, ptpPair_evolves, ptpPut_evolves, withPtp_evolves]

theorem execPtpDelayRespRx_evolves (port seq : Nat) (logInterval t4 corr : Int) :
    EvolvesTo s (execPtpDelayRespRx port seq logInterval t4 corr s) := by
  grind [execPtpDelayRespRx, Evolves.next, Evolves.refl, Evolves.update, inc_evolves, ptpPut_evolves, withPtp_evolves]

theorem selectTransmitter_evolves (d : Nat) (hs : Evolves s₀ s) : Evolves s₀ (selectTransmitter d s) := by
  grind [selectTransmitter, wr_evolves]

theorem classHold_evolves (d : Nat) (hs : Evolves s₀ s) : Evolves s₀ (classHold d s) := by
  grind [classHold, domSet_evolves]

theorem execPtpAnnounceRx_evolves (port cls vector : Nat) (qualified : Bool) :
    EvolvesTo s (execPtpAnnounceRx port cls vector qualified s) := by
  refine .next (withPtp_evolves _ _ (fun _ d t ht => ?_) .refl)
  exact classHold_evolves _ (selectTransmitter_evolves _ (ptpPut_evolves _ _ _ (inc_evolves _ _ ht)))

theorem annLost_evolves (d port : Nat) (hs : Evolves s₀ s) : Evolves s₀ (annLost d port s) := by
  grind [annLost, Evolves.update, ptpPut_evolves, selectTransmitter_evolves]

theorem execDomainHoldoverEntry_evolves (dom cause : Nat) : EvolvesTo s (execDomainHoldoverEntry dom cause s) := by
  grind [execDomainHoldoverEntry, Evolves.next, Evolves.refl, annLost_evolves, classHold_evolves, domSet_evolves]

theorem execDelayReqTx_evolves (dom port : Nat) : EvolvesTo s (execDelayReqTx dom port s) := by
  grind [execDelayReqTx, Evolves.next, Evolves.refl, Evolves.update, enqueue_evolves, inc_evolves, ptpPut_evolves]

theorem execPpsInPulse_evolves (input : Nat) : EvolvesTo s (execPpsInPulse input s) := by
  grind [execPpsInPulse, Evolves.next, Evolves.refl, Evolves.update, raise0_evolves, servoPut_evolves, wrS_evolves]

theorem execPpsOutEdge_evolves : EvolvesTo s (execPpsOutEdge s) := by
  grind [execPpsOutEdge, Evolves.next, Evolves.refl, Evolves.update]

/-! Calibration corrections. -/

theorem putCal_evolves (fields : List (Nat × Nat × Nat)) (hs : Evolves s₀ s) : Evolves s₀ (putCal fields s) := by
  grind [putCal, Evolves.update, Evolves.foldl, Evolves.refl, putMasked_evolves]

theorem corrDrop_evolves (n : Nat) (hs : Evolves s₀ s) : Evolves s₀ (corrDrop n s) := by
  grind [corrDrop, Evolves.update]

theorem corrApply_evolves (n : Nat) (hs : Evolves s₀ s) : Evolves s₀ (corrApply n s) := by
  grind [corrApply, corrDrop_evolves, putCal_evolves, wr_evolves]

theorem corrView_evolves (n : Nat) (hs : Evolves s₀ s) : Evolves s₀ (corrView n s) := by
  grind [corrView, putCal_evolves]

theorem rampWord_evolves (r : Ramp) (k : Nat) (f : Nat × Nat × Nat) (hs : Evolves s₀ s) : Evolves s₀ (rampWord r k f s) := by
  grind [rampWord, Evolves.foldl, Evolves.refl, wrWord_evolves]

theorem rampTick_evolves (n : Nat) (hs : Evolves s₀ s) : Evolves s₀ (rampTick n s) := by
  grind [rampTick, Evolves.update, Evolves.foldl, Evolves.refl, corrApply_evolves, rampWord_evolves]

theorem rampStart_evolves (n : Nat) (fields : List (Nat × Nat × Nat)) (hs : Evolves s₀ s) : Evolves s₀ (rampStart n fields s) := by
  grind [rampStart, Evolves.update]

theorem noteVisit_evolves (n k : Nat) (hs : Evolves s₀ s) : Evolves s₀ (noteVisit n k s) := by
  grind [noteVisit, Evolves.update]

theorem stepAbort_evolves (hs : Evolves s₀ s) : Evolves s₀ (stepAbort s) := by
  grind [stepAbort, incS_evolves, raise0_evolves]

theorem ucsPut_evolves (n : Nat) (l : List Nat) (hs : Evolves s₀ s) : Evolves s₀ (ucsPut n l s) := by
  grind [ucsPut, Evolves.update]

theorem noteUcmd_evolves (n u : Nat) (hs : Evolves s₀ s) : Evolves s₀ (noteUcmd n u s) := by
  grind [noteUcmd, ucsPut_evolves]

theorem abandonStep_evolves (n : Nat) (hs : Evolves s₀ s) : Evolves s₀ (abandonStep n s) := by
  grind [abandonStep, noteVisit_evolves, stepAbort_evolves, ucsPut_evolves]

/-! Waves. -/

theorem refuseWave_evolves (moves : List EMove) (close : Bool) (hs : Evolves s₀ s) : Evolves s₀ (refuseWave moves close s) := by
  grind [refuseWave, Evolves.foldl, Evolves.refl, raise_evolves, wrWord_evolves]

theorem assignBank_evolves (k : Nat) (hs : Evolves s₀ s) : Evolves s₀ (assignBank k s) := by
  grind [assignBank, Evolves.update, bankPut_evolves]

theorem armWave_evolves (dom t0 start : Nat) (units : List (Nat × SUnit)) (hs : Evolves s₀ s) :
    Evolves s₀ (armWave dom t0 start units s).2 := by
  grind [armWave, Evolves.update, Evolves.foldl, Evolves.refl, abandonStep_evolves, assignBank_evolves, refuseWave_evolves,
    reshed_evolves]

theorem retarget_evolves (m : EMove) (hs : Evolves s₀ s) : Evolves s₀ (retarget m s) := by
  unfold retarget
  extract_lets e s' w ext s1 s2 s3 x
  have h1 : Evolves s₀ s1 := by
    iterate 11 apply wr_evolves
    exact corrApply_evolves _ hs
  have h2 : Evolves s₀ s2 := by
    iterate 6 apply wr_evolves
    exact h1
  have h3 : Evolves s₀ s3 := .foldl (fun _ _ => wr_evolves _ _ _ .refl) h2
  exact h3.update le_rfl le_rfl

theorem retargetHeld_evolves (m : EMove) (hs : Evolves s₀ s) : Evolves s₀ (retargetHeld m s) := by
  grind [retargetHeld, retarget_evolves, wr_evolves]

theorem voaCommand_evolves (l t : Nat) (hs : Evolves s₀ s) : Evolves s₀ (voaCommand l t s) := by
  grind [voaCommand, Evolves.update, wr_evolves]

theorem openVoa_evolves (p : Nat × Nat) (hs : Evolves s₀ s) : Evolves s₀ (openVoa p s) := by
  unfold openVoa
  extract_lets s0 s1 s2 s3 x
  have h0 : Evolves s₀ s0 := corrApply_evolves _ hs
  have h1 : Evolves s₀ s1 := wr_evolves _ _ _ (wr_evolves _ _ _ (wr_evolves _ _ _ h0))
  have h2 : Evolves s₀ s2 := wr_evolves _ _ _ (wr_evolves _ _ _ (voaCommand_evolves _ _ h1))
  have h3 : Evolves s₀ s3 := .foldl (fun _ _ => wr_evolves _ _ _ .refl) h2
  exact .ite hs (h3.update le_rfl le_rfl)

theorem blockVoa_evolves (l : Nat) (hs : Evolves s₀ s) : Evolves s₀ (blockVoa l s) := by
  grind [blockVoa, voaCommand_evolves, wr_evolves]

theorem showFlags_evolves (o : Nat) (hs : Evolves s₀ s) : Evolves s₀ (showFlags o s) := by
  grind [showFlags, wr_evolves]

theorem dropRepair_evolves (n : Nat) (r : Option Route) (hs : Evolves s₀ s) : Evolves s₀ (dropRepair n r s) := by
  grind [dropRepair, Evolves.update]

theorem putConn_evolves (n : Nat) (r : Option Route) (hs : Evolves s₀ s) : Evolves s₀ (putConn n r s) := by
  unfold putConn
  extract_lets s1
  have h1 : Evolves s₀ s1 := dropRepair_evolves _ _ hs
  clear_value s1
  split
  next =>
    exact showFlags_evolves _ (.foldl (fun _ _ => wr_evolves _ _ _ (wr_evolves _ _ _ .refl)) (wr_evolves _ _ _ (wr_evolves _ _ _ (wr_evolves _ _ _ h1))))
  next x =>
    extract_lets s2 s3 s4
    have h2 : Evolves s₀ s2 := wr_evolves _ _ _ (wr_evolves _ _ _ h1)
    have h3 : Evolves s₀ s3 := .ite (wr_evolves _ _ _ h2) h2
    exact showFlags_evolves _ (wr_evolves _ _ _ (wr_evolves _ _ _ (wr_evolves _ _ _ (wr_evolves _ _ _ h3))))

theorem countMove_evolves (c : Chg) (hs : Evolves s₀ s) : Evolves s₀ (countMove c s) := by
  grind [countMove, incS_evolves]

theorem loseElems_evolves (l : List Nat) (hs : Evolves s₀ s) : Evolves s₀ (loseElems l s) := by
  grind [loseElems, Evolves.foldl, Evolves.refl, setMapBit_evolves, setRepairs_evolves]

theorem declareFailed_evolves (e : Nat) (hs : Evolves s₀ s) : Evolves s₀ (declareFailed e s) := by
  grind [declareFailed, clearElem_evolves, loseElems_evolves, raise_evolves, wr_evolves]

theorem noteRound_evolves (e : Nat) (mism hres : Bool) (hs : Evolves s₀ s) : Evolves s₀ (noteRound e mism hres s) := by
  grind [noteRound, Evolves.update]

theorem execReadbackVisit_evolves (bank latched vh : Nat) : EvolvesTo s (execReadbackVisit bank latched vh s) := by
  refine .next (.ite .refl ?_)
  extract_lets b i e d seen mism s0 k cur hres comp again w s1 c s2 s3 s5 s4
  have h1 : Evolves s s1 := wr_evolves _ _ _ (wr_evolves _ _ _ (wr_evolves _ _ _ (wr_evolves _ _ _ (wr_evolves _ _ _ (bankPut_evolves _ _ (wrWord_evolves _ _ .refl))))))
  have h2 : Evolves s s2 := .ite (raise_evolves _ _ _ h1) h1
  have h3 : Evolves s s3 := .ite (raise_evolves _ _ _ h2) h2
  have h5 : Evolves s s5 := .ite (raise_evolves _ _ _ h3) h3
  have h4 : Evolves s s4 := .ite h5 (noteRound_evolves _ _ _ h5)
  exact .ite (declareFailed_evolves _ h4) h4

/-! The solver. -/

theorem noteSolve_evolves (tenths bound : Nat) (hs : Evolves s₀ s) : Evolves s₀ (noteSolve tenths bound s) := by
  unfold noteSolve
  extract_lets s1 s2
  have h1 : Evolves s₀ s1 := wr_evolves _ _ _ hs
  have h2 : Evolves s₀ s2 := .ite (wr_evolves _ _ _ h1) h1
  exact .ite (raise0_evolves _ _ h2) h2

/-! The placement of waves. -/

theorem rsStatus_evolves (bit : Nat) (hs : Evolves s₀ s) : Evolves s₀ (rsStatus bit s) := by
  grind [rsStatus, raise0_evolves]

theorem shiftOne_evolves (e : Ev) (hs : Evolves s₀ s) : Evolves s₀ (shiftOne e s) := by
  grind [shiftOne, Evolves.update, evGoto_evolves, evSet_evolves, evStatus_evolves, finalise_evolves, showEv_evolves]

theorem shiftLater_evolves (aseq : Nat) (hs : Evolves s₀ s) : Evolves s₀ (shiftLater aseq s) := by
  grind [shiftLater, Evolves.foldl, Evolves.refl, shiftOne_evolves]

theorem placeEv_evolves (e : Ev) (hs : Evolves s₀ s) : Evolves s₀ (placeEv e s) := by
  grind [placeEv, Evolves.update, evGoto_evolves, evStatus_evolves, finalise_evolves, rsStatus_evolves, shiftLater_evolves]

theorem placeReady_evolves (hs : Evolves s₀ s) : Evolves s₀ (placeReady s) := by
  grind [placeReady, Evolves.foldl, Evolves.refl, placeEv_evolves]

/-! The event commands. -/

theorem acceptEvent_evolves (okA okB : Bool) (session sseq : Nat) (r : EvReq) (v : Nat × Nat × List Nat) (extra : List Nat)
    (hs : Evolves s₀ s) : Evolves s₀ (acceptEvent okA okB session sseq r v extra s) := by
  unfold acceptEvent
  extract_lets a jn s0 s1 tab e new s2
  have h0 : Evolves s₀ s0 := hs.update le_rfl (Nat.le_succ _)
  clear_value s0
  have h1 : Evolves s₀ s1 := wr_evolves _ _ _ (commitV_evolves _ _ _ _ _ _ _ _ h0)
  clear_value s1
  have hn : Evolves s₀ new := allocTab_evolves h1
  clear_value new
  have h2 : Evolves s₀ s2 := hn.update le_rfl le_rfl
  exact showPending_evolves (showEv_evolves _ _ h2)

theorem noteFull_evolves (reason : Nat) (hs : Evolves s₀ s) : Evolves s₀ (noteFull reason s) := by
  grind [noteFull, evStatus_evolves]

theorem groupReady_evolves (e : Ev) (hs : Evolves s₀ s) : Evolves s₀ (groupReady e s) := by
  grind [groupReady, notifyTo_evolves]

theorem takeSol_evolves (e : Ev) (rep : List (Nat × Nat)) (x : Sol) (hs : Evolves s₀ s) : Evolves s₀ (takeSol e rep x s) := by
  grind [takeSol, Evolves.update, evGoto_evolves, groupReady_evolves]

theorem failSol_evolves (e : Ev) (reason : Nat) (hs : Evolves s₀ s) : Evolves s₀ (failSol e reason s) := by
  grind [failSol, finalise_evolves, rsStatus_evolves]

theorem solveEv_evolves (e : Ev) (cands : List Cand) (exhausted : Bool) (tenths : Nat) (hs : Evolves s₀ s) :
    Evolves s₀ (solveEv e cands exhausted tenths s) := by
  grind [solveEv, failSol_evolves, finalise_evolves, noteSolve_evolves, takeSol_evolves]

theorem execSolveComplete_evolves (cands : List Cand) (exhausted : Bool) (tenths : Nat) :
    EvolvesTo s (execSolveComplete cands exhausted tenths s) := by
  grind [execSolveComplete, Evolves.next, Evolves.refl, Evolves.update, placeReady_evolves, solveEv_evolves]

theorem armEvents_evolves (dom t0 start : Nat) (es : List Ev) (hs : Evolves s₀ s) : Evolves s₀ (armEvents dom t0 start es s) := by
  grind [armEvents, Evolves.update, Evolves.foldl, Evolves.refl, armWave_evolves, evGoto_evolves, evSet_evolves, finalise_evolves,
    placeReady_evolves]

theorem execWaveArm_evolves (aseq : Nat) : EvolvesTo s (execWaveArm aseq s) := by
  grind [execWaveArm, Evolves.next, Evolves.refl, Evolves.update, armEvents_evolves, armWave_evolves, setRepairs_evolves,
    shiftOne_evolves]

theorem startMoves_evolves (l : List EMove) (hs : Evolves s₀ s) : Evolves s₀ (startMoves l s).1 := by
  refine .foldl_fst (fun a m => ?_) hs
  have hk : Evolves a.1 (kickStart m a.1).2 := kickStart_evolves _ .refl
  grind [retarget_evolves, retargetHeld_evolves, Evolves.refl]

theorem applyChg_evolves (c : Chg) (hs : Evolves s₀ s) : Evolves s₀ (applyChg c s) := by
  grind [applyChg, blockVoa_evolves, countMove_evolves, putConn_evolves]

theorem repairChg_evolves (c : Chg) (hs : Evolves s₀ s) : Evolves s₀ (repairChg c s) := by
  grind [repairChg, applyChg_evolves, setRepairs_evolves]

theorem noteLastWave_evolves (no : Nat) (started : List Nat) (hs : Evolves s₀ s) : Evolves s₀ (noteLastWave no started s) := by
  grind [noteLastWave, Evolves.foldl, Evolves.refl, wr_evolves]

theorem creditEv_evolves (w : Wave) (bad : List (Nat × Chg)) (e : Ev) (hs : Evolves s₀ s) : Evolves s₀ (creditEv w bad e s) := by
  grind [creditEv, Evolves.update, evSet_evolves, showEv_evolves]

theorem failEvents_evolves (l : List Nat) (hs : Evolves s₀ s) : Evolves s₀ (failEvents l s) := by
  grind [failEvents, Evolves.foldl, Evolves.refl, finalise_evolves]

theorem startWave_evolves (w : Wave) (hs : Evolves s₀ s) : Evolves s₀ (startWave w s) := by
  unfold startWave
  extract_lets r chgs bad lost no s1 s2 good s3 shut s4 s5 rep s6 s7 s7' s8
  have hr : Evolves s₀ r.1 := startMoves_evolves _ hs
  have h1 : Evolves s₀ s1 := wr_evolves _ _ _ (noteLastWave_evolves _ _ hr)
  have h2 : Evolves s₀ s2 := h1.update le_rfl le_rfl
  have h3 : Evolves s₀ s3 := .foldl (fun _ _ => applyChg_evolves _ .refl) h2
  have h4 : Evolves s₀ s4 := .foldl (fun _ _ => openVoa_evolves _ .refl) h3
  have h5 : Evolves s₀ s5 := commit_evolves _ _ _ _ _ _ h4
  have h6 : Evolves s₀ s6 := .ite h5 (commit_evolves _ _ _ _ _ _ h5)
  have h7 : Evolves s₀ s7 := .foldl (fun _ _ => repairChg_evolves _ .refl) h6
  have h7' : Evolves s₀ s7' := .foldl (fun _ _ => showFlags_evolves _ .refl) h7
  have h8 : Evolves s₀ s8 := .foldl (fun _ _ => creditEv_evolves _ _ _ .refl) h7'
  exact .ite (failEvents_evolves _ (.foldl (fun _ _ => repairChg_evolves _ .refl) hr)) (failEvents_evolves _ h8)

theorem execWaveStart_evolves : EvolvesTo s (execWaveStart s) := by
  refine .next ?_
  split
  next => exact .refl
  next => exact leaveNow_evolves (placeReady_evolves (reshed_evolves (startWave_evolves _ (Evolves.refl.update le_rfl le_rfl))))

theorem applyRestated_evolves (e : Ev) (hs : Evolves s₀ s) : Evolves s₀ (applyRestated e s) := by
  grind [applyRestated, Evolves.foldl, Evolves.refl, setRepairs_evolves, wr_evolves]

theorem execEventDone_evolves (aseq : Nat) : EvolvesTo s (execEventDone aseq s) := by
  grind [execEventDone, Evolves.next, Evolves.refl, applyRestated_evolves, finalise_evolves, placeReady_evolves]

theorem execEventDeadlineExpiry_evolves (aseq : Nat) : EvolvesTo s (execEventDeadlineExpiry aseq s) := by
  grind [execEventDeadlineExpiry, Evolves.next, Evolves.refl, finalise_evolves, placeReady_evolves]

theorem execDeferralLimitExpiry_evolves (aseq : Nat) : EvolvesTo s (execDeferralLimitExpiry aseq s) := by
  grind [execDeferralLimitExpiry, Evolves.next, Evolves.refl, finalise_evolves, placeReady_evolves]

theorem sendEcho_evolves (body : List Nat) (hs : Evolves s₀ s) : Evolves s₀ (sendEcho body s) := by
  grind [sendEcho, Evolves.update, Evolves.foldl, Evolves.refl, enqueue_evolves]

theorem noteCommit_evolves (okA okB : Bool) (session type seq sig : Nat) (e : Ev) (hs : Evolves s₀ s) :
    Evolves s₀ (noteCommit okA okB session type seq sig e s) := by
  grind [noteCommit, Evolves.update, commitV_evolves, evSet_evolves, sendEcho_evolves]

theorem commitGroup_evolves (okA okB : Bool) (session type seq sig : Nat) (e : Ev) (hs : Evolves s₀ s) :
    Evolves s₀ (commitGroup okA okB session type seq sig e s) := by
  grind [commitGroup, noteCommit_evolves, placeReady_evolves]

theorem execCommitEcho_evolves (port gid members instant : Nat) (sig : GSig) :
    EvolvesTo s (execCommitEcho port gid members instant sig s) := by
  grind [execCommitEcho, Evolves.next, Evolves.refl, commitGroup_evolves, incS_evolves, raise0_evolves, takeRing_evolves]

theorem execGroupCommitCutoff_evolves (aseq : Nat) : EvolvesTo s (execGroupCommitCutoff aseq s) := by
  grind [execGroupCommitCutoff, Evolves.next, Evolves.refl, finalise_evolves, placeReady_evolves]

theorem leaveUnrouted_evolves (wait : List Nat) (d : Nat) (hs : Evolves s₀ s) : Evolves s₀ (leaveUnrouted wait d s) := by
  grind [leaveUnrouted, blockVoa_evolves, putConn_evolves, rsStatus_evolves, wr_evolves]

theorem execRepairSolve_evolves (cands : List Cand) (tenths : Nat) : EvolvesTo s (execRepairSolve cands tenths s) := by
  refine .next (.ite .refl ?_)
  extract_lets s' ds f ok t0
  have h0 : Evolves s t0 := rsStatus_evolves _ (noteSolve_evolves _ _ (requeueRepairs_evolves _ .refl))
  split
  next => exact h0
  next c _ =>
    extract_lets plan wait left s1 s2 s3
    have h1 : Evolves s s1 := .foldl (fun _ _ => leaveUnrouted_evolves _ _ .refl) (setRepairs_evolves _ h0)
    have h2 : Evolves s s2 := .ite h1 (commit_evolves _ _ _ _ _ _ h1)
    have h3 : Evolves s s3 := setRepairs_evolves _ (h2.update le_rfl le_rfl)
    exact keepAndResolve_evolves h3

theorem execReoptimisation_evolves (out : Nat) : EvolvesTo s (execReoptimisation out s) := by
  refine .next (.ite .refl ?_)
  extract_lets d
  split
  next => exact .refl
  next t _ =>
    extract_lets r
    split
    next => exact .refl
    next v _ =>
      extract_lets s1
      have h1 : Evolves s s1 := acceptEvent_evolves _ _ _ _ _ _ _ .refl
      clear_value s1
      exact h1.update le_rfl le_rfl

theorem moveWaves_evolves (e : Ev) (hs : Evolves s₀ s) : Evolves s₀ (moveWaves e s) := by
  grind [moveWaves, Evolves.update, evGoto_evolves, evStatus_evolves, finalise_evolves, shiftLater_evolves]

theorem lateOne_evolves (e : Ev) (hs : Evolves s₀ s) : Evolves s₀ (lateOne e s) := by
  grind [lateOne, Evolves.update, evGoto_evolves, evStatus_evolves, moveWaves_evolves, shiftLater_evolves]

theorem lateWhere_evolves (p : Ev → Bool) (hs : Evolves s₀ s) : Evolves s₀ (lateWhere p s) := by
  grind [lateWhere, Evolves.foldl, Evolves.refl, lateOne_evolves]

theorem lateEvents_evolves (hs : Evolves s₀ s) : Evolves s₀ (lateEvents s) := by
  grind [lateEvents, lateWhere_evolves]

/-! The clock. -/

theorem usableNow_evolves (d : Nat) (hs : Evolves s₀ s) : Evolves s₀ (usableNow d s) := by
  grind [usableNow, lateWhere_evolves, placeReady_evolves]

theorem execDomainEstimate_evolves (dom : Nat) (offset : Int) (cls : Nat) : EvolvesTo s (execDomainEstimate dom offset cls s) := by
  unfold execDomainEstimate
  grind [Evolves.next, Evolves.refl, Evolves.update, domSet_evolves, servoPut_evolves, usableNow_evolves, wrS_evolves, wr_evolves]

theorem execEpochReached_evolves (dom : Nat) : EvolvesTo s (execEpochReached dom s) := by
  grind [execEpochReached, Evolves.next, Evolves.refl, rcRestart_evolves, usableNow_evolves]

/-! Sensors. -/

theorem slpTrip_evolves (c n : Nat) (hs : Evolves s₀ s) : Evolves s₀ (slpTrip c n s) := by
  grind [slpTrip, Evolves.update, chanPut_evolves, inc_evolves, snapTrigger_evolves]

theorem watchSlp_evolves (n p : Nat) (hs : Evolves s₀ s) : Evolves s₀ (watchSlp n p s) := by
  grind [watchSlp, Evolves.update, slpTrip_evolves]

theorem rangeDue_evolves (n : Nat) (hs : Evolves s₀ s) : Evolves s₀ (rangeDue n s) := by
  grind [rangeDue, Evolves.update]

theorem rangeRule_evolves (n raw g1 : Nat) (hs : Evolves s₀ s) : Evolves s₀ (rangeRule n raw g1 s) := by
  grind [rangeRule, Evolves.update, rangeDue_evolves]

theorem readCorr_evolves (n : Nat) (hs : Evolves s₀ s) : Evolves s₀ (readCorr n s) := by
  grind [readCorr, Evolves.update, injParity_evolves, raise_evolves]

theorem sampleCounts_evolves (n due fi : Nat) (clip valid : Bool) (hs : Evolves s₀ s) : Evolves s₀ (sampleCounts n due fi clip valid s)
    := by
  grind [sampleCounts, Evolves.update]

theorem latchSample_evolves (n raw : Nat) (clip : Bool) (hs : Evolves s₀ s) : Evolves s₀ (latchSample n raw clip s) := by
  grind [latchSample, raise_evolves, rangeRule_evolves, readCorr_evolves, sampleCounts_evolves, wrWord_evolves, wr_evolves]

theorem tapRecord_evolves (n : Nat) (hs : Evolves s₀ s) : Evolves s₀ (tapRecord n s) := by
  grind [tapRecord, gather_evolves]

theorem overCheck_evolves (n pw : Nat) (hs : Evolves s₀ s) : Evolves s₀ (overCheck n pw s) := by
  grind [overCheck, lightPut_evolves, notifyAll_evolves, raise0_evolves, setMapBit_evolves]

theorem totalCheck_evolves (hs : Evolves s₀ s) : Evolves s₀ (totalCheck s) := by
  grind [totalCheck, Evolves.update, notifyAll_evolves, raise0_evolves]

theorem losSet_evolves (k : Nat) (v : Bool) (hs : Evolves s₀ s) : Evolves s₀ (losSet k v s) := by
  grind [losSet, Evolves.update, notifyAll_evolves, setMapBit_evolves]

theorem losHold_evolves (k : Nat) (hs : Evolves s₀ s) : Evolves s₀ (losHold k s) := by
  grind [losHold, lightPut_evolves, losSet_evolves]

theorem losStep_evolves (k pw : Nat) (hs : Evolves s₀ s) : Evolves s₀ (losStep k pw s) := by
  grind [losStep, lightPut_evolves, losSet_evolves]

theorem losSample_evolves (k : Nat) (p : Nat × Bool) (hs : Evolves s₀ s) : Evolves s₀ (losSample k p s) := by
  grind [losSample, losHold_evolves, losStep_evolves]

theorem inputBoundary_evolves (n : Nat) (hs : Evolves s₀ s) : Evolves s₀ (inputBoundary n s) := by
  grind [inputBoundary, losSample_evolves, overCheck_evolves, settleP_evolves, totalCheck_evolves]

theorem outputBoundary_evolves (n p : Nat) (hs : Evolves s₀ s) : Evolves s₀ (outputBoundary n p s) := by
  grind [outputBoundary, losHold_evolves, losSample_evolves, settleP_evolves, watchSlp_evolves]

theorem settleS_evolves (n : Nat) (hs : Evolves s₀ s) : Evolves s₀ (settleS n s) := by
  grind [settleS, Evolves.update, settle_evolves]

theorem execSensorSample_evolves (sensor : Nat) (bits : Option Nat) (clip : Bool) : EvolvesTo s (execSensorSample sensor bits clip s)
    := by
  unfold execSensorSample
  refine .next (.ite .refl ?_)
  split
  · exact settleS_evolves _ (raise_evolves _ _ _ (Evolves.refl.update le_rfl le_rfl))
  next w =>
    extract_lets s1 s2 p n
    have h1 : Evolves s s1 := settleS_evolves _ (latchSample_evolves _ _ _ .refl)
    have h2 : Evolves s s2 := tapRecord_evolves _ h1
    exact .ite h1 (.ite (outputBoundary_evolves _ _ h2) (.ite (inputBoundary_evolves _ h2) h2))

theorem execComparatorCrossing_evolves (comp : Nat) : EvolvesTo s (execComparatorCrossing comp s) := by
  grind [execComparatorCrossing, Evolves.next, Evolves.refl, Evolves.update, slpTrip_evolves]

/-! Loops. -/

theorem failCluster_evolves (c : Nat) (hs : Evolves s₀ s) : Evolves s₀ (failCluster c s) := by
  grind [failCluster, Evolves.update, degOn_evolves, raise0_evolves, reshed_evolves, wr_evolves]

theorem execClusterFail_evolves (cluster : Nat) : EvolvesTo s (execClusterFail cluster s) := by
  grind [execClusterFail, Evolves.next, Evolves.refl, failCluster_evolves, modeTick_evolves]

theorem clustersWhole_evolves (hs : Evolves s₀ s) : Evolves s₀ (clustersWhole s) := by
  grind [clustersWhole, Evolves.foldl, Evolves.refl, degOff_evolves]

theorem execClusterOwnershipReturn_evolves (cluster : Nat) : EvolvesTo s (execClusterOwnershipReturn cluster s) := by
  grind [execClusterOwnershipReturn, Evolves.next, Evolves.refl, Evolves.update, clustersWhole_evolves, modeTick_evolves,
    reshed_evolves]

theorem retireEngine_evolves (e : Nat) (c : Cause) (hs : Evolves s₀ s) : Evolves s₀ (retireEngine e c s) := by
  unfold retireEngine
  dsimp only
  split_ifs <;> grind [degOn_evolves, failCluster_evolves, raise_evolves, reshed_evolves, wr_evolves]

theorem lxPut_evolves (n : Nat) (x : LoopX) (hs : Evolves s₀ s) : Evolves s₀ (lxPut s n x) := by
  grind [lxPut, Evolves.update]

theorem sPut_evolves (n i : Nat) (v : Int) (hs : Evolves s₀ s) : Evolves s₀ (sPut n i v s) := by
  grind [sPut, wrS_evolves]

theorem ffAdvance_evolves (n : Nat) (hs : Evolves s₀ s) : Evolves s₀ (ffAdvance n s) := by
  grind [ffAdvance, wrS_evolves]

theorem binPut_evolves (n b : Nat) (v : Int) (hs : Evolves s₀ s) : Evolves s₀ (binPut n b v s) := by
  grind [binPut, wrS_evolves]

theorem playback_evolves (n : Nat) (hs : Evolves s₀ s) : Evolves s₀ (playback s n).2 := by
  grind [playback, binPut_evolves, injParity_evolves, wrWord_evolves]

theorem learn_evolves (n : Nat) (e : Int) (hs : Evolves s₀ s) : Evolves s₀ (learn n e s) := by
  grind [learn, binPut_evolves]

theorem evalGroup_evolves (n : Nat) (hs : Evolves s₀ s) : Evolves s₀ (evalGroup n s) := by
  grind [evalGroup, wr_evolves]

theorem startRamp_evolves (n : Nat) (hs : Evolves s₀ s) : Evolves s₀ (startRamp n s) := by
  grind [startRamp, wr_evolves]

theorem tauStep_evolves (n : Nat) (hs : Evolves s₀ s) : Evolves s₀ (tauStep n s) := by
  grind [tauStep, wr_evolves]

theorem markSuspect_evolves (n : Nat) (hs : Evolves s₀ s) : Evolves s₀ (markSuspect n s) := by
  grind [markSuspect, Evolves.foldl, Evolves.refl, notifyAll_evolves, setMapBit_evolves, showFlags_evolves]

theorem countPl_evolves (n : Nat) (bad : Option Bool) (hs : Evolves s₀ s) : Evolves s₀ (countPl n bad s) := by
  grind [countPl, markSuspect_evolves, wr_evolves]

theorem showFrz_evolves (n : Nat) (hs : Evolves s₀ s) : Evolves s₀ (showFrz n s) := by
  grind [showFrz, Evolves.foldl, Evolves.refl, showFlags_evolves]

theorem loopGo_evolves (n eng : Nat) (q : Nat × Nat) (hs : Evolves s₀ s) : Evolves s₀ (loopGo n eng q s) := by
  grind [loopGo, notifyAll_evolves, raise_evolves, reshed_evolves, showFrz_evolves, startRamp_evolves, wr_evolves]

theorem sendCmd_evolves (n u : Nat) (dh : Int) (hs : Evolves s₀ s) : Evolves s₀ (sendCmd n u dh s) := by
  grind [sendCmd, Evolves.update, driveCmd_evolves, lxPut_evolves, noteUcmd_evolves, voaCommand_evolves, wrS_evolves, wr_evolves]

theorem holdCmd_evolves (n : Nat) (hs : Evolves s₀ s) : Evolves s₀ (holdCmd n s) := by
  grind [holdCmd, Evolves.update, lxPut_evolves, sendCmd_evolves]

theorem closedGood_evolves (n : Nat) (hs : Evolves s₀ s) : Evolves s₀ (closedGood n s).2 := by
  unfold closedGood
  grind [Evolves.update, Evolves.foldl, Evolves.refl, countPl_evolves, learn_evolves, lxPut_evolves, playback_evolves, sPut_evolves,
    sendCmd_evolves, wrS_evolves, wr_evolves]

theorem closedMove_evolves (n : Nat) (hs : Evolves s₀ s) : Evolves s₀ (closedMove n s) := by
  grind [closedMove, Evolves.update, countPl_evolves, lxPut_evolves, playback_evolves, sendCmd_evolves]

theorem closedBad_evolves (n : Nat) (hs : Evolves s₀ s) : Evolves s₀ (closedBad n s) := by
  grind [closedBad, countPl_evolves, sendCmd_evolves]

theorem frozenUpd_evolves (n : Nat) (u : Use) (hs : Evolves s₀ s) : Evolves s₀ (frozenUpd n u s) := by
  grind [frozenUpd, countPl_evolves, sendCmd_evolves]

theorem noteGood_evolves (n : Nat) (u : Use) (hs : Evolves s₀ s) : Evolves s₀ (noteGood n u s) := by
  grind [noteGood, Evolves.update, lxPut_evolves]

theorem countSamples_evolves (n : Nat) (u : Use) (hs : Evolves s₀ s) : Evolves s₀ (countSamples n u s) := by
  unfold countSamples
  grind [noteGood_evolves, wr_evolves]

theorem takeRate_evolves (n : Nat) (hs : Evolves s₀ s) : Evolves s₀ (takeRate n s) := by
  grind [takeRate, Evolves.update, wr_evolves]

theorem settleL_evolves (n : Nat) (hs : Evolves s₀ s) : Evolves s₀ (settleL n s) := by
  grind [settleL, Evolves.update, settle_evolves]

theorem loopRecord_evolves (n : Nat) (e : Int) (hs : Evolves s₀ s) : Evolves s₀ (loopRecord n e s) := by
  grind [loopRecord, gatherAt_evolves]

theorem checkUpdate_evolves (residueOk : Bool) (hs : Evolves s₀ s) : Evolves s₀ (checkUpdate residueOk s).2 := by
  grind [checkUpdate, injHit_evolves]

theorem updateLoop_evolves (n eng : Nat) (hs : Evolves s₀ s) : Evolves s₀ (updateLoop n eng s) := by
  unfold updateLoop
  extract_lets s0 u live s1 s2 st s2b s3 r s4 trip
  have h0 : Evolves s₀ s0 := settleL_evolves _ (rampTick_evolves _ hs)
  have h1 : Evolves s₀ s1 := .ite (countSamples_evolves _ _ h0) h0
  have h2 : Evolves s₀ s2 := loopGo_evolves _ _ _ h1
  have h2b : Evolves s₀ s2b := .ite (countSamples_evolves _ _ h2) h2
  have h3 : Evolves s₀ s3 := .ite h2b (ffAdvance_evolves _ h2b)
  have hr : Evolves s₀ r.2 := by
    unfold r
    split_ifs
    · exact h3
    · exact holdCmd_evolves _ h3
    · exact frozenUpd_evolves _ _ h3
    · cases u with
      | good => exact closedGood_evolves _ h3
      | move => exact closedMove_evolves _ h3
      | bad => exact closedBad_evolves _ h3
  have h4 : Evolves s₀ s4 := .ite (tauStep_evolves _ hr) hr
  exact takeRate_evolves _ (loopRecord_evolves _ _ (.ite (loopGo_evolves _ _ _ h4) h4))

theorem execLoopUpdate_evolves (loop engine : Nat) (residueOk : Bool) : EvolvesTo s (execLoopUpdate loop engine residueOk s) := by
  unfold execLoopUpdate
  grind [Evolves.next, Evolves.refl, Evolves.update, checkUpdate_evolves, evalGroup_evolves, modeTick_evolves, noteUpdate_evolves,
    raise_evolves, retireEngine_evolves, updateLoop_evolves, wrWord_evolves]

theorem entryFor_evolves (n : Nat) (use : Option (Route × Nat)) (hs : Evolves s₀ s) : Evolves s₀ (entryFor n use s) := by
  unfold entryFor
  extract_lets words s1 st refs w
  have h1 : Evolves s₀ s1 := .foldl (fun _ _ => mergeWord_evolves _ _ _ .refl) hs
  refine .ite (wr_evolves _ _ _ h1) ?_
  iterate 8 apply wr_evolves
  exact h1

theorem rebuildEntry_evolves (n : Nat) (hs : Evolves s₀ s) : Evolves s₀ (rebuildEntry n s) := by
  grind [rebuildEntry, entryFor_evolves]

theorem execLoopEntryRewrite_evolves (loop : Nat) : EvolvesTo s (execLoopEntryRewrite loop s) := by
  grind [execLoopEntryRewrite, Evolves.next, Evolves.refl, Evolves.update, loopGo_evolves, rebuildEntry_evolves]

/-! Path quality. -/

theorem refreshElem_evolves (e : Nat) (hs : Evolves s₀ s) : Evolves s₀ (refreshElem e s) := by
  grind [refreshElem, Evolves.update]

theorem refreshPath_evolves (live : List Nat) (n p : Nat) (hs : Evolves s₀ s) : Evolves s₀ (refreshPath live n p s) := by
  grind [refreshPath, Evolves.update, wrS_evolves, wr_evolves]

theorem execPathQualityRefresh_evolves : EvolvesTo s (execPathQualityRefresh s) := by
  grind [execPathQualityRefresh, Evolves.next, Evolves.refl, Evolves.foldl, refreshElem_evolves, refreshPath_evolves]

/-! Rules and schedules. -/

theorem noteInstant_evolves (r t : Nat) (hs : Evolves s₀ s) : Evolves s₀ (noteInstant r t s) := by
  grind [noteInstant, Evolves.update]

theorem submitPlan_evolves {t : State} (sseq : Nat) (r : EvReq) (extra : List Nat) (hs : Evolves s₀ s)
    (ht : submitPlan sseq r extra s = .ok t) : Evolves s₀ t := by
  grind [submitPlan, acceptEvent_evolves]

theorem planReject_evolves (num reason : Nat) (hs : Evolves s₀ s) : Evolves s₀ (planReject num reason s) := by
  grind [planReject, commit_evolves, noteFull_evolves, notifyAll_evolves, raise0_evolves]

theorem startSched_evolves (x : Nat) (hs : Evolves s₀ s) : Evolves s₀ (startSched x s) := by
  unfold startSched
  grind [Evolves.update, claimPorts_evolves, commit_evolves, displace_evolves, rcRestart_evolves, wr_evolves]

theorem execScheduleStop_evolves (sched : Nat) : EvolvesTo s (execScheduleStop sched s) := by
  grind [execScheduleStop, Evolves.next, Evolves.refl, stopSched_evolves]

theorem submitStep_evolves (x i : Nat) (hs : Evolves s₀ s) : Evolves s₀ (submitStep x i s) := by
  unfold submitStep
  extract_lets d n f p s1 r
  have h1 : Evolves s₀ s1 := hs.update le_rfl le_rfl
  split
  next ht => exact (submitPlan_evolves _ _ _ h1 ht).update le_rfl le_rfl
  next z _ =>
    have h2 := planReject_evolves x z h1
    exact .ite (stopSched_evolves _ _ h2) h2

theorem dueStep_evolves (x : Nat) (hs : Evolves s₀ s) : Evolves s₀ (dueStep x s) :=
  .ite hs (.ite (submitStep_evolves _ _ hs) hs)

theorem execScheduleStepSubmit_evolves (sched : Nat) : EvolvesTo s (execScheduleStepSubmit sched s) := by
  grind [execScheduleStepSubmit, Evolves.next, Evolves.refl, Evolves.foldl, dueStep_evolves]

theorem ruleState_evolves (r st : Nat) (hs : Evolves s₀ s) : Evolves s₀ (ruleState r st s) := by
  grind [ruleState, commit_evolves, rulesFrom_evolves, wr_evolves]

theorem fireMap_evolves (r due : Nat) (hs : Evolves s₀ s) : Evolves s₀ (fireMap r due s) := by
  unfold fireMap
  extract_lets ports s1 sseq
  have h1 : Evolves s₀ s1 := .ite (claimPorts_evolves _ _ (wr_evolves _ _ _ (displace_evolves _ hs))) hs
  split
  next ht => exact notifyAll_evolves _ _ (submitPlan_evolves _ _ _ h1 ht)
  next => exact planReject_evolves _ _ h1

theorem ruleAction_evolves (r due : Nat) (hs : Evolves s₀ s) : Evolves s₀ (ruleAction r due s) := by
  grind [ruleAction, fireMap_evolves, modeTickBy_evolves, notifyAll_evolves, startSched_evolves, stopSched_evolves, wr_evolves]

theorem fireRule_evolves (r due : Nat) (hs : Evolves s₀ s) : Evolves s₀ (fireRule r due s) := by
  unfold fireRule
  dsimp only
  split_ifs <;> grind [inc_evolves, raise0_evolves, ruleAction_evolves, ruleState_evolves]

theorem missRule_evolves (r t : Nat) (hs : Evolves s₀ s) : Evolves s₀ (missRule r t s) := by
  grind [missRule, commit_evolves, noteInstant_evolves, raise0_evolves]

theorem evalRule_evolves (rule : Nat) (hs : Evolves s₀ s) : Evolves s₀ (evalRule rule s) := by
  grind [evalRule, Evolves.update, fireRule_evolves, missRule_evolves, noteInstant_evolves]

theorem planBefore_evolves (r : Nat) (hs : Evolves s₀ s) : Evolves s₀ (planBefore r s) := by
  grind [planBefore, Evolves.foldl, Evolves.refl, dueStep_evolves, evalRule_evolves]

theorem execRuleFire_evolves (rule : Nat) : EvolvesTo s (execRuleFire rule s) := by
  grind [execRuleFire, Evolves.next, Evolves.refl, evalRule_evolves, planBefore_evolves]

theorem execTrigEdge_evolves (pin : Nat) (rising : Bool) : EvolvesTo s (execTrigEdge pin rising s) := by
  grind [execTrigEdge, Evolves.next, Evolves.refl, Evolves.update]

theorem execRuleHoldoffExpiry_evolves (rule : Nat) : EvolvesTo s (execRuleHoldoffExpiry rule s) := by
  grind [execRuleHoldoffExpiry, Evolves.next, Evolves.refl, releaseRule_evolves, ruleState_evolves]

theorem rearm_evolves (r : Nat) (hs : Evolves s₀ s) : Evolves s₀ (rearm r s) := by
  grind [rearm, releaseRule_evolves, ruleState_evolves]

theorem releaseWrite_evolves (r : Nat) (hs : Evolves s₀ s) : Evolves s₀ (releaseWrite r s) := by
  grind [releaseWrite, commit_evolves, releaseRule_evolves]

theorem enableRule_evolves (r : Nat) (on : Bool) (hs : Evolves s₀ s) : Evolves s₀ (enableRule r on s) := by
  grind [enableRule, Evolves.update, ruleState_evolves, wr_evolves]

theorem losAfresh_evolves (hs : Evolves s₀ s) : Evolves s₀ (losAfresh s) := by
  grind [losAfresh, Evolves.update]

theorem losResume_evolves (hs : Evolves s₀ s) : Evolves s₀ (losResume s) := by
  grind [losResume, Evolves.update]

/-! The safety channels. -/

theorem guardUpd_evolves (c x : Nat) (f : Guard → Guard) (hs : Evolves s₀ s) : Evolves s₀ (guardUpd c x f s) := by
  grind [guardUpd, chanPut_evolves]

theorem adopt_evolves (c : Nat) (hs : Evolves s₀ s) : Evolves s₀ (adopt c s) := by
  grind [adopt, Evolves.update, Evolves.foldl, Evolves.refl, chanPut_evolves]

theorem keepGrant_evolves (c : Nat) (hs : Evolves s₀ s) : Evolves s₀ (keepGrant c s) := by
  grind [keepGrant, Evolves.update, chanPut_evolves]

theorem latchSdp_evolves (c : Nat) (hs : Evolves s₀ s) : Evolves s₀ (latchSdp c s) := by
  grind [latchSdp, Evolves.update, Evolves.foldl, Evolves.refl, chanPut_evolves]

theorem applyDemands_evolves (c : Nat) (sos : Bool) (hs : Evolves s₀ s) : Evolves s₀ (applyDemands c sos s) := by
  grind [applyDemands, Evolves.update, chanPut_evolves, clrSet_evolves, inc_evolves, snapTrigger_evolves, wr_evolves]

theorem signalPwr_evolves (c : Nat) (sos : Bool) (hs : Evolves s₀ s) : Evolves s₀ (signalPwr c sos s) := by
  grind [signalPwr, modeTickBy_evolves, wr_evolves]

theorem evalChan_evolves (c : Nat) (hs : Evolves s₀ s) : Evolves s₀ (evalChan c s) := by
  unfold evalChan
  extract_lets v s1 sos
  have h1 : Evolves s₀ s1 := latchSdp_evolves _ (keepGrant_evolves _ (adopt_evolves _ hs))
  exact .ite hs (.ite (chanPut_evolves _ _ hs) (leaveNow_evolves (signalPwr_evolves _ _ (applyDemands_evolves _ _ h1))))

theorem execGarnetCycle_evolves : EvolvesTo s (execGarnetCycle s) := by
  grind [execGarnetCycle, Evolves.next, Evolves.refl, evalChan_evolves, incS_evolves]

theorem mirrorGuard_evolves (x : Nat) (hs : Evolves s₀ s) : Evolves s₀ (mirrorGuard s x) := by
  grind [mirrorGuard, wrWord_evolves]

theorem mirrorOut_evolves (y : Nat) (hs : Evolves s₀ s) : Evolves s₀ (mirrorOut s y) := by
  grind [mirrorOut, wrWord_evolves]

theorem mirror_evolves (hs : Evolves s₀ s) : Evolves s₀ (mirror s) := by
  unfold mirror
  extract_lets s1 a b ok pins s2 tel s3 dk tr
  have h1 : Evolves s₀ s1 :=
    .foldl (fun _ _ => mirrorOut_evolves _ .refl) (.foldl (fun _ _ => mirrorGuard_evolves _ .refl) hs)
  have h2 : Evolves s₀ s2 := wrWord_evolves _ _ (wrWord_evolves _ _ (wrWord_evolves _ _ (wrWord_evolves _ _ h1)))
  have h3 : Evolves s₀ s3 := wrWord_evolves _ _ (wrWord_evolves _ _ (wrWord_evolves _ _ h2))
  exact .foldl (fun _ _ => wrWord_evolves _ _ (wrWord_evolves _ _ .refl)) h3

theorem settleGuard_evolves (c x : Nat) (hs : Evolves s₀ s) : Evolves s₀ (settleGuard c x s) := by
  grind [settleGuard, Evolves.update, guardUpd_evolves]

theorem settleAll_evolves (c : Nat) (hs : Evolves s₀ s) : Evolves s₀ (settleAll c s) := by
  grind [settleAll, Evolves.foldl, Evolves.refl, settleGuard_evolves]

theorem deliver_evolves (c : Nat) (periodic : Bool) (hs : Evolves s₀ s) : Evolves s₀ (deliver c periodic s) := by
  grind [deliver, Evolves.update, chanPut_evolves, raise0_evolves]

theorem relink_evolves (c : Nat) (hs : Evolves s₀ s) : Evolves s₀ (relink c s) := by
  grind [relink, Evolves.update, chanPut_evolves]

theorem takeReads_evolves (r : Reads) (hs : Evolves s₀ s) : Evolves s₀ (takeReads r s) := by
  grind [takeReads, Evolves.update, chanPut_evolves, raise0_evolves]

theorem sendState_evolves (r : Reads) (periodic : Bool) (hs : Evolves s₀ s) : Evolves s₀ (sendState r periodic s) := by
  grind [sendState, deliver_evolves, settleAll_evolves, takeReads_evolves]

theorem execXlinkPeriodicMsg_evolves (sender : Reads) : EvolvesTo s (execXlinkPeriodicMsg sender s) := by
  grind [execXlinkPeriodicMsg, Evolves.next, Evolves.refl, mirror_evolves, relink_evolves, sendState_evolves]

theorem execXlinkChangeMsg_evolves (sender : Reads) : EvolvesTo s (execXlinkChangeMsg sender s) := by
  grind [execXlinkChangeMsg, Evolves.next, Evolves.refl, adopt_evolves, sendState_evolves]

theorem holdCause_evolves (c bit : Nat) (hs : Evolves s₀ s) : Evolves s₀ (holdCause c bit s) := by
  grind [holdCause, Evolves.update, chanPut_evolves]

theorem execCrossCheckFault_evolves (chan item : Nat) : EvolvesTo s (execCrossCheckFault chan item s) := by
  grind [execCrossCheckFault, Evolves.next, Evolves.refl, Evolves.update, chanPut_evolves, holdCause_evolves, raise0_evolves,
    wr_evolves]

theorem execGuardContactChange_evolves (input pin : Nat) (level : Bool) : EvolvesTo s (execGuardContactChange input pin level s) := by
  grind [execGuardContactChange, Evolves.next, Evolves.refl, Evolves.update, guardUpd_evolves]

theorem execGuardFilterExpiry_evolves (chan input pin : Nat) : EvolvesTo s (execGuardFilterExpiry chan input pin s) := by
  grind [execGuardFilterExpiry, Evolves.next, Evolves.refl, Evolves.update, guardUpd_evolves, settleGuard_evolves]

theorem discStep_evolves (c x : Nat) (hs : Evolves s₀ s) : Evolves s₀ (discStep c x s) := by
  grind [discStep, Evolves.update, guardUpd_evolves, notifyAll_evolves, raise0_evolves]

theorem execDiscrepancyTick_evolves (chan : Nat) : EvolvesTo s (execDiscrepancyTick chan s) := by
  grind [execDiscrepancyTick, Evolves.next, Evolves.refl, Evolves.foldl, discStep_evolves]

theorem blankFor_evolves (tpb : Bool) (hs : Evolves s₀ s) : Evolves s₀ (blankFor tpb s) := by
  grind [blankFor, Evolves.update]

theorem execTpaPulse_evolves : EvolvesTo s (execTpaPulse s) := by
  grind [execTpaPulse, Evolves.next, Evolves.refl, Evolves.update, blankFor_evolves, raise0_evolves]

theorem execTpbPulse_evolves : EvolvesTo s (execTpbPulse s) := by
  grind [execTpbPulse, Evolves.next, Evolves.refl, Evolves.update, blankFor_evolves, raise0_evolves]

theorem execTpaLoss_evolves : EvolvesTo s (execTpaLoss s) := by
  grind [execTpaLoss, Evolves.next, Evolves.refl, raise0_evolves]

theorem checkGuard_evolves (c x : Nat) (tpb : Bool) (levels : List Bool) (hs : Evolves s₀ s) : Evolves s₀ (checkGuard c x tpb levels s)
    := by
  grind [checkGuard, Evolves.update, guardUpd_evolves, holdCause_evolves, raise0_evolves, settleGuard_evolves]

theorem execTestPulseCheck_evolves (pulse : Nat) (levels : List Bool) : EvolvesTo s (execTestPulseCheck pulse levels s) := by
  grind [execTestPulseCheck, Evolves.next, Evolves.refl, Evolves.update, Evolves.foldl, checkGuard_evolves]

theorem execStartupOpenTestRestore_evolves (levels : List Bool) : EvolvesTo s (execStartupOpenTestRestore levels s) := by
  refine .next ?_
  extract_lets high one s1
  have hone (c : Nat) {t : State} (ht : Evolves s t) : Evolves s (one c t) := by
    unfold one
    extract_lets v fails t1 t2 t3
    have h1 : Evolves s t1 := .foldl (fun _ _ => guardUpd_evolves _ _ _ .refl) ht
    have h2 : Evolves s t2 := .foldl (fun _ _ => guardUpd_evolves _ _ _ .refl) h1
    have h3 : Evolves s t3 := .ite h2 (raise0_evolves _ _ (holdCause_evolves _ _ h2))
    exact .ite ht (chanPut_evolves _ _ h3)
  exact wr_evolves _ _ _ (hone 1 (hone 0 .refl))

theorem outputFault_evolves (c y : Nat) (hs : Evolves s₀ s) : Evolves s₀ (outputFault c y s) := by
  grind [outputFault, Evolves.update, chanPut_evolves, holdCause_evolves, raise0_evolves, wr_evolves]

theorem execSoReadbackFault_evolves (chan output : Nat) : EvolvesTo s (execSoReadbackFault chan output s) := by
  grind [execSoReadbackFault, Evolves.next, Evolves.refl, outputFault_evolves]

theorem abandonTest_evolves (c y : Nat) (hs : Evolves s₀ s) : Evolves s₀ (abandonTest c y s) := by
  grind [abandonTest, Evolves.update, chanPut_evolves, inc_evolves, wr_evolves]

theorem execOutputTestStart_evolves (chan output : Nat) : EvolvesTo s (execOutputTestStart chan output s) := by
  grind [execOutputTestStart, Evolves.next, Evolves.refl, Evolves.update, abandonTest_evolves, chanPut_evolves]

theorem execOutputTestPass_evolves (chan : Nat) : EvolvesTo s (execOutputTestPass chan s) := by
  grind [execOutputTestPass, Evolves.next, Evolves.refl, Evolves.update, abandonTest_evolves, chanPut_evolves, inc_evolves, wr_evolves]

theorem execOutputTestTimeout_evolves (chan : Nat) : EvolvesTo s (execOutputTestTimeout chan s) := by
  grind [execOutputTestTimeout, Evolves.next, Evolves.refl, abandonTest_evolves, outputFault_evolves]

theorem execVsafeFault_evolves (chan : Nat) : EvolvesTo s (execVsafeFault chan s) := by
  grind [execVsafeFault, Evolves.next, Evolves.refl, Evolves.update, chanPut_evolves, raise0_evolves]

theorem execVsafeRecover_evolves (chan : Nat) : EvolvesTo s (execVsafeRecover chan s) := by
  grind [execVsafeRecover, Evolves.next, Evolves.refl, Evolves.update, chanPut_evolves]

theorem execSrstNPressStart_evolves (chan : Nat) : EvolvesTo s (execSrstNPressStart chan s) := by
  grind [execSrstNPressStart, Evolves.next, Evolves.refl, Evolves.update, chanPut_evolves]

theorem execSrstNPressRelease_evolves (chan ms : Nat) : EvolvesTo s (execSrstNPressRelease chan ms s) := by
  grind [execSrstNPressRelease, Evolves.next, Evolves.refl, Evolves.update, chanPut_evolves, raise0_evolves]

theorem execSrstNAcceptTimeout_evolves (chan : Nat) : EvolvesTo s (execSrstNAcceptTimeout chan s) := by
  grind [execSrstNAcceptTimeout, Evolves.next, Evolves.refl, Evolves.update, chanPut_evolves, raise0_evolves]

theorem pressChan_evolves (c : Nat) (hs : Evolves s₀ s) : Evolves s₀ (pressChan c s) := by
  grind [pressChan, Evolves.update, Evolves.foldl, Evolves.refl, chanPut_evolves]

theorem rehear_evolves (hs : Evolves s₀ s) : Evolves s₀ (rehear s) := by
  grind [rehear, deliver_evolves]

theorem unforce_evolves (hs : Evolves s₀ s) : Evolves s₀ (unforce s) := by
  grind [unforce, Evolves.update, clrRelease_evolves]

theorem stopOver_evolves (hs : Evolves s₀ s) : Evolves s₀ (stopOver s) := by
  grind [stopOver, enterMode_evolves, unforce_evolves, wr_evolves]

theorem execDeliberateReset_evolves : EvolvesTo s (execDeliberateReset s) := by
  unfold execDeliberateReset
  grind [Evolves.next, Evolves.refl, evalChan_evolves, pressChan_evolves, rehear_evolves, stopOver_evolves]

theorem execMaintNChange_evolves (chan : Nat) (level : Bool) : EvolvesTo s (execMaintNChange chan level s) := by
  grind [execMaintNChange, Evolves.next, Evolves.refl, Evolves.update, chanPut_evolves, evalChan_evolves, wr_evolves]

theorem execDarkVerify_evolves (chan port : Nat) (dark : Bool) : EvolvesTo s (execDarkVerify chan port dark s) := by
  grind [execDarkVerify, Evolves.next, Evolves.refl, Evolves.update, chanPut_evolves, holdCause_evolves]

theorem execLockoutCauseClear_evolves (chan cause : Nat) : EvolvesTo s (execLockoutCauseClear chan cause s) := by
  grind [execLockoutCauseClear, Evolves.next, Evolves.refl, Evolves.update, Evolves.foldl, chanPut_evolves, wr_evolves]

theorem countA_evolves (c : Nat) (F : Fld) (hs : Evolves s₀ s) : Evolves s₀ (countA c F s) := by
  grind [countA, inc_evolves]

theorem acceptPair_evolves (c : Nat) (v : Chan) (b : List Nat) (hs : Evolves s₀ s) : Evolves s₀ (acceptPair c v b s) := by
  grind [acceptPair, Evolves.update, chanPut_evolves, inc_evolves, wr_evolves]

theorem pairCopy_evolves (c port : Nat) (b : List Nat) (hs : Evolves s₀ s) : Evolves s₀ (pairCopy c port b s) := by
  grind [pairCopy, Evolves.update, acceptPair_evolves, chanPut_evolves, countA_evolves]

theorem execTelegramCopyRx_evolves (chan port : Nat) (bytes : List Nat) : EvolvesTo s (execTelegramCopyRx chan port bytes s) := by
  grind [execTelegramCopyRx, Evolves.next, Evolves.refl, countA_evolves, evalChan_evolves, pairCopy_evolves, ringSet_evolves]

theorem execTelegramPartnerTimeout_evolves (chan : Nat) : EvolvesTo s (execTelegramPartnerTimeout chan s) := by
  grind [execTelegramPartnerTimeout, Evolves.next, Evolves.refl, Evolves.update, chanPut_evolves, countA_evolves]

theorem execTelegramWatchdogExpiry_evolves (chan : Nat) : EvolvesTo s (execTelegramWatchdogExpiry chan s) := by
  grind [execTelegramWatchdogExpiry, Evolves.next, Evolves.refl, Evolves.update, chanPut_evolves, countA_evolves, evalChan_evolves]

theorem execStatusTelegramTx_evolves : EvolvesTo s (execStatusTelegramTx s) := by
  grind [execStatusTelegramTx, Evolves.next, Evolves.refl, Evolves.update, enqueue_evolves]

theorem execSafetyChannelClockLoss_evolves (chan : Nat) : EvolvesTo s (execSafetyChannelClockLoss chan s) := by
  grind [execSafetyChannelClockLoss, Evolves.next, Evolves.refl, Evolves.update, chanPut_evolves]

/-! Islands and temperatures. -/

theorem logEvent_evolves (kind isl sensor : Nat) (temp : Int) (hs : Evolves s₀ s) : Evolves s₀ (logEvent kind isl sensor temp s) := by
  grind [logEvent, Evolves.foldl, Evolves.refl, crcHit_evolves, wrWord_evolves, wr_evolves]

theorem logIsland_evolves (kind i : Nat) (hs : Evolves s₀ s) : Evolves s₀ (logIsland kind i s) := by
  grind [logIsland, logEvent_evolves]

theorem loseCells_evolves (i : Nat) (hs : Evolves s₀ s) : Evolves s₀ (loseCells i s) := by
  exact (hs.dropDrv fun e => decide (i < 28) && loopOf i e).update le_rfl le_rfl

theorem mpStops_evolves (hs : Evolves s₀ s) : Evolves s₀ (mpStops s) := by
  grind [mpStops, Evolves.update]

theorem islandEffects_evolves (i : Nat) (hs : Evolves s₀ s) : Evolves s₀ (islandEffects i s) := by
  unfold islandEffects
  grind [Evolves.update, Evolves.foldl, Evolves.refl, domSet_evolves, failCluster_evolves, loseCells_evolves, loseElems_evolves,
    mpStops_evolves, requeueRepairs_evolves, slpTrip_evolves]

theorem noteLost_evolves (i : Nat) (hs : Evolves s₀ s) : Evolves s₀ (noteLost i s) := by
  grind [noteLost, Evolves.update]

theorem noteBack_evolves (i : Nat) (hs : Evolves s₀ s) : Evolves s₀ (noteBack i s) := by
  grind [noteBack, Evolves.update]

theorem islandDown_evolves (i st : Nat) (hs : Evolves s₀ s) : Evolves s₀ (islandDown i st s) := by
  have h0 : Evolves s₀ (if i = 1 ∨ i = 7 then saveHist s else s) := .ite (saveHist_evolves hs) hs
  exact settle_evolves (reshed_evolves (.mapRegs _ (noteLost_evolves i (wr_evolves _ _ _ (islandEffects_evolves i h0)))))

theorem restoreWords_evolves (i : Nat) (hs : Evolves s₀ s) : Evolves s₀ (restoreWords i s) := by
  grind [restoreWords, Evolves.foldl, Evolves.refl, fieldHooks_evolves, mergeWord_evolves, wrWord_evolves]

theorem reportElems_evolves (hs : Evolves s₀ s) : Evolves s₀ (reportElems s) := by
  grind [reportElems, Evolves.foldl, Evolves.refl, setRepairs_evolves, wrWord_evolves]

theorem retryRoutes_evolves (hs : Evolves s₀ s) : Evolves s₀ (retryRoutes s) := by
  grind [retryRoutes, setRepairs_evolves]

theorem showMacs_evolves (hs : Evolves s₀ s) : Evolves s₀ (showMacs s) := by
  grind [showMacs, Evolves.foldl, Evolves.refl, wr_evolves]

theorem islandUp_evolves (i : Nat) (hs : Evolves s₀ s) : Evolves s₀ (islandUp i s) := by
  unfold islandUp
  extract_lets
  split <;> grind [Evolves.update, Evolves.foldl, Evolves.refl, bankPut_evolves, clearRings_evolves, enableDomains_evolves,
    entryFor_evolves, mpStops_evolves, reportElems_evolves, restoreWords_evolves, showMacs_evolves, wrWord_evolves, wr_evolves]

theorem showShed_evolves (hs : Evolves s₀ s) : Evolves s₀ (showShed s) := by
  grind [showShed, wr_evolves]

theorem execIslandBackInService_evolves (island engines : Nat) : EvolvesTo s (execIslandBackInService island engines s) := by
  refine .next (.ite .refl ?_)
  extract_lets s1 modes therm s2 s3
  have h1 : Evolves s s1 := noteBack_evolves _ (degOff_evolves _ (raise0_evolves _ _ (wr_evolves _ _ _ .refl)))
  have h2 : Evolves s s2 := showShed_evolves (h1.update le_rfl le_rfl)
  have h3 : Evolves s s3 :=
    .ite (wr_evolves _ _ _ h2) (.ite (retryRoutes_evolves (.foldl (fun _ _ => setMapBit_evolves _ _ _ .refl) h2)) h2)
  exact modeTick_evolves h3

theorem beginRestart_evolves (i : Nat) (hs : Evolves s₀ s) : Evolves s₀ (beginRestart i s) := by
  grind [beginRestart, islandUp_evolves, logIsland_evolves]

theorem restartFail_evolves (i : Nat) (hs : Evolves s₀ s) : Evolves s₀ (restartFail i s) := by
  grind [restartFail, logIsland_evolves, raise0_evolves]

theorem restartWrite_evolves (i : Nat) (hs : Evolves s₀ s) : Evolves s₀ (restartWrite i s) := by
  grind [restartWrite, beginRestart_evolves, wr_evolves]

theorem execIslandRestartAttempt_evolves (island : Nat) (ok : Bool) : EvolvesTo s (execIslandRestartAttempt island ok s) := by
  grind [execIslandRestartAttempt, Evolves.next, Evolves.refl, Evolves.update, beginRestart_evolves, restartFail_evolves]

theorem execAutoSuspendExpiry_evolves (island : Nat) : EvolvesTo s (execAutoSuspendExpiry island s) := by
  grind [execAutoSuspendExpiry, Evolves.next, Evolves.refl, wr_evolves]

theorem execIslandRequalifyRestart_evolves (island : Nat) : EvolvesTo s (execIslandRequalifyRestart island s) := by
  grind [execIslandRequalifyRestart, Evolves.next, Evolves.refl, islandDown_evolves, islandUp_evolves, modeTick_evolves]

theorem noteSteady_evolves (hs : Evolves s₀ s) : Evolves s₀ (noteSteady s) := by
  grind [noteSteady, Evolves.update]

theorem calPark_evolves (hs : Evolves s₀ s) : Evolves s₀ (calPark s) := by
  grind [calPark, Evolves.foldl, Evolves.refl, clearBank_evolves]

theorem nextPhase_evolves (hs : Evolves s₀ s) : Evolves s₀ (nextPhase s) := by
  grind [nextPhase, Evolves.update, calPark_evolves, wr_evolves]

theorem showPhase_evolves (hs : Evolves s₀ s) : Evolves s₀ (showPhase s) := by
  grind [showPhase, Evolves.update, wr_evolves]

theorem runPhases_evolves (hs : Evolves s₀ s) : Evolves s₀ (runPhases s) := by
  grind [runPhases, nextPhase_evolves, noteSteady_evolves, showPhase_evolves]

theorem sensorRound_evolves (old : State) (all : List (Option Int)) (x : Nat) (hs : Evolves s₀ s) :
    Evolves s₀ (sensorRound old all x s) := by
  grind [sensorRound, Evolves.update, logEvent_evolves, raise0_evolves, wrWord_evolves]

theorem islandRound_evolves (i : Nat) (hs : Evolves s₀ s) : Evolves s₀ (islandRound i s) := by
  grind [islandRound, logIsland_evolves, raise0_evolves, wrWord_evolves]

theorem stopRun_evolves (res : Nat) (hs : Evolves s₀ s) : Evolves s₀ (stopRun res s) := by
  unfold stopRun
  dsimp only
  split_ifs <;> grind [Evolves.update, enterMode_evolves, lateEvents_evolves, modeTick_evolves, wr_evolves]

theorem suspendHk_evolves (hs : Evolves s₀ s) : Evolves s₀ (suspendHk s) := by
  unfold suspendHk
  grind [raise0_evolves, stopRun_evolves, wr_evolves]

theorem noteShed_evolves (i : Nat) (hs : Evolves s₀ s) : Evolves s₀ (noteShed i s) := by
  grind [noteShed, Evolves.update, logIsland_evolves, raise0_evolves, wr_evolves]

theorem shedIsland_evolves (i : Nat) (hs : Evolves s₀ s) : Evolves s₀ (shedIsland i s) := by
  unfold shedIsland
  extract_lets s1 m1 s2 s3 s4 m5 s5
  have h1 : Evolves s₀ s1 := raise0_evolves _ _ (logIsland_evolves _ _ hs)
  have h2 : Evolves s₀ s2 := .ite (restartFail_evolves _ h1) h1
  have h3 : Evolves s₀ s3 := raise0_evolves _ _ (incS_evolves _ _ h2)
  have h4 : Evolves s₀ s4 := .ite (suspendHk_evolves h3) (islandDown_evolves _ _ h3)
  have h5 : Evolves s₀ s5 := noteShed_evolves _ (h4.update le_rfl le_rfl)
  exact .ite (noteShed_evolves _ (h1.update le_rfl le_rfl)) (wr_evolves _ _ _ h5)

theorem latchIsland_evolves (i : Nat) (hs : Evolves s₀ s) : Evolves s₀ (latchIsland i s) := by
  unfold latchIsland
  extract_lets s1 s2 modes
  have h1 : Evolves s₀ s1 := holdCause_evolves _ _ (holdCause_evolves _ _ (raise0_evolves _ _ (raise0_evolves _ _ (logIsland_evolves _ _ hs))))
  have h2 : Evolves s₀ s2 := islandDown_evolves _ _ h1
  exact wr_evolves _ _ _ (h2.update le_rfl le_rfl)

theorem limitRound_evolves (i : Nat) (hs : Evolves s₀ s) : Evolves s₀ (limitRound i s) := by
  grind [limitRound, Evolves.update, latchIsland_evolves, shedIsland_evolves]

theorem autoRestart_evolves (i : Nat) (hs : Evolves s₀ s) : Evolves s₀ (autoRestart i s) := by
  grind [autoRestart, beginRestart_evolves]

theorem thermRecord_evolves (x : Nat) (hs : Evolves s₀ s) : Evolves s₀ (thermRecord x s) := by
  grind [thermRecord, gather_evolves]

theorem execThermalRoundPublish_evolves (counts : List Nat) : EvolvesTo s (execThermalRoundPublish counts s) := by
  refine .next ?_
  extract_lets s1 s2 s3 s4
  have h1 : Evolves s s1 := .foldl (fun _ _ => sensorRound_evolves _ _ _ .refl) (inc_evolves _ _ .refl)
  have h2 : Evolves s s2 := .foldl (fun _ _ => islandRound_evolves _ .refl) h1
  have h3 : Evolves s s3 := .foldl (fun _ _ => limitRound_evolves _ .refl) h2
  have h4 : Evolves s s4 := runPhases_evolves (.foldl (fun _ _ => autoRestart_evolves _ .refl) h3)
  exact modeTick_evolves (.foldl (fun _ _ => thermRecord_evolves _ .refl) h4)

theorem pcvRecord_evolves (e : Nat) (hs : Evolves s₀ s) : Evolves s₀ (pcvRecord e s) := by
  grind [pcvRecord, gather_evolves]

theorem crpdReading_evolves (p : Nat) (c : Int) (unsettled : Bool) (hs : Evolves s₀ s) : Evolves s₀ (crpdReading p c unsettled s) := by
  unfold crpdReading
  dsimp only
  split_ifs <;> grind [raise0_evolves, stopRun_evolves, wrS_evolves, wr_evolves]

theorem setptConversion_evolves (ch : Nat) (ok : Bool) (c : Int) (hs : Evolves s₀ s) : Evolves s₀ (setptConversion ch ok c s) := by
  grind [setptConversion, setptTake_evolves]

theorem pcvConvert_evolves (entry : Nat) (raw : Int) (hs : Evolves s₀ s) : Evolves s₀ (pcvConvert entry raw s) := by
  grind [pcvConvert, Evolves.update, crpdReading_evolves, pcvRecord_evolves, raise0_evolves, setptConversion_evolves, wrWord_evolves]

theorem execPcvConversion_evolves (entry : Nat) (raw : Int) : EvolvesTo s (execPcvConversion entry raw s) := by
  grind [execPcvConversion, Evolves.next, Evolves.refl, pcvConvert_evolves]

theorem execSetptMeasurement_evolves (input a b : Nat) : EvolvesTo s (execSetptMeasurement input a b s) := by
  grind [execSetptMeasurement, Evolves.next, Evolves.refl, pcvConvert_evolves, setptTake_evolves]

theorem execSetptLosTimeout_evolves (input : Nat) : EvolvesTo s (execSetptLosTimeout input s) := by
  grind [execSetptLosTimeout, Evolves.next, Evolves.refl, setptLos_evolves, setptPut_evolves, setptShow_evolves]

theorem execRefxCheck_evolves (raw : Int) : EvolvesTo s (execRefxCheck raw s) := by
  grind [execRefxCheck, Evolves.next, Evolves.refl, Evolves.update, raise0_evolves, wr_evolves]

theorem execRefOkSet_evolves : EvolvesTo s (execRefOkSet s) := by
  grind [execRefOkSet, Evolves.next, Evolves.refl, Evolves.update, wr_evolves]

/-! Reset, load and calibration runs. -/

theorem enterReset_evolves (porst supplies : Bool) (hs : Evolves s₀ s) : Evolves s₀ (enterReset porst supplies s) := by
  unfold enterReset
  extract_lets fl hist cause latched src modes jn new n s1 s2 s3
  have h0 : Evolves s₀ new :=
    (hs.filterRegs fun c => keptWord porst c.1).noDrv.update le_rfl le_rfl
  have h1 : Evolves s₀ s1 := wr_evolves _ _ _ (wr_evolves _ _ _ h0)
  have h2 : Evolves s₀ s2 := .foldl (fun _ _ => wr_evolves _ _ _ .refl) h1
  have h3 : Evolves s₀ s3 := .ite h2 (wr_evolves _ _ _ h2)
  exact .ite (clrSet_evolves 3 h3) h3

theorem execPorstNAssert_evolves : EvolvesTo s (execPorstNAssert s) := by
  grind [execPorstNAssert, Evolves.next, Evolves.refl, enterReset_evolves]

theorem showWords_evolves (l : List (Nat × Nat)) (hs : Evolves s₀ s) : Evolves s₀ (showWords l s) := by
  grind [showWords, Evolves.foldl, Evolves.refl, mergeWord_evolves]

theorem loadWords_evolves (l : List (Nat × Nat)) (hs : Evolves s₀ s) : Evolves s₀ (loadWords l s) := by
  grind [loadWords, Evolves.foldl, Evolves.refl, mergeWord_evolves]

theorem showOtp_evolves (hs : Evolves s₀ s) : Evolves s₀ (showOtp s) := by
  grind [showOtp, showWords_evolves, wr_evolves]

theorem latchOtp_evolves (hs : Evolves s₀ s) : Evolves s₀ (latchOtp s) := by
  grind [latchOtp, showOtp_evolves, wr_evolves]

theorem dropTried_evolves (hs : Evolves s₀ s) : Evolves s₀ (dropTried s) := by
  grind [dropTried, Evolves.foldl, Evolves.refl, setSlot_evolves]

theorem loadChannel_evolves (c : Nat) (im : Image) (hs : Evolves s₀ s) : Evolves s₀ (loadChannel c im s) := by
  grind [loadChannel, Evolves.update, Evolves.foldl, Evolves.refl, chanPut_evolves, raise0_evolves]

theorem showRecord_evolves (r : CalRec × Nat) (hs : Evolves s₀ s) : Evolves s₀ (showRecord r s) := by
  grind [showRecord, wr_evolves]

theorem setModel_evolves (e : Nat) (hs : Evolves s₀ s) : Evolves s₀ (setModel e s) := by
  grind [setModel, wr_evolves]

theorem restoreMark_evolves (x : Nat) (hs : Evolves s₀ s) : Evolves s₀ (restoreMark x s) := by
  grind [restoreMark, setMapBit_evolves, wr_evolves]

theorem putRecord_evolves (r : CalRec) (hs : Evolves s₀ s) : Evolves s₀ (putRecord r s) := by
  grind [putRecord, Evolves.update, Evolves.foldl, Evolves.refl, putCal_evolves, restoreMark_evolves, setMapBit_evolves,
    setModel_evolves]

theorem loadRecord_evolves (im : Image) (hs : Evolves s₀ s) : Evolves s₀ (loadRecord im s) := by
  grind [loadRecord, putRecord_evolves, showRecord_evolves]

theorem loadKeys_evolves (im : Image) (hs : Evolves s₀ s) : Evolves s₀ (loadKeys im s) := by
  grind [loadKeys, Evolves.foldl, Evolves.refl, wrWord_evolves, wr_evolves]

theorem showImage_evolves (b : Bool) (im : Image) (hs : Evolves s₀ s) : Evolves s₀ (showImage b im s) := by
  grind [showImage, Evolves.update, wrWord_evolves, wr_evolves]

theorem loadPlan_evolves (im : Image) (hs : Evolves s₀ s) : Evolves s₀ (loadPlan im s) := by
  grind [loadPlan, Evolves.foldl, Evolves.refl, wrWord_evolves, wr_evolves]

theorem applyImage_evolves (b : Bool) (im : Image) (hs : Evolves s₀ s) : Evolves s₀ (applyImage b im s) := by
  unfold applyImage
  extract_lets words s1 s2 s3 s4
  have h1 : Evolves s₀ s1 := showWords_evolves _ (loadWords_evolves _ (showImage_evolves _ _ hs))
  have h2 : Evolves s₀ s2 := h1.update le_rfl le_rfl
  have h3 : Evolves s₀ s3 := loadRecord_evolves _ (loadKeys_evolves _ (loadPlan_evolves _ (loadChannel_evolves _ _ (loadChannel_evolves _ _ h2))))
  have h4 : Evolves s₀ s4 := .foldl (fun _ _ => bankPut_evolves _ _ .refl) h3
  exact fieldHooks_evolves _ _ (wr_evolves _ _ _ (clearRings_evolves _ (clearRings_evolves _ h4)))

theorem tryLoad_evolves (l : List Bool) (first : Bool) (hs : Evolves s₀ s) : Evolves s₀ (tryLoad l first s) := by
  induction l generalizing s first with
  | nil => exact hs.update le_rfl le_rfl
  | cons b l ih =>
    grind [tryLoad, applyImage_evolves, setTrial_evolves, setSlot_evolves, raise_evolves, wr_evolves]

theorem startLoad_evolves (hs : Evolves s₀ s) : Evolves s₀ (startLoad s) := by
  unfold startLoad
  extract_lets s1 s2
  have h1 : Evolves s₀ s1 := latchOtp_evolves (enterMode_evolves _ _ hs)
  have h2 : Evolves s₀ s2 := dropTried_evolves (wr_evolves _ _ _ (wr_evolves _ _ _ h1))
  exact .ite (enterMode_evolves _ _ hs) (tryLoad_evolves _ _ h2)

theorem execPorstNRelease_evolves (mid : Nat) (supplies : Bool) (otp : Option Otp) (flash : Option Flash) :
    EvolvesTo s (execPorstNRelease mid supplies otp flash s) := by
  grind [execPorstNRelease, Evolves.next, Evolves.refl, Evolves.update, startLoad_evolves, wr_evolves]

theorem execPwrInternalReset_evolves (supplies : Bool) : EvolvesTo s (execPwrInternalReset supplies s) := by
  grind [execPwrInternalReset, Evolves.next, Evolves.refl, Evolves.update, enterReset_evolves, startLoad_evolves]

theorem execLoadComplete_evolves (ms : Nat) : EvolvesTo s (execLoadComplete ms s) := by
  grind [execLoadComplete, Evolves.next, Evolves.refl, enableDomains_evolves, enterMode_evolves, holdCause_evolves, wr_evolves]

theorem execMidStrapChange_evolves (mid : Nat) : EvolvesTo s (execMidStrapChange mid s) := by
  grind [execMidStrapChange, Evolves.next, Evolves.refl, raise0_evolves]

theorem execDarkCheck_evolves : EvolvesTo s (execDarkCheck s) := by
  grind [execDarkCheck, Evolves.next, Evolves.refl, Evolves.update]

theorem confirmSlot_evolves (b : Bool) (hs : Evolves s₀ s) : Evolves s₀ (confirmSlot b s) := by
  unfold confirmSlot
  extract_lets s1 h s2
  have h1 : Evolves s₀ s1 := setSlot_evolves _ _ (.ite (setSlot_evolves _ _ hs) hs)
  refine .ite hs ?_
  split
  next => exact h1
  next =>
    extract_lets s3
    have hh : Evolves s₀ h.2 := injHit_evolves _ _ h1
    have h2 : Evolves s₀ s2 := .ite hh (raise_evolves _ _ _ hh)
    have h3 : Evolves s₀ s3 := showOtp_evolves (h2.update le_rfl le_rfl)
    exact .ite h3 (commit_evolves _ _ _ _ _ _ h3)

theorem execDarkRelease_evolves : EvolvesTo s (execDarkRelease s) := by
  refine .next (.ite ?_ .refl)
  extract_lets s1
  have h1 : Evolves s s1 := losResume_evolves (lateEvents_evolves (enterMode_evolves _ _ (clrRelease_evolves _ .refl)))
  exact confirmSlot_evolves _ (h1.update le_rfl le_rfl)

theorem execCalRunStart_evolves : EvolvesTo s (execCalRunStart s) := by
  grind [execCalRunStart, Evolves.next, Evolves.refl, startRun_evolves]

theorem execMpWatchdogExpiry_evolves : EvolvesTo s (execMpWatchdogExpiry s) := by
  grind [execMpWatchdogExpiry, Evolves.next, Evolves.refl, degOn_evolves, islandUp_evolves, modeTick_evolves, raise0_evolves]

theorem channelLost_evolves (i : Nat) (hs : Evolves s₀ s) : Evolves s₀ (channelLost i s) := by
  grind [channelLost, wr_evolves]

theorem execIslandSupplyFault_evolves (island : Nat) : EvolvesTo s (execIslandSupplyFault island s) := by
  refine .next (.ite .refl ?_)
  extract_lets s1 s2 k th s3
  have h1 : Evolves s s1 := raise0_evolves _ _ (logIsland_evolves _ _ .refl)
  refine .ite (enterReset_evolves _ _ h1) ?_
  have h2 : Evolves s s2 := inc_evolves _ _ (islandDown_evolves _ _ h1)
  exact modeTick_evolves (channelLost_evolves _ (degOn_evolves _ (h2.update le_rfl le_rfl)))

/-! What a calibration run measures. -/

theorem heatAt_evolves (l : List (Nat × Nat)) (hs : Evolves s₀ s) : Evolves s₀ (heatAt l s) := by
  grind [heatAt, Evolves.foldl, Evolves.refl, wrWord_evolves]

theorem suspectMark_evolves (x : Nat) (hs : Evolves s₀ s) : Evolves s₀ (suspectMark x s) := by
  grind [suspectMark, markSuspect_evolves, notifyAll_evolves, putCal_evolves, raise0_evolves, setMapBit_evolves]

theorem qualify_evolves (x : Nat) (hs : Evolves s₀ s) : Evolves s₀ (qualify x s) := by
  unfold qualify
  dsimp only
  split_ifs <;> grind [putCal_evolves, setMapBit_evolves, wr_evolves]

theorem markRun_evolves (faults measured suspects : List Nat) (hs : Evolves s₀ s) : Evolves s₀ (markRun faults measured suspects s)
    := by
  grind [markRun, Evolves.foldl, Evolves.refl, qualify_evolves, showFlags_evolves, suspectMark_evolves, wr_evolves]

theorem qualityCheck_evolves (hs : Evolves s₀ s) : Evolves s₀ (qualityCheck s) := by
  grind [qualityCheck, notifyAll_evolves, raise0_evolves]

theorem storeRecord_evolves (hs : Evolves s₀ s) : Evolves s₀ (storeRecord s) := by
  grind [storeRecord, Evolves.update, crcHit_evolves, showRecord_evolves]

theorem failRecord_evolves (hs : Evolves s₀ s) : Evolves s₀ (failRecord s) := by
  grind [failRecord, Evolves.update, crcHit_evolves, raise0_evolves]

theorem bringRun_evolves (m : CalMeas) (hs : Evolves s₀ s) : Evolves s₀ (bringRun m s) := by
  grind [bringRun, Evolves.update, Evolves.foldl, Evolves.refl, putCal_evolves, setModel_evolves]

theorem execCalRunEnd_evolves (outcome : Nat) (meas : CalMeas) (failed : List Nat) : EvolvesTo s (execCalRunEnd outcome meas failed s)
    := by
  refine .next (.ite .refl (.ite ?_ ?_))
  · extract_lets s1 s2
    have h2 : Evolves s s2 := storeRecord_evolves (markRun_evolves _ _ _ (bringRun_evolves _ .refl))
    exact stopRun_evolves _ (qualityCheck_evolves (wr_evolves _ _ _ h2))
  · exact stopRun_evolves _ (.ite (raise0_evolves _ _ .refl) (.ite (failRecord_evolves .refl) .refl))

theorem noteLight_evolves (hs : Evolves s₀ s) : Evolves s₀ (noteLight s) := by
  grind [noteLight, Evolves.update]

theorem execCalLightWatch_evolves (rawX rawY : Int) : EvolvesTo s (execCalLightWatch rawX rawY s) := by
  grind [execCalLightWatch, Evolves.next, Evolves.refl, noteLight_evolves, pcvConvert_evolves]

/-! Background calibration. -/

theorem correctionReady_evolves (n : Nat) (fields : List (Nat × Nat × Nat)) (hs : Evolves s₀ s) :
    Evolves s₀ (correctionReady n fields s) := by
  grind [correctionReady, Evolves.update, corrApply_evolves, rampStart_evolves]

theorem stepEnd_evolves (n : Nat) (agrees : Bool) (fields : List (Nat × Nat × Nat)) (hs : Evolves s₀ s) :
    Evolves s₀ (stepEnd n agrees fields s) := by
  grind [stepEnd, Evolves.update, correctionReady_evolves, incS_evolves, suspectMark_evolves]

theorem b1Step_evolves (n sum : Nat) (hs : Evolves s₀ s) : Evolves s₀ (b1Step n sum s) := by
  grind [b1Step, Evolves.update, stepEnd_evolves]

theorem execBgB1Model_evolves (loop sum : Nat) : EvolvesTo s (execBgB1Model loop sum s) := by
  grind [execBgB1Model, Evolves.next, Evolves.refl, b1Step_evolves, noteVisit_evolves, stepAbort_evolves, ucsPut_evolves]

theorem b2Step_evolves (e kpi low swing : Nat) (umod dark : Option Nat) (hs : Evolves s₀ s) :
    Evolves s₀ (b2Step e kpi low swing umod dark s) := by
  grind [b2Step, stepEnd_evolves]

theorem execBgB2Curvature_evolves (elem kpi low swing : Nat) (umod dark : Option Nat) :
    EvolvesTo s (execBgB2Curvature elem kpi low swing umod dark s) := by
  grind [execBgB2Curvature, Evolves.next, Evolves.refl, b2Step_evolves, noteVisit_evolves, raise0_evolves, stepAbort_evolves]

theorem b3Step_evolves (input : Nat) (taps : List (Int × Int)) (hs : Evolves s₀ s) : Evolves s₀ (b3Step input taps s) := by
  grind [b3Step, Evolves.foldl, Evolves.refl, stepEnd_evolves]

theorem execBgB3InputTap_evolves (input : Nat) (rawX rawY : Int) (taps : List (Int × Int)) :
    EvolvesTo s (execBgB3InputTap input rawX rawY taps s) := by
  refine .next (.ite .refl ?_)
  extract_lets s1
  have h1 : Evolves s s1 := noteVisit_evolves _ _ (pcvConvert_evolves _ _ (pcvConvert_evolves _ _ .refl))
  exact .ite (raise0_evolves _ _ h1) (.ite h1 (b3Step_evolves _ _ h1))

theorem execCorrectionInForce_evolves (loop : Nat) : EvolvesTo s (execCorrectionInForce loop s) := by
  grind [execCorrectionInForce, Evolves.next, Evolves.refl, corrApply_evolves]

theorem execCorrectionGradualStart_evolves (loop : Nat) : EvolvesTo s (execCorrectionGradualStart loop s) := by
  grind [execCorrectionGradualStart, Evolves.next, Evolves.refl, incS_evolves, raise0_evolves, rampStart_evolves]

theorem writeRecord_evolves (ok : Bool) (hs : Evolves s₀ s) : Evolves s₀ (writeRecord ok s) := by
  grind [writeRecord, failRecord_evolves, storeRecord_evolves]

theorem execCalRecordWrite_evolves (ok : Bool) : EvolvesTo s (execCalRecordWrite ok s) := by
  grind [execCalRecordWrite, Evolves.next, Evolves.refl, Evolves.update, writeRecord_evolves]

theorem waitedRecord_evolves (hs : Evolves s₀ s) : Evolves s₀ (waitedRecord s) := by
  grind [waitedRecord, writeRecord_evolves]

/-! The network ports. -/

theorem cntHalf_evolves (p i : Nat) (hs : Evolves s₀ s) : Evolves s₀ (cntHalf p i s) := by
  grind [cntHalf, raise0_evolves, wr_evolves]

theorem cntAdd_evolves (p i n : Nat) (hs : Evolves s₀ s) : Evolves s₀ (cntAdd p i n s) := by
  grind [cntAdd, cntHalf_evolves, wrWord_evolves]

theorem cntUp_evolves (p i : Nat) (hs : Evolves s₀ s) : Evolves s₀ (cntUp p i s) := by
  grind [cntUp, cntAdd_evolves]

theorem octAdd_evolves (p i n : Nat) (hs : Evolves s₀ s) : Evolves s₀ (octAdd p i n s) := by
  grind [octAdd, cntHalf_evolves, wrWord_evolves]

theorem showLink_evolves (p : Nat) (up hiBer lf rf : Bool) (hs : Evolves s₀ s) : Evolves s₀ (showLink p up hiBer lf rf s) := by
  grind [showLink, wr_evolves]

theorem execLinkUp_evolves (port rxlat txlat : Nat) : EvolvesTo s (execLinkUp port rxlat txlat s) := by
  unfold execLinkUp
  dsimp only
  split_ifs <;> grind [Evolves.next, Evolves.refl, showLink_evolves, wr_evolves]

theorem execLinkDown_evolves (port : Nat) (hiBer lfault rfault : Bool) : EvolvesTo s (execLinkDown port hiBer lfault rfault s) := by
  grind [execLinkDown, Evolves.next, Evolves.refl, Evolves.update, Evolves.foldl, dropDown_evolves, leaveRound_evolves,
    portPut_evolves, raise0_evolves, showDepth_evolves, showLink_evolves]

theorem failPort_evolves (p : Nat) (hs : Evolves s₀ s) : Evolves s₀ (failPort p s) := by
  grind [failPort, Evolves.update, Evolves.foldl, Evolves.refl, degOn_evolves, dropDown_evolves, leaveRound_evolves, portPut_evolves,
    raise0_evolves, showDepth_evolves]

theorem execPortFail_evolves (port : Nat) (memErr : Bool) : EvolvesTo s (execPortFail port memErr s) := by
  grind [execPortFail, Evolves.next, Evolves.refl, failPort_evolves, modeTick_evolves, raise0_evolves]

theorem execPortRestored_evolves (port : Nat) : EvolvesTo s (execPortRestored port s) := by
  grind [execPortRestored, Evolves.next, Evolves.refl, Evolves.update, degOff_evolves, modeTick_evolves, portPut_evolves]

theorem pauseLoad_evolves (p quanta : Nat) (hs : Evolves s₀ s) : Evolves s₀ (pauseLoad p quanta s) := by
  grind [pauseLoad, Evolves.update, portPut_evolves, wr_evolves]

theorem pauseRx_evolves (p quanta : Nat) (hs : Evolves s₀ s) : Evolves s₀ (pauseRx p quanta s) := by
  grind [pauseRx, cntUp_evolves, pauseLoad_evolves, raise0_evolves]

theorem execPauseFrame_evolves (port quanta : Nat) : EvolvesTo s (execPauseFrame port quanta s) := by
  grind [execPauseFrame, Evolves.next, Evolves.refl, pauseRx_evolves]

theorem execPauseExpiry_evolves (port : Nat) : EvolvesTo s (execPauseExpiry port s) := by
  grind [execPauseExpiry, Evolves.next, Evolves.refl, pauseLoad_evolves]

theorem answerAsk_evolves (p : Nat) (f : RxFrame) (hs : Evolves s₀ s) : Evolves s₀ (answerAsk p f s) := by
  grind [answerAsk, enqueue_evolves]

theorem ringDrop_evolves (p r : Nat) (hs : Evolves s₀ s) : Evolves s₀ (ringDrop p r s) := by
  grind [ringDrop, cntUp_evolves, raise0_evolves]

theorem deliverRing_evolves (p r : Nat) (f : RxFrame) (hs : Evolves s₀ s) : Evolves s₀ (deliverRing p r f s) := by
  grind [deliverRing, cntUp_evolves, eccHit_evolves, failPort_evolves, modeTick_evolves, noDomain_evolves, ringSet_evolves]

theorem countFec_evolves (p : Nat) (f : RxFrame) (hs : Evolves s₀ s) : Evolves s₀ (countFec p f s) := by
  grind [countFec, cntAdd_evolves, raise0_evolves]

theorem acceptFrame_evolves (port r : Nat) (f : RxFrame) (hs : Evolves s₀ s) : Evolves s₀ (acceptFrame port r f s) := by
  grind [acceptFrame, answerAsk_evolves, deliverRing_evolves, police_evolves, ringDrop_evolves]

theorem execFrameRx_evolves (port : Nat) (f : RxFrame) : EvolvesTo s (execFrameRx port f s) := by
  refine .next (.ite .refl ?_)
  extract_lets inj s1
  have h1 : Evolves s s1 := countFec_evolves _ _ (injHit_evolves _ _ .refl)
  split
  next => exact cntUp_evolves _ _ h1
  next => exact .ite (.ite (pauseRx_evolves _ _ h1) (cntUp_evolves _ _ h1)) (acceptFrame_evolves _ _ _ (octAdd_evolves _ _ _ (cntUp_evolves _ _ h1)))

theorem execSafetyBufferTimeout_evolves (port : Nat) : EvolvesTo s (execSafetyBufferTimeout port s) := by
  grind [execSafetyBufferTimeout, Evolves.next, Evolves.refl, takeRing_evolves]

theorem execFrameTxComplete_evolves (port : Nat) : EvolvesTo s (execFrameTxComplete port s) := by
  unfold execFrameTxComplete
  grind [Evolves.next, Evolves.refl, Evolves.update, bumpEgs_evolves, cntUp_evolves, octAdd_evolves, portPut_evolves,
    showDepth_evolves]

/-! Scrubbing and snapshots. -/

theorem wordError_evolves (b : Blk) (sel : Nat) (c : Cause) (hs : Evolves s₀ s) : Evolves s₀ (wordError b sel c s) := by
  unfold wordError
  grind [Evolves.update, binPut_evolves, countOnly_evolves, raise_evolves]

theorem touch_evolves (a master acc flips : Nat) (hs : Evolves s₀ s) : Evolves s₀ (touch a master acc flips s) := by
  grind [touch, Evolves.update, countOnly_evolves, injHit_evolves, injParity_evolves, wordError_evolves]

theorem execScrubAccess_evolves (addr flips : Nat) : EvolvesTo s (execScrubAccess addr flips s) := by
  grind [execScrubAccess, Evolves.next, Evolves.refl, touch_evolves]

theorem clearStatus_evolves (b : Blk) (mask : Nat) (hs : Evolves s₀ s) : Evolves s₀ (clearStatus b mask s) := by
  grind [clearStatus, wrWord_evolves]

theorem clearFirst_evolves (b : Blk) (hs : Evolves s₀ s) : Evolves s₀ (clearFirst b s) := by
  grind [clearFirst, wrWord_evolves]

theorem armInject_evolves (b : Blk) (hs : Evolves s₀ s) : Evolves s₀ (armInject b s) := by
  grind [armInject, wrWord_evolves]

theorem execStatusClear_evolves (blk mask : Nat) : EvolvesTo s (execStatusClear blk mask s) := by
  grind [execStatusClear, Evolves.next, Evolves.refl, clearStatus_evolves]

theorem execFirstInfoClear_evolves (blk : Nat) : EvolvesTo s (execFirstInfoClear blk s) := by
  grind [execFirstInfoClear, Evolves.next, Evolves.refl, clearFirst_evolves]

theorem execInjectArm_evolves (blk sel mask : Nat) : EvolvesTo s (execInjectArm blk sel mask s) := by
  grind [execInjectArm, Evolves.next, Evolves.refl, armInject_evolves, wrWord_evolves]

theorem snapUnschedule_evolves (hs : Evolves s₀ s) : Evolves s₀ (snapUnschedule s) := by
  grind [snapUnschedule, Evolves.update, wr_evolves]

theorem snapSchedule_evolves (name at_ : Nat) (hs : Evolves s₀ s) : Evolves s₀ (snapSchedule name at_ s) := by
  grind [snapSchedule, Evolves.update, wr_evolves]

theorem execSnapshotScheduledTrigger_evolves : EvolvesTo s (execSnapshotScheduledTrigger s) := by
  grind [execSnapshotScheduledTrigger, Evolves.next, Evolves.refl, raise0_evolves, snapTrigger_evolves, snapUnschedule_evolves]

theorem snapRelease_evolves (hs : Evolves s₀ s) : Evolves s₀ (snapRelease s) := by
  grind [snapRelease, wr_evolves]

theorem snapExport_evolves (hs : Evolves s₀ s) : Evolves s₀ (snapExport s) := by
  grind [snapExport, Evolves.foldl, Evolves.refl, addRecordAt_evolves, wr_evolves]

theorem execSnapshotExportEnd_evolves : EvolvesTo s (execSnapshotExportEnd s) := by
  grind [execSnapshotExportEnd, Evolves.next, Evolves.refl, wr_evolves]

/-! Register access. -/

theorem readClear_evolves (a : Nat) (hs : Evolves s₀ s) : Evolves s₀ (readClear a s) := by
  grind [readClear, wrWord_evolves]

theorem readWord_evolves (a : Nat) (hs : Evolves s₀ s) : Evolves s₀ (readWord a s).2 := by
  grind [readWord, Evolves.update, Evolves.foldl, Evolves.refl, readClear_evolves, touch_evolves]

theorem readWordsIn_evolves (l : List Nat) (hs : Evolves s₀ s) : Evolves s₀ (readWordsIn l s).2 := by
  induction l generalizing s with
  | nil => exact hs
  | cons a l ih => exact ih (readWord_evolves a hs)

theorem writeRctl_evolves (r mask v : Nat) (hs : Evolves s₀ s) : Evolves s₀ (writeRctl r mask v s) := by
  grind [writeRctl, enableRule_evolves, rearm_evolves, releaseWrite_evolves]

theorem writeHook_evolves (a mask v old : Nat) (hs : Evolves s₀ s) : Evolves s₀ (writeHook a mask v old s) := by
  unfold writeHook
  extract_lets one k s1
  have h1 : Evolves s₀ s1 := .ite (snapRelease_evolves hs) hs
  refine .ite (fieldHook_evolves _ _ hs) (.ite (.ite (stepGo_evolves _ hs) hs) (.ite ?_ ?_))
  · exact .ite (startSched_evolves _ hs) (.ite (stopSched_evolves _ _ hs) hs)
  refine .ite (writeRctl_evolves _ _ _ hs) (.ite (.ite (restartWrite_evolves _ hs) hs) (.ite ?_ ?_))
  · exact .ite (snapExport_evolves h1) h1
  refine .ite (.ite (pauseLoad_evolves _ _ hs) hs) ?_
  split
  · exact .ite (armInject_evolves _ hs) hs
  · exact hs

theorem applyItem_evolves (f : Nat × Nat × Nat) (hs : Evolves s₀ s) : Evolves s₀ (applyItem f s) := by
  grind [applyItem, Evolves.update, Evolves.foldl, Evolves.refl, putMasked_evolves, touch_evolves, wrWord_evolves, writeHook_evolves]

/-! KCP requests. -/

theorem sigFail_evolves (k : Nat) (hs : Evolves s₀ s) : Evolves s₀ (sigFail k s) := by
  grind [sigFail, incS_evolves, raise0_evolves]

theorem accepted_evolves (h : Hdr) (type : Nat) (payload : List Nat) (hs : Evolves s₀ s) : Evolves s₀ (accepted h type payload s) := by
  grind [accepted, commitV_evolves]

theorem rejected_evolves (h : Hdr) (type reason index : Nat) (hs : Evolves s₀ s) : Evolves s₀ (rejected h type reason index s) := by
  grind [rejected, commitV_evolves]

theorem refuse_evolves (h : Hdr) (r : Req) (reason index : Nat) (hs : Evolves s₀ s) : Evolves s₀ (refuse h r reason index s).2 := by
  grind [refuse, rejected_evolves]

theorem closeSess_evolves (k : Nat) (hs : Evolves s₀ s) : Evolves s₀ (closeSess k s) := by
  grind [closeSess, Evolves.update, sessPut_evolves, wr_evolves]

theorem sessEntry_evolves (h : Hdr) (type op k slot rights key : Nat) (hs : Evolves s₀ s) :
    Evolves s₀ (sessEntry h type op k slot rights key s) := by
  grind [sessEntry, commitV_evolves]

theorem sendHeld_evolves (k : Nat) (hs : Evolves s₀ s) : Evolves s₀ (sendHeld k s) := by
  grind [sendHeld, Evolves.update, Evolves.foldl, Evolves.refl, sendCompletion_evolves, sessPut_evolves]

theorem openSess_evolves (k slot : Nat) (resume planobs : Bool) (key : Nat) (peer : Peer) (hs : Evolves s₀ s) :
    Evolves s₀ (openSess k slot resume planobs key peer s) := by
  unfold openSess
  extract_lets v s1 s2
  have h1 : Evolves s₀ s1 := wr_evolves _ _ _ hs
  have h2 : Evolves s₀ s2 := wr_evolves _ _ _ (wr_evolves _ _ _ h1)
  exact .ite (sessPut_evolves _ _ h1) (sessPut_evolves _ _ (wr_evolves _ _ _ (wr_evolves _ _ _ h2)))

theorem acceptOpen_evolves (h : Hdr) (slot : Nat) (resume planobs : Bool) (openId key modNonce : Nat) (hs : Evolves s₀ s) :
    Evolves s₀ (acceptOpen h slot resume planobs openId key modNonce s) := by
  grind [acceptOpen, Evolves.update, openSess_evolves, sendAnswer_evolves, sendHeld_evolves, sessEntry_evolves, sessPut_evolves]

theorem journalTakes_evolves (h : Hdr) (hs : Evolves s₀ s) : Evolves s₀ (journalTakes h s).2 := by
  grind [journalTakes, retireCopy_evolves, saveHist_evolves]

theorem doRead_evolves (h : Hdr) (r : Req) (count mode : Nat) (addrs : List Nat) (hs : Evolves s₀ s) :
    Evolves s₀ (doRead h r count mode addrs s).2 := by
  grind [doRead, commitV_evolves, readWordsIn_evolves, refuse_evolves]

theorem doQuery_evolves (h : Hdr) (r : Req) (key session num : Nat) (hs : Evolves s₀ s) :
    Evolves s₀ (doQuery h r key session num s).2 := by
  grind [doQuery, refuse_evolves]

theorem answerQueries_evolves (hs : Evolves s₀ s) : Evolves s₀ (answerQueries s) := by
  grind [answerQueries, Evolves.foldl, Evolves.refl, answerLate_evolves]

theorem doAttest_evolves (r : Req) (nonce : Nat) (hs : Evolves s₀ s) : Evolves s₀ (doAttest r nonce s).2 := by
  grind [doAttest]

theorem doJread_evolves (h : Hdr) (r : Req) (jseq count : Nat) (hs : Evolves s₀ s) : Evolves s₀ (doJread h r jseq count s).2 := by
  grind [doJread, Evolves.update, refuse_evolves]

theorem doWrite_evolves (h : Hdr) (r : Req) (items : List (Nat × Nat × Nat)) (hs : Evolves s₀ s) :
    Evolves s₀ (doWrite h r items s).2 := by
  grind [doWrite, Evolves.foldl, Evolves.refl, applyItem_evolves, commitEntries_evolves, refuse_evolves]

theorem doEvent_evolves (h : Hdr) (r : Req) (e : EvReq) (arrival : Nat) (hs : Evolves s₀ s) :
    Evolves s₀ (doEvent h r e arrival s).2 := by
  grind [doEvent, acceptEvent_evolves, noteFull_evolves, refuse_evolves]

theorem doCancel_evolves (h : Hdr) (r : Req) (session sseq : Nat) (hs : Evolves s₀ s) :
    Evolves s₀ (doCancel h r session sseq s).2 := by
  grind [doCancel, accepted_evolves, finalise_evolves, placeReady_evolves, refuse_evolves, sendBody_evolves, sendCompletion_evolves]

theorem doGroupCommit_evolves (h : Hdr) (r : Req) (gid members instant : Nat) (sig : GSig) (hs : Evolves s₀ s) :
    Evolves s₀ (doGroupCommit h r gid members instant sig s).2 := by
  grind [doGroupCommit, accepted_evolves, commitGroup_evolves, refuse_evolves, sigFail_evolves]

theorem doGroupAbort_evolves (h : Hdr) (r : Req) (gid : Nat) (hs : Evolves s₀ s) : Evolves s₀ (doGroupAbort h r gid s).2 := by
  grind [doGroupAbort, accepted_evolves, evStatus_evolves, finalise_evolves, placeReady_evolves, refuse_evolves]

theorem doMode_evolves (h : Hdr) (r : Req) (op arg rsvd : Nat) (hs : Evolves s₀ s) : Evolves s₀ (doMode h r op arg rsvd s).2 := by
  grind [doMode, Evolves.update, accepted_evolves, modeTickBy_evolves, refuse_evolves, wr_evolves]

theorem doSnapshot_evolves (h : Hdr) (r : Req) (op instant : Nat) (hs : Evolves s₀ s) :
    Evolves s₀ (doSnapshot h r op instant s).2 := by
  grind [doSnapshot, accepted_evolves, refuse_evolves, snapExport_evolves, snapRelease_evolves, snapSchedule_evolves,
    snapTrigger_evolves, snapUnschedule_evolves]

theorem putSlot_evolves (b : Bool) (im : Option Image) (hs : Evolves s₀ s) : Evolves s₀ (putSlot b im s) := by
  grind [putSlot, Evolves.update]

theorem endUpdate_evolves (cause : Nat) (hs : Evolves s₀ s) : Evolves s₀ (endUpdate cause s) := by
  grind [endUpdate, modeTickBy_evolves, waitedRecord_evolves, wr_evolves]

theorem doUpdBegin_evolves (h : Hdr) (r : Req) (total : Nat) (hs : Evolves s₀ s) : Evolves s₀ (doUpdBegin h r total s).2 := by
  unfold doUpdBegin
  extract_lets b s1 s2 src s3
  split
  · exact refuse_evolves _ _ _ _ hs
  split
  · exact refuse_evolves _ _ _ _ hs
  have h1 : Evolves s₀ s1 := putSlot_evolves _ _ (setSlot_evolves _ _ (accepted_evolves _ _ _ hs))
  have h2 : Evolves s₀ src := wr_evolves _ _ _ (wr_evolves _ _ _ (wr_evolves _ _ _ (wr_evolves _ _ _ h1)))
  clear_value src
  exact modeTickBy_evolves _ _ (h2.update le_rfl le_rfl)

theorem doUpdData_evolves (h : Hdr) (r : Req) (offset len digest : Nat) (differs : Bool) (hs : Evolves s₀ s) :
    Evolves s₀ (doUpdData h r offset len digest differs s).2 := by
  grind [doUpdData, Evolves.update, accepted_evolves, refuse_evolves, wr_evolves]

theorem doUpdFinish_evolves (h : Hdr) (r : Req) (content : Option Image) (hs : Evolves s₀ s) :
    Evolves s₀ (doUpdFinish h r content s).2 := by
  unfold doUpdFinish
  dsimp only
  split_ifs <;> grind [accepted_evolves, endUpdate_evolves, putSlot_evolves, raise_evolves, refuse_evolves, setSlot_evolves,
    wr_evolves]

theorem doUpdActivate_evolves (h : Hdr) (r : Req) (how : Nat) (hs : Evolves s₀ s) : Evolves s₀ (doUpdActivate h r how s).2 := by
  grind [doUpdActivate, Evolves.update, accepted_evolves, refuse_evolves, setSlot_evolves, setTrial_evolves]

theorem doUpdAbandon_evolves (h : Hdr) (r : Req) (hs : Evolves s₀ s) : Evolves s₀ (doUpdAbandon h r s).2 := by
  grind [doUpdAbandon, abandonUpdate_evolves, accepted_evolves, modeTickBy_evolves, refuse_evolves]

theorem doClose_evolves (h : Hdr) (r : Req) (hs : Evolves s₀ s) : Evolves s₀ (doClose h r s).2 := by
  grind [doClose, closeSess_evolves, sessEntry_evolves]

theorem perform_evolves (h : Hdr) (r : Req) (hs : Evolves s₀ s) : Evolves s₀ (perform h r s).2 := by
  unfold perform
  grind [doAttest_evolves, doCancel_evolves, doClose_evolves, doEvent_evolves, doGroupAbort_evolves, doGroupCommit_evolves,
    doJread_evolves, doMode_evolves, doQuery_evolves, doRead_evolves, doSnapshot_evolves, doUpdAbandon_evolves, doUpdActivate_evolves,
    doUpdBegin_evolves, doUpdData_evolves, doUpdFinish_evolves, doWrite_evolves, refuse_evolves]

theorem attempt_evolves (h : Hdr) (r : Req) (hs : Evolves s₀ s) : Evolves s₀ (attempt h r s).2 := by
  grind [attempt, journalTakes_evolves, perform_evolves]

theorem serve_evolves (h : Hdr) (r : Req) (hs : Evolves s₀ s) : Evolves s₀ (serve h r s) := by
  grind [serve, Evolves.update, answerCopies_evolves, attempt_evolves, consume_evolves, leaveNow_evolves, sendAnswer_evolves,
    sessPut_evolves]

theorem drainHeld_evolves (n k : Nat) (hs : Evolves s₀ s) : Evolves s₀ (drainHeld n k s) := by
  induction n generalizing s with
  | zero => exact hs
  | succ n ih => grind [drainHeld, serve_evolves, sessPut_evolves]

theorem serveDup_evolves (h : Hdr) (r : Req) (a : Ans) (hs : Evolves s₀ s) : Evolves s₀ (serveDup h r a s) := by
  grind [serveDup, attempt_evolves, incS_evolves, sendAnswer_evolves]

theorem bySeq_evolves (h : Hdr) (r : Req) (hs : Evolves s₀ s) : Evolves s₀ (bySeq h r s) := by
  unfold bySeq
  dsimp only
  split_ifs <;> grind [Evolves.update, drainHeld_evolves, incS_evolves, sendAnswer_evolves, serveDup_evolves, serve_evolves,
    sessPut_evolves]

theorem kcp_evolves (h0 : Hdr) (r0 : Req) (hs : Evolves s₀ s) : Evolves s₀ (kcp h0 r0 s) := by
  grind [kcp, bySeq_evolves, cntUp_evolves, drainHeld_evolves, modeTick_evolves, sendAnswer_evolves, sigFail_evolves, takeRing_evolves]

theorem rejectOpen_evolves (h : Hdr) (reason : Nat) (hs : Evolves s₀ s) : Evolves s₀ (rejectOpen h reason s) := by
  grind [rejectOpen, journalTakes_evolves, rejected_evolves, sendAnswer_evolves]

theorem kcpOpen_evolves (h0 : Hdr) (slot : Nat) (resume planobs : Bool) (openId : Nat) (sigOk : Bool) (key modNonce : Nat)
    (hs : Evolves s₀ s) : Evolves s₀ (kcpOpen h0 slot resume planobs openId sigOk key modNonce s) := by
  unfold kcpOpen
  extract_lets h s1 k v rej j
  refine .ite (kcp_evolves _ _ hs) (.ite hs ?_)
  have h1 : Evolves s₀ s1 := takeRing_evolves _ _ hs
  have hrej (x : Nat) {t : State} : Evolves s₀ t → Evolves s₀ (rej x t) := rejectOpen_evolves _ _
  have hj : Evolves s₀ j.2 := journalTakes_evolves _ h1
  refine .ite (cntUp_evolves _ _ h1) (.ite (hrej _ h1) (.ite (hrej _ h1) (.ite (hrej _ h1) ?_)))
  refine .ite (hrej _ (sigFail_evolves _ h1)) (.ite (hrej _ h1) (.ite (sendAnswer_evolves _ _ _ h1) ?_))
  exact modeTick_evolves (.ite (acceptOpen_evolves _ _ _ _ _ _ _ hj) (sendAnswer_evolves _ _ _ hj))

theorem execSessionIdleTimeout_evolves (session : Nat) : EvolvesTo s (execSessionIdleTimeout session s) := by
  grind [execSessionIdleTimeout, Evolves.next, Evolves.refl, closeSess_evolves, sessEntry_evolves]

theorem execReorderTimeout_evolves (session seq : Nat) : EvolvesTo s (execReorderTimeout session seq s) := by
  grind [execReorderTimeout, Evolves.next, Evolves.refl, Evolves.update, incS_evolves, sessPut_evolves]

/-! Recovery. -/

theorem copyPut_evolves (c : Nat) (l : Cells Entry) (hs : Evolves s₀ s) : Evolves s₀ (copyPut c l s) := by
  grind [copyPut, Evolves.update]

theorem execJournalCopySelfCheck_evolves (copy : Nat) (passed : Bool) : EvolvesTo s (execJournalCopySelfCheck copy passed s) := by
  grind [execJournalCopySelfCheck, Evolves.next, Evolves.refl, inc_evolves, wr_evolves]

theorem execJournalResyncDone_evolves (copy : Nat) : EvolvesTo s (execJournalResyncDone copy s) := by
  refine .next (.ite .refl ?_)
  extract_lets s1 s2
  have h2 : Evolves s s2 := wr_evolves _ _ _ (wr_evolves _ _ _ (wr_evolves _ _ _ (copyPut_evolves _ _ .refl)))
  exact modeTick_evolves (degOff_evolves _ h2)

theorem dropHeld_evolves (hs : Evolves s₀ s) : Evolves s₀ (dropHeld s) := by
  grind [dropHeld, Evolves.update]

theorem execPwrFailAssert_evolves : EvolvesTo s (execPwrFailAssert s) := by
  refine .next (.ite .refl ?_)
  extract_lets s1
  have h1 : Evolves s s1 := saveHist_evolves (raise0_evolves _ _ (commit_evolves _ _ _ _ _ _ (dropHeld_evolves .refl)))
  exact h1.update le_rfl le_rfl

theorem execPwrFailRelease_evolves : EvolvesTo s (execPwrFailRelease s) := by
  refine .next (.ite .refl ?_)
  extract_lets jn s1
  have h1 : Evolves s s1 := answerQueries_evolves (flushOwed_evolves (commit_evolves _ _ _ _ _ _ (Evolves.refl.update le_rfl le_rfl)))
  exact .ite (placeReady_evolves (lateEvents_evolves (plansResume_evolves h1))) h1

theorem mergeJournal_evolves (badA badB : List Nat) (hs : Evolves s₀ s) : Evolves s₀ (mergeJournal badA badB s) := by
  grind [mergeJournal, Evolves.update, copyPut_evolves, raise_evolves]

theorem showClaims_evolves (hs : Evolves s₀ s) : Evolves s₀ (showClaims s) := by
  grind [showClaims, claimPorts_evolves, dropRange_evolves]

theorem putBack_evolves (v : Saved) (hs : Evolves s₀ s) : Evolves s₀ (putBack v s) := by
  unfold putBack
  extract_lets new keep words s1 p plan
  have h1 : Evolves s₀ s1 :=
    .foldl (fun _ _ => wrWord_evolves _ _ .refl) (hs.filterRegs fun c => !keep c.1)
  exact showClaims_evolves (dropHeld_evolves (h1.update le_rfl le_rfl))

theorem restoreTargets_evolves (hs : Evolves s₀ s) : Evolves s₀ (restoreTargets s) := by
  grind [restoreTargets, Evolves.foldl, Evolves.refl, rebuildEntry_evolves]

theorem showJournal_evolves (hs : Evolves s₀ s) : Evolves s₀ (showJournal s) := by
  grind [showJournal, wr_evolves]

theorem replay_evolves (gap : Option Nat) (hs : Evolves s₀ s) : Evolves s₀ (replay gap s) := by
  unfold replay
  grind [Evolves.update, putBack_evolves, raise_evolves, restoreTargets_evolves, showJournal_evolves]

theorem warmReplay_evolves (gap : Option Nat) (hs : Evolves s₀ s) : Evolves s₀ (warmReplay gap s) := by
  unfold warmReplay
  grind [Evolves.update, Evolves.foldl, Evolves.refl, dropRange_evolves, putBack_evolves, raise_evolves, showJournal_evolves,
    wrWord_evolves]

theorem resolveArmed_evolves (fresh : Bool) (hs : Evolves s₀ s) : Evolves s₀ (resolveArmed fresh s) := by
  grind [resolveArmed, Evolves.foldl, Evolves.refl, applyRestated_evolves, finalise_evolves, wr_evolves]

theorem recoverEvents_evolves (fresh : Bool) (hs : Evolves s₀ s) : Evolves s₀ (recoverEvents fresh s) := by
  grind [recoverEvents, failWhere_evolves, keepAndResolve_evolves, lateEvents_evolves, resolveArmed_evolves]

theorem closeStale_evolves (hs : Evolves s₀ s) : Evolves s₀ (closeStale s) := by
  grind [closeStale, Evolves.foldl, Evolves.refl, closeSess_evolves, sessEntry_evolves]

theorem resendCompletions_evolves (fresh again : Bool) (hs : Evolves s₀ s) : Evolves s₀ (resendCompletions fresh again s) := by
  grind [resendCompletions, Evolves.update, Evolves.foldl, Evolves.refl, sendCompletion_evolves, sendHeld_evolves, sessPut_evolves]

theorem closeLate_evolves (hs : Evolves s₀ s) : Evolves s₀ (closeLate s) := by
  grind [closeLate, Evolves.foldl, Evolves.refl, consume_evolves]

theorem resumeMp_evolves (hs : Evolves s₀ s) : Evolves s₀ (resumeMp s) := by
  grind [resumeMp, Evolves.update, Evolves.foldl, Evolves.refl, degOff_evolves, ringSet_evolves]

theorem rebuildRow_evolves (n p : Nat) (hs : Evolves s₀ s) : Evolves s₀ (rebuildRow n p s) := by
  grind [rebuildRow, wr_evolves]

theorem rebuildRows_evolves (hs : Evolves s₀ s) : Evolves s₀ (rebuildRows s) := by
  grind [rebuildRows, Evolves.foldl, Evolves.refl, rebuildRow_evolves]

theorem sendNotes_evolves (hs : Evolves s₀ s) : Evolves s₀ (sendNotes s) := by
  grind [sendNotes, Evolves.update, Evolves.foldl, Evolves.refl, sendNote_evolves]

theorem recover_evolves (fresh : Bool) (gap : Option Nat) (ms : Nat) (hs : Evolves s₀ s) : Evolves s₀ (recover fresh gap ms s) := by
  unfold recover
  extract_lets again cause s1 s2 s3 s4 s5 s6 s7
  have h1 : Evolves s₀ s1 := .ite (replay_evolves _ hs) (rebuildRows_evolves (warmReplay_evolves _ hs))
  have h3 : Evolves s₀ s3 := wr_evolves _ _ _ (wr_evolves _ _ _ (wr_evolves _ _ _ (wr_evolves _ _ _ h1)))
  have h4 : Evolves s₀ s4 := .ite (commit_evolves _ _ _ _ _ _ h3) h3
  have h5 : Evolves s₀ s5 := recoverEvents_evolves _ (.ite (closeLate_evolves h4) h4)
  have h7 : Evolves s₀ s7 := plansResume_evolves (resumeMp_evolves (raise0_evolves _ _ (commit_evolves _ _ _ _ _ _ h5)))
  exact losAfresh_evolves (sendNotes_evolves (resendCompletions_evolves _ _ (closeStale_evolves h7)))

theorem execJournalRecovery_evolves (badA badB : List Nat) (ms : Nat) : EvolvesTo s (execJournalRecovery badA badB ms s) := by
  grind [execJournalRecovery, Evolves.next, Evolves.refl, mergeJournal_evolves, modeTick_evolves, placeReady_evolves, recover_evolves,
    resumeMp_evolves]

theorem loadHeld_evolves (b : Bool) (im : Image) (hs : Evolves s₀ s) : Evolves s₀ (loadHeld b im s) := by
  unfold loadHeld
  extract_lets v words s1 s2
  have h1 : Evolves s₀ s1 := loadWords_evolves _ (showImage_evolves _ _ hs)
  have h2 : Evolves s₀ s2 := h1.update le_rfl le_rfl
  exact putBack_evolves _ (loadKeys_evolves _ (loadPlan_evolves _ h2))

theorem restartMp_evolves (hs : Evolves s₀ s) : Evolves s₀ (restartMp s) := by
  grind [restartMp, Evolves.update, dropHeld_evolves, requeueRepairs_evolves]

theorem execHoldThroughRestart_evolves (badA badB : List Nat) (ms : Nat) : EvolvesTo s (execHoldThroughRestart badA badB ms s) := by
  refine .next ?_
  extract_lets b olds s1
  have h1 : Evolves s s1 := mergeJournal_evolves _ _ (restartMp_evolves .refl)
  split
  next => exact .refl
  next im _ =>
    extract_lets k s2 s3 s4 back s5
    refine .ite .refl (.ite ?_ ?_)
    · have h3 : Evolves s s3 := confirmSlot_evolves _ (recover_evolves _ _ _ (loadHeld_evolves _ _ h1))
      exact modeTick_evolves (placeReady_evolves (overlayTo_evolves _ _ h3))
    · have h4 : Evolves s s4 := raise_evolves _ _ _ (wr_evolves _ _ _ (setSlot_evolves _ _ h1))
      have hb : Evolves s back := by
        unfold back
        split
        · exact loadHeld_evolves _ _ h4
        · exact h4
      exact modeTick_evolves (placeReady_evolves (overlayTo_evolves _ _ (recover_evolves _ _ _ hb)))

/-! The commands. -/

/-- Whatever the command and the state, the outcome is a next state that evolves from it. -/
theorem exec_evolves (i : Instr) (s : State) : EvolvesTo s (exec i s) := by
  cases i with
  | porstNAssert => exact execPorstNAssert_evolves
  | porstNRelease => exact execPorstNRelease_evolves _ _ _ _
  | pwrInternalReset => exact execPwrInternalReset_evolves _
  | loadComplete => exact execLoadComplete_evolves _
  | darkCheck => exact execDarkCheck_evolves
  | darkRelease => exact execDarkRelease_evolves
  | calRunStart => exact execCalRunStart_evolves
  | calRunEnd => exact execCalRunEnd_evolves _ _ _
  | calLightWatch => exact execCalLightWatch_evolves _ _
  | setResting => exact kcp_evolves _ _ .refl
  | enterMaintain => exact kcp_evolves _ _ .refl
  | leaveMaintain => exact kcp_evolves _ _ .refl
  | recalibrate => exact kcp_evolves _ _ .refl
  | mpWatchdogExpiry => exact execMpWatchdogExpiry_evolves
  | slewTick => exact execSlewTick_evolves _
  | kickWaveformEnd => exact execKickWaveformEnd_evolves _
  | rampStart => exact execRampStart_evolves _
  | handoverEnd => exact execHandoverEnd_evolves _
  | elemClrNAssert => exact clrSet_evolves _ .refl
  | elemClrNRelease => exact clrRelease_evolves _ .refl
  | bankSelfPark => exact execBankSelfPark_evolves
  | readbackVisit => exact execReadbackVisit_evolves _ _ _
  | driveFreeze => exact execDriveFreeze_evolves _
  | sensorSample => exact execSensorSample_evolves _ _ _
  | comparatorCrossing => exact execComparatorCrossing_evolves _
  | comparatorSelfTest => exact Evolves.refl
  | loopUpdate => exact execLoopUpdate_evolves _ _ _
  | loopEntryRewrite => exact execLoopEntryRewrite_evolves _
  | clusterFail => exact execClusterFail_evolves _
  | clusterOwnershipReturn => exact execClusterOwnershipReturn_evolves _
  | setptMeasurement => exact execSetptMeasurement_evolves _ _ _
  | setptLosTimeout => exact execSetptLosTimeout_evolves _
  | domainEstimate => exact execDomainEstimate_evolves _ _ _
  | domainFadjWrite => exact execDomainFadjWrite_evolves _ _
  | domainPhadjWrite => exact execDomainPhadjWrite_evolves _ _
  | domainStepGo => exact execDomainStepGo_evolves _ _ _
  | domainStepApply => exact execDomainStepApply_evolves _
  | domainHoldoverEntry => exact execDomainHoldoverEntry_evolves _ _
  | holdoverExpiry => exact execHoldoverExpiry_evolves _
  | ptpSyncRx => exact execPtpSyncRx_evolves _ _ _ _ _ _
  | ptpFollowUpRx => exact execPtpFollowUpRx_evolves _ _ _ _
  | ptpDelayRespRx => exact execPtpDelayRespRx_evolves _ _ _ _ _
  | ptpAnnounceRx => exact execPtpAnnounceRx_evolves _ _ _ _
  | delayReqTx => exact execDelayReqTx_evolves _ _
  | ppsInPulse => exact execPpsInPulse_evolves _
  | ppsOutEdge => exact execPpsOutEdge_evolves
  | submitEvent => exact kcp_evolves _ _ .refl
  | solveComplete => exact execSolveComplete_evolves _ _ _
  | waveArm => exact execWaveArm_evolves _
  | waveStart => exact execWaveStart_evolves
  | eventDone => exact execEventDone_evolves _
  | eventDeadlineExpiry => exact execEventDeadlineExpiry_evolves _
  | cancelEvent => exact kcp_evolves _ _ .refl
  | queryEvent => exact kcp_evolves _ _ .refl
  | groupCommit => exact kcp_evolves _ _ .refl
  | groupAbort => exact kcp_evolves _ _ .refl
  | commitEcho => exact execCommitEcho_evolves _ _ _ _ _
  | groupCommitCutoff => exact execGroupCommitCutoff_evolves _
  | repairSolve => exact execRepairSolve_evolves _ _
  | reoptimisation => exact execReoptimisation_evolves _
  | pathQualityRefresh => exact execPathQualityRefresh_evolves
  | ruleFire => exact execRuleFire_evolves _
  | trigEdge => exact execTrigEdge_evolves _ _
  | ruleHoldoffExpiry => exact execRuleHoldoffExpiry_evolves _
  | rearmRule => exact rearm_evolves _ .refl
  | releaseClaim => exact releaseWrite_evolves _ .refl
  | ruleEnable => exact enableRule_evolves _ _ .refl
  | scheduleStart => exact startSched_evolves _ .refl
  | scheduleStop => exact execScheduleStop_evolves _
  | scheduleStepSubmit => exact execScheduleStepSubmit_evolves _
  | bgB1Model => exact execBgB1Model_evolves _ _
  | bgB2Curvature => exact execBgB2Curvature_evolves _ _ _ _ _ _
  | bgB3InputTap => exact execBgB3InputTap_evolves _ _ _ _
  | correctionInForce => exact execCorrectionInForce_evolves _
  | correctionGradualStart => exact execCorrectionGradualStart_evolves _
  | calRecordWrite => exact execCalRecordWrite_evolves _
  | guardContactChange => exact execGuardContactChange_evolves _ _ _
  | guardFilterExpiry => exact execGuardFilterExpiry_evolves _ _ _
  | garnetCycle => exact execGarnetCycle_evolves
  | jasperCycle => exact evalChan_evolves _ .refl
  | xlinkPeriodicMsg => exact execXlinkPeriodicMsg_evolves _
  | xlinkChangeMsg => exact execXlinkChangeMsg_evolves _
  | crossCheckFault => exact execCrossCheckFault_evolves _ _
  | tpaPulse => exact execTpaPulse_evolves
  | tpbPulse => exact execTpbPulse_evolves
  | tpaLoss => exact execTpaLoss_evolves
  | testPulseCheck => exact execTestPulseCheck_evolves _ _
  | startupOpenTestRestore => exact execStartupOpenTestRestore_evolves _
  | discrepancyTick => exact execDiscrepancyTick_evolves _
  | soReadbackFault => exact execSoReadbackFault_evolves _ _
  | outputTestStart => exact execOutputTestStart_evolves _ _
  | outputTestPass => exact execOutputTestPass_evolves _
  | outputTestTimeout => exact execOutputTestTimeout_evolves _
  | vsafeFault => exact execVsafeFault_evolves _
  | vsafeRecover => exact execVsafeRecover_evolves _
  | srstNPressStart => exact execSrstNPressStart_evolves _
  | srstNPressRelease => exact execSrstNPressRelease_evolves _ _
  | deliberateReset => exact execDeliberateReset_evolves
  | maintNChange => exact execMaintNChange_evolves _ _
  | darkVerify => exact execDarkVerify_evolves _ _ _
  | lockoutCauseClear => exact execLockoutCauseClear_evolves _ _
  | telegramCopyRx => exact execTelegramCopyRx_evolves _ _ _
  | telegramPartnerTimeout => exact execTelegramPartnerTimeout_evolves _
  | telegramWatchdogExpiry => exact execTelegramWatchdogExpiry_evolves _
  | statusTelegramTx => exact execStatusTelegramTx_evolves
  | linkUp => exact execLinkUp_evolves _ _ _
  | linkDown => exact execLinkDown_evolves _ _ _ _
  | portFail => exact execPortFail_evolves _ _
  | portRestored => exact execPortRestored_evolves _
  | frameRx => exact execFrameRx_evolves _ _
  | pauseFrame => exact execPauseFrame_evolves _ _
  | pauseExpiry => exact execPauseExpiry_evolves _
  | safetyBufferTimeout => exact execSafetyBufferTimeout_evolves _
  | frameEnqueue => exact execFrameEnqueue_evolves _ _ _ _
  | shaperRefill => exact execShaperRefill_evolves _
  | egressSelect => exact execEgressSelect_evolves _
  | frameTxComplete => exact execFrameTxComplete_evolves _
  | gateEntryChange => exact execGateEntryChange_evolves _
  | queueSamplerVisit => exact execQueueSamplerVisit_evolves _ _
  | telemetryHoldExpiry => exact closeFrame_evolves _ .refl
  | openSession => exact kcpOpen_evolves _ _ _ _ _ _ _ _ .refl
  | closeSession => exact kcp_evolves _ _ .refl
  | sessionIdleTimeout => exact execSessionIdleTimeout_evolves _
  | reorderTimeout => exact execReorderTimeout_evolves _ _
  | readWords => exact kcp_evolves _ _ .refl
  | writeWords => exact kcp_evolves _ _ .refl
  | attest => exact kcp_evolves _ _ .refl
  | jread => exact kcp_evolves _ _ .refl
  | journalCopySelfCheck => exact execJournalCopySelfCheck_evolves _ _
  | journalResyncDone => exact execJournalResyncDone_evolves _
  | pwrFailAssert => exact execPwrFailAssert_evolves
  | pwrFailRelease => exact execPwrFailRelease_evolves
  | journalRecovery => exact execJournalRecovery_evolves _ _ _
  | updateBegin => exact kcp_evolves _ _ .refl
  | updateData => exact kcp_evolves _ _ .refl
  | updateFinish => exact kcp_evolves _ _ .refl
  | updateActivate => exact kcp_evolves _ _ .refl
  | updateAbandon => exact kcp_evolves _ _ .refl
  | holdThroughRestart => exact execHoldThroughRestart_evolves _ _ _
  | islandSupplyFault => exact execIslandSupplyFault_evolves _
  | islandRestartAttempt => exact execIslandRestartAttempt_evolves _ _
  | islandBackInService => exact execIslandBackInService_evolves _ _
  | thermalRoundPublish => exact execThermalRoundPublish_evolves _
  | islandRestartWrite => exact restartWrite_evolves _ .refl
  | autoSuspendExpiry => exact execAutoSuspendExpiry_evolves _
  | scrubAccess => exact execScrubAccess_evolves _ _
  | pcvConversion => exact execPcvConversion_evolves _ _
  | refxCheck => exact execRefxCheck_evolves _
  | refOkSet => exact execRefOkSet_evolves
  | statusClear => exact execStatusClear_evolves _ _
  | firstInfoClear => exact execFirstInfoClear_evolves _
  | injectArm => exact execInjectArm_evolves _ _ _
  | snapPin => exact snapTrigger_evolves _ .refl
  | snapshotScheduledTrigger => exact execSnapshotScheduledTrigger_evolves
  | snapshotTrigger => exact kcp_evolves _ _ .refl
  | snapshotSchedule => exact kcp_evolves _ _ .refl
  | snapshotCancelSchedule => exact kcp_evolves _ _ .refl
  | snapshotRelease => exact kcp_evolves _ _ .refl
  | snapshotExport => exact kcp_evolves _ _ .refl
  | snapshotExportEnd => exact execSnapshotExportEnd_evolves
  | midStrapChange => exact execMidStrapChange_evolves _
  | deferralLimitExpiry => exact execDeferralLimitExpiry_evolves _
  | epochReached => exact execEpochReached_evolves _
  | srstNAcceptTimeout => exact execSrstNAcceptTimeout_evolves _
  | safetyChannelClockLoss => exact execSafetyChannelClockLoss_evolves _
  | islandRequalifyRestart => exact execIslandRequalifyRestart_evolves _
  | policerRefill => exact execPolicerRefill_evolves _

/-- A step takes the front command off the queue and answers a next state, however the state stands. -/
theorem step_evolves (s : State) : EvolvesTo { s with pending := s.pending.tail } (step s) := by
  unfold step
  split
  next hq =>
    have hs : { s with pending := s.pending.tail } = s := by rw [hq]; cases s; simp_all
    rw [hs]
    exact tick_evolves .refl
  next hq =>
    rw [hq]
    exact exec_evolves _ _

theorem EvolvesTo.exists_next {o : Host.Outcome State Fault Refusal} (h : EvolvesTo s o) : ∃ t, o = .next t := by
  cases o with
  | next t => exact ⟨t, rfl⟩
  | fault => exact h.elim
  | refused => exact h.elim

theorem evolves_of_step (h : step s = .next t) : Evolves { s with pending := s.pending.tail } t := by
  have hs := step_evolves s
  rwa [h] at hs

/-! The statements. -/

/-- Settles O2: the outcome of every step is a next state, by the case split over the commands in `exec_evolves`. -/
theorem stepAlwaysAnswers : Obligations.StepAlwaysAnswers := by
  intro s
  exact (step_evolves s).exists_next

/-- Settles O4: every change that a command makes to the register space keeps it canonical. -/
theorem registerSpaceStaysCanonical : Obligations.RegisterSpaceStaysCanonical := by
  intro s t hs h
  exact (evolves_of_step h).regs hs

end Sys2Proof.Machine
end

section

/-! PROOFS. The queue, the state after reset, and a mode request that CALIBRATE refuses. -/

namespace Sys2Proof.Machine

/-- Settles O6: the queue is a part of what `Evolves` says of every step. -/
theorem queueIsFirstInFirstOut : Obligations.QueueIsFirstInFirstOut := by
  intro s t h
  exact (evolves_of_step h).queue

/-- Settles O3: the reset state is one concrete state, evaluated clause by clause. -/
theorem resetState : Obligations.ResetState := by
  unfold Obligations.ResetState
  refine ⟨by decide +kernel, by decide +kernel, rfl, by decide +kernel, rfl, rfl, rfl, rfl, fun e => ?_, by decide +kernel, rfl, rfl⟩
  exact ⟨rfl, rfl⟩

/-! ## A mode request in CALIBRATE -/

/-- CALIBRATE with resting mode RUN; session 2 is open with every right, and its request stands in the ring of port A. -/
def calibratingWithSession : State :=
  { ((((((State.reset.wr R.PWR_MODE_CUR [] mCalibrate).wr R.PWR_MODE_RESTING [] mRun).wr R.JNL_SESS_OPEN [2] 1).wr
        R.JNL_SESS_RIGHTS [2] 255).wr R.JNL_SESS_KEYSLOT [2] 3).wr R.JNL_HKEY_VALID [3] 1).wr R.JNL_HKEY_RIGHTS [3] 255 with
    modes := { State.reset.modes with mpDown := false }
    jnl := { State.reset.jnl with recovering := false }
    netA := { NetPort.idle with kcp := [⟨200, 0, 0, false, false, none, none⟩] } }

/-- The header of a well-formed request of that session, with the sequence number that is next. -/
def nextHdr : Hdr := ⟨0, 0, 2, 1, false, true, true, true, 1, 0, ⟨false, 0, 0, 0, 0⟩, none⟩

/-- The request meets every hypothesis of the first clause of O53. -/
theorem setResting_hypotheses : inTurn nextHdr calibratingWithSession = true ∧
    bitN (calibratingWithSession.rd R.JNL_SESS_RIGHTS [nextHdr.session]) 3 = true ∧ overlaysSound calibratingWithSession = true := by
  decide +kernel

/-- SET_RESTING to ECO is answered with MODE_FORBIDS, and the resting mode is still RUN (R372). -/
theorem setResting_forbidden :
    ((sessGet (kcp nextHdr (.mode 1 5 0) calibratingWithSession) 2).window.head?.map fun x => x.2.2.reason) = some rModeForbids ∧
      (kcp nextHdr (.mode 1 5 0) calibratingWithSession).rd R.PWR_MODE_RESTING [] = mRun := by
  decide +kernel

/-- Refutes O53: its first clause has no hypothesis on the mode, and in CALIBRATE a SET_RESTING is refused by R372, so that the resting
mode stays RUN. -/
theorem not_modeRequests : ¬ Obligations.ModeRequests := by
  intro h
  obtain ⟨hturn, hright, hsound⟩ := setResting_hypotheses
  obtain ⟨t, ht, hrest, -⟩ := h.1 calibratingWithSession nextHdr 5 hturn hright (.inr rfl) hsound
  obtain rfl : kcp nextHdr (.mode 1 5 0) calibratingWithSession = t := Host.Outcome.next.inj ht
  rw [setResting_forbidden.2] at hrest
  exact absurd hrest (by decide)

end Sys2Proof.Machine
end

section

/-! PROOFS. What messages, journal entries, plans, parking and overlays leave as it is, and with it what a mode entry does: the layer
under the statements of chapter 1. -/

namespace Sys2Proof.Machine

/-! ## What an operation leaves as it is -/

/-- The control words that the statements about modes and calibration runs read: GLB.MID, PWR.MODE, CL.BOOT, CAL.RUN to CAL.RECORD,
PCV.CTRL, PCV.SEQ and PCV.CHCAL. Their own operations alone write them. -/
def ctlWord (a : Nat) : Bool :=
  a == 0x108 || a == 0x100010 || a == 0x200100 || (decide (0x4000100 ≤ a) && decide (a < 0x4000120)) ||
    (decide (0x4200100 ≤ a) && decide (a < 0x4200280)) || (decide (0x4200400 ≤ a) && decide (a < 0x4200600))

/-- The parts of the state that an operation is said to leave as they are: control words, the mode record, the pending events with the
calibration state, the drives with the safety channels, flash with one-time memory, and the calibrated words. -/
structure Keep where
  word : Nat → Bool
  modes : Bool
  events : Bool
  drives : Bool
  store : Bool
  cal : Bool

/-- The mode record without the steps of DARK, the clear sources and the instances that an overlay waits for. -/
def ModeSt.steady (m : ModeSt) : ModeSt :=
  { m with parked := false, dark := false, released := false, clr := 0, busyL := [], busyQ := [], busyS := [], busyP := [] }

/-- `t` has of `s` what `k` lists. PWR.MODE may differ in OVL_BUSY; local time, the image and the rest of the mode record stay, and no
event is born where none was pending. -/
structure Spares (k : Keep) (s t : State) : Prop where
  word : ∀ a, k.word a = true → ctlWord a = true → a ≠ 0x100010 → readN t a = readN s a
  mode : k.word 0x100010 = true → readN t 0x100010 % 2 ^ 31 = readN s 0x100010 % 2 ^ 31
  steady : t.modes.steady = s.modes.steady
  modes : k.modes = true → t.modes = s.modes
  events : k.events = true → t.evs = s.evs ∧ t.calx = s.calx
  noEvs : s.evs = [] → t.evs = []
  drives : k.drives = true → t.drv = s.drv ∧ t.chA = s.chA ∧ t.chB = s.chB
  store : k.store = true → t.otp = s.otp ∧ t.flash = s.flash
  cal : k.cal = true → t.wcal = s.wcal
  time : t.time = s.time
  image : t.image = s.image

variable {k : Keep} {s₀ s t : State}

theorem Spares.refl : Spares k s s where
  word _ _ _ _ := rfl
  mode _ := rfl
  steady := rfl
  modes _ := rfl
  events _ := ⟨rfl, rfl⟩
  noEvs h := h
  drives _ := ⟨rfl, rfl, rfl⟩
  store _ := ⟨rfl, rfl⟩
  cal _ := rfl
  time := rfl
  image := rfl

theorem Spares.trans (h : Spares k s₀ s) (h' : Spares k s t) : Spares k s₀ t where
  word a hk hc hm := (h'.word a hk hc hm).trans (h.word a hk hc hm)
  mode hk := (h'.mode hk).trans (h.mode hk)
  steady := h'.steady.trans h.steady
  modes hk := (h'.modes hk).trans (h.modes hk)
  events hk := ⟨(h'.events hk).1.trans (h.events hk).1, (h'.events hk).2.trans (h.events hk).2⟩
  noEvs he := h'.noEvs (h.noEvs he)
  drives hk := by
    obtain ⟨a, b, c⟩ := h.drives hk
    obtain ⟨a', b', c'⟩ := h'.drives hk
    exact ⟨a'.trans a, b'.trans b, c'.trans c⟩
  store hk := ⟨(h'.store hk).1.trans (h.store hk).1, (h'.store hk).2.trans (h.store hk).2⟩
  cal hk := (h'.cal hk).trans (h.cal hk)
  time := h'.time.trans h.time
  image := h'.image.trans h.image

theorem Spares.ite {c : Prop} [Decidable c] (h : Spares k s₀ s) (h' : Spares k s₀ t) : Spares k s₀ (if c then s else t) := by
  split <;> assumption

theorem Spares.foldl {α : Type} {f : State → α → State} {l : List α} (hf : ∀ x ∈ l, ∀ s, Spares k s (f s x)) (h : Spares k s₀ s) :
    Spares k s₀ (l.foldl f s) := by
  induction l generalizing s with
  | nil => exact h
  | cons x l ih =>
    exact ih (fun y hy => hf y (List.mem_cons_of_mem _ hy)) (h.trans (hf x List.mem_cons_self s))

/-- A change of fields of which `Spares` does not speak. -/
theorem Spares.update {latch cnt egs netA netB jnl sess notes armed lastT0 refill rchg osr missed validAt lowRun
    corrBad light totOver setpt spLev updates loopBad loopX away shed moved voaOut repairs solving repairWaves rsLost pathAt finals
    shown plan servo phase rcFrom ppsOut banks pulse statusSeq therm pic snapAt updTotal updRanges wbase
    corr ramps bgFail pending} (h : Spares k s₀ s) :
    Spares k s₀ ⟨s.regs, latch, s.time, cnt, s.modes, egs, netA, netB, jnl, sess, notes, s.evs, armed, lastT0, refill, rchg, osr, missed,
      validAt, lowRun, corrBad, light, totOver, setpt, spLev, updates, loopBad, loopX, away, shed, moved, voaOut, repairs, solving,
      repairWaves, rsLost, pathAt, finals, shown, plan, servo, phase, rcFrom, ppsOut, s.drv, banks, s.chA, s.chB, pulse, statusSeq,
      therm, pic, snapAt, updTotal, updRanges, s.otp, s.flash, s.image, wbase, s.wcal, corr, ramps, bgFail, s.calx, pending⟩ :=
  ⟨h.word, h.mode, h.steady, h.modes, h.events, h.noEvs, h.drives, h.store, h.cal, h.time, h.image⟩

/-- A change of words that `k` does not list. -/
theorem Spares.setRegs {r : Cells Word}
    (hw : ∀ a, k.word a = true → ctlWord a = true → a ≠ 0x100010 → readN { s with regs := r } a = readN s a)
    (hm : k.word 0x100010 = true → readN { s with regs := r } 0x100010 % 2 ^ 31 = readN s 0x100010 % 2 ^ 31) (h : Spares k s₀ s) :
    Spares k s₀ { s with regs := r } :=
  ⟨fun a hk hc hn => (hw a hk hc hn).trans (h.word a hk hc hn), fun hk => (hm hk).trans (h.mode hk), h.steady, h.modes, h.events, h.noEvs,
    h.drives, h.store, h.cal, h.time, h.image⟩

/-- A change of the mode record in what `ModeSt.steady` leaves out. -/
theorem Spares.setModes {m : ModeSt} (hk : k.modes = false) (hm : m.steady = s.modes.steady) (h : Spares k s₀ s) :
    Spares k s₀ { s with modes := m } :=
  ⟨h.word, h.mode, hm.trans h.steady, by simp [hk], h.events, h.noEvs, h.drives, h.store, h.cal, h.time, h.image⟩

theorem Spares.setCalx {c : CalSt} (he : k.events = false) (h : Spares k s₀ s) : Spares k s₀ { s with calx := c } :=
  ⟨h.word, h.mode, h.steady, h.modes, by simp [he], h.noEvs, h.drives, h.store, h.cal, h.time, h.image⟩

theorem Spares.mapEvs (f : Ev → Ev) (he : k.events = false) (h : Spares k s₀ s) : Spares k s₀ { s with evs := s.evs.map f } :=
  ⟨h.word, h.mode, h.steady, h.modes, by simp [he], fun h0 => by simp [h.noEvs h0], h.drives, h.store, h.cal, h.time, h.image⟩

theorem Spares.setDrv {l : Cells Drv} (hd : k.drives = false) (h : Spares k s₀ s) : Spares k s₀ { s with drv := l } :=
  ⟨h.word, h.mode, h.steady, h.modes, h.events, h.noEvs, by simp [hd], h.store, h.cal, h.time, h.image⟩

theorem Spares.setChans {a b : Chan} (hd : k.drives = false) (h : Spares k s₀ s) : Spares k s₀ { s with chA := a, chB := b } :=
  ⟨h.word, h.mode, h.steady, h.modes, h.events, h.noEvs, by simp [hd], h.store, h.cal, h.time, h.image⟩

theorem Spares.setStore {o : Otp} {f : Flash} (hs : k.store = false) (h : Spares k s₀ s) :
    Spares k s₀ { s with otp := o, flash := f } :=
  ⟨h.word, h.mode, h.steady, h.modes, h.events, h.noEvs, h.drives, by simp [hs], h.cal, h.time, h.image⟩

theorem Spares.setCal {w : Cells Word} {b : List Nat} (hc : k.cal = false) (h : Spares k s₀ s) :
    Spares k s₀ { s with wcal := w, corrBad := b } :=
  ⟨h.word, h.mode, h.steady, h.modes, h.events, h.noEvs, h.drives, h.store, by simp [hc], h.time, h.image⟩

/-! ## Words -/

/-- A write at `a` leaves what `k` lists: `k` does not list the word, or it is no control word. -/
def Keep.frees (k : Keep) (a : Nat) : Prop := (k.word a && ctlWord a) = false

theorem Keep.frees_of_ctl {a : Nat} (h : ctlWord a = false) : k.frees a := by simp [Keep.frees, h]

theorem Keep.frees_of_word {a : Nat} (h : k.word a = false) : k.frees a := by simp [Keep.frees, h]

theorem wrWord_spares {a : Nat} (v : Nat) (ha : k.frees a) (h : Spares k s₀ s) : Spares k s₀ (wrWord s a v) := by
  refine h.setRegs (fun b hk hc _ => readN_wrWord_other _ _ _ _ ?_) (fun hk => ?_)
  · rintro rfl
    simp [Keep.frees, hk, hc] at ha
  · refine congrArg (· % 2 ^ 31) (readN_wrWord_other _ _ _ _ ?_)
    rintro rfl
    simp [Keep.frees, hk, ctlWord] at ha

theorem wr_spares {F : Fld} {ix : List Nat} (v : Nat) (ha : k.frees (fldAddr F ix)) (h : Spares k s₀ s) :
    Spares k s₀ (s.wr F ix v) := wrWord_spares _ ha h

theorem mergeWord_spares (mask : Nat) {a : Nat} (v : Nat) (ha : k.frees a) (h : Spares k s₀ s) :
    Spares k s₀ (mergeWord mask a v s) := wrWord_spares _ ha h

theorem wrS_spares {F : Fld} {ix : List Nat} (v : Int) (ha : k.frees (fldAddr F ix)) (h : Spares k s₀ s) :
    Spares k s₀ (s.wrS F ix v) := wr_spares _ ha h

theorem inc_spares {F : Fld} {ix : List Nat} (ha : k.frees (fldAddr F ix)) (h : Spares k s₀ s) : Spares k s₀ (s.inc F ix) :=
  wr_spares _ ha h

theorem incS_spares {F : Fld} {ix : List Nat} (ha : k.frees (fldAddr F ix)) (h : Spares k s₀ s) : Spares k s₀ (s.incS F ix) :=
  wr_spares _ ha h

theorem setMapBit_spares {a i : Nat} (v : Bool) (ha : k.frees (a + 4 * (i / 32))) (h : Spares k s₀ s) :
    Spares k s₀ (setMapBit s a i v) := wrWord_spares _ ha h

theorem ctlWord_eq_false_iff (a : Nat) : ctlWord a = false ↔ a ≠ 0x108 ∧ a ≠ 0x100010 ∧ a ≠ 0x200100 ∧
    (a < 0x4000100 ∨ 0x4000120 ≤ a) ∧ (a < 0x4200100 ∨ 0x4200280 ≤ a) ∧ (a < 0x4200400 ∨ 0x4200600 ≤ a) := by
  simp only [ctlWord, Bool.or_eq_false_iff, Bool.and_eq_false_iff, beq_eq_false_iff_ne, decide_eq_false_iff_not]
  omega

/-- Fault sets hold no control word. -/
theorem ctlWord_faultSet (b : Blk) {o : Nat} (ho : o < 0x20) : ctlWord (b.base + o) = false := by
  rw [ctlWord_eq_false_iff]
  cases b <;> simp only [Blk.base] <;> omega

theorem Keep.frees_faultSet (b : Blk) {o : Nat} (ho : o < 0x20) : k.frees (b.base + o) := k.frees_of_ctl (ctlWord_faultSet b ho)

theorem Keep.frees_base (b : Blk) : k.frees b.base := k.frees_faultSet b (o := 0) (by decide)

theorem record_spares (b : Blk) (bit : Nat) (c : Cause) (h : Spares k s₀ s) : Spares k s₀ (record b bit c s) := by
  have hf {o : Nat} (ho : o < 0x20) : k.frees (b.base + o) := k.frees_faultSet b ho
  have h1 := wrWord_spares (setBits (readN s b.base) bit 1 1) (k.frees_base b) h
  unfold record
  extract_lets s1 s2
  have h2 : Spares k s₀ s2 := wrWord_spares _ (hf (by decide)) h1
  exact .ite h1 (.ite h2 (wrWord_spares _ (hf (by decide)) (wrWord_spares _ (hf (by decide)) (wrWord_spares _ (hf (by decide)) h2))))

theorem snapAdd_spares (en : Nat) (h : Spares k s₀ s) : Spares k s₀ (snapAdd en s) := h.update

theorem snapTrigger_spares (src : Nat) (h : Spares k s₀ s) : Spares k s₀ (snapTrigger src s) := by
  have h1 : Spares k s₀ (((s.inc R.SNP_SNAPSEQ []).wr R.SNP_STATE_STATE [] 1).wr R.SNP_STATE_MISSED [] 0) :=
    wr_spares _ (k.frees_of_ctl rfl) (wr_spares _ (k.frees_of_ctl rfl) (inc_spares (k.frees_of_ctl rfl) h))
  exact .ite h (.ite (snapAdd_spares _ h) (.ite (record_spares _ _ _ (incS_spares (k.frees_of_ctl rfl) h)) h1.update))

theorem raise_spares (b : Blk) (bit : Nat) (c : Cause) (h : Spares k s₀ s) : Spares k s₀ (raise b bit c s) := by
  have h1 := record_spares b bit c h
  unfold raise
  extract_lets s1
  split
  · exact .ite (snapTrigger_spares _ h1) h1
  · exact h1

theorem raise0_spares (b : Blk) (bit : Nat) (h : Spares k s₀ s) : Spares k s₀ (raise0 b bit s) := raise_spares _ _ _ h

theorem injHit_spares (b : Blk) (sel : Nat) (h : Spares k s₀ s) : Spares k s₀ (injHit b sel s).2 := by
  unfold injHit
  dsimp only
  split
  · exact wrWord_spares _ (k.frees_faultSet b (by decide)) h
  · exact h

theorem countOnly_spares (b : Blk) (h : Spares k s₀ s) : Spares k s₀ (countOnly b s) :=
  wrWord_spares _ (k.frees_faultSet b (by decide)) h

theorem eccHit_spares (b : Blk) (sel bit a master acc : Nat) (h : Spares k s₀ s) :
    Spares k s₀ (eccHit b sel bit a master acc s).2 := by
  have h1 := injHit_spares b sel h
  unfold eccHit
  grind [countOnly_spares, raise_spares]

theorem crcHit_spares (b : Blk) (sel : Nat) (h : Spares k s₀ s) : Spares k s₀ (crcHit b sel s) := by
  have h1 := injHit_spares b sel h
  exact .ite h1 (countOnly_spares _ h1)

end Sys2Proof.Machine
end

section

/-! PROOFS. Queues, messages, the journal, plans and parking: what each of them leaves as it is. -/

namespace Sys2Proof.Machine

variable {k : Keep} {s₀ s t : State}

/-! ## Egress queues -/

theorem mem_span {a n x : Nat} : x ∈ span a n ↔ a ≤ x ∧ x < a + n := by
  induction n generalizing a with
  | zero => simp [span]
  | succ n ih => simp only [span, List.mem_cons, ih]; omega

theorem qPut_spares (q : Nat) (v : Queue) (h : Spares k s₀ s) : Spares k s₀ (qPut s q v) := h.update

theorem portPut_spares (p : Nat) (v : NetPort) (h : Spares k s₀ s) : Spares k s₀ (portPut s p v) :=
  .ite h.update h.update

theorem showDepth_spares {q : Nat} (hq : q < 65536) (h : Spares k s₀ s) : Spares k s₀ (showDepth q s) :=
  wr_spares _ (k.frees_of_ctl (by simp [ctlWord_eq_false_iff, fldAddr, R.EGS_QSTAT_DEPTH]; omega)) h

theorem bumpEgs_spares {F : Fld} {ix : List Nat} (ha : k.frees (fldAddr F ix)) (h : Spares k s₀ s) : Spares k s₀ (bumpEgs F ix s) := by
  have h1 := inc_spares ha h
  exact .ite (raise0_spares _ _ (wrWord_spares _ (k.frees_of_ctl rfl) h1)) h1

theorem joinRound_spares (p q : Nat) (h : Spares k s₀ s) : Spares k s₀ (joinRound p q s) := .ite h h.update

theorem dropDown_spares {p : Nat} (hp : p < 2) (q n : Nat) (h : Spares k s₀ s) : Spares k s₀ (dropDown p q n s) := by
  induction n generalizing s with
  | zero => exact h
  | succ n ih =>
    unfold dropDown
    split
    · exact h
    · refine ih (raise0_spares _ _ (bumpEgs_spares (k.frees_of_ctl ?_) (qPut_spares _ _ h)))
      simp [ctlWord_eq_false_iff, fldAddr, R.EGS_LINK_DROP]
      omega

theorem offer_spares {p : Nat} (hp : p < 2) (q : Nat) (h : Spares k s₀ s) : Spares k s₀ (offer p q s) := by
  unfold offer
  split
  · exact h
  · exact .ite (joinRound_spares _ _ h) (dropDown_spares hp _ _ h)

theorem enqueue_spares {q : Nat} (hq : q < 65536) (port len : Nat) (b : FBody) (h : Spares k s₀ s) :
    Spares k s₀ (enqueue q port len b s) := by
  unfold enqueue
  extract_lets n v s1 egs s2
  have h2 : Spares k s₀ s2 := (qPut_spares _ _ h).update
  refine .ite h (.ite (showDepth_spares hq ?_) (showDepth_spares hq ?_))
  · exact offer_spares (by decide) _ (offer_spares (by decide) _ (eccHit_spares _ _ _ _ _ _ h2))
  · exact raise0_spares _ _ (bumpEgs_spares (k.frees_of_ctl rfl) h)

theorem closeFrame_spares {q : Nat} (hq : q < 65536) (h : Spares k s₀ s) : Spares k s₀ (closeFrame q s) := by
  unfold closeFrame
  extract_lets v
  split
  · exact h
  · exact enqueue_spares hq _ _ _ (qPut_spares _ _ h)

theorem addRecordAt_spares (stamp : Nat → Bool × Nat × Nat) {q : Nat} (hq : q < 65536) (kind : Nat) (bytes : List Nat)
    (h : Spares k s₀ s) : Spares k s₀ (addRecordAt stamp q kind bytes s) := by
  unfold addRecordAt
  extract_lets d s1 v f
  have h1 : Spares k s₀ s1 := by
    unfold s1
    split
    · exact .ite (closeFrame_spares hq h) h
    · exact h
  exact .ite h (showDepth_spares hq (qPut_spares _ _ h1))

theorem addRecord_spares {q : Nat} (hq : q < 65536) (kind : Nat) (bytes : List Nat) (h : Spares k s₀ s) :
    Spares k s₀ (addRecord q kind bytes s) := addRecordAt_spares _ hq _ _ h

theorem gather_spares {q : Nat} (hq : q < 65536) (kind shift : Nat) (bytes : List Nat) (h : Spares k s₀ s) :
    Spares k s₀ (gather q kind shift bytes s) :=
  .ite h (.ite (qPut_spares _ _ h) (addRecordAt_spares _ hq _ _ (qPut_spares _ _ h)))

/-! ## Notifications -/

theorem sessPut_spares (c : Nat) (v : Sess) (h : Spares k s₀ s) : Spares k s₀ (sessPut s c v) := h.update

theorem sendNote_spares (c kind : Nat) (params : List Nat) (h : Spares k s₀ s) : Spares k s₀ (sendNote c kind params s) :=
  enqueue_spares (rd_lt _ R.JNL_SESS_NQ _) _ _ _ (sessPut_spares _ _ h)

theorem notifyTo_spares (c kind : Nat) (params : List Nat) (h : Spares k s₀ s) : Spares k s₀ (notifyTo c kind params s) :=
  .ite h.update (sendNote_spares _ _ _ h)

theorem notifyAll_spares (kind : Nat) (params : List Nat) (h : Spares k s₀ s) : Spares k s₀ (notifyAll kind params s) :=
  .foldl (fun _ _ _ => .ite (notifyTo_spares _ _ _ .refl) .refl) h

/-! ## The journal -/

/-- An entry that both copies verify. -/
theorem writeEntry_spares (e : Entry) (h : Spares k s₀ s) : Spares k s₀ (writeEntry true true e s) := by
  unfold writeEntry
  extract_lets s0 s1 s2 s3 j e1 put hist jn s4 s5
  have h2 : s2 = s := by simp [s2, s1, s0]
  have h3 : Spares k s₀ s3 := .foldl (fun _ _ _ => .ite .refl (crcHit_spares _ _ .refl)) (h2 ▸ h)
  have h5 : Spares k s₀ s5 := wr_spares _ (k.frees_of_ctl rfl) (wr_spares _ (k.frees_of_ctl rfl) h3.update)
  exact .ite (.ite (addRecord_spares (rd_lt _ R.JNL_CFG_EXPQ _) _ _ h5) h5) h3

theorem carryOne_spares (he : k.events = false) (e : Ev) (h : Spares k s₀ s) : Spares k s₀ (carryOne true true e s) :=
  .ite (.mapEvs _ he (.foldl (fun _ _ _ => writeEntry_spares _ .refl) h)) h

theorem checkpoint_spares (he : k.events = false) (h : Spares k s₀ s) : Spares k s₀ (checkpoint true true s) := by
  unfold checkpoint
  extract_lets j s1 jn s2
  have h1 : Spares k s₀ s1 := .foldl (fun _ _ _ => writeEntry_spares _ .refl) h
  have h2 : Spares k s₀ s2 := h1.update
  exact .foldl (fun _ _ _ => carryOne_spares he _ .refl) (wr_spares _ (k.frees_of_ctl rfl) h2)

theorem appendEntry_spares (he : k.events = false) (e : Entry) (h : Spares k s₀ s) : Spares k s₀ (appendEntry true true e s) :=
  writeEntry_spares _ (.ite (checkpoint_spares he h) h)

theorem commit_spares (he : k.events = false) (kind aseq session type seq : Nat) (payload : List Nat) (h : Spares k s₀ s) :
    Spares k s₀ (commit kind aseq session type seq payload s) :=
  .ite (.foldl (fun _ _ _ => appendEntry_spares he _ .refl) h) h

/-! ## Plans -/

theorem claimPorts_spares (l : List Nat) (v : Bool) (h : Spares k s₀ s) : Spares k s₀ (claimPorts l v s) :=
  .foldl (fun _ _ _ => setMapBit_spares _ (k.frees_of_ctl (by rw [ctlWord_eq_false_iff]; omega)) .refl) h

theorem releaseSched_spares (c : Nat) (h : Spares k s₀ s) : Spares k s₀ (releaseSched c s) :=
  .ite (claimPorts_spares _ _ (claimPorts_spares _ _ h.update)) h

theorem stopSched_spares (he : k.events = false) (c : Nat) (fault : Bool) (h : Spares k s₀ s) : Spares k s₀ (stopSched c fault s) := by
  have h1 : Spares k s₀ (s.wr R.PLAN_SCTL_RUN [c] 0) :=
    wr_spares _ (k.frees_of_ctl (by simp [ctlWord_eq_false_iff, fldAddr, R.PLAN_SCTL_RUN]; omega)) h
  have h2 := commit_spares he 0x0B 0 0 0 0 [2, c, 0] h1
  exact .ite (releaseSched_spares _ (.ite (raise0_spares _ _ h2) h2)) h

theorem rulesFrom_spares (p : Nat → Bool) (h : Spares k s₀ s) : Spares k s₀ (rulesFrom p s) := h.update

theorem entryHits_spares (old m : Nat) (h : Spares k s₀ s) : Spares k s₀ (entryHits old m s) := by
  unfold entryHits
  extract_lets may s1 l
  have h1 : Spares k s₀ s1 := .ite (rulesFrom_spares _ h) h.update
  exact .ite h1.update h.update

/-! ## Drives and the entry to DARK -/

theorem bankOf_lt (e : Nat) : bankOf e < 16 := by unfold bankOf elemRow; omega

theorem localIx_lt {e : Nat} (he : e < nElem) : localIx e < 2176 := by
  unfold localIx elemPlane elemStage elemRow elemPos nElem at *
  omega

theorem drvPut_spares (hd : k.drives = false) (e : Nat) (d : Drv) (h : Spares k s₀ s) : Spares k s₀ (drvPut s e d) := by
  unfold drvPut
  split
  case isFalse => exact h
  case isTrue he =>
    have hb := bankOf_lt e
    have hl := localIx_lt he
    have h1 : Spares k s₀ { s with drv := cellSet (fun _ => Drv.idle) s.drv e d } := h.setDrv hd
    have h2 := Spares.ite (c := rbWord d = rbWord (drvGet s e)) h1
      (wrWord_spares (rbWord d) (k.frees_of_ctl (a := rbAddr e) (by rw [ctlWord_eq_false_iff, rbAddr]; omega)) h1)
    exact wrWord_spares _ (k.frees_of_ctl (by rw [ctlWord_eq_false_iff, rbAddr]; omega)) h2

theorem clearBank_spares (hd : k.drives = false) (b : Nat) (h : Spares k s₀ s) : Spares k s₀ (clearBank b s) :=
  .foldl (fun _ _ _ => drvPut_spares hd _ _ .refl) h

/-- The clear register of a bank holds no control word. -/
theorem Keep.frees_clr (k : Keep) {b : Nat} (hb : b ∈ span 0 16) : k.frees (0x2000110 + 0x100000 * b) :=
  k.frees_of_ctl (by rw [mem_span] at hb; rw [ctlWord_eq_false_iff]; omega)

theorem steady_clr (m : ModeSt) (c : Nat) : ({ m with clr := c } : ModeSt).steady = m.steady := rfl

theorem clrSet_spares (hm : k.modes = false) (hd : k.drives = false) (bit : Nat) (h : Spares k s₀ s) : Spares k s₀ (clrSet bit s) :=
  .foldl (fun _ hb _ => .ite (clearBank_spares hd _ (wrWord_spares _ (k.frees_clr hb) .refl)) .refl)
    (h.setModes hm (steady_clr _ _))

theorem clrRelease_spares (hm : k.modes = false) (bit : Nat) (h : Spares k s₀ s) : Spares k s₀ (clrRelease bit s) :=
  .foldl (fun _ hb _ => .ite (wrWord_spares _ (k.frees_clr hb) .refl) .refl) (h.setModes hm (steady_clr _ _))

theorem parkAll_spares (hm : k.modes = false) (hd : k.drives = false) (h : Spares k s₀ s) : Spares k s₀ (parkAll s) :=
  .foldl (fun _ hb _ => .ite (wrWord_spares _ (k.frees_clr hb) (clearBank_spares hd _ .refl)) .refl) (clrSet_spares hm hd _ h)

theorem chanPut_spares (hd : k.drives = false) (c : Nat) (v : Chan) (h : Spares k s₀ s) : Spares k s₀ (chanPut s c v) :=
  .ite (h.setChans hd) (h.setChans hd)

theorem chanDark_spares (hd : k.drives = false) (c : Nat) (h : Spares k s₀ s) : Spares k s₀ (chanDark c s) := chanPut_spares hd _ _ h

theorem enterDark_spares (hm : k.modes = false) (hd : k.drives = false) (h : Spares k s₀ s) : Spares k s₀ (enterDark s) := by
  unfold enterDark
  extract_lets s1 s2
  have h1 : Spares k s₀ s1 := chanDark_spares hd _ (chanDark_spares hd _ (parkAll_spares hm hd h))
  have h2 : Spares k s₀ s2 := wr_spares _ (k.frees_of_ctl rfl) (wr_spares _ (k.frees_of_ctl rfl) h1)
  exact h2.setModes hm rfl

theorem recordEntry_spares (he : k.events = false) (new : Nat) (h : Spares k s₀ s) : Spares k s₀ (recordEntry new s) :=
  .ite (h.setCalx he) h

end Sys2Proof.Machine
end

section

/-! PROOFS. Overlays and mode entries: what they leave as they are, and what PWR.MODE shows after an entry. -/

namespace Sys2Proof.Machine

variable {k : Keep} {s₀ s t : State}

/-! ## Overlays -/

theorem fldAddr_busy : fldAddr R.PWR_MODE_OVL_BUSY [] = 0x100010 := by decide

/-- OVL_BUSY is the bit of PWR.MODE that `Spares` leaves open. -/
theorem wr_busy_spares (v : Nat) (h : Spares k s₀ s) : Spares k s₀ (s.wr R.PWR_MODE_OVL_BUSY [] v) := by
  have ha := fldAddr_busy
  refine h.setRegs (fun a _ _ hm => readN_wr_other s R.PWR_MODE_OVL_BUSY [] v a (ha ▸ hm)) (fun _ => ?_)
  show readN (s.wr R.PWR_MODE_OVL_BUSY [] v) 0x100010 % 2 ^ 31 = _
  unfold State.wr
  rw [ha, readN_wrWord_same]
  simp only [setBits, R.PWR_MODE_OVL_BUSY]
  omega

theorem settle_spares (h : Spares k s₀ s) : Spares k s₀ (settle s) := .ite (wr_busy_spares _ h) h

theorem overlayOf_none (hn : noOverlays s = true) (m : Nat) : overlayOf s m = [] := by
  unfold noOverlays at hn
  unfold overlayOf
  split
  next im hi =>
    have : im.overlays = [] := by simpa [hi] using hn
    simp [this]
  next => rfl

theorem overlayMove_none (hn : noOverlays s = true) (a b : Nat) :
    overlayMove a b s = settle (s.wr R.PWR_MODE_OVL_BUSY [] 1) := by
  unfold overlayMove
  rw [overlayOf_none hn, overlayOf_none hn]
  rfl

theorem steady_busy (m : ModeSt) (l q x p : List Nat) :
    ({ m with busyL := l, busyQ := q, busyS := x, busyP := p } : ModeSt).steady = m.steady := rfl

section AnyWord
variable (hm : k.modes = false) (hw : ∀ a, k.word a = false)

theorem reshed_spares (h : Spares k s₀ s) : Spares k s₀ (reshed s) := by
  unfold reshed
  exact .ite (raise0_spares _ _ h.update) h.update

theorem osrChange_spares (old : Nat) (h : Spares k s₀ s) : Spares k s₀ (osrChange old s) := by
  unfold osrChange
  exact h.update

theorem losRestart_spares (c : Nat) (h : Spares k s₀ s) : Spares k s₀ (losRestart c s) := by
  unfold losRestart lightPut
  exact h.update

theorem setptShow_spares {c : Nat} (hf : k.frees (0x380300C + 0x10 * c)) (h : Spares k s₀ s) : Spares k s₀ (setptShow c s) :=
  wr_spares _ hf h

theorem setptLos_spares {c : Nat} (hf : k.frees (0x380300C + 0x10 * c)) (v : Bool) (h : Spares k s₀ s) :
    Spares k s₀ (setptLos c v s) := .ite h (notifyAll_spares _ _ (wr_spares _ hf h))

include hw

theorem setptRestart_spares (new : Bool) (c : Nat) (h : Spares k s₀ s) : Spares k s₀ (setptRestart new c s) := by
  have hf : k.frees (0x380300C + 0x10 * c) := k.frees_of_word (hw _)
  unfold setptRestart
  extract_lets last s1
  have h1 : Spares k s₀ s1 := .ite h.update h
  exact setptShow_spares hf (setptLos_spares hf _ h1.update)

theorem fieldHook_spares (a old : Nat) (h : Spares k s₀ s) : Spares k s₀ (fieldHook a old s) := by
  unfold fieldHook
  extract_lets c
  refine .ite (reshed_spares h) (.ite (.ite h (osrChange_spares _ h)) (.ite (losRestart_spares _ h) (.ite ?_ (.ite ?_ h))))
  · exact .ite h (setptRestart_spares hw _ _ h)
  · exact .ite (setptRestart_spares hw _ _ h) (.ite (setptShow_spares (k.frees_of_word (hw _)) h) h)

include hm

theorem moveField_spares (f : Nat × Nat × Nat) (h : Spares k s₀ s) : Spares k s₀ (moveField f s) := by
  have hp : Spares k s₀ (putMasked f.1 f.2.1 f.2.2 s) := .foldl (fun _ _ _ => mergeWord_spares _ _ (k.frees_of_word (hw _)) .refl) h
  refine .ite h ?_
  generalize putMasked f.1 f.2.1 f.2.2 s = s1 at hp
  unfold busyFor
  have hb (l q x p : List Nat) : Spares k s₀ { s1 with modes := { s1.modes with busyL := l, busyQ := q, busyS := x, busyP := p } } :=
    hp.setModes hm (steady_busy _ _ _ _ _)
  exact .ite (hb _ _ _ _) (.ite (hb _ _ _ _) (.ite (hb _ _ _ _) (.ite (hb _ _ _ _) (.ite (hb _ _ _ _) hp))))

/-- An overlay may move any eligible field. -/
theorem overlayTo_spares (olds named : List (Nat × Nat × Nat)) (h : Spares k s₀ s) : Spares k s₀ (overlayTo olds named s) := by
  unfold overlayTo fieldHooks
  refine settle_spares (wr_busy_spares _ (.foldl (fun _ _ _ => .ite .refl (fieldHook_spares hw _ _ .refl)) ?_))
  exact .foldl (fun _ _ _ => moveField_spares hm hw _ .refl) h

end AnyWord

theorem overlayMove_spares (hm : k.modes = false) (ho : noOverlays s = true ∨ ∀ a, k.word a = false) (a b : Nat)
    (h : Spares k s₀ s) : Spares k s₀ (overlayMove a b s) := by
  rcases ho with hn | hw
  · rw [overlayMove_none hn]
    exact settle_spares (wr_busy_spares _ h)
  · exact overlayTo_spares hm hw _ _ h

/-! ## Mode entries -/

theorem failWhere_nil (he : s.evs = []) (p : Ev → Bool) (reason : Nat) : failWhere p reason s = s := by simp [failWhere, he]

theorem keepAndResolve_nil (he : s.evs = []) : keepAndResolve s = s := by simp [keepAndResolve, he]

/-- A mode entry of which `Spares` speaks: into DARK the drives park, no pending event is to be failed or solved again, and no run is
abandoned. -/
structure Enters (k : Keep) (new : Nat) (s : State) : Prop where
  modes : k.modes = false
  events : k.events = false
  overlays : noOverlays s = true ∨ ∀ a, k.word a = false
  dark : new = mDark → k.drives = false
  noEvs : s.evs = [] ∨ new = mLoad
  noRun : modeOf s = mCalibrate → new ≠ mSafeStop ∧ new ≠ mLockout

theorem entryActions_spares {old new : Nat} (hm : k.modes = false) (he : k.events = false) (hd : new = mDark → k.drives = false)
    (hev : s.evs = [] ∨ new = mLoad) (hrun : old = mCalibrate → new ≠ mSafeStop ∧ new ≠ mLockout) (h : Spares k s₀ s) :
    Spares k s₀ (entryActions old new s) := by
  unfold entryActions
  extract_lets s1 s2 s3 s4
  have h1' : Spares k s s1 := .ite .refl (.foldl (fun _ _ _ => stopSched_spares he _ _ .refl) .refl)
  have h1 := h.trans h1'
  have h2 : s2 = s1 := by
    rcases hev with h0 | rfl
    · simp [s2, failWhere_nil (h1'.noEvs h0)]
    · rfl
  have h3 : s3 = s1 := by
    rw [← h2]
    exact if_neg fun hc => by grind
  have h4' : Spares k s1 s4 := by
    unfold s4
    rw [h3]
    refine recordEntry_spares he _ ?_
    split
    · exact enterDark_spares hm (hd ‹_›) .refl
    · exact .ite (Spares.setCalx he .refl) .refl
  have h4 := h1.trans h4'
  rcases hev with h0 | rfl
  · rw [keepAndResolve_nil (h4'.noEvs (h1'.noEvs h0)), ite_self]
    exact h4
  · rw [if_neg (by simp [mLoad, mDegraded, mShed, mMaintain, mUpdate, modeActive])]
    exact h4

/-- The fields of PWR.MODE at a mode entry. -/
def showMode (old new cause : Nat) (s : State) : State :=
  ((s.wr R.PWR_MODE_PREV [] old).wr R.PWR_MODE_CUR [] new).wr R.PWR_MODE_CAUSE [] cause

theorem showMode_image {old new cause : Nat} : (showMode old new cause s).image = s.image :=
  (wr_image _ _ _ _).trans ((wr_image _ _ _ _).trans (wr_image _ _ _ _))

theorem showMode_evs {old new cause : Nat} : (showMode old new cause s).evs = s.evs :=
  (wr_evs _ _ _ _).trans ((wr_evs _ _ _ _).trans (wr_evs _ _ _ _))

theorem noOverlays_congr (h : t.image = s.image) : noOverlays t = noOverlays s := by unfold noOverlays; rw [h]

/-- The overlay, the actions and the notification of a mode entry, once PWR.MODE shows it. -/
theorem afterShown_spares {old new : Nat} (cause : Nat) (hm : k.modes = false) (he : k.events = false)
    (ho : noOverlays s = true ∨ ∀ a, k.word a = false) (hd : new = mDark → k.drives = false) (hev : s.evs = [] ∨ new = mLoad)
    (hrun : old = mCalibrate → new ≠ mSafeStop ∧ new ≠ mLockout) :
    Spares k s (entryHits old new (notifyAll 0x01 [old, new, cause] (entryActions old new (overlayMove old new s)))) := by
  have hov : Spares k s (overlayMove old new s) := overlayMove_spares hm ho _ _ .refl
  exact entryHits_spares _ _ (notifyAll_spares _ _ (entryActions_spares hm he hd (hev.imp_left hov.noEvs) hrun hov))

/-- After PWR.MODE has been shown. -/
theorem enterMode_spares_shown {new : Nat} (cause : Nat) (hn : Enters k new s) :
    Spares k (showMode (modeOf s) new cause (commit 0x09 0 0 0 0 [modeOf s, new, cause] s)) (enterMode new cause s) := by
  obtain ⟨hm, he, ho, hd, hev, hrun⟩ := hn
  have h1 : Spares k s (commit 0x09 0 0 0 0 [modeOf s, new, cause] s) := commit_spares he _ _ _ _ _ _ .refl
  unfold enterMode
  dsimp only
  generalize commit 0x09 0 0 0 0 [modeOf s, new, cause] s = s1 at h1 ⊢
  have hi : (showMode (modeOf s) new cause s1).image = s.image := showMode_image.trans h1.image
  have hv (h0 : s.evs = []) : (showMode (modeOf s) new cause s1).evs = [] := showMode_evs.trans (h1.noEvs h0)
  exact afterShown_spares cause hm he (ho.imp_left (noOverlays_congr hi).trans) hd (hev.imp_left hv) hrun

/-- Beside PWR.MODE. -/
theorem enterMode_spares {new : Nat} (cause : Nat) (hk : k.word 0x100010 = false) (hn : Enters k new s) :
    Spares k s (enterMode new cause s) :=
  have hf {F : Fld} (hF : fldAddr F [] = 0x100010) : k.frees (fldAddr F []) := k.frees_of_word (hF ▸ hk)
  (wr_spares _ (hf (by decide)) (wr_spares _ (hf (by decide)) (wr_spares _ (hf (by decide))
    (commit_spares hn.events _ _ _ _ _ _ .refl)))).trans (enterMode_spares_shown cause hn)

/-! Reading the fields of PWR.MODE. -/

theorem bitsN_mod_pow (n : Nat) {lo w m : Nat} (h : lo + w ≤ m) : bitsN (n % 2 ^ m) lo w = bitsN n lo w := by
  apply Nat.eq_of_testBit_eq
  intro i
  rw [bitsN_testBit, bitsN_testBit, Nat.testBit_mod_two_pow]
  by_cases hi : i < w
  · have : lo + i < m := by omega
    simp [this]
  · simp [hi]

/-- A field of PWR.MODE other than OVL_BUSY. -/
def modeField (F : Fld) : Bool := F.base == 0x100010 && F.dims.isEmpty && decide (F.lo + F.width ≤ 31)

theorem Spares.rd_mode (h : Spares k s t) (hk : k.word 0x100010 = true) {F : Fld} (hF : modeField F = true) :
    t.rd F [] = s.rd F [] := by
  simp only [modeField, Bool.and_eq_true, beq_iff_eq, decide_eq_true_eq] at hF
  obtain ⟨⟨hb, -⟩, hw⟩ := hF
  have ha : fldAddr F [] = 0x100010 := by simp [fldAddr, hb]
  unfold State.rd
  rw [ha, ← bitsN_mod_pow _ hw, h.mode hk, bitsN_mod_pow _ hw]

/-- A field of another control word. -/
theorem Spares.rd_ctl (h : Spares k s t) {F : Fld} {ix : List Nat} (hk : k.word (fldAddr F ix) = true)
    (hc : ctlWord (fldAddr F ix) = true) (hm : fldAddr F ix ≠ 0x100010) : t.rd F ix = s.rd F ix := by
  unfold State.rd
  rw [h.word _ hk hc hm]

theorem showMode_rd {old new cause : Nat} {F : Fld} (hF : modeField F = true)
    (ha : fldApart R.PWR_MODE_PREV [] F [] = true ∧ fldApart R.PWR_MODE_CUR [] F [] = true ∧ fldApart R.PWR_MODE_CAUSE [] F [] = true) :
    (showMode old new cause s).rd F [] = s.rd F [] := by
  simp only [modeField, Bool.and_eq_true, decide_eq_true_eq] at hF
  obtain ⟨hp, hc, hu⟩ := ha
  unfold showMode
  rw [rd_wr_apart _ _ _ _ _ _ (by omega) hu, rd_wr_apart _ _ _ _ _ _ (by omega) hc, rd_wr_apart _ _ _ _ _ _ (by omega) hp]

section EnterMode
variable {new : Nat} (cause : Nat) (hw : k.word 0x100010 = true) (hn : Enters k new s)
include hw hn

theorem enterMode_cur : modeOf (enterMode new cause s) = new % 2 ^ 4 := by
  unfold modeOf
  rw [(enterMode_spares_shown cause hn).rd_mode hw rfl]
  unfold showMode
  rw [rd_wr_apart _ _ _ _ _ _ (by decide) (by decide), rd_wr_same _ _ _ _ (by decide)]
  rfl

theorem enterMode_prev : (enterMode new cause s).rd R.PWR_MODE_PREV [] = modeOf s := by
  rw [(enterMode_spares_shown cause hn).rd_mode hw rfl]
  unfold showMode
  rw [rd_wr_apart _ _ _ _ _ _ (by decide) (by decide), rd_wr_apart _ _ _ _ _ _ (by decide) (by decide),
    rd_wr_same _ _ _ _ (by decide)]
  exact Nat.mod_eq_of_lt (rd_lt s R.PWR_MODE_CUR [])

theorem enterMode_cause : (enterMode new cause s).rd R.PWR_MODE_CAUSE [] = cause % 2 ^ 8 := by
  rw [(enterMode_spares_shown cause hn).rd_mode hw rfl]
  unfold showMode
  rw [rd_wr_same _ _ _ _ (by decide)]
  rfl

/-- The conditions and the resting mode. -/
theorem enterMode_rd {F : Fld} (hF : modeField F = true)
    (ha : fldApart R.PWR_MODE_PREV [] F [] = true ∧ fldApart R.PWR_MODE_CUR [] F [] = true ∧
      fldApart R.PWR_MODE_CAUSE [] F [] = true) : (enterMode new cause s).rd F [] = s.rd F [] := by
  rw [(enterMode_spares_shown cause hn).rd_mode hw hF, showMode_rd hF ha, (commit_spares (k := k) hn.events _ _ _ _ _ _ .refl).rd_mode hw hF]

end EnterMode

end Sys2Proof.Machine
end

section

/-! PROOFS. The domains that LOAD enables, the entry to DARK, and what its release does to the slots. -/

namespace Sys2Proof.Machine

variable {k : Keep} {s₀ s t : State}

theorem Spares.foldl_of_noEvs {α : Type} {f : State → α → State} {l : List α} (hf : ∀ x ∈ l, ∀ s, s.evs = [] → Spares k s (f s x))
    (h0 : s.evs = []) : Spares k s (l.foldl f s) := by
  induction l generalizing s with
  | nil => exact .refl
  | cons x l ih =>
    have hx := hf x List.mem_cons_self s h0
    exact hx.trans (ih (fun y hy => hf y (List.mem_cons_of_mem _ hy)) (hx.noEvs h0))

/-! ## A domain is enabled -/

theorem ppsSquelch_spares (h : Spares k s₀ s) : Spares k s₀ (ppsSquelch s) := .ite h.update h

theorem gatesFall_spares (d : Nat) (h : Spares k s₀ s) : Spares k s₀ (gatesFall d s) :=
  .foldl (fun _ _ _ => .ite (raise0_spares _ _ (Spares.update .refl)) .refl) h

theorem domShow_spares {d : Nat} (hd : d < 8) (he : k.events = false) (st : Nat) (h : Spares k s₀ s) : Spares k s₀ (domShow d st s) := by
  have hf {F : Fld} (hb : fldAddr F [d] = F.base + 0x400 * d) (hl : 0x200104 ≤ F.base) (hu : F.base < 0x1000000) :
      k.frees (fldAddr F [d]) := k.frees_of_ctl (by rw [ctlWord_eq_false_iff]; omega)
  unfold domShow
  extract_lets v s1 s2 s3 s4
  have h1 : Spares k s₀ s1 := (wr_spares st (hf (F := R.TBU_DOM_STATE_STATE) rfl (by decide) (by decide)) h).update
  have h2 : Spares k s₀ s2 := ppsSquelch_spares (wr_spares _ (hf rfl (by decide) (by decide)) h1)
  have h3 : Spares k s₀ s3 := .ite (gatesFall_spares _ h2) h2
  have h4 : Spares k s₀ s4 := .ite (raise0_spares _ _ h3) (.ite (raise0_spares _ _ h3) h3)
  exact notifyAll_spares _ _ (commit_spares he _ _ _ _ _ _ h4)

theorem domLost_spares (he : k.events = false) (d : Nat) (h0 : s.evs = []) (h : Spares k s₀ s) : Spares k s₀ (domLost d s) := by
  unfold domLost
  dsimp only
  rw [failWhere_nil h0]
  exact .foldl (fun _ _ _ => .ite (stopSched_spares he _ _ .refl) .refl) h

/-- The loss of a domain fails the events that name it: with none pending it stays with words and messages. -/
theorem domSet_one_spares (he : k.events = false) {d : Nat} (hd : d < 8) (h0 : s.evs = []) : Spares k s (domSet d 1 s) := by
  have h1 : Spares k s (domShow d 1 s) := domShow_spares hd he _ .refl
  unfold domSet
  dsimp only
  rw [if_pos (le_refl 1)]
  exact .ite .refl (domLost_spares he _ (h1.noEvs h0) h1)

theorem enableDomains_spares (he : k.events = false) (h0 : s.evs = []) : Spares k s (enableDomains s) :=
  Spares.foldl_of_noEvs (fun _ hd _ h0 => .ite (domSet_one_spares he (by rw [mem_span] at hd; omega) h0) .refl) h0

/-! ## What an entry to DARK does -/

/-- The module parks, is not confirmed dark, and both channels verify darkness with no command (R21, R318). -/
structure DarkEntered (t : State) : Prop where
  parked : t.modes.parked = true
  notDark : t.modes.dark = false
  testing : t.chA.testing = true ∧ t.chB.testing = true
  cmd : t.chA.cmd = 0 ∧ t.chB.cmd = 0

theorem enterDark_entered (s : State) : DarkEntered (enterDark s) := by
  unfold enterDark
  generalize parkAll s = s1
  refine ⟨rfl, rfl, ⟨?_, ?_⟩, ⟨?_, ?_⟩⟩ <;> simp only [wr_chA, wr_chB] <;> rfl

theorem DarkEntered.of_spares (hm : k.modes = true) (hd : k.drives = true) (h : DarkEntered s) (hs : Spares k s t) : DarkEntered t := by
  obtain ⟨hp, hn, ht, hc⟩ := h
  obtain ⟨-, ha, hb⟩ := hs.drives hd
  have hm := hs.modes hm
  exact ⟨hm ▸ hp, hm ▸ hn, ha ▸ hb ▸ ht, ha ▸ hb ▸ hc⟩

theorem entryActions_dark (old : Nat) (s : State) : ∃ x, entryActions old mDark s = enterDark x := by
  simp [entryActions, recordEntry, mDark, mDegraded, mShed, mMaintain, mUpdate, modeActive]

/-- The notification and the mode rules come after the entry's actions and touch neither drives nor the mode record. -/
theorem enterMode_dark_entered (cause : Nat) (s : State) : DarkEntered (enterMode mDark cause s) := by
  unfold enterMode
  dsimp only
  obtain ⟨x, hx⟩ := entryActions_dark (modeOf s) (overlayMove (modeOf s) mDark (((State.wr
    (commit 0x09 0 0 0 0 [modeOf s, mDark, cause] s) R.PWR_MODE_PREV [] (modeOf s)).wr R.PWR_MODE_CUR [] mDark).wr R.PWR_MODE_CAUSE [] cause))
  rw [hx]
  have hs : Spares ⟨fun _ => false, true, false, true, false, false⟩ (enterDark x)
      (entryHits (modeOf s) mDark (notifyAll 0x01 [modeOf s, mDark, cause] (enterDark x))) :=
    entryHits_spares _ _ (notifyAll_spares _ _ .refl)
  exact (enterDark_entered x).of_spares rfl rfl hs

/-! ## Mode entries and the other words -/

/-- `k` without PWR.MODE. -/
def Keep.offMode (k : Keep) : Keep := { k with word := fun a => k.word a && a != 0x100010 }

theorem Enters.offMode {new : Nat} (hn : Enters k new s) : Enters k.offMode new s := by
  obtain ⟨hm, he, ho, hd, hev, hrun⟩ := hn
  exact ⟨hm, he, ho.imp_right fun h a => by simp [Keep.offMode, h], hd, hev, hrun⟩

theorem enterMode_spares_off {new : Nat} (cause : Nat) (hn : Enters k new s) : Spares k.offMode s (enterMode new cause s) :=
  enterMode_spares cause (by simp [Keep.offMode]) hn.offMode

/-- A field of another control word. -/
theorem enterMode_rd_ctl {new : Nat} (cause : Nat) (hn : Enters k new s) {F : Fld} {ix : List Nat} (hk : k.word (fldAddr F ix) = true)
    (hc : ctlWord (fldAddr F ix) = true) (hm : fldAddr F ix ≠ 0x100010) : (enterMode new cause s).rd F ix = s.rd F ix :=
  (enterMode_spares_off cause hn).rd_ctl (by simp [Keep.offMode, hk, hm]) hc hm

/-- What an entry to another mode than DARK keeps, without overlays and pending events. -/
def Keep.entry : Keep := ⟨fun _ => true, false, false, true, true, true⟩

/-- What an entry to DARK keeps: it parks the drives. -/
def Keep.entryDark : Keep := ⟨fun _ => true, false, false, false, true, true⟩

/-! ## The release of DARK -/

/-- Words from 0x200000 on may change. -/
def Keep.low (k : Keep) : Prop := ∀ a, k.word a = true → a < 0x200000

theorem Keep.low.frees (hw : k.low) {a : Nat} (ha : 0x200000 ≤ a) : k.frees a :=
  k.frees_of_word (Bool.eq_false_iff.2 fun h => absurd (hw a h) (by omega))

theorem setSlot_spares (hw : k.low) (hs : k.store = false) (b : Bool) (st : Nat) (h : Spares k s₀ s) : Spares k s₀ (setSlot b st s) := by
  have h1 : Spares k s₀ (crcHit .cl 1 s) := crcHit_spares _ _ h
  exact .ite (wr_spares _ (hw.frees (by decide)) (h1.setStore hs)) (wr_spares _ (hw.frees (by decide)) (h1.setStore hs))

theorem showWords_spares {l : List (Nat × Nat)} (hl : ∀ w ∈ l, k.frees w.1) (h : Spares k s₀ s) : Spares k s₀ (showWords l s) :=
  .foldl (fun w hm _ => mergeWord_spares _ _ (hl w hm) .refl) h

theorem showOtp_spares (hw : k.low) (h : Spares k s₀ s) : Spares k s₀ (showOtp s) := by
  unfold showOtp
  extract_lets o ids keys macs cert s1
  have hl : ∀ w ∈ ids ++ [(0x200120, keys)] ++ macs ++ cert ++ o.fixloss.map (fun w => (0x4900000 + 4 * w.1, w.2)) ++
      o.chcal.map (fun w => (0x4200400 + 4 * w.1, w.2)), 0x200000 ≤ w.1 := by
    simp only [List.forall_mem_append, ids, macs, cert, List.forall_mem_map, List.forall_mem_cons]
    refine ⟨⟨⟨⟨⟨fun _ _ => by omega, by omega, by simp⟩, by omega, by omega, by omega, by omega, by simp⟩, fun _ _ => by omega⟩,
      fun _ _ => by omega⟩, fun _ _ => by omega⟩
  have h1 : Spares k s₀ s1 := showWords_spares (fun w hm => hw.frees (hl w hm)) h
  exact wr_spares _ (hw.frees (by decide)) (wr_spares _ (k.frees_of_ctl rfl) (wr_spares _ (k.frees_of_ctl rfl) h1))

theorem confirmSlot_spares (hw : k.low) (he : k.events = false) (hs : k.store = false) (b : Bool) (h : Spares k s₀ s) :
    Spares k s₀ (confirmSlot b s) := by
  have h1 : Spares k s₀ (setSlot b 2 (if slotState s (!b) = 2 then setSlot (!b) 1 s else s)) :=
    setSlot_spares hw hs _ _ (.ite (setSlot_spares hw hs _ _ h) h)
  unfold confirmSlot
  generalize setSlot b 2 (if slotState s (!b) = 2 then setSlot (!b) 1 s else s) = s1 at h1 ⊢
  split
  · exact h
  · split
    · exact h1
    · extract_lets x hit s2 s3
      have h2 : Spares k s₀ s2 := .ite (injHit_spares _ _ h1) (raise_spares _ _ _ (injHit_spares _ _ h1))
      have h3 : Spares k s₀ s3 := showOtp_spares hw (h2.setStore hs)
      exact .ite h3 (commit_spares he _ _ _ _ _ _ h3)

theorem lateEvents_nil (h0 : s.evs = []) : lateEvents s = s := by simp [lateEvents, lateWhere, h0]

theorem losResume_spares (h : Spares k s₀ s) : Spares k s₀ (losResume s) := .ite h.update h

/-- The resting mode, with no condition on. -/
theorem modeByRank_resting (hl : s.flag R.PWR_MODE_C_LOCKOUT [] = false) (hs : s.flag R.PWR_MODE_C_STOP [] = false)
    (hh : s.flag R.PWR_MODE_C_SHED [] = false) (hm : s.flag R.PWR_MODE_C_MAINT [] = false)
    (hd : s.flag R.PWR_MODE_C_DEG [] = false) (hu : s.flag R.PWR_MODE_C_UPD [] = false) :
    modeByRank s = s.rd R.PWR_MODE_RESTING [] := by simp [modeByRank, *]

theorem modeOf_of_mayRelease (h : mayRelease s = true) : modeOf s = mDark := by
  simp only [mayRelease, Bool.and_eq_true, beq_iff_eq] at h
  grind

end Sys2Proof.Machine
end

section

/-! PROOFS. The end of LOAD and the release of DARK (R15, R19, R21). -/

namespace Sys2Proof.Machine

variable {k : Keep} {s₀ s t : State}

theorem bitN_setBits_one (n i : Nat) : bitN (setBits n i 1 1) i = true := by
  rw [bitN_eq, setBits_testBit, if_pos (by omega), Nat.sub_self]
  rfl

/-- Both channels hold cause 6, and LOCKOUT is on: the end of LOAD without an image. -/
def lockBoth (s : State) : State := (holdCause 1 6 (holdCause 0 6 s)).wr R.PWR_MODE_C_LOCKOUT [] 1

theorem lockBoth_eq (s : State) : lockBoth s = State.wr
    { s with chA := { s.chA with locks := setBits s.chA.locks 6 1 1 }, chB := { s.chB with locks := setBits s.chB.locks 6 1 1 } }
    R.PWR_MODE_C_LOCKOUT [] 1 := rfl

theorem lockBoth_rd (s : State) (F : Fld) (ix : List Nat) (hF : F.lo + F.width ≤ 32)
    (h : fldApart R.PWR_MODE_C_LOCKOUT [] F ix = true) : (lockBoth s).rd F ix = s.rd F ix := by
  rw [lockBoth_eq, rd_wr_apart _ _ _ _ _ _ hF h]
  rfl

theorem lockBoth_image (s : State) : (lockBoth s).image = s.image := wr_image _ _ _ _
theorem lockBoth_evs (s : State) : (lockBoth s).evs = s.evs := wr_evs _ _ _ _
theorem lockBoth_drv (s : State) : (lockBoth s).drv = s.drv := wr_drv _ _ _ _

theorem lockBoth_flag (s : State) : (lockBoth s).flag R.PWR_MODE_C_LOCKOUT [] = true := by
  unfold State.flag
  rw [lockBoth_eq, rd_wr_same _ _ _ _ (by decide)]
  rfl

theorem lockBoth_locks (s : State) : bitN (lockBoth s).chA.locks 6 = true ∧ bitN (lockBoth s).chB.locks 6 = true := by
  rw [lockBoth_eq, wr_chA, wr_chB]
  exact ⟨bitN_setBits_one _ _, bitN_setBits_one _ _⟩

/-! ## The end of LOAD -/

/-- The load time shows in 2 ms steps. -/
def showLoad (ms : Nat) (s : State) : State := s.wr R.CL_BOOT_LOADMS [] (min 255 (ms / 2))

theorem showLoad_loadms (ms : Nat) (s : State) : (showLoad ms s).rd R.CL_BOOT_LOADMS [] = min 255 (ms / 2) := by
  refine (rd_wr_same _ _ _ _ (by decide)).trans (Nat.mod_eq_of_lt ?_)
  show _ < 2 ^ 8
  omega

theorem showLoad_spares (ms : Nat) (s : State) : Spares ⟨(· != 0x200100), true, true, true, true, true⟩ s (showLoad ms s) :=
  wr_spares _ (Keep.frees_of_word rfl) .refl

theorem showLoad_modeOf (ms : Nat) (s : State) : modeOf (showLoad ms s) = modeOf s := (showLoad_spares ms s).rd_mode rfl rfl

theorem execLoadComplete_noImage (ms : Nat) (hm : modeOf s = mLoad) (hi : s.modes.noImage = true) :
    exec (.loadComplete ms) s = .next (enterMode mLockout 0x13 (lockBoth (showLoad ms s))) := by
  have hs : (showLoad ms s).modes.noImage = true := by rw [(showLoad_spares ms s).modes rfl, hi]
  show execLoadComplete ms s = _
  unfold execLoadComplete
  rw [if_neg (not_not.2 hm)]
  exact congrArg _ (if_pos hs)

theorem execLoadComplete_dark (ms : Nat) (hm : modeOf s = mLoad) (hi : s.modes.noImage = false)
    (hl : (enableDomains (showLoad ms s)).flag R.PWR_MODE_C_LOCKOUT [] = false)
    (hs : (enableDomains (showLoad ms s)).flag R.PWR_MODE_C_STOP [] = false) :
    exec (.loadComplete ms) s = .next (enterMode mDark 0x03 (enableDomains (showLoad ms s))) := by
  have hi1 : ¬ (showLoad ms s).modes.noImage = true := by simp [(showLoad_spares ms s).modes rfl, hi]
  show execLoadComplete ms s = _
  unfold execLoadComplete
  rw [if_neg (not_not.2 hm)]
  refine congrArg _ ((if_neg hi1).trans ?_)
  exact (if_neg (Bool.eq_false_iff.1 hl)).trans (if_neg (Bool.eq_false_iff.1 hs))

/-- Without an image LOAD ends in LOCKOUT. -/
theorem loadComplete_noImage (s : State) (ms : Nat) (hm : modeOf s = mLoad) (hi : s.modes.noImage = true) (hn : noOverlays s = true)
    (h0 : s.evs = []) : runs (.loadComplete ms) s fun t =>
      modeOf t = mLockout ∧ t.rd R.PWR_MODE_CAUSE [] = 0x13 ∧ t.rd R.PWR_MODE_PREV [] = mLoad ∧
      t.flag R.PWR_MODE_C_LOCKOUT [] = true ∧ bitN t.chA.locks 6 = true ∧ bitN t.chB.locks 6 = true ∧
      t.rd R.CL_BOOT_LOADMS [] = min 255 (ms / 2) ∧ t.drv = s.drv := by
  have h1 := showLoad_spares ms s
  have hm2 : modeOf (lockBoth (showLoad ms s)) = mLoad :=
    (lockBoth_rd _ _ _ (by decide) (by decide)).trans ((showLoad_modeOf ms s).trans hm)
  have hE : Enters Keep.entry mLockout (lockBoth (showLoad ms s)) :=
    ⟨rfl, rfl, .inl ((noOverlays_congr ((lockBoth_image _).trans h1.image)).trans hn), by decide,
      .inl ((lockBoth_evs _).trans (h1.noEvs h0)), by rw [hm2]; decide⟩
  obtain ⟨hdrv, ha, hb⟩ := (enterMode_spares_off 0x13 hE).drives rfl
  refine ⟨_, execLoadComplete_noImage ms hm hi, enterMode_cur _ rfl hE, enterMode_cause _ rfl hE, (enterMode_prev _ rfl hE).trans hm2, ?_,
    ha ▸ (lockBoth_locks _).1, hb ▸ (lockBoth_locks _).2, ?_, hdrv.trans ((lockBoth_drv _).trans (h1.drives rfl).1)⟩
  · unfold State.flag
    rw [enterMode_rd _ rfl hE rfl (by decide)]
    exact lockBoth_flag _
  · rw [enterMode_rd_ctl _ hE rfl rfl (by decide), lockBoth_rd _ _ _ (by decide) (by decide), showLoad_loadms]

/-- With an image in force LOAD ends in DARK. -/
theorem loadComplete_image (s : State) (ms : Nat) (hm : modeOf s = mLoad) (hi : s.modes.noImage = false) (hn : noOverlays s = true)
    (h0 : s.evs = []) (hl : s.flag R.PWR_MODE_C_LOCKOUT [] = false) (hs : s.flag R.PWR_MODE_C_STOP [] = false) :
    runs (.loadComplete ms) s fun t =>
      modeOf t = mDark ∧ t.rd R.PWR_MODE_CAUSE [] = 3 ∧ t.rd R.PWR_MODE_PREV [] = mLoad ∧ t.modes.parked = true ∧
      t.modes.dark = false ∧ t.chA.testing = true ∧ t.chB.testing = true ∧ t.chA.cmd = 0 ∧ t.chB.cmd = 0 ∧
      t.rd R.CL_BOOT_LOADMS [] = min 255 (ms / 2) := by
  have h1 := showLoad_spares ms s
  have h2 : Spares ⟨fun _ => true, true, false, true, true, true⟩ (showLoad ms s) (enableDomains (showLoad ms s)) :=
    enableDomains_spares rfl (h1.noEvs h0)
  have hm2 : modeOf (enableDomains (showLoad ms s)) = mLoad := (h2.rd_mode rfl rfl).trans ((showLoad_modeOf ms s).trans hm)
  have hf {F : Fld} (hF : modeField F = true) : (enableDomains (showLoad ms s)).flag F [] = s.flag F [] := by
    unfold State.flag
    rw [h2.rd_mode rfl hF, h1.rd_mode rfl hF]
  have hE : Enters Keep.entryDark mDark (enableDomains (showLoad ms s)) :=
    ⟨rfl, rfl, .inl ((noOverlays_congr (h2.image.trans h1.image)).trans hn), fun _ => rfl, .inl (h2.noEvs (h1.noEvs h0)),
      by rw [hm2]; decide⟩
  obtain ⟨hp, hd, ⟨ta, tb⟩, ca, cb⟩ := enterMode_dark_entered 0x03 (enableDomains (showLoad ms s))
  refine ⟨_, execLoadComplete_dark ms hm hi ((hf rfl).trans hl) ((hf rfl).trans hs), enterMode_cur _ rfl hE, enterMode_cause _ rfl hE,
    (enterMode_prev _ rfl hE).trans hm2, hp, hd, ta, tb, ca, cb, ?_⟩
  rw [enterMode_rd_ctl _ hE rfl rfl (by decide), h2.rd_ctl rfl rfl (by decide), showLoad_loadms]

/-! ## The release of DARK -/

/-- What stays from the mode entry of the release on. -/
def Keep.released : Keep := ⟨fun a => decide (a < 0x200000), false, false, true, false, true⟩

theorem Keep.released_low : Keep.released.low := fun _ h => of_decide_eq_true h

/-- The release leaves DARK for the resting mode. -/
theorem darkRelease_resting (s : State) (hr : mayRelease s = true) (hn : noOverlays s = true) (h0 : s.evs = [])
    (hrank : modeByRank s = s.rd R.PWR_MODE_RESTING []) (hrest : s.rd R.PWR_MODE_RESTING [] = mRun ∨ s.rd R.PWR_MODE_RESTING [] = mEco) :
    runs .darkRelease s fun t =>
      modeOf t = s.rd R.PWR_MODE_RESTING [] ∧ t.rd R.PWR_MODE_CAUSE [] = 6 ∧ t.rd R.PWR_MODE_PREV [] = mDark ∧
      t.modes.released = true := by
  have h1 : Spares Keep.entryDark s (clrRelease 4 s) := clrRelease_spares rfl 4 .refl
  have hm1 : modeOf (clrRelease 4 s) = mDark := (h1.rd_mode rfl rfl).trans (modeOf_of_mayRelease hr)
  have hE : Enters Keep.entry (modeByRank s) (clrRelease 4 s) :=
    ⟨rfl, rfl, .inl ((noOverlays_congr h1.image).trans hn), by rw [hrank]; rcases hrest with h | h <;> rw [h] <;> decide,
      .inl (h1.noEvs h0), fun h => absurd (hm1.symm.trans h) (by decide)⟩
  have hE0 : (enterMode (modeByRank s) 0x06 (clrRelease 4 s)).evs = [] := (enterMode_spares_off 6 hE).noEvs (h1.noEvs h0)
  have hcur := enterMode_cur 0x06 rfl hE
  have hcause := enterMode_cause 0x06 rfl hE
  have hprev := enterMode_prev 0x06 rfl hE
  have hx : exec .darkRelease s = .next (
      let s1 := losResume (enterMode (modeByRank s) 0x06 (clrRelease 4 s))
      confirmSlot (s1.flag R.CL_BOOT_SLOT []) { s1 with modes := { s1.modes with released := true } }) := by
    show execDarkRelease s = _
    unfold execDarkRelease
    rw [if_pos hr, lateEvents_nil hE0]
  generalize enterMode (modeByRank s) 0x06 (clrRelease 4 s) = s2 at hx hcur hcause hprev
  have h3 : Spares Keep.released s2 (losResume s2) := losResume_spares .refl
  have h4 (b : Bool) : Spares Keep.released s2
      (confirmSlot b { losResume s2 with modes := { (losResume s2).modes with released := true } }) :=
    confirmSlot_spares Keep.released_low rfl rfl b (h3.setModes rfl rfl)
  have h5 (b : Bool) (s : State) : Spares { Keep.released with modes := true } s (confirmSlot b s) :=
    confirmSlot_spares (k := { Keep.released with modes := true }) Keep.released_low rfl rfl b .refl
  refine ⟨_, hx, ((h4 _).rd_mode rfl rfl).trans (hcur.trans ?_), ((h4 _).rd_mode rfl rfl).trans hcause,
    ((h4 _).rd_mode rfl rfl).trans (hprev.trans hm1), ?_⟩
  · rw [hrank]
    exact Nat.mod_eq_of_lt (rd_lt s R.PWR_MODE_RESTING [])
  · rw [(h5 _ _).modes rfl]

/-- Settles O11, by the four mode entries and the dark check. -/
theorem loadAndDark : Obligations.LoadAndDark := by
  refine ⟨loadComplete_noImage, loadComplete_image, fun s hm hp => ⟨_, rfl, if_pos ⟨hm, hp⟩⟩,
    fun s hr hn h0 hl hs hrest hsh hma hd hu => ?_⟩
  exact darkRelease_resting s hr hn h0 (modeByRank_resting hl hs hsh hma hd hu) hrest

end Sys2Proof.Machine
end

section

/-! PROOFS. What RESET keeps: the entry by PORST_N or by PWR itself (R12, R33). -/

namespace Sys2Proof.Machine

variable {k : Keep} {s₀ s t : State}

/-! ## The words that RESET keeps -/

theorem cellGet_filter {α : Type} (d : Nat → α) (p : Nat → Bool) (c : Cells α) (a : Nat) :
    cellGet d (c.filter fun x => p x.1) a = if p a then cellGet d c a else d a := by
  induction c with
  | nil => simp [cellGet]
  | cons x c ih =>
    obtain ⟨i, v⟩ := x
    simp only [List.filter_cons]
    grind [cellGet]

theorem readN_of_filter {p : Nat → Bool} (h : t.regs = s.regs.filter fun c => p c.1) (a : Nat) :
    readN t a = if p a then readN s a else (resetWord a).toNat := by
  unfold readN
  rw [h, cellGet_filter]
  split <;> rfl

/-! ## The cold banks -/

/-- A word of a bank's drives. -/
def bankWord (a : Nat) : Bool := decide (0x2000000 ≤ a) && decide (a < 0x3000000) && decide (0x20000 ≤ a % 0x100000)

/-- No drive is on and no word of a drive differs from its reset value. -/
def Cold (s : State) : Prop := s.drv = [] ∧ ∀ c ∈ s.regs, bankWord c.1 = false

theorem Cold.wrWord {a : Nat} (v : Nat) (h : Cold s) (ha : bankWord a = false) : Cold (wrWord s a v) := by
  refine ⟨h.1, fun c hc => ?_⟩
  rcases cellSet_mem _ _ _ _ _ hc with rfl | hc
  · exact ha
  · exact h.2 c hc

theorem Cold.clearBank {b : Nat} (h : Cold s) (hb : b < 16) : clearBank b s = s := by
  have hn : bankElems s b = [] := by
    unfold bankElems
    have hf : (s.regs.filter fun c => decide (0x2020000 + 0x100000 * b ≤ c.1) && decide (c.1 < 0x2020000 + 0x100000 * b + 8704)) = [] := by
      refine List.filter_eq_nil_iff.2 fun c hc => ?_
      have := h.2 c hc
      simp only [bankWord, Bool.and_eq_false_iff, decide_eq_false_iff_not] at this
      simp only [Bool.and_eq_true, decide_eq_true_eq]
      omega
    simp [hf, h.1]
  unfold Machine.clearBank
  rw [hn]
  rfl

/-- `t` is `s` with other clear words: what a clear of cold banks may change. -/
structure ClearWords (s t : State) : Prop where
  word : ∀ a, (a < 0x2000000 ∨ 0x3000000 ≤ a) → readN t a = readN s a
  rest : t = { s with regs := t.regs }
  cold : Cold t

theorem ClearWords.step {b : Nat} (bit : Nat) (hb : b ∈ span 0 16) (h : ClearWords s t) :
    ClearWords s (if islOn t (12 + b) then
      clearBank b (wrWord t (0x2000110 + 0x100000 * b) (setBits (readN t (0x2000110 + 0x100000 * b)) bit 1 1)) else t) := by
  rw [mem_span] at hb
  obtain ⟨hw, hr, hc⟩ := h
  split
  · have hc' := hc.wrWord (a := 0x2000110 + 0x100000 * b) (setBits (readN t (0x2000110 + 0x100000 * b)) bit 1 1)
      (by simp only [bankWord, Bool.and_eq_false_iff, decide_eq_false_iff_not]; omega)
    rw [hc'.clearBank (by omega)]
    exact ⟨fun a ha => (readN_wrWord_other _ _ _ _ (by omega)).trans (hw a ha), by rw [hr]; rfl, hc'⟩
  · exact ⟨hw, hr, hc⟩

theorem ClearWords.steps (bit : Nat) {l : List Nat} (hl : ∀ b ∈ l, b ∈ span 0 16) (h : ClearWords s t) :
    ClearWords s (l.foldl (fun t b => if islOn t (12 + b) then
      clearBank b (wrWord t (0x2000110 + 0x100000 * b) (setBits (readN t (0x2000110 + 0x100000 * b)) bit 1 1)) else t) t) := by
  induction l generalizing t with
  | nil => exact h
  | cons b l ih => exact ih (fun c hc => hl c (List.mem_cons_of_mem _ hc)) (h.step bit (hl b List.mem_cons_self))

/-- A clear of cold banks changes the clear words and the list of clear sources. -/
theorem clrSet_cold (bit : Nat) (h : Cold s) :
    ClearWords { s with modes := { s.modes with clr := setBits s.modes.clr bit 1 1 } } (clrSet bit s) := by
  have h0 : ClearWords { s with modes := { s.modes with clr := setBits s.modes.clr bit 1 1 } }
      { s with modes := { s.modes with clr := setBits s.modes.clr bit 1 1 } } := ⟨fun _ _ => rfl, rfl, h⟩
  unfold clrSet
  exact h0.steps bit fun _ hb => hb

/-! ## The entry -/

/-- What the entry to RESET from another mode leaves, before BOOT and the cause are written. -/
structure ResetFrom (porst : Bool) (s t : State) : Prop where
  regs : t.regs = s.regs.filter fun c => keptWord porst c.1
  porst : t.modes.porst = porst
  dropped : t.evs = [] ∧ t.drv = [] ∧ t.image = none
  jnl : t.jnl.copyA = s.jnl.copyA ∧ t.jnl.copyB = s.jnl.copyB ∧ t.jnl.last = s.jnl.last ∧ t.jnl.aseq = s.jnl.aseq
  stay : t.otp = s.otp ∧ t.pending = s.pending

theorem enterReset_eq (porst supplies : Bool) (s : State) (hm : modeOf s ≠ mReset) (hl : porst = true ∨ s.modes.latched = []) :
    ∃ new, ResetFrom porst s new ∧ enterReset porst supplies s =
      (let s1 := (new.wr R.GLB_BOOT [] (s.rd R.GLB_BOOT [] + 1)).wr R.PWR_MODE_CAUSE [] (if porst then 1 else 2)
       if bitN s.modes.clr 3 then clrSet 3 s1 else s1) := by
  unfold enterReset
  extract_lets fl hist cause latched s0 m0 j0 new n s1 s2 s3
  have hlat : latched = [] := by grind
  have hn : n = s.rd R.GLB_BOOT [] + 1 := by simp only [n, if_neg hm]
  have h3 : s3 = s1 := by simp only [s3, s2, hlat, List.isEmpty_nil, if_true, List.foldl_nil]
  refine ⟨new, ⟨rfl, rfl, ⟨rfl, rfl, rfl⟩, ⟨rfl, rfl, rfl, rfl⟩, rfl, rfl⟩, ?_⟩
  rw [h3, ← hn]

/-- The module after the entry to RESET. -/
structure AfterReset (porst : Bool) (s t : State) : Prop where
  mode : modeOf t = mReset
  cause : t.rd R.PWR_MODE_CAUSE [] = if porst then 1 else 2
  boot : t.rd R.GLB_BOOT [] = (s.rd R.GLB_BOOT [] + 1) % 2 ^ R.GLB_BOOT.width
  word : ∀ a, a < 0x2000000 ∨ 0x3000000 ≤ a → a ≠ 0x118 → a ≠ 0x100010 →
    readN t a = if keptWord porst a then readN s a else (resetWord a).toNat
  porst : t.modes.porst = porst
  dropped : t.evs = [] ∧ t.drv = [] ∧ t.image = none
  jnl : t.jnl.copyA = s.jnl.copyA ∧ t.jnl.copyB = s.jnl.copyB ∧ t.jnl.last = s.jnl.last ∧ t.jnl.aseq = s.jnl.aseq
  stay : t.otp = s.otp ∧ t.pending = s.pending

theorem keptWord_bankWord {porst : Bool} {a : Nat} (h : keptWord porst a = true) : bankWord a = false := by
  simp only [keptWord, Bool.or_eq_true, Bool.and_eq_true, beq_iff_eq, decide_eq_true_eq] at h
  simp only [bankWord, Bool.and_eq_false_iff, decide_eq_false_iff_not]
  omega

theorem ResetFrom.cold {porst : Bool} (h : ResetFrom porst s t) : Cold t :=
  ⟨h.dropped.2.1, fun c hc => by
    rw [h.regs] at hc
    exact keptWord_bankWord (List.mem_filter.1 hc).2⟩

/-- Once BOOT and the cause are written. -/
theorem ResetFrom.shown {porst : Bool} {n c : Nat} {new : State} (h : ResetFrom porst s new) (hn : n = s.rd R.GLB_BOOT [] + 1)
    (hc : c = if porst then 1 else 2) :
    AfterReset porst s ((new.wr R.GLB_BOOT [] n).wr R.PWR_MODE_CAUSE [] c) := by
  have hw := readN_of_filter h.regs
  obtain ⟨-, hp, hd, hj, hs⟩ := h
  refine ⟨?_, ?_, ?_, fun a _ hb hm => ?_, by rw [wr_modes, wr_modes]; exact hp,
    by rw [wr_evs, wr_evs, wr_drv, wr_drv, wr_image, wr_image]; exact hd,
    by rw [wr_jnl, wr_jnl]; exact hj, by rw [wr_otp, wr_otp, wr_pending, wr_pending]; exact hs⟩
  · unfold modeOf
    rw [rd_wr_apart _ _ _ _ _ _ (by decide) (by decide), rd_wr_apart _ _ _ _ _ _ (by decide) (by decide)]
    unfold State.rd
    rw [hw, if_neg (by cases porst <;> decide)]
    decide +kernel
  · rw [rd_wr_same _ _ _ _ (by decide), hc]
    cases porst <;> rfl
  · rw [rd_wr_apart _ _ _ _ _ _ (by decide) (by decide), rd_wr_same _ _ _ _ (by decide), hn]
  · rw [readN_wr_other _ _ _ _ _ hm, readN_wr_other _ _ _ _ _ hb, hw]

theorem AfterReset.clear {porst : Bool} (h : AfterReset porst s₀ s) (hc : Cold s) : AfterReset porst s₀ (clrSet 3 s) := by
  obtain ⟨hw, hr, -⟩ := clrSet_cold 3 hc
  generalize clrSet 3 s = u at hw hr
  have hrd (F : Fld) (hF : fldAddr F [] < 0x2000000) : u.rd F [] = s.rd F [] := by
    unfold State.rd
    rw [hw _ (.inl hF)]
    rfl
  refine ⟨(hrd _ (by decide)).trans h.mode, (hrd _ (by decide)).trans h.cause, (hrd _ (by decide)).trans h.boot,
    fun a ha hb hm => (hw a ha).trans (h.word a ha hb hm), ?_, ?_, ?_, ?_⟩ <;> rw [hr]
  · exact h.porst
  · exact h.dropped
  · exact h.jnl
  · exact h.stay

theorem enterReset_after (porst supplies : Bool) (s : State) (hm : modeOf s ≠ mReset) (hl : porst = true ∨ s.modes.latched = []) :
    AfterReset porst s (enterReset porst supplies s) := by
  obtain ⟨new, hnew, heq⟩ := enterReset_eq porst supplies s hm hl
  have h1 := hnew.shown rfl rfl
  have hc : Cold ((new.wr R.GLB_BOOT [] (s.rd R.GLB_BOOT [] + 1)).wr R.PWR_MODE_CAUSE [] (if porst then 1 else 2)) :=
    (hnew.cold.wrWord _ (by decide)).wrWord _ (by decide)
  rw [heq]
  dsimp only
  split
  · exact h1.clear hc
  · exact h1

end Sys2Proof.Machine
end

section

/-! PROOFS. The entries to RESET, the fault of a strap change, and the release of PORST_N (R417, R444). -/

namespace Sys2Proof.Machine

variable {k : Keep} {s₀ s t : State}

theorem AfterReset.rd_eq {porst : Bool} (h : AfterReset porst s t) {F : Fld} (ha : fldAddr F [] < 0x2000000 ∨ 0x3000000 ≤ fldAddr F [])
    (hb : fldAddr F [] ≠ 0x118) (hm : fldAddr F [] ≠ 0x100010) :
    t.rd F [] = if keptWord porst (fldAddr F []) then s.rd F [] else bitsN (resetWord (fldAddr F [])).toNat F.lo F.width := by
  unfold State.rd
  rw [h.word _ ha hb hm]
  split <;> rfl

/-- A low PORST_N keeps the journal copies and the one-time memory alone. -/
theorem porstNAssert_resets (s : State) (hm : modeOf s ≠ mReset) : runs .porstNAssert s fun t =>
    modeOf t = mReset ∧ t.rd R.PWR_MODE_CAUSE [] = 1 ∧ t.modes.porst = true ∧ t.rd R.GLB_MID_MID [] = 0 ∧
    t.rd R.GLB_BOOT [] = (s.rd R.GLB_BOOT [] + 1) % 2 ^ R.GLB_BOOT.width ∧ t.evs = [] ∧ t.drv = [] ∧ t.image = none ∧
    t.jnl.copyA = s.jnl.copyA ∧ t.jnl.copyB = s.jnl.copyB ∧ t.jnl.last = s.jnl.last ∧ t.jnl.aseq = s.jnl.aseq ∧
    t.otp = s.otp ∧ t.pending = s.pending := by
  have h := enterReset_after true true s hm (.inl rfl)
  have hx : exec .porstNAssert s = .next (enterReset true true s) := congrArg _ (if_neg (by simp [hm]))
  have hmid : (enterReset true true s).rd R.GLB_MID_MID [] = 0 := by
    rw [h.rd_eq (by decide) (by decide) (by decide), if_neg (by decide)]
    decide +kernel
  obtain ⟨hmode, hcause, hboot, -, hporst, ⟨he, hd, hi⟩, ⟨ja, jb, jl, js⟩, ho, hp⟩ := h
  exact ⟨_, hx, hmode, hcause, hporst, hmid, hboot, he, hd, hi, ja, jb, jl, js, ho, hp⟩

/-- A PWR internal reset keeps the MID and the thermal log too. -/
theorem pwrInternalReset_resets (s : State) (hp : s.modes.porst = false) (hm : modeOf s ≠ mReset) (hl : s.modes.latched = []) :
    runs (.pwrInternalReset false) s fun t =>
      modeOf t = mReset ∧ t.rd R.PWR_MODE_CAUSE [] = 2 ∧ t.modes.porst = false ∧ t.rd R.GLB_MID_MID [] = s.rd R.GLB_MID_MID [] ∧
      t.rd R.GLB_BOOT [] = (s.rd R.GLB_BOOT [] + 1) % 2 ^ R.GLB_BOOT.width ∧ t.rd R.THM_LOGSEQ [] = s.rd R.THM_LOGSEQ [] ∧
      (span 0 0x2000).all (fun i => readN t (0x4110000 + 4 * i) == readN s (0x4110000 + 4 * i)) = true ∧ t.evs = [] ∧ t.drv = [] ∧
      t.image = none ∧ t.jnl.copyA = s.jnl.copyA ∧ t.jnl.copyB = s.jnl.copyB ∧ t.otp = s.otp ∧ t.pending = s.pending := by
  have h := enterReset_after false false s hm (.inr hl)
  have hx : exec (.pwrInternalReset false) s = .next (enterReset false false s) := by
    show execPwrInternalReset false s = _
    unfold execPwrInternalReset
    rw [if_neg (by simp [hp]), if_neg hm, if_neg Bool.false_ne_true]
  have hmid : (enterReset false false s).rd R.GLB_MID_MID [] = s.rd R.GLB_MID_MID [] := by
    rw [h.rd_eq (by decide) (by decide) (by decide), if_pos (by decide)]
  have hseq : (enterReset false false s).rd R.THM_LOGSEQ [] = s.rd R.THM_LOGSEQ [] := by
    rw [h.rd_eq (by decide) (by decide) (by decide), if_pos (by decide)]
  have hlog : (span 0 0x2000).all (fun i =>
      readN (enterReset false false s) (0x4110000 + 4 * i) == readN s (0x4110000 + 4 * i)) = true := by
    refine List.all_eq_true.2 fun i hi => beq_iff_eq.2 ?_
    rw [mem_span] at hi
    rw [h.word _ (by omega) (by omega) (by omega), if_pos]
    simp only [keptWord, Bool.or_eq_true, Bool.and_eq_true, decide_eq_true_eq]
    omega
  obtain ⟨hmode, hcause, hboot, -, hporst, ⟨he, hd, hi⟩, ⟨ja, jb, -, -⟩, ho, hq⟩ := h
  exact ⟨_, hx, hmode, hcause, hporst, hmid, hboot, hseq, hlog, he, hd, hi, ja, jb, ho, hq⟩

/-! ## A raised bit and the words outside the snapshot block -/

/-- `t` is `s` with other words of the snapshot block and another picture. -/
def SnapOnly (s t : State) : Prop := t = { s with regs := t.regs, pic := t.pic } ∧ ∀ a, a < 0x4500000 → readN t a = readN s a

theorem SnapOnly.refl : SnapOnly s s := ⟨rfl, fun _ _ => rfl⟩

theorem SnapOnly.wrWord {a : Nat} (v : Nat) (h : SnapOnly s t) (ha : 0x4500000 ≤ a) : SnapOnly s (wrWord t a v) :=
  ⟨by obtain ⟨h, -⟩ := h; rw [h]; rfl, fun b hb => (readN_wrWord_other _ _ _ _ (by omega)).trans (h.2 b hb)⟩

theorem SnapOnly.pic {p : Picture} (h : SnapOnly s t) : SnapOnly s { t with pic := p } := ⟨by obtain ⟨h, -⟩ := h; rw [h], h.2⟩

theorem SnapOnly.record (bit : Nat) (c : Cause) (h : SnapOnly s t) : SnapOnly s (record .snp bit c t) := by
  obtain ⟨hr, hw⟩ := record_frame .snp bit c t
  refine ⟨by obtain ⟨h, -⟩ := h; rw [hr, h], fun a ha => (hw a ?_).trans (h.2 a ha)⟩
  simp only [recordWords, Blk.base, List.mem_cons, List.not_mem_nil, or_false]
  omega

theorem snapTrigger_snapOnly (src : Nat) (s : State) : SnapOnly s (snapTrigger src s) := by
  unfold snapTrigger
  extract_lets en s1
  have h1 : SnapOnly s s1 := ((SnapOnly.refl.wrWord _ (by decide)).wrWord _ (by decide)).wrWord _ (by decide)
  split
  · exact .refl
  · split
    · exact SnapOnly.refl.pic
    · split
      · exact (SnapOnly.refl.wrWord _ (by decide)).record _ _
      · exact h1.pic

/-- Beside its own record a raised bit changes what a snapshot latches. -/
theorem raise_snapOnly (b : Blk) (bit : Nat) (c : Cause) (s : State) : SnapOnly (record b bit c s) (raise b bit c s) := by
  unfold raise
  extract_lets s1
  split
  · split
    · exact snapTrigger_snapOnly _ _
    · exact .refl
  · exact .refl

theorem raise_status_bit (b : Blk) {bit : Nat} (c : Cause) (s : State) (hb : b.base < 0x4500000) (h : bit < 32) :
    bitN (readN (raise b bit c s) b.base) bit = true := by
  rw [(raise_snapOnly b bit c s).2 _ hb]
  exact record_status_bit b bit c s h

/-- A change of the MID straps in operation is a fault: the latched MID stays. -/
theorem midStrapChange_faults (s : State) (mid : Nat) (hp : s.modes.porst = false) (hm : mid % 64 ≠ s.rd R.GLB_MID_MID []) :
    runs (.midStrapChange mid) s fun t =>
      bitN (readN t Blk.glb.base) 1 = true ∧ t.rd R.GLB_MID_MID [] = s.rd R.GLB_MID_MID [] ∧
      t = { s with regs := t.regs, pic := t.pic } := by
  have hx : exec (.midStrapChange mid) s = .next (raise0 .glb 1 s) := congrArg _ (if_pos ⟨by simp [hp], hm⟩)
  have hk : Spares ⟨fun _ => true, true, true, true, true, true⟩ s (raise0 .glb 1 s) := raise0_spares _ _ .refl
  refine ⟨_, hx, raise_status_bit _ _ _ (by decide) (by decide), hk.rd_ctl rfl rfl (by decide), ?_⟩
  have h1 := (raise_snapOnly .glb 1 Cause.none s).1
  rw [record_eq] at h1
  exact h1

/-! ## The release of PORST_N -/

/-- PORST_N is high, the MID straps are latched, and flash and one-time memory are as they read now. -/
def strapped (mid : Nat) (supplies : Bool) (o : Option Otp) (f : Option Flash) (s : State) : State :=
  State.wr { s with
    otp := o.getD s.otp
    flash := f.getD s.flash
    modes := { s.modes with porst := false, supplies := supplies } } R.GLB_MID_MID [] mid

section Strapped
variable (mid : Nat) (supplies : Bool) (o : Option Otp) (f : Option Flash) (s : State)

theorem strapped_modes : (strapped mid supplies o f s).modes = { s.modes with porst := false, supplies := supplies } := rfl
theorem strapped_otp : (strapped mid supplies o f s).otp = o.getD s.otp := rfl
theorem strapped_flash : (strapped mid supplies o f s).flash = f.getD s.flash := rfl
theorem strapped_evs : (strapped mid supplies o f s).evs = s.evs := rfl
theorem strapped_image : (strapped mid supplies o f s).image = s.image := rfl
theorem strapped_modeOf : modeOf (strapped mid supplies o f s) = modeOf s := rd_wr_apart _ _ _ _ _ _ (by decide) (by decide)
theorem strapped_mid : (strapped mid supplies o f s).rd R.GLB_MID_MID [] = mid % 64 := rd_wr_same _ _ _ _ (by decide)

theorem strapped_onlyWords :
    onlyWords s { strapped mid supplies o f s with modes := s.modes, otp := s.otp, flash := s.flash } [0x108] :=
  ⟨rfl, fun a ha => readN_wr_other _ R.GLB_MID_MID [] mid a fun h => ha (List.mem_singleton.2 h)⟩

end Strapped

theorem execPorstNRelease_eq (mid : Nat) (supplies : Bool) (o : Option Otp) (f : Option Flash) (hp : s.modes.porst = true) :
    exec (.porstNRelease mid supplies o f) s =
      .next (if supplies then startLoad (strapped mid supplies o f s) else strapped mid supplies o f s) := by
  show execPorstNRelease mid supplies o f s = _
  unfold execPorstNRelease
  rw [if_neg (by simp [hp])]
  rfl

/-- The straps are latched, and the module waits for its supplies. -/
theorem porstNRelease_waits (s : State) (mid : Nat) (o : Option Otp) (f : Option Flash) (hp : s.modes.porst = true) :
    runs (.porstNRelease mid false o f) s fun t =>
      t.modes.porst = false ∧ t.modes.supplies = false ∧ t.rd R.GLB_MID_MID [] = mid % 64 ∧ modeOf t = modeOf s ∧
      t.otp = o.getD s.otp ∧ t.flash = f.getD s.flash ∧ onlyWords s { t with modes := s.modes, otp := s.otp, flash := s.flash } [0x108] := by
  have hx := execPorstNRelease_eq mid false o f hp
  rw [if_neg Bool.false_ne_true] at hx
  exact ⟨_, hx, by rw [strapped_modes], by rw [strapped_modes], strapped_mid .., strapped_modeOf .., strapped_otp .., strapped_flash ..,
    strapped_onlyWords ..⟩

end Sys2Proof.Machine
end

section

/-! PROOFS. The load of an image after the release of PORST_N (R397, R398). -/

namespace Sys2Proof.Machine

variable {k : Keep} {s₀ s t : State}

/-! ## An image in force

The load may change every word: what it leaves is flash, one-time memory and the mode record. -/

theorem putMasked_spares {a : Nat} (ha : ∀ x ∈ mirrored a, k.frees x) (mask v : Nat) (h : Spares k s₀ s) :
    Spares k s₀ (putMasked a mask v s) := .foldl (fun x hx _ => mergeWord_spares _ _ (ha x hx) .refl) h

/-- No word of a calibration record is a control word, mirrored or not. -/
theorem ctlWord_mirrored {a x : Nat} (ha : calWord a = true) (hx : x ∈ mirrored a) : ctlWord x = false := by
  simp only [calWord, Bool.or_eq_true, Bool.and_eq_true, decide_eq_true_eq] at ha
  rw [ctlWord_eq_false_iff]
  unfold mirrored at hx
  split at hx
  · obtain ⟨b, hb, rfl⟩ := List.mem_map.1 hx
    rw [mem_span] at hb
    omega
  · rw [List.mem_singleton] at hx
    omega

theorem putCal_spares (hc : k.cal = false) (fields : List (Nat × Nat × Nat)) (h : Spares k s₀ s) : Spares k s₀ (putCal fields s) :=
  .foldl (fun _ hf _ => (putMasked_spares (fun _ hx => k.frees_of_ctl (ctlWord_mirrored (List.mem_filter.1 hf).2 hx)) _ _ .refl).setCal hc) h

theorem setModel_spares {e : Nat} (hu : k.frees (0x1000008 + 0x40 * e)) (ht : k.frees (0x100000C + 0x40 * e)) (h : Spares k s₀ s) :
    Spares k s₀ (setModel e s) := wr_spares _ hu (wr_spares _ ht (wr_spares _ hu h))

theorem showRecord_spares (hf : k.frees 0x400011C) (r : CalRec × Nat) (h : Spares k s₀ s) : Spares k s₀ (showRecord r s) :=
  wr_spares _ hf (wr_spares _ hf (wr_spares _ hf (wr_spares _ hf (wr_spares _ hf h))))

section AnyWord
variable (hw : ∀ a, k.word a = false)
include hw

theorem restoreMark_spares (x : Nat) (h : Spares k s₀ s) : Spares k s₀ (restoreMark x s) := by
  have h1 : Spares k s₀ (setMapBit s 0x800200 x true) := setMapBit_spares _ (k.frees_of_word (hw _)) h
  exact .ite (setMapBit_spares _ (k.frees_of_word (hw _)) (wr_spares _ (k.frees_of_word (hw _)) h1)) h1

theorem putRecord_spares (he : k.events = false) (hc : k.cal = false) (r : CalRec) (h : Spares k s₀ s) : Spares k s₀ (putRecord r s) := by
  unfold putRecord
  extract_lets s1 s2 s3
  have h1 : Spares k s₀ s1 := .foldl (fun _ _ _ => setModel_spares (k.frees_of_word (hw _)) (k.frees_of_word (hw _)) .refl) (putCal_spares hc _ h)
  have h2 : Spares k s₀ s2 := .foldl (fun _ _ _ => restoreMark_spares hw _ .refl) h1
  have h3 : Spares k s₀ s3 := .foldl (fun _ _ _ => setMapBit_spares _ (k.frees_of_word (hw _)) .refl) h2
  exact h3.setCalx he

theorem loadRecord_spares (he : k.events = false) (hc : k.cal = false) (im : Image) (h : Spares k s₀ s) :
    Spares k s₀ (loadRecord im s) := by
  unfold loadRecord
  split
  · exact showRecord_spares (k.frees_of_word (hw _)) _ (putRecord_spares hw he hc _ h)
  · exact h

theorem loadKeys_spares (im : Image) (h : Spares k s₀ s) : Spares k s₀ (loadKeys im s) :=
  .foldl (fun _ _ _ => wr_spares _ (k.frees_of_word (hw _)) (wr_spares _ (k.frees_of_word (hw _)) .refl))
    (.foldl (fun _ _ _ => wrWord_spares _ (k.frees_of_word (hw _)) .refl) h)

theorem loadPlan_spares (im : Image) (h : Spares k s₀ s) : Spares k s₀ (loadPlan im s) := by
  unfold loadPlan
  extract_lets s1 s2
  have h1 : Spares k s₀ s1 := .foldl (fun _ _ _ => wrWord_spares _ (k.frees_of_word (hw _)) .refl) h
  have h2 : Spares k s₀ s2 := .foldl (fun _ _ _ => wrWord_spares _ (k.frees_of_word (hw _)) .refl) h1
  exact .foldl (fun _ _ _ => wr_spares _ (k.frees_of_word (hw _)) .refl) h2

theorem loadWords_spares (l : List (Nat × Nat)) (h : Spares k s₀ s) : Spares k s₀ (loadWords l s) :=
  .foldl (fun _ _ _ => mergeWord_spares _ _ (k.frees_of_word (hw _)) .refl) h

theorem clearRings_spares (p : Nat) (h : Spares k s₀ s) : Spares k s₀ (clearRings p s) :=
  .ite (.foldl (fun _ _ _ => wr_spares _ (k.frees_of_word (hw _)) (wr_spares _ (k.frees_of_word (hw _))
    (portPut_spares _ _ .refl))) h) h

theorem fieldHooks_spares (s1 : State) (l : List Nat) (h : Spares k s₀ s) : Spares k s₀ (fieldHooks s1 l s) :=
  .foldl (fun _ _ _ => .ite .refl (fieldHook_spares hw _ _ .refl)) h

omit hw in
theorem loadChannel_spares (hd : k.drives = false) (c : Nat) (im : Image) (h : Spares k s₀ s) : Spares k s₀ (loadChannel c im s) := by
  unfold loadChannel
  extract_lets v0 v crc hold v1 s1
  have h1 : Spares k s₀ s1 := chanPut_spares hd _ _ h
  exact .ite h1 (raise0_spares _ _ h1)

/-- Beside the image itself. -/
theorem applyImage_spares (he : k.events = false) (hd : k.drives = false) (hc : k.cal = false) (b : Bool) (im : Image) (s : State) :
    Spares k (showImage b im s) (applyImage b im s) := by
  unfold applyImage
  extract_lets words s1 s2 s3 s4
  have h1 : Spares k (showImage b im s) s1 := showWords_spares (fun _ _ => k.frees_of_word (hw _)) (loadWords_spares hw _ .refl)
  have h2 : Spares k (showImage b im s) s2 := h1.update
  have h3 : Spares k (showImage b im s) s3 :=
    loadRecord_spares hw he hc _ (loadKeys_spares hw _ (loadPlan_spares hw _ (loadChannel_spares hd _ _ (loadChannel_spares hd _ _ h2))))
  have h4 : Spares k (showImage b im s) s4 := .foldl (fun _ _ _ => Spares.update .refl) h3
  exact fieldHooks_spares hw _ _ (wr_spares _ (k.frees_of_word (hw _)) (clearRings_spares hw _ (clearRings_spares hw _ h4)))

end AnyWord

/-- The words that show an image in force. -/
def showSlot (b : Bool) (im : Image) (s : State) : State :=
  wrWord ((((s.wr R.CL_BOOT_SLOT [] (b2n b)).wr R.CL_BOOT_SVN [] im.svn).wr R.CL_IMGSEQ_LO [] im.imgSeq).wr R.CL_IMGSEQ_HI []
    (im.imgSeq / 2 ^ 32)) 0x104 im.fwVer

theorem showImage_eq (b : Bool) (im : Image) (s : State) : showImage b im s = { showSlot b im s with image := some im } := rfl

theorem showSlot_spares (hw : ∀ a, k.word a = false) (b : Bool) (im : Image) (h : Spares k s₀ s) : Spares k s₀ (showSlot b im s) :=
  have hf {a : Nat} : k.frees a := k.frees_of_word (hw _)
  wrWord_spares _ hf (wr_spares _ hf (wr_spares _ hf (wr_spares _ hf (wr_spares _ hf h))))

/-! ## The slots -/

theorem slotDir_first {f : Flash} (h : dirSecond f = false) (h0 : f.dir0.ok = true) : slotDir f = f.dir0 := by simp [slotDir, h, h0]

theorem slotDir_second {f : Flash} (h : dirSecond f = true) : slotDir f = f.dir1 := by simp [slotDir, h]

/-- The directory that a write leaves in force, while its counter does not wrap. -/
theorem slotDir_writeDir (g : SlotDir → SlotDir) (f : Flash) (hc : (slotDir f).count < 2 ^ 32 - 3) :
    slotDir (writeDir g f) = { g (slotDir f) with count := ((slotDir f).count + 1) % 2 ^ 32, ok := true } := by
  have hm : ((slotDir f).count + 1) % 2 ^ 32 = (slotDir f).count + 1 := Nat.mod_eq_of_lt (by omega)
  have hd : ({ g (slotDir f) with count := ((slotDir f).count + 1) % 2 ^ 32, ok := true } : SlotDir).count = (slotDir f).count + 1 := hm
  have ho : ({ g (slotDir f) with count := ((slotDir f).count + 1) % 2 ^ 32, ok := true } : SlotDir).ok = true := rfl
  unfold writeDir
  generalize ({ g (slotDir f) with count := ((slotDir f).count + 1) % 2 ^ 32, ok := true } : SlotDir) = d at hd ho ⊢
  by_cases h2 : dirSecond f = true
  · rw [slotDir_second h2] at hd
    exact (congrArg slotDir (if_pos h2)).trans (slotDir_first (f := { f with dir0 := d }) (by simp [dirSecond, hd, ho]) ho)
  · have hs : dirSecond { f with dir1 := d } = true := by
      by_cases h0 : f.dir0.ok = true
      · rw [slotDir_first (by simpa using h2) h0] at hd
        simp [dirSecond, hd, ho]
      · simp [dirSecond, h0, ho]
    exact (congrArg slotDir (if_neg h2)).trans (slotDir_second (f := { f with dir1 := d }) hs)

/-- The state of slot A after it is set. -/
theorem setSlot_false_flash (st : Nat) (s : State) : (setSlot false st s).flash =
    writeDir (fun d => { d with stA := st, seqA := slotSeq (crcHit .cl 1 s).flash.slotA }) s.flash := by
  have hk : Spares ⟨fun _ => true, true, true, true, true, true⟩ s (crcHit .cl 1 s) := crcHit_spares _ _ .refl
  have hf : (crcHit .cl 1 s).flash = s.flash := (hk.store rfl).2
  unfold setSlot
  dsimp only
  rw [if_neg Bool.false_ne_true, wr_flash, hf]

end Sys2Proof.Machine
end

section

/-! PROOFS. The start of a load after the release of PORST_N (R397, R398). -/

namespace Sys2Proof.Machine

variable {k : Keep} {s₀ s t : State}

/-! ## The start of a load -/

theorem latchOtp_spares (hw : k.low) (h : Spares k s₀ s) : Spares k s₀ (latchOtp s) :=
  wr_spares _ (hw.frees (by decide)) (wr_spares _ (hw.frees (by decide)) (showOtp_spares hw h))

/-- LOAD with the one-time memory latched and the slots shown. -/
def bootState (s : State) : State :=
  let s1 := latchOtp (enterMode mLoad s.modes.resetCause s)
  (s1.wr R.CL_BOOT_STATE_A [] (slotState s1 false)).wr R.CL_BOOT_STATE_B [] (slotState s1 true)

theorem bootState_spares_entry (hw : k.low) (s : State) : Spares k (enterMode mLoad s.modes.resetCause s) (bootState s) :=
  wr_spares _ (hw.frees (by decide)) (wr_spares _ (hw.frees (by decide)) (latchOtp_spares hw .refl))

theorem bootState_run (s : State) : (bootState s).flag R.PCV_CTRL_RUN [] = true := by
  unfold State.flag bootState latchOtp
  dsimp only
  rw [rd_wr_apart _ _ _ _ _ _ (by decide) (by decide), rd_wr_apart _ _ _ _ _ _ (by decide) (by decide),
    rd_wr_same _ _ _ _ (by decide)]
  rfl

theorem startLoad_eq (h : s.modes.latched = []) :
    startLoad s = tryLoad (slotOrder (dropTried (bootState s))) true (dropTried (bootState s)) :=
  if_neg (by simp [h])

theorem dropTried_eq (ha : slotState s false ≠ 3) (hb : slotState s true ≠ 3) : dropTried s = s := by
  simp [dropTried, ha, hb]

/-! ## One slot is tried -/

theorem verifyImage_le (o : Otp) (im : Image) : verifyImage o im ≤ 6 := by
  unfold verifyImage
  cases h : (span 1 6).find? (failsItem o im) with
  | none => exact Nat.zero_le _
  | some i =>
    have := mem_span.1 (List.mem_of_find?_eq_some h)
    exact Nat.le_of_lt_succ this.2

/-- The state in which slot A is given up, its failed item shown. -/
def slotAFailed (im : Image) (s : State) : State :=
  raise .cl 1 (slotCause false) ((setSlot false 4 s).wr R.CL_BOOT_FAILITEM [] (verifyImage s.otp im))

theorem tryLoad_slotA {im : Image} (hs : slotState s false ≠ 3) (hc : s.flash.capable = true) (hi : s.flash.slotA = some im) :
    tryLoad [false] true s =
      if verifyImage s.otp im = 0 then applyImage false im s else tryLoad [] false (slotAFailed im s) := by
  have hi' : slotImage s false = some im := hi
  conv_lhs => unfold tryLoad
  rw [if_neg hs]
  simp only [hi', hc, Bool.true_and, beq_iff_eq, if_true]
  rfl

/-- With no slot left, the module knows that it has no image, and nothing else changes. -/
theorem tryLoad_none (first : Bool) (s : State) : ∃ t, tryLoad [] first s = t ∧ t.regs = s.regs ∧
    t.modes = { s.modes with noImage := true } ∧ t.image = s.image ∧ t.otp = s.otp ∧ t.flash = s.flash :=
  ⟨_, rfl, rfl, rfl, rfl, rfl, rfl⟩

theorem applyImage_keeps (im : Image) (s : State) : (applyImage false im s).image = some im ∧ (applyImage false im s).otp = s.otp ∧
    (applyImage false im s).modes = s.modes := by
  have h1 : Spares ⟨fun _ => false, true, false, false, true, false⟩ (showImage false im s) (applyImage false im s) :=
    applyImage_spares (fun _ => rfl) rfl rfl rfl false im s
  have h2 : Spares ⟨fun _ => false, true, false, false, true, false⟩ s (showSlot false im s) := showSlot_spares (fun _ => rfl) _ _ .refl
  rw [showImage_eq] at h1
  generalize showSlot false im s = x at h1 h2
  exact ⟨h1.image, (h1.store rfl).1.trans (h2.store rfl).1, (h1.modes rfl).trans (h2.modes rfl)⟩

theorem setSlot_false_otp (st : Nat) (s : State) : (setSlot false st s).otp = s.otp := by
  have hk : Spares ⟨fun _ => true, true, true, true, true, true⟩ s (crcHit .cl 1 s) := crcHit_spares _ _ .refl
  unfold setSlot
  dsimp only
  rw [if_neg Bool.false_ne_true, wr_otp]
  exact (hk.store rfl).1

theorem slotAFailed_keeps (im : Image) (s : State) : (slotAFailed im s).image = s.image ∧ (slotAFailed im s).otp = s.otp ∧
    (slotAFailed im s).modes = s.modes ∧ (slotAFailed im s).flash = (setSlot false 4 s).flash := by
  have h1 : Spares ⟨fun _ => false, true, true, true, false, true⟩ s (setSlot false 4 s) :=
    setSlot_spares (by simp [Keep.low]) rfl _ _ .refl
  have h2 : Spares ⟨fun _ => false, true, true, true, true, true⟩ (setSlot false 4 s) (slotAFailed im s) :=
    raise_spares _ _ _ (wr_spares _ (Keep.frees_of_word rfl) .refl)
  obtain ⟨ho, hf⟩ := h2.store rfl
  exact ⟨h2.image.trans h1.image, ho.trans (setSlot_false_otp _ _), (h2.modes rfl).trans (h1.modes rfl), hf⟩

theorem slotAFailed_shows (im : Image) (s : State) : bitN (readN (slotAFailed im s) Blk.cl.base) 1 = true ∧
    (slotAFailed im s).rd R.CL_BOOT_FAILITEM [] = verifyImage s.otp im := by
  have hk (x : State) : Spares ⟨fun _ => true, true, true, true, true, true⟩ x (raise .cl 1 (slotCause false) x) := raise_spares _ _ _ .refl
  refine ⟨raise_status_bit _ _ _ (by decide) (by decide), ?_⟩
  unfold slotAFailed
  rw [(hk _).rd_ctl rfl rfl (by decide), rd_wr_same _ _ _ _ (by decide)]
  refine Nat.mod_eq_of_lt (Nat.lt_of_le_of_lt (verifyImage_le _ _) ?_)
  decide

/-! ## The clauses -/

/-- With supplies, the ACTIVE slot is verified: it comes into force, or it is given up. -/
theorem porstNRelease_loads (s : State) (mid : Nat) (o : Otp) (f : Flash) (im : Image) (hp : s.modes.porst = true)
    (hl : s.modes.latched = []) (hc : f.capable = true) (hi : f.slotA = some im) (hA : (slotDir f).stA = 2) (hB : (slotDir f).stB = 0)
    (hn : (slotDir f).count < 2 ^ 32 - 3) :
    runs (.porstNRelease mid true (some o) (some f)) s fun t =>
      t.image = (if verifyImage o im = 0 then some im else s.image) ∧ t.otp = o ∧ t.modes.porst = false ∧
      (verifyImage o im ≠ 0 → (slotDir t.flash).stA = 4 ∧ t.modes.noImage = true ∧ bitN (readN t Blk.cl.base) 1 = true ∧
        t.rd R.CL_BOOT_FAILITEM [] = verifyImage o im) := by
  have hx := execPorstNRelease_eq mid true (some o) (some f) hp
  rw [if_pos rfl] at hx
  have hlat : (strapped mid true (some o) (some f) s).modes.latched = [] := by rw [strapped_modes]; exact hl
  have hE : Enters ⟨fun _ => false, false, false, false, true, true⟩ mLoad (strapped mid true (some o) (some f) s) :=
    ⟨rfl, rfl, .inr fun _ => rfl, fun h => absurd h (by decide), .inr rfl, fun _ => by decide⟩
  have hb : Spares ⟨fun _ => false, false, false, false, true, true⟩ (strapped mid true (some o) (some f) s)
      (bootState (strapped mid true (some o) (some f) s)) :=
    (enterMode_spares _ rfl hE).trans (bootState_spares_entry (by simp [Keep.low]) _)
  have hst := hb.steady
  rw [strapped_modes] at hst
  have hm : (bootState (strapped mid true (some o) (some f) s)).modes.porst = false := (congrArg ModeSt.porst hst : _)
  obtain ⟨ho, hf⟩ := hb.store rfl
  have hbi := hb.image
  rw [strapped_otp] at ho
  rw [strapped_flash] at hf
  rw [strapped_image] at hbi
  rw [startLoad_eq hlat] at hx
  generalize bootState (strapped mid true (some o) (some f) s) = b at *
  have hsA : slotState b false = 2 := by simp [slotState, hf, hA]
  have hsB : slotState b true = 0 := by simp [slotState, hf, hB]
  have hord : slotOrder b = [false] := by simp [slotOrder, hsA, hsB]
  have hfA : b.flash.slotA = some im := by rw [hf]; exact hi
  have hfc : b.flash.capable = true := by rw [hf]; exact hc
  have hvo : b.otp = o := ho
  rw [dropTried_eq (by omega) (by omega), hord, tryLoad_slotA (by omega) hfc hfA, hvo] at hx
  by_cases hv : verifyImage o im = 0
  · obtain ⟨h1, h2, h3⟩ := applyImage_keeps im b
    rw [if_pos hv] at hx
    rw [if_pos hv]
    exact ⟨_, hx, h1, h2.trans hvo, by rw [h3, hm], fun h => absurd hv h⟩
  · obtain ⟨h1, h2, h3, h4⟩ := slotAFailed_keeps im b
    obtain ⟨h5, h6⟩ := slotAFailed_shows im b
    have hn' : (slotDir b.flash).count < 2 ^ 32 - 3 := by rw [hf]; exact hn
    rw [hvo] at h6
    rw [setSlot_false_flash] at h4
    rw [if_neg hv] at hx
    rw [if_neg hv]
    generalize slotAFailed im b = x at *
    obtain ⟨t, ht, hregs, hmod, him, hot, hfl⟩ := tryLoad_none false x
    rw [ht] at hx
    refine ⟨t, hx, him.trans (h1.trans hbi), hot.trans (h2.trans hvo), by rw [hmod, h3]; exact hm, fun _ => ⟨?_, by rw [hmod], ?_, ?_⟩⟩
    · rw [hfl, h4, slotDir_writeDir _ _ hn']
    · have hr : readN t Blk.cl.base = readN x Blk.cl.base := by unfold readN; rw [hregs]
      rw [hr, h5]
    · rw [rd_congr hregs, h6]

/-- Without an image in any slot. -/
theorem porstNRelease_noSlot (s : State) (mid : Nat) (hp : s.modes.porst = true) (hl : s.modes.latched = [])
    (hA : (slotDir s.flash).stA = 0) (hB : (slotDir s.flash).stB = 0) (hn : noOverlays s = true) (h0 : s.evs = []) :
    runs (.porstNRelease mid true none none) s fun t =>
      modeOf t = mLoad ∧ t.modes.noImage = true ∧ t.rd R.GLB_MID_MID [] = mid % 64 ∧
      t.rd R.PWR_MODE_CAUSE [] = s.modes.resetCause % 2 ^ R.PWR_MODE_CAUSE.width ∧ t.flag R.PCV_CTRL_RUN [] = true := by
  have hx := execPorstNRelease_eq mid true none none hp
  rw [if_pos rfl] at hx
  have hlat : (strapped mid true none none s).modes.latched = [] := by rw [strapped_modes]; exact hl
  have hcause : (strapped mid true none none s).modes.resetCause = s.modes.resetCause := by rw [strapped_modes]
  have hmid := strapped_mid mid true none none s
  have hfl := strapped_flash mid true none none s
  have hE : Enters Keep.entry mLoad (strapped mid true none none s) :=
    ⟨rfl, rfl, .inl ((noOverlays_congr (strapped_image ..)).trans hn), fun h => absurd h (by decide),
      .inl ((strapped_evs ..).trans h0), fun _ => by decide⟩
  rw [startLoad_eq hlat] at hx
  generalize strapped mid true none none s = x at *
  have hb : Spares ⟨fun a => decide (a < 0x200000), false, false, false, true, true⟩ (enterMode mLoad x.modes.resetCause x) (bootState x) :=
    bootState_spares_entry (fun _ h => of_decide_eq_true h) _
  have hf : (bootState x).flash = s.flash := (hb.store rfl).2.trans (((enterMode_spares_off _ hE).store rfl).2.trans hfl)
  have hsA : slotState (bootState x) false = 0 := by simp [slotState, hf, hA]
  have hsB : slotState (bootState x) true = 0 := by simp [slotState, hf, hB]
  have hord : slotOrder (bootState x) = [] := by simp [slotOrder, hsA, hsB]
  rw [dropTried_eq (by omega) (by omega), hord] at hx
  have hrun := bootState_run x
  generalize bootState x = b at *
  obtain ⟨t, ht, hregs, hmod, -⟩ := tryLoad_none true b
  rw [ht] at hx
  have hrd (F : Fld) : t.rd F [] = b.rd F [] := rd_congr hregs F []
  refine ⟨t, hx, ?_, by rw [hmod], ?_, ?_, ?_⟩
  · exact (hrd _).trans ((hb.rd_mode rfl rfl).trans (enterMode_cur _ rfl hE))
  · rw [hrd, hb.rd_ctl rfl rfl (by decide), enterMode_rd_ctl _ hE rfl rfl (by decide), hmid]
  · rw [hrd, hb.rd_mode rfl rfl, enterMode_cause _ rfl hE, hcause]
    rfl
  · unfold State.flag
    rw [hrd]
    exact hrun

/-- Settles O10, by the entries to RESET and the four ways out of it. -/
theorem resetEntries : Obligations.ResetEntries :=
  ⟨porstNAssert_resets, pwrInternalReset_resets, porstNRelease_waits, porstNRelease_loads, porstNRelease_noSlot, midStrapChange_faults⟩

end Sys2Proof.Machine
end

section

/-! PROOFS. The start and the end of a calibration run (R253, R254). -/

namespace Sys2Proof.Machine

variable {k : Keep} {s₀ s t : State}

theorem Spares.setRecord {f : Flash} {c : CalSt} (hs : k.store = false) (he : k.events = false) (h : Spares k s₀ s) :
    Spares k s₀ { s with flash := f, calx := c } :=
  ⟨h.word, h.mode, h.steady, h.modes, by simp [he], h.noEvs, h.drives, by simp [hs], h.cal, h.time, h.image⟩

/-! ## The start of a run -/

/-- A due run leaves DARK for CALIBRATE. -/
theorem calRunStart_runs (s : State) (hm : modeOf s = mDark) (hd : s.modes.dark = true ∨ s.flag R.CAL_RECORD_VALID [] = false)
    (hdue : runDue s = true) (hph : s.rd R.CAL_RUN_PHASE [] = 0) (hi : islServing s 0 = true) (hl : s.modes.leaving = none)
    (hn : noOverlays s = true) (h0 : s.evs = []) : runs .calRunStart s fun t =>
      modeOf t = mCalibrate ∧ t.rd R.PWR_MODE_CAUSE [] = 4 ∧ t.rd R.PWR_MODE_PREV [] = mDark ∧
      t.rd R.CAL_RUN_PHASE [] = 1 ∧ t.rd R.CAL_RUN_PROGRESS [] = 0 ∧ t.modes.calFrom = mDark ∧ t.calx.start = s.time := by
  have hx : exec .calRunStart s = .next (startRun 0x04 s) := congrArg _ (if_pos ⟨hm, by simpa using hd, hdue, hph, hi, hl⟩)
  have hE : Enters Keep.entry mCalibrate { s with modes := { s.modes with calFrom := modeOf s } } :=
    ⟨rfl, rfl, .inl hn, by decide, .inl h0, fun _ => by decide⟩
  have hcur := enterMode_cur 0x04 rfl hE
  have hcause := enterMode_cause 0x04 rfl hE
  have hprev := enterMode_prev 0x04 rfl hE
  have hst := enterMode_spares_off 0x04 hE
  unfold startRun at hx
  generalize enterMode mCalibrate 0x04 { s with modes := { s.modes with calFrom := modeOf s } } = s1 at *
  dsimp only at hx
  refine ⟨_, hx, ?_, ?_, ?_, ?_, ?_, ?_, ?_⟩
  · exact (rd_wr_apart _ _ _ _ _ _ (by decide) (by decide)).trans ((rd_wr_apart _ _ _ _ _ _ (by decide) (by decide)).trans hcur)
  · exact (rd_wr_apart _ _ _ _ _ _ (by decide) (by decide)).trans ((rd_wr_apart _ _ _ _ _ _ (by decide) (by decide)).trans hcause)
  · exact (rd_wr_apart _ _ _ _ _ _ (by decide) (by decide)).trans ((rd_wr_apart _ _ _ _ _ _ (by decide) (by decide)).trans (hprev.trans hm))
  · exact (rd_wr_apart _ _ _ _ _ _ (by decide) (by decide)).trans (rd_wr_same _ _ _ _ (by decide))
  · exact rd_wr_same _ _ _ _ (by decide)
  · rw [wr_modes, wr_modes]
    exact (congrArg ModeSt.calFrom hst.steady).trans hm
  · rw [wr_calx, wr_calx]
    exact hst.time

/-! ## The end of a run -/

/-- A run from DARK that may be stopped: the state has the run's phase, no overlays and no pending events. -/
structure RunFromDark (s : State) : Prop where
  mode : modeOf s = mCalibrate
  phase : s.rd R.CAL_RUN_PHASE [] ≠ 0
  fromDark : s.modes.calFrom = mDark
  calm : noOverlays s = true ∧ s.evs = []
  lockout : s.flag R.PWR_MODE_C_LOCKOUT [] = false
  stop : s.flag R.PWR_MODE_C_STOP [] = false

/-- What a run's own operations leave as it is before the run is stopped. -/
theorem RunFromDark.of_spares (h : RunFromDark s) (hs : Spares k s t) (hw : k.word 0x100010 = true) (hc : k.word 0x4000100 = true) :
    RunFromDark t := by
  obtain ⟨hm, hp, hf, ⟨hn, h0⟩, hl, hst⟩ := h
  have hr {F : Fld} (hF : modeField F = true) : t.rd F [] = s.rd F [] := hs.rd_mode hw hF
  refine ⟨(hr rfl).trans hm, ?_, (congrArg ModeSt.calFrom hs.steady).trans hf, ⟨(noOverlays_congr hs.image).trans hn, hs.noEvs h0⟩, ?_, ?_⟩
  · rw [hs.rd_ctl (F := R.CAL_RUN_PHASE) (ix := []) hc rfl (by decide)]
    exact hp
  · unfold State.flag
    rw [hr rfl]
    exact hl
  · unfold State.flag
    rw [hr rfl]
    exact hst

theorem RunFromDark.progress (v : Nat) (h : RunFromDark s) : RunFromDark (s.wr R.CAL_RUN_PROGRESS [] v) := by
  obtain ⟨hm, hp, hf, ⟨hn, h0⟩, hl, hst⟩ := h
  refine ⟨?_, ?_, ?_, ⟨?_, ?_⟩, ?_, ?_⟩
  · exact (rd_wr_apart _ _ _ _ _ _ (by decide) (by decide)).trans hm
  · rw [rd_wr_apart _ _ _ _ _ _ (by decide) (by decide)]
    exact hp
  · rw [wr_modes]
    exact hf
  · exact (noOverlays_congr (wr_image _ _ _ _)).trans hn
  · exact (wr_evs _ _ _ _).trans h0
  · unfold State.flag
    rw [rd_wr_apart _ _ _ _ _ _ (by decide) (by decide)]
    exact hl
  · unfold State.flag
    rw [rd_wr_apart _ _ _ _ _ _ (by decide) (by decide)]
    exact hst

/-- The marks of a run that is over. -/
def markOver (res : Nat) (s : State) : State :=
  { s with modes := { s.modes with ran := true, lastOk := decide (res = 1), crpd := false },
           calx := { s.calx with inject := none, divert := none, crpdAt := none } }

/-- The result shows and the run is over, before the mode changes. -/
def runOver (res : Nat) (s : State) : State := markOver res ((s.wr R.CAL_RUN_RESULT [] res).wr R.CAL_RUN_PHASE [] 0)

theorem markOver_regs (res : Nat) (s : State) : (markOver res s).regs = s.regs := rfl
theorem markOver_image (res : Nat) (s : State) : (markOver res s).image = s.image := rfl
theorem markOver_evs (res : Nat) (s : State) : (markOver res s).evs = s.evs := rfl
theorem markOver_flash (res : Nat) (s : State) : (markOver res s).flash = s.flash := rfl
theorem markOver_wcal (res : Nat) (s : State) : (markOver res s).wcal = s.wcal := rfl
theorem markOver_modes (res : Nat) (s : State) :
    (markOver res s).modes = { s.modes with ran := true, lastOk := decide (res = 1), crpd := false } := rfl

section RunOver
variable (res : Nat) (s : State)

theorem runOver_rd (F : Fld) (hF : F.lo + F.width ≤ 32)
    (h : fldApart R.CAL_RUN_RESULT [] F [] = true ∧ fldApart R.CAL_RUN_PHASE [] F [] = true) : (runOver res s).rd F [] = s.rd F [] := by
  unfold runOver
  rw [rd_congr (markOver_regs _ _), rd_wr_apart _ _ _ _ _ _ hF h.2, rd_wr_apart _ _ _ _ _ _ hF h.1]

theorem runOver_result : (runOver res s).rd R.CAL_RUN_RESULT [] = res % 2 ^ 4 := by
  unfold runOver
  rw [rd_congr (markOver_regs _ _), rd_wr_apart _ _ _ _ _ _ (by decide) (by decide), rd_wr_same _ _ _ _ (by decide)]
  rfl

theorem runOver_phase : (runOver res s).rd R.CAL_RUN_PHASE [] = 0 := by
  unfold runOver
  rw [rd_congr (markOver_regs _ _), rd_wr_same _ _ _ _ (by decide)]
  rfl

theorem runOver_record : readN (runOver res s) 0x400011C = readN s 0x400011C := by
  unfold runOver
  have h (x : State) : readN (markOver res x) 0x400011C = readN x 0x400011C := by unfold readN; rw [markOver_regs]
  rw [h, readN_wr_other _ _ _ _ _ (by decide), readN_wr_other _ _ _ _ _ (by decide)]

theorem runOver_modes : (runOver res s).modes = { s.modes with ran := true, lastOk := decide (res = 1), crpd := false } := by
  unfold runOver
  rw [markOver_modes, wr_modes, wr_modes]

theorem runOver_image : (runOver res s).image = s.image := by
  unfold runOver
  rw [markOver_image, wr_image, wr_image]

theorem runOver_evs : (runOver res s).evs = s.evs := by
  unfold runOver
  rw [markOver_evs, wr_evs, wr_evs]

theorem runOver_flash : (runOver res s).flash = s.flash := by
  unfold runOver
  rw [markOver_flash, wr_flash, wr_flash]

theorem runOver_wcal : (runOver res s).wcal = s.wcal := by
  unfold runOver
  rw [markOver_wcal, wr_wcal, wr_wcal]

end RunOver

/-- What the end of a run from DARK shows. -/
structure RunEnded (res : Nat) (s t : State) : Prop where
  result : t.rd R.CAL_RUN_RESULT [] = res % 2 ^ 4
  phase : t.rd R.CAL_RUN_PHASE [] = 0
  mode : modeOf t = mDark
  cause : t.rd R.PWR_MODE_CAUSE [] = 5
  ran : t.modes.ran = true
  lastOk : t.modes.lastOk = decide (res = 1)
  crpd : t.modes.crpd = false
  flash : t.flash = s.flash
  wcal : t.wcal = s.wcal
  record : readN t 0x400011C = readN s 0x400011C

theorem ModeSt.marks_of_steady {m n : ModeSt} (h : m.steady = n.steady) : m.ran = n.ran ∧ m.lastOk = n.lastOk ∧ m.crpd = n.crpd :=
  ⟨(congrArg ModeSt.ran h :), (congrArg ModeSt.lastOk h :), (congrArg ModeSt.crpd h :)⟩

theorem stopRun_dark (res : Nat) (h : RunFromDark s) : RunEnded res s (stopRun res s) := by
  obtain ⟨hm, hp, hf, ⟨hn, h0⟩, hl, hst⟩ := h
  have hm2 : modeOf (runOver res s) = mCalibrate := (runOver_rd _ _ _ (by decide) (by decide)).trans hm
  have hl2 : (runOver res s).flag R.PWR_MODE_C_LOCKOUT [] = false := by
    unfold State.flag
    rw [runOver_rd _ _ _ (by decide) (by decide)]
    exact hl
  have hs2 : (runOver res s).flag R.PWR_MODE_C_STOP [] = false := by
    unfold State.flag
    rw [runOver_rd _ _ _ (by decide) (by decide)]
    exact hst
  have hf2 : ¬ ((runOver res s).modes.calFrom = mMaintain ∧ (runOver res s).flag R.PWR_MODE_C_MAINT [] = true) := by
    rw [runOver_modes]
    exact fun h => absurd (hf.symm.trans h.1) (by decide)
  have hx : stopRun res s = enterMode mDark 0x05 (runOver res s) := by
    unfold stopRun
    rw [if_neg hp]
    extract_lets s1 m1 c1 s2
    have h1 : runOver res s = markOver res s1 := rfl
    clear_value s1
    have h2 : s2 = runOver res s := h1 ▸ rfl
    rw [h2, if_neg (not_not.2 hm2), if_neg (by simp [hl2, hs2]), if_neg hf2]
  have hE : Enters Keep.entryDark mDark (runOver res s) :=
    ⟨rfl, rfl, .inl ((noOverlays_congr (runOver_image _ _)).trans hn), fun _ => rfl, .inl ((runOver_evs _ _).trans h0), fun _ => by decide⟩
  have hk := enterMode_spares_off 0x05 hE
  have hcur := enterMode_cur 0x05 rfl hE
  have hcause := enterMode_cause 0x05 rfl hE
  have hres := (hk.rd_ctl (F := R.CAL_RUN_RESULT) (ix := []) rfl rfl (by decide)).trans (runOver_result res s)
  have hph := (hk.rd_ctl (F := R.CAL_RUN_PHASE) (ix := []) rfl rfl (by decide)).trans (runOver_phase res s)
  have hrec := (hk.word 0x400011C rfl rfl (by decide)).trans (runOver_record res s)
  obtain ⟨hran, hok, hcrpd⟩ := ModeSt.marks_of_steady hk.steady
  have hfl := (hk.store rfl).2.trans (runOver_flash res s)
  have hcal := (hk.cal rfl).trans (runOver_wcal res s)
  rw [runOver_modes] at hran hok hcrpd
  rw [hx]
  generalize enterMode mDark 0x05 (runOver res s) = t at *
  exact ⟨hres, hph, hcur, hcause, hran, hok, hcrpd, hfl, hcal, hrec⟩

theorem RunEnded.record_rd {res : Nat} (h : RunEnded res s t) (F : Fld) (hF : fldAddr F [] = 0x400011C) : t.rd F [] = s.rd F [] := by
  unfold State.rd
  rw [hF, h.record]

/-! ## A run without a record -/

theorem targetRegion_congr (ho : t.otp = s.otp) (hf : t.flash = s.flash) : targetRegion t = targetRegion s := by
  unfold targetRegion candidates
  rw [ho, hf]

/-- A record that cannot be written leaves no valid record in its region. -/
theorem failRecord_flash (s : State) : (failRecord s).flash =
    if targetRegion s = 0 then { s.flash with cr0 := none } else { s.flash with cr1 := none } := by
  have h1 : Spares ⟨fun _ => true, true, true, true, true, true⟩ s (crcHit .cal 0 s) := crcHit_spares _ _ .refl
  have h2 (x : State) : Spares ⟨fun _ => true, true, true, true, true, true⟩ x (raise0 .cal 5 x) := raise0_spares _ _ .refl
  obtain ⟨ho, hf⟩ := h1.store rfl
  unfold failRecord
  dsimp only
  rw [((h2 _).store rfl).2, targetRegion_congr ho hf, hf]

theorem failRecord_spares (he : k.events = false) (hs : k.store = false) (h : Spares k s₀ s) : Spares k s₀ (failRecord s) :=
  raise0_spares _ _ ((crcHit_spares _ _ h).setRecord hs he)

/-- The state in which a run without a record is stopped. -/
def runFailed (o : Nat) (s : State) : State := if o = 2 then raise0 .cal 0 s else if o = 5 then failRecord s else s

theorem runFailed_spares (o : Nat) (he : k.events = false) (hs : k.store = false) (h : Spares k s₀ s) : Spares k s₀ (runFailed o s) :=
  .ite (raise0_spares _ _ h) (.ite (failRecord_spares he hs h) h)

theorem runFailed_flash {o : Nat} (ho : o ≠ 5) (s : State) : (runFailed o s).flash = s.flash := by
  have h2 : Spares ⟨fun _ => true, true, true, true, true, true⟩ s (raise0 .cal 0 s) := raise0_spares _ _ .refl
  unfold runFailed
  rw [if_neg ho]
  split
  · exact (h2.store rfl).2
  · rfl

/-- A run that neither LOCKOUT nor STOP ends is ended by its result 1, 2, 4 or 5. -/
theorem mayEnd_outcome {o : Nat} (h : mayEnd o s = true) (hl : s.flag R.PWR_MODE_C_LOCKOUT [] = false)
    (hs : s.flag R.PWR_MODE_C_STOP [] = false) : o = 1 ∨ o = 2 ∨ o = 4 ∨ o = 5 := by
  unfold mayEnd at h
  split at h <;> simp_all

theorem calRunEnd_failed (s : State) (o : Nat) (m : CalMeas) (failed : List Nat) (hm : modeOf s = mCalibrate)
    (hp : s.rd R.CAL_RUN_PHASE [] ≠ 0) (h2 : 2 ≤ o) (hend : mayEnd o s = true) (hf : s.modes.calFrom = mDark)
    (hn : noOverlays s = true) (h0 : s.evs = []) (hl : s.flag R.PWR_MODE_C_LOCKOUT [] = false)
    (hst : s.flag R.PWR_MODE_C_STOP [] = false) :
    runs (.calRunEnd o m failed) s fun t =>
      t.rd R.CAL_RUN_RESULT [] = o ∧ t.rd R.CAL_RUN_PHASE [] = 0 ∧ modeOf t = mDark ∧ t.rd R.PWR_MODE_CAUSE [] = 5 ∧
      t.modes.ran = true ∧ t.modes.lastOk = false ∧ t.modes.crpd = false ∧ (o ≠ 5 → t.flash = s.flash) ∧
      (o = 5 → t.flash = if targetRegion s = 0 then { s.flash with cr0 := none } else { s.flash with cr1 := none }) ∧
      t.wcal = s.wcal ∧ t.rd R.CAL_RECORD_VALID [] = s.rd R.CAL_RECORD_VALID [] := by
  have hx : exec (.calRunEnd o m failed) s = .next (stopRun o (runFailed o s)) := by
    show execCalRunEnd o m failed s = _
    unfold execCalRunEnd
    rw [if_neg (by simp [hp, hend]), if_neg (by omega)]
    rfl
  have hs : Spares ⟨fun _ => true, true, false, true, false, true⟩ s (runFailed o s) := runFailed_spares o rfl rfl .refl
  have hr : RunFromDark s := ⟨hm, hp, hf, ⟨hn, h0⟩, hl, hst⟩
  have h := stopRun_dark o (hr.of_spares hs rfl rfl)
  have ho := mayEnd_outcome hend hl hst
  refine ⟨_, hx, h.result.trans (Nat.mod_eq_of_lt (by omega)), h.phase, h.mode, h.cause, h.ran, h.lastOk.trans (decide_eq_false (by omega)),
    h.crpd, fun hne => h.flash.trans (runFailed_flash hne s), ?_, h.wcal.trans (hs.cal rfl), ?_⟩
  · rintro rfl
    exact h.flash.trans (failRecord_flash s)
  · exact (h.record_rd R.CAL_RECORD_VALID rfl).trans (hs.rd_ctl rfl rfl (by decide))

end Sys2Proof.Machine
end

section

/-! PROOFS. The end of a run with a record (R254). -/

namespace Sys2Proof.Machine

variable {k : Keep} {s₀ s t : State}

/-! ## What a valid run brings

The measurements go to the words of the record and to the marks of the elements, none of which is a control word. -/

theorem mem_of_nub {x : Nat} {l : List Nat} (h : x ∈ nub l) : x ∈ l := by
  induction l with
  | nil => exact h
  | cons a l ih =>
    unfold nub at h
    split at h
    · exact List.mem_cons_of_mem _ (ih h)
    · rcases List.mem_cons.1 h with rfl | h
      · exact List.mem_cons_self
      · exact List.mem_cons_of_mem _ (ih h)

/-- A well-formed measurement names taps and elements that exist. -/
theorem measuredOf_lt {m : CalMeas} (hm : measOk m = true) {x : Nat} (hx : x ∈ measuredOf m) : x < 36864 := by
  simp only [measOk, Bool.and_eq_true, List.all_eq_true, decide_eq_true_eq] at hm
  obtain ⟨⟨⟨⟨⟨hs, hi⟩, he⟩, hv⟩, ho⟩, -⟩ := hm
  have h := mem_of_nub hx
  simp only [List.mem_append, List.mem_map] at h
  obtain (((⟨y, hy, rfl⟩ | ⟨y, hy, rfl⟩) | ⟨y, hy, rfl⟩) | ⟨y, hy, rfl⟩) | ⟨y, hy, rfl⟩ := h
  · exact hs y hy
  · exact (hi y hy).2
  · have := (he y hy).1.1
    omega
  · have := (hv y hy).1.2
    omega
  · have := (ho y hy).2
    omega

theorem bringRun_spares (he : k.events = false) (hc : k.cal = false) {m : CalMeas} (hm : measOk m = true) (h : Spares k s₀ s) :
    Spares k s₀ (bringRun m s) := by
  unfold bringRun
  extract_lets s1 s2 s3 c7
  have h2 : Spares k s₀ s2 := putCal_spares hc _ (putCal_spares hc _ h)
  have h3 : Spares k s₀ s3 := by
    refine .foldl (fun e hx _ => ?_) h2
    obtain ⟨y, hy, rfl⟩ := List.mem_map.1 hx
    simp only [measOk, Bool.and_eq_true, List.all_eq_true, decide_eq_true_eq] at hm
    have := (hm.1.1.1.2 y hy).1.1
    exact setModel_spares (k.frees_of_ctl (by rw [ctlWord_eq_false_iff]; omega)) (k.frees_of_ctl (by rw [ctlWord_eq_false_iff]; omega)) .refl
  exact h3.setCalx he

theorem showFlags_spares {o : Nat} (ho : o < 512) (h : Spares k s₀ s) : Spares k s₀ (showFlags o s) := by
  have hf : k.frees (0x710004 + 0x8 * o) := k.frees_of_ctl (by rw [ctlWord_eq_false_iff]; omega)
  exact wr_spares _ hf (wr_spares _ hf h)

theorem qualify_spares (hc : k.cal = false) {x : Nat} (hx : x < 36864) (h : Spares k s₀ s) : Spares k s₀ (qualify x s) := by
  have hf {a : Nat} (ha : ctlWord a = false) : k.frees a := k.frees_of_ctl ha
  unfold qualify
  split
  · exact setMapBit_spares _ (hf (by rw [ctlWord_eq_false_iff]; omega)) h
  next hx1 =>
    extract_lets s1 s2
    have h1 : Spares k s₀ s1 := setMapBit_spares _ (hf (by rw [ctlWord_eq_false_iff]; omega))
      (wr_spares (F := R.LT_LOOP_PLCNT) (ix := [x]) _ (hf (a := 0x1000008 + 0x40 * x) (by rw [ctlWord_eq_false_iff]; omega)) h)
    split
    next hx2 =>
      have hb := bankOf_lt x
      have hl := localIx_lt hx2
      have h2 : Spares k s₀ s2 := wr_spares (F := R.EDA_RB_FAIL) (ix := [bankOf x, localIx x]) _
        (hf (a := 0x2040004 + (0x100000 * bankOf x + 0x8 * localIx x)) (by rw [ctlWord_eq_false_iff]; omega)) (putCal_spares hc _ h1)
      have h3 : Spares k s₀ (setMapBit s2 0x731100 x false) := setMapBit_spares _ (hf (by rw [ctlWord_eq_false_iff]; omega)) h2
      exact .ite (setMapBit_spares _ (hf (by rw [ctlWord_eq_false_iff]; omega)) h3) h2
    · exact h1

theorem markSuspect_spares {n : Nat} (hn : n < 35840) (h : Spares k s₀ s) : Spares k s₀ (markSuspect n s) := by
  unfold markSuspect
  extract_lets s1
  have h1 : Spares k s₀ s1 := notifyAll_spares _ _ (setMapBit_spares _ (k.frees_of_ctl (by rw [ctlWord_eq_false_iff]; omega)) h)
  split
  · exact h
  · split
    next hi =>
      refine .foldl (fun o ho _ => ?_) (setMapBit_spares _ (k.frees_of_ctl (by rw [ctlWord_eq_false_iff]; omega)) h1)
      unfold connsOf at ho
      rw [if_pos hi.1] at ho
      have := mem_span.1 (List.mem_filter.1 ho).1
      exact showFlags_spares (by omega) .refl
    · exact h1

theorem suspectMark_spares (hc : k.cal = false) (x : Nat) (h : Spares k s₀ s) : Spares k s₀ (suspectMark x s) := by
  unfold suspectMark
  split
  · exact h
  · split
    · exact notifyAll_spares _ _ (setMapBit_spares _ (k.frees_of_ctl (by rw [ctlWord_eq_false_iff]; omega)) h)
    · extract_lets s1
      have h1 : Spares k s₀ s1 := markSuspect_spares (by omega) (raise0_spares _ _ h)
      exact .ite (putCal_spares hc _ h1) h1

theorem markRun_spares (hc : k.cal = false) {faults measured suspects : List Nat} (hm : ∀ x ∈ measured, x < 36864) (h : Spares k s₀ s) :
    Spares k s₀ (markRun faults measured suspects s) := by
  unfold markRun
  extract_lets failed good s1 s2 s3
  have h1 : Spares k s₀ s1 := .foldl (fun x hx _ => qualify_spares hc (hm x (List.mem_filter.1 hx).1) .refl) h
  have h2 : Spares k s₀ s2 := by
    refine .foldl (fun x hx _ => ?_) h1
    have := of_decide_eq_true (List.mem_filter.1 hx).2
    exact wr_spares (F := R.CAL_EREC_QUAL) (ix := [x]) _ (k.frees_of_ctl (a := 0x480000C + 0x10 * x) (by rw [ctlWord_eq_false_iff]; omega)) .refl
  have h3 : Spares k s₀ s3 := .foldl (fun _ _ _ => suspectMark_spares hc _ .refl) h2
  refine .foldl (fun o ho _ => showFlags_spares ?_ .refl) h3
  have := mem_span.1 (List.mem_filter.1 ho).1
  omega

theorem qualityCheck_spares (h : Spares k s₀ s) : Spares k s₀ (qualityCheck s) := .ite (notifyAll_spares _ _ (raise0_spares _ _ h)) h

/-! ## The record in force -/

theorem nextRecSeq_congr (ho : t.otp = s.otp) (hf : t.flash = s.flash) (hi : t.image = s.image) : nextRecSeq t = nextRecSeq s := by
  unfold nextRecSeq candidates
  rw [ho, hf, hi]

theorem storeRecord_spares (he : k.events = false) (hs : k.store = false) (hw : k.word 0x400011C = false) (h : Spares k s₀ s) :
    Spares k s₀ (storeRecord s) :=
  showRecord_spares (k.frees_of_word hw) _ ((crcHit_spares _ _ h).setRecord hs he)

section ShowRecord
variable (r : CalRec × Nat) (s : State)

theorem showRecord_valid : (showRecord r s).flag R.CAL_RECORD_VALID [] = true := by
  unfold State.flag showRecord
  rw [rd_wr_apart _ _ _ _ _ _ (by decide) (by decide), rd_wr_apart _ _ _ _ _ _ (by decide) (by decide),
    rd_wr_apart _ _ _ _ _ _ (by decide) (by decide), rd_wr_apart _ _ _ _ _ _ (by decide) (by decide), rd_wr_same _ _ _ _ (by decide)]
  rfl

theorem showRecord_dirty : (showRecord r s).flag R.CAL_RECORD_DIRTY [] = false := by
  unfold State.flag showRecord
  rw [rd_wr_apart _ _ _ _ _ _ (by decide) (by decide), rd_wr_same _ _ _ _ (by decide)]
  rfl

theorem showRecord_seq : (showRecord r s).rd R.CAL_RECORD_SEQ [] = r.1.seq % 2 ^ R.CAL_RECORD_SEQ.width := rd_wr_same _ _ _ _ (by decide)

end ShowRecord

/-- The record that a run stores has the next sequence number and is in force. -/
theorem storeRecord_shows (s : State) : (storeRecord s).flag R.CAL_RECORD_VALID [] = true ∧ (storeRecord s).flag R.CAL_RECORD_DIRTY [] = false ∧
    (storeRecord s).rd R.CAL_RECORD_SEQ [] = nextRecSeq s % 2 ^ R.CAL_RECORD_SEQ.width := by
  have h1 : Spares ⟨fun _ => true, true, true, true, true, true⟩ s (crcHit .cal 0 s) := crcHit_spares _ _ .refl
  obtain ⟨ho, hf⟩ := h1.store rfl
  refine ⟨showRecord_valid _ _, showRecord_dirty _ _, (showRecord_seq _ _).trans ?_⟩
  exact congrArg (· % 2 ^ R.CAL_RECORD_SEQ.width) (nextRecSeq_congr ho hf h1.image)

/-! ## A run with a record -/

/-- The state in which a valid run stores its record. -/
def runBrought (m : CalMeas) (failed : List Nat) (s : State) : State :=
  markRun failed ((measuredOf m).filter (wholeOf m)) (suspectsOf (putCal (darkFields s m) s) m) (bringRun m s)

/-- The state in which a valid run is stopped. -/
def runStored (m : CalMeas) (failed : List Nat) (s : State) : State :=
  qualityCheck ((storeRecord (runBrought m failed s)).wr R.CAL_RUN_PROGRESS [] 65535)

theorem runBrought_spares (hm : measOk m = true) (failed : List Nat) (s : State) :
    Spares ⟨fun _ => true, true, false, true, true, false⟩ s (runBrought m failed s) :=
  markRun_spares rfl (fun _ hx => measuredOf_lt hm (List.mem_filter.1 hx).1) (bringRun_spares rfl rfl hm .refl)

theorem runStored_fromDark (hm : measOk m = true) (failed : List Nat) (h : RunFromDark s) : RunFromDark (runStored m failed s) := by
  have h1 : RunFromDark (runBrought m failed s) := h.of_spares (runBrought_spares hm failed s) rfl rfl
  have hk : Spares ⟨(· != 0x400011C), true, false, true, false, true⟩ (runBrought m failed s) (storeRecord (runBrought m failed s)) :=
    storeRecord_spares rfl rfl rfl .refl
  have h2 := (h1.of_spares hk rfl rfl).progress 65535
  have hq : Spares ⟨fun _ => true, true, true, true, true, true⟩ _ (runStored m failed s) := qualityCheck_spares .refl
  exact h2.of_spares hq rfl rfl

/-- The words of the record stay from its storage to the stop of the run. -/
theorem runStored_rd (m : CalMeas) (failed : List Nat) (s : State) (F : Fld) (hF : fldAddr F [] = 0x400011C) :
    (runStored m failed s).rd F [] = (storeRecord (runBrought m failed s)).rd F [] := by
  have hq : Spares ⟨(· == 0x400011C), true, true, true, true, true⟩ (storeRecord (runBrought m failed s)) (runStored m failed s) :=
    qualityCheck_spares (wr_spares _ (Keep.frees_of_word rfl) .refl)
  exact hq.rd_ctl (by simp [hF]) (by rw [hF]; rfl) (by rw [hF]; decide)

theorem calRunEnd_valid (s : State) (m : CalMeas) (failed : List Nat) (hwf : (Instr.calRunEnd 1 m failed).wf = true)
    (hm : modeOf s = mCalibrate) (hp : s.rd R.CAL_RUN_PHASE [] = 8) (hf : s.modes.calFrom = mDark) (hn : noOverlays s = true)
    (h0 : s.evs = []) (hl : s.flag R.PWR_MODE_C_LOCKOUT [] = false) (hst : s.flag R.PWR_MODE_C_STOP [] = false) :
    runs (.calRunEnd 1 m failed) s fun t =>
      t.rd R.CAL_RUN_RESULT [] = 1 ∧ t.rd R.CAL_RUN_PHASE [] = 0 ∧ modeOf t = mDark ∧ t.modes.ran = true ∧
      t.modes.lastOk = true ∧ t.flag R.CAL_RECORD_VALID [] = true ∧ t.flag R.CAL_RECORD_DIRTY [] = false ∧
      t.rd R.CAL_RECORD_SEQ [] = nextRecSeq s % 2 ^ R.CAL_RECORD_SEQ.width := by
  have hx : exec (.calRunEnd 1 m failed) s = .next (stopRun 1 (runStored m failed s)) := by
    show execCalRunEnd 1 m failed s = _
    unfold execCalRunEnd
    rw [if_neg (by simp [hp, mayEnd]), if_pos rfl]
    rfl
  have hmeas : measOk m = true := by
    simp only [Instr.wf, Bool.and_eq_true] at hwf
    exact hwf.1.2
  have hr : RunFromDark s := ⟨hm, by omega, hf, ⟨hn, h0⟩, hl, hst⟩
  have hb := runBrought_spares hmeas failed s
  have hseq : nextRecSeq (runBrought m failed s) = nextRecSeq s := nextRecSeq_congr (hb.store rfl).1 (hb.store rfl).2 hb.image
  have h := stopRun_dark 1 (runStored_fromDark hmeas failed hr)
  have hrd (F : Fld) (hF : fldAddr F [] = 0x400011C) :
      (stopRun 1 (runStored m failed s)).rd F [] = (storeRecord (runBrought m failed s)).rd F [] :=
    (h.record_rd F hF).trans (runStored_rd m failed s F hF)
  obtain ⟨hv, hd, hs⟩ := storeRecord_shows (runBrought m failed s)
  rw [hseq] at hs
  refine ⟨_, hx, h.result, h.phase, h.mode, h.ran, h.lastOk, ?_, ?_, (hrd _ rfl).trans hs⟩
  · unfold State.flag
    rw [hrd _ rfl]
    exact hv
  · unfold State.flag
    rw [hrd _ rfl]
    exact hd

end Sys2Proof.Machine
end

section

/-! PROOFS. The watch for light in DARK while no record is in force (R262). -/

namespace Sys2Proof.Machine

variable {k : Keep} {s₀ s t : State}

/-! ## What a conversion leaves as it is -/

/-- The words of set-point inputs are no control words. -/
theorem Keep.frees_setpt (k : Keep) {c : Nat} (hc : c < 8) : k.frees (0x380300C + 0x10 * c) :=
  k.frees_of_ctl (by rw [ctlWord_eq_false_iff]; omega)

theorem setptTake_spares {c : Nat} (hc : c < 8) (m : Option Nat) (h : Spares k s₀ s) : Spares k s₀ (setptTake c m s) := by
  have hf := k.frees_setpt hc
  have hp (v : Nat) (x : Nat × Nat × Option Nat) : Spares k s₀ (setptPut ((setptLatch c s).wr R.PORT_SETPT_VALID [c] v) c x) :=
    (wr_spares v hf (Spares.update h)).update
  unfold setptTake
  dsimp only
  split
  · exact setptShow_spares hf (.ite (setptLos_spares hf _ (hp _ _)) (hp _ _))
  · exact setptShow_spares hf (.ite (setptLos_spares hf _ (hp _ _)) (hp _ _))

theorem setptConversion_spares {ch : Nat} (hch : ch < 64) (ok : Bool) (v : Int) (h : Spares k s₀ s) :
    Spares k s₀ (setptConversion ch ok v s) := by
  unfold setptConversion
  dsimp only
  split
  next hc => exact setptTake_spares (by omega) _ h
  · exact h

theorem pcvRecord_spares {e : Nat} (he : e < 32) (h : Spares k s₀ s) : Spares k s₀ (pcvRecord e s) := gather_spares (by omega) _ _ _ h

/-- The conversion of an entry before its reading of light: result, warnings, set-point and record. -/
def pcvConverted (entry : Nat) (raw : Int) (s : State) : State :=
  let ch := s.rd R.PCV_SEQ_CH [entry]
  let res := pcvReserved ch
  let ovr := !res && decide (satS 24 raw ≠ raw)
  let uns := unsettled s entry
  let c := if res then 0 else pcvCorrect s ch raw
  let valid := !res && !s.therm.refxBad
  let w := b2n valid * 2 ^ 31 + b2n uns * 2 ^ 30 + b2n ovr * 2 ^ 29 + (s.rd R.PCV_RESULT_CNT [entry] + 1) % 32 * 2 ^ 24 + ofS 24 c
  let s1 := wrWord { s with therm := { s.therm with conv := convOf s entry } } (0x4200300 + 4 * entry) w
  let s2 := if ovr then raise0 .pcv 0 s1 else s1
  let s3 := if uns then raise0 .pcv 2 s2 else s2
  setptConversion ch (valid && !ovr && !uns) c (pcvRecord entry s3)

theorem pcvConvert_crpd {entry : Nat} (h : 30 ≤ entry) (raw : Int) (s : State) (hr : pcvReserved (s.rd R.PCV_SEQ_CH [entry]) = false) :
    pcvConvert entry raw s =
      crpdReading (entry - 30) (pcvCorrect s (s.rd R.PCV_SEQ_CH [entry]) raw) (unsettled s entry) (pcvConverted entry raw s) := by
  have hx : pcvConvert entry raw s =
      if 30 ≤ entry then
        crpdReading (entry - 30) (if pcvReserved (s.rd R.PCV_SEQ_CH [entry]) then 0 else pcvCorrect s (s.rd R.PCV_SEQ_CH [entry]) raw)
          (unsettled s entry) (pcvConverted entry raw s)
      else pcvConverted entry raw s := rfl
  rw [hx, if_pos h, if_neg (by simp [hr])]

theorem pcvConverted_spares {entry : Nat} (he : entry < 32) (raw : Int) (h : Spares k s₀ s) : Spares k s₀ (pcvConverted entry raw s) := by
  unfold pcvConverted
  extract_lets ch res ovr uns c valid w th s1 s2 s3
  have h1 : Spares k s₀ s1 := wrWord_spares _ (k.frees_of_ctl (by rw [ctlWord_eq_false_iff]; omega)) h.update
  have h2 : Spares k s₀ s2 := .ite (raise0_spares _ _ h1) h1
  have h3 : Spares k s₀ s3 := .ite (raise0_spares _ _ h2) h2
  exact setptConversion_spares (rd_lt s R.PCV_SEQ_CH [entry]) _ _ (pcvRecord_spares he h3)

/-! ## A reading of light -/

theorem ofS_lt (w : Nat) (x : Int) : ofS w x < 2 ^ w := by
  unfold ofS
  have h0 : (0 : Int) < ((2 ^ w : Nat) : Int) := by exact_mod_cast Nat.two_pow_pos w
  have := Int.emod_lt_of_pos x h0
  have := Int.emod_nonneg x (Int.ne_of_gt h0)
  omega

/-- A photodiode reading outside a run: its word alone shows it. -/
def crpdShown (p : Nat) (v : Int) (s : State) : State :=
  (s.wr R.CAL_SRC_VALID [p] (b2n (modeOf s != mDark))).wrS R.CAL_SRC_PWR [p] v

theorem crpdShown_spares {p : Nat} (v : Int) (hw : k.word (0x4000104 + 0x4 * p) = false) (h : Spares k s₀ s) :
    Spares k s₀ (crpdShown p v s) := wrS_spares _ (k.frees_of_word hw) (wr_spares _ (k.frees_of_word hw) h)

theorem crpdShown_rd (p : Nat) (v : Int) (s : State) : (crpdShown p v s).rd R.CAL_SRC_PWR [p] = ofS 16 v := by
  unfold crpdShown
  rw [wrS_eq, rd_wr_same _ _ _ _ (by decide)]
  exact Nat.mod_eq_of_lt (ofS_lt 16 v)

/-- What the two conversions keep: all but the word of the photodiode that has just been read. -/
def Keep.light (p : Nat) : Keep := ⟨fun a => a != 0x4000104 + 0x4 * p, true, true, true, true, true⟩

theorem Keep.light_word {p a : Nat} (h : a ≠ 0x4000104 + 0x4 * p) : (Keep.light p).word a = true := bne_iff_ne.2 h

theorem crpdReading_shown {p : Nat} (c : Int) (uns : Bool) (s : State) (hp : p < 2) (hph : s.rd R.CAL_RUN_PHASE [] = 0) :
    crpdReading p c uns s = crpdShown p (Config.crpdPower p (crpdResp s p) c) s := by
  have hs := crpdShown_spares (k := .light p) (p := p) (s := s) (Config.crpdPower p (crpdResp s p) c) (by simp [Keep.light]) .refl
  have h0 : (crpdShown p (Config.crpdPower p (crpdResp s p) c) s).rd R.CAL_RUN_PHASE [] = 0 := by
    rw [hs.rd_ctl (F := R.CAL_RUN_PHASE) (ix := []) (Keep.light_word (a := 0x4000100) (by omega)) rfl (by decide)]
    exact hph
  exact if_neg fun h => h.1 h0

theorem crpdResp_congr (ho : t.otp = s.otp) (hi : t.image = s.image) (p : Nat) : crpdResp t p = crpdResp s p := by
  unfold crpdResp
  rw [ho, hi]

/-- The conversion of photodiode `p` outside a run: its reading, and what stays. -/
theorem pcvConvert_light {p : Nat} (hp : p < 2) (raw : Int) (s : State) (hr : pcvReserved (s.rd R.PCV_SEQ_CH [30 + p]) = false)
    (hph : s.rd R.CAL_RUN_PHASE [] = 0) :
    Spares (.light p) s (pcvConvert (30 + p) raw s) ∧ (pcvConvert (30 + p) raw s).rd R.CAL_SRC_PWR [p] =
      ofS 16 (Config.crpdPower p (crpdResp s p) (pcvCorrect s (s.rd R.PCV_SEQ_CH [30 + p]) raw)) := by
  have h1 : Spares (.light p) s (pcvConverted (30 + p) raw s) := pcvConverted_spares (by omega) raw .refl
  have hph1 : (pcvConverted (30 + p) raw s).rd R.CAL_RUN_PHASE [] = 0 := by
    rw [h1.rd_ctl (F := R.CAL_RUN_PHASE) (ix := []) (Keep.light_word (a := 0x4000100) (by omega)) rfl (by decide)]
    exact hph
  have hresp := crpdResp_congr (h1.store rfl).1 h1.image p
  rw [pcvConvert_crpd (by omega) raw s hr, Nat.add_sub_cancel_left, crpdReading_shown _ _ _ hp hph1, hresp]
  exact ⟨crpdShown_spares _ (by simp [Keep.light]) h1, crpdShown_rd _ _ _⟩

/-- The correction of a channel rests on its calibration words. -/
theorem pcvCorrect_congr {p ch : Nat} (hp : p < 2) (h : Spares (.light p) s t) (hc : ch < 64) (raw : Int) :
    pcvCorrect t ch raw = pcvCorrect s ch raw := by
  have hofs : t.rd R.PCV_CHCAL_OFS [ch] = s.rd R.PCV_CHCAL_OFS [ch] := by
    have ha : fldAddr R.PCV_CHCAL_OFS [ch] = 0x4200404 + 0x8 * ch := rfl
    refine h.rd_ctl (Keep.light_word (by omega)) ?_ (by omega)
    rw [ha]
    simp only [ctlWord, Bool.or_eq_true, Bool.and_eq_true, decide_eq_true_eq]
    omega
  have hgain : t.rd R.PCV_CHCAL_GAIN [ch] = s.rd R.PCV_CHCAL_GAIN [ch] := by
    have ha : fldAddr R.PCV_CHCAL_GAIN [ch] = 0x4200400 + 0x8 * ch := rfl
    refine h.rd_ctl (Keep.light_word (by omega)) ?_ (by omega)
    rw [ha]
    simp only [ctlWord, Bool.or_eq_true, Bool.and_eq_true, decide_eq_true_eq]
    omega
  unfold pcvCorrect State.rdS
  rw [hofs, hgain]

/-! ## The watch -/

theorem crpdsLit_congr (h : t.regs = s.regs) : crpdsLit t = crpdsLit s := by
  unfold crpdsLit State.rdS State.flag
  rw [rd_congr h, rd_congr h, rd_congr h]

/-- The watch notes since when both photodiodes have been lit. -/
theorem noteLight_crpdAt (s : State) :
    (noteLight s).calx.crpdAt = if crpdsLit s then some (s.calx.crpdAt.getD s.time) else none := rfl

/-- The watch notes whether both photodiodes have been lit for a second. -/
theorem noteLight_crpd (s : State) :
    (noteLight s).modes.crpd = (crpdsLit s && decide (s.calx.crpdAt.getD s.time + 1000000000 ≤ s.time)) := by
  unfold noteLight
  cases crpdsLit s with
  | true => simp only [if_true, Bool.true_and]
  | false => simp only [Bool.false_eq_true, if_false, Bool.false_and]

theorem noteLight_rest (s : State) : (noteLight s).regs = s.regs ∧ (noteLight s).flash = s.flash ∧ (noteLight s).drv = s.drv ∧
    (noteLight s).evs = s.evs := ⟨rfl, rfl, rfl, rfl⟩

theorem calLightWatch_notes (s : State) (x y : Int) (hm : modeOf s = mDark) (hv : s.flag R.CAL_RECORD_VALID [] = false)
    (hph : s.rd R.CAL_RUN_PHASE [] = 0) (hrun : pcvRuns s = true) (hx : pcvReserved (s.rd R.PCV_SEQ_CH [30]) = false)
    (hy : pcvReserved (s.rd R.PCV_SEQ_CH [31]) = false) :
    runs (.calLightWatch x y) s fun t =>
      t.rd R.CAL_SRC_PWR [0] = ofS 16 (Config.crpdPower 0 (crpdResp s 0) (pcvCorrect s (s.rd R.PCV_SEQ_CH [30]) x)) ∧
      t.rd R.CAL_SRC_PWR [1] = ofS 16 (Config.crpdPower 1 (crpdResp s 1) (pcvCorrect s (s.rd R.PCV_SEQ_CH [31]) y)) ∧
      t.calx.crpdAt = (if crpdsLit t then some (s.calx.crpdAt.getD s.time) else none) ∧
      t.modes.crpd = (crpdsLit t && decide (s.calx.crpdAt.getD s.time + 1000000000 ≤ s.time)) ∧
      modeOf t = mDark ∧ t.flash = s.flash ∧ t.drv = s.drv ∧ t.evs = s.evs := by
  have hexec : exec (.calLightWatch x y) s = .next (noteLight (pcvConvert 31 y (pcvConvert 30 x s))) :=
    congrArg _ (if_pos ⟨hm, by simp [hv], hph, hrun⟩)
  obtain ⟨k1, hp0⟩ := pcvConvert_light (p := 0) (by decide) x s hx hph
  have hch : (pcvConvert 30 x s).rd R.PCV_SEQ_CH [31] = s.rd R.PCV_SEQ_CH [31] := k1.rd_ctl rfl rfl (by decide)
  have hph1 : (pcvConvert 30 x s).rd R.CAL_RUN_PHASE [] = 0 := (k1.rd_ctl rfl rfl (by decide)).trans hph
  obtain ⟨k2, hp1⟩ := pcvConvert_light (p := 1) (by decide) y (pcvConvert 30 x s) (by rw [hch]; exact hy) hph1
  have hcor := pcvCorrect_congr (by decide) k1 (rd_lt s R.PCV_SEQ_CH [31]) y
  have hresp := crpdResp_congr (k1.store rfl).1 k1.image 1
  rw [hch, hresp, hcor] at hp1
  generalize pcvConvert 30 x s = s1 at *
  generalize pcvConvert 31 y s1 = s2 at *
  obtain ⟨hev1, hcalx1⟩ := k1.events rfl
  obtain ⟨hev2, hcalx2⟩ := k2.events rfl
  have hcalx : s2.calx = s.calx := hcalx2.trans hcalx1
  have htime : s2.time = s.time := k2.time.trans k1.time
  have hx0 : s2.rd R.CAL_SRC_PWR [0] = s1.rd R.CAL_SRC_PWR [0] := k2.rd_ctl rfl rfl (by decide)
  have hmode : modeOf s2 = mDark := (k2.rd_mode rfl rfl).trans ((k1.rd_mode rfl rfl).trans hm)
  have hflash : s2.flash = s.flash := (k2.store rfl).2.trans (k1.store rfl).2
  have hdrv : s2.drv = s.drv := (k2.drives rfl).1.trans (k1.drives rfl).1
  have hat := noteLight_crpdAt s2
  have hcrpd := noteLight_crpd s2
  obtain ⟨hregs, hfl, hdr, hev⟩ := noteLight_rest s2
  rw [← crpdsLit_congr hregs, hcalx, htime] at hat hcrpd
  generalize noteLight s2 = t at *
  exact ⟨t, hexec, (rd_congr hregs _ _).trans (hx0.trans hp0), (rd_congr hregs _ _).trans hp1, hat, hcrpd,
    (rd_congr hregs R.PWR_MODE_CUR []).trans hmode, hfl.trans hflash, hdr.trans hdrv, hev.trans (hev2.trans hev1)⟩

/-- Settles O12, by the start of a run, its two ends and the watch for light. -/
theorem calibrationRuns : Obligations.CalibrationRuns :=
  ⟨calRunStart_runs, calRunEnd_failed, calRunEnd_valid, calLightWatch_notes⟩

end Sys2Proof.Machine
end

section

/-! PROOFS. The array of drives. -/

namespace Sys2Proof.Machine

/-- Settles O5: a step writes the array only through `drvPut`, which passes over an element number outside the fabric (log entry 73), or
drops drives from it, so that every change is one of `Evolves.setDrv`, `Evolves.dropDrv` and `Evolves.noDrv`. -/
theorem drivesStaySound : Obligations.DrivesStaySound := by
  intro s t hs h
  exact (evolves_of_step h).drives hs

end Sys2Proof.Machine
end

section

/-! PROOFS. Element drives: the read-back words of an element, what `drvPut` and a raised bit leave as they are, and the phases of a
kick. -/

namespace Sys2Proof.Machine

variable {s t : State}

/-! ## Element numbers and read-back words -/

theorem elemOfLocal_lt {k i : Nat} (hk : k < 16) (hi : i < 2176) : elemOfLocal k i < nElem := by
  unfold elemOfLocal elemIx nElem
  omega

theorem bankOf_elemOfLocal {k : Nat} (hk : k < 16) (i : Nat) : bankOf (elemOfLocal k i) = k := by
  unfold bankOf elemRow elemOfLocal elemIx
  omega

theorem localIx_elemOfLocal {k : Nat} (hk : k < 16) (i : Nat) : localIx (elemOfLocal k i) = i := by
  unfold localIx elemPlane elemStage elemRow elemPos elemOfLocal elemIx
  omega

theorem elemOfLocal_localIx (e : Nat) : elemOfLocal (bankOf e) (localIx e) = e := by
  unfold elemOfLocal elemIx localIx bankOf elemPlane elemStage elemRow elemPos
  omega

/-- Word 0 of `EDA.RB` holds the fields of the latches, word 1 those of the round. -/
theorem fldAddr_rb (F : Fld) (e : Nat) (hd : F.dims = [(0x100000, 16), (0x8, 2176)]) (hb : 0x2040000 ≤ F.base) :
    fldAddr F [bankOf e, localIx e] = rbAddr e + (F.base - 0x2040000) := by
  simp only [fldAddr, hd, rbAddr, List.zip_cons_cons, List.zip_nil_right, List.map_cons, List.map_nil, List.sum_cons, List.sum_nil]
  omega

/-- An address of the read-back words of a bank. -/
def rbRegion (a : Nat) : Prop := 0x2000000 ≤ a ∧ a < 0x3000000 ∧ 0x40000 ≤ a % 0x100000

theorem rbAddr_bounds {e : Nat} (he : e < nElem) :
    0x2040000 + 0x100000 * bankOf e ≤ rbAddr e ∧ rbAddr e + 4 < 0x2044400 + 0x100000 * bankOf e := by
  have hl := localIx_lt he
  unfold rbAddr
  omega

theorem rbRegion_rbAddr {e : Nat} (he : e < nElem) : rbRegion (rbAddr e) ∧ rbRegion (rbAddr e + 4) := by
  have hb := bankOf_lt e
  have := rbAddr_bounds he
  unfold rbRegion
  omega

/-! ## Storing a drive -/

/-- A drive is stored: the array and the two read-back words of its element are all that changes. -/
theorem drvPut_frame (s : State) (e : Nat) (d : Drv) :
    drvPut s e d = { s with regs := (drvPut s e d).regs, drv := (drvPut s e d).drv } ∧
      wordsKept s (drvPut s e d) [rbAddr e, rbAddr e + 4] := by
  unfold drvPut
  split
  case isFalse => exact ⟨rfl, fun _ _ => rfl⟩
  case isTrue =>
    extract_lets s1 s2
    have h2 : onlyWords s1 s2 [rbAddr e, rbAddr e + 4] := by
      unfold s2
      split
      · exact onlyWords_refl _ _
      · exact onlyWords_wrWord _ _ (onlyWords_refl _ _) (by simp)
    have h3 := onlyWords_wrWord (rbAddr e + 4) (setBits (readN s2 (rbAddr e + 4)) 30 2 (b2n d.frz * 2 + b2n d.ho)) h2 (by simp)
    clear_value s2
    exact ⟨by obtain ⟨h, -⟩ := h3; rw [h], h3.2⟩

theorem drvPut_drv {e : Nat} (he : e < nElem) (s : State) (d : Drv) :
    (drvPut s e d).drv = cellSet (fun _ => Drv.idle) s.drv e d := by
  unfold drvPut
  rw [if_pos he]
  split <;> rfl

theorem drvGet_drvPut {e : Nat} (he : e < nElem) (s : State) (d : Drv) (x : Nat) :
    drvGet (drvPut s e d) x = if x = e then d else drvGet s x := by
  unfold drvGet
  rw [drvPut_drv he, cellGet_set]

theorem drvGet_drvPut_same {e : Nat} (he : e < nElem) (s : State) (d : Drv) : drvGet (drvPut s e d) e = d := by
  rw [drvGet_drvPut he, if_pos rfl]

theorem drvGet_drvPut_other {e x : Nat} (hx : x ≠ e) (s : State) (d : Drv) : drvGet (drvPut s e d) x = drvGet s x := by
  by_cases he : e < nElem
  · rw [drvGet_drvPut he, if_neg hx]
  · unfold drvPut
    rw [if_neg he]

/-- FRZ and HO of word 1 follow the drive, the rest of the word stays. -/
theorem drvPut_word1 {e : Nat} (he : e < nElem) (s : State) (d : Drv) :
    readN (drvPut s e d) (rbAddr e + 4) = setBits (readN s (rbAddr e + 4)) 30 2 (b2n d.frz * 2 + b2n d.ho) % 2 ^ 32 := by
  unfold drvPut
  rw [if_pos he]
  extract_lets s1 s2
  have h2 : readN s2 (rbAddr e + 4) = readN s (rbAddr e + 4) := by
    unfold s2
    split
    · rfl
    · exact readN_wrWord_other _ _ _ _ (by omega)
  rw [readN_wrWord_same, h2]

theorem drvPut_frz {e : Nat} (he : e < nElem) (s : State) (d : Drv) :
    (drvPut s e d).flag R.EDA_RB_FRZ [bankOf e, localIx e] = d.frz := by
  have ha : fldAddr R.EDA_RB_FRZ [bankOf e, localIx e] = rbAddr e + 4 := fldAddr_rb _ _ rfl (by decide)
  have hb : bitsN (setBits (readN s (rbAddr e + 4)) 30 2 (b2n d.frz * 2 + b2n d.ho)) 31 1 = b2n d.frz := by
    have h1 : b2n d.frz ≤ 1 := by cases d.frz <;> decide
    have h2 : b2n d.ho ≤ 1 := by cases d.ho <;> decide
    unfold bitsN setBits
    omega
  unfold State.flag State.rd
  rw [ha, drvPut_word1 he, bitsN_mod _ _ _ (by decide)]
  show (bitsN _ 31 1 == 1) = _
  rw [hb]
  cases d.frz <;> rfl

/-! ## A raised bit -/

theorem raise_frame (b : Blk) (bit : Nat) (c : Cause) (s : State) :
    raise b bit c s = { s with regs := (raise b bit c s).regs, pic := (raise b bit c s).pic } := by
  have h := (raise_snapOnly b bit c s).1
  rw [record_eq] at h
  exact h

/-- A word outside the fault set and below the snapshot block reads as before. -/
theorem readN_raise {b : Blk} {a : Nat} (ha : a < 0x4500000) (hb : a < b.base ∨ b.base + 0x14 < a) (bit : Nat) (c : Cause) (s : State) :
    readN (raise b bit c s) a = readN s a := by
  rw [(raise_snapOnly b bit c s).2 a ha, (record_frame b bit c s).2]
  simp only [recordWords, List.mem_cons, List.not_mem_nil, or_false]
  omega

theorem drvGet_congr (h : t.drv = s.drv) (e : Nat) : drvGet t e = drvGet s e := by unfold drvGet; rw [h]

theorem raise_drvGet (b : Blk) (bit : Nat) (c : Cause) (s : State) (e : Nat) : drvGet (raise b bit c s) e = drvGet s e :=
  drvGet_congr (by rw [raise_frame]) e

theorem eda_base_lt {k : Nat} (hk : k < 16) : (Blk.eda k).base + 0x14 < 0x3000000 := by
  simp only [Blk.base]
  omega

/-- A STATUS field of one bit of a bank shows the bit of the fault set. -/
theorem flag_eda_status (F : Fld) (k : Nat) (hb : F.base = 0x2000000) (hd : F.dims = [(0x100000, 16)]) (hw : F.width = 1) (s : State) :
    s.flag F [k] = bitN (readN s (Blk.eda k).base) F.lo := by
  unfold State.flag State.rd
  simp only [fldAddr, hb, hd, hw, Blk.base, List.zip_cons_cons, List.zip_nil_right, List.map_cons, List.map_nil, List.sum_cons,
    List.sum_nil, Nat.add_zero, bitN, bitsN, Nat.pow_one]

theorem raise_eda_bit {k bit : Nat} (hk : k < 16) (hbit : bit < 32) (c : Cause) (s : State) :
    bitN (readN (raise (.eda k) bit c s) (Blk.eda k).base) bit = true :=
  raise_status_bit _ _ _ (by have := eda_base_lt hk; omega) hbit

/-! ## The phases of a kick -/

/-- A command that stores one drive moves no other, and shows the drive in its read-back words alone. -/
theorem drvPut_moves_one {e : Nat} (he : e < nElem) (s : State) (d : Drv) :
    drvGet (drvPut s e d) e = d ∧ (∀ x, x < nElem → x ≠ e → drvGet (drvPut s e d) x = drvGet s x) ∧
      drvPut s e d = { s with regs := (drvPut s e d).regs, drv := (drvPut s e d).drv } ∧
      wordsKept s (drvPut s e d) [rbAddr e, rbAddr e + 4] :=
  ⟨drvGet_drvPut_same he s d, fun _ _ hx => drvGet_drvPut_other hx s d, drvPut_frame s e d⟩

/-- The state after KICK_WAVEFORM_END. -/
def waveformEnded (e : Nat) (s : State) : State :=
  drvPut s e { drvGet s e with
    phase := 2, h0 := min 102 (drvGet s e).h0, acc := min 102 (drvGet s e).h0 * 16384, hold := min 102 (drvGet s e).h0 }

theorem kickWaveformEnd_runs {e : Nat} (he : e < nElem) (hp : (drvGet s e).phase = 1) :
    exec (.kickWaveformEnd e) s = .next (if 102 < (drvGet s e).h0 then
      raise (.eda (bankOf e)) 3 (Cause.at (rbAddr e)) (waveformEnded e s) else waveformEnded e s) :=
  congrArg _ (if_pos ⟨hp, he⟩)

/-- The end of the waveform loads the accumulator with the clamped H0. -/
theorem kickWaveformEnd_loads (s : State) (e : Nat) (he : e < nElem) (hp : (drvGet s e).phase = 1) :
    runs (.kickWaveformEnd e) s fun t =>
      drvGet t e = { drvGet s e with
        phase := 2, h0 := min 102 (drvGet s e).h0, acc := min 102 (drvGet s e).h0 * 16384, hold := min 102 (drvGet s e).h0 } ∧
      (∀ x, x < nElem → x ≠ e → drvGet t x = drvGet s x) ∧
      (102 < (drvGet s e).h0 → t.flag R.EDA_STATUS_HOLD_CLAMP [bankOf e] = true) := by
  obtain ⟨hsame, hother, -⟩ := drvPut_moves_one he s { drvGet s e with
    phase := 2, h0 := min 102 (drvGet s e).h0, acc := min 102 (drvGet s e).h0 * 16384, hold := min 102 (drvGet s e).h0 }
  refine ⟨_, kickWaveformEnd_runs he hp, ?_⟩
  split
  case isTrue =>
    refine ⟨(raise_drvGet ..).trans hsame, fun x hx hne => (raise_drvGet ..).trans (hother x hx hne), fun _ => ?_⟩
    rw [flag_eda_status _ _ rfl rfl rfl]
    exact raise_eda_bit (bankOf_lt e) (by decide) _ _
  case isFalse h => exact ⟨hsame, hother, fun hc => absurd hc h⟩

theorem rampStart_runs {e : Nat} (he : e < nElem) (hp : (drvGet s e).phase = 2) :
    exec (.rampStart e) s = .next (drvPut s e { drvGet s e with phase := 3 }) :=
  congrArg _ (if_pos ⟨hp, he⟩)

theorem handoverEnd_runs {e : Nat} (he : e < nElem) (hp : (drvGet s e).phase = 3) (ha : (drvGet s e).acc = 0) :
    exec (.handoverEnd e) s = .next (drvPut s e
      { drvGet s e with phase := 0, dec := 0, h0 := 0, hold := 0, dh := 0, ho := false, seg := false }) :=
  congrArg _ (if_pos ⟨hp, ha, he⟩)

theorem driveFreeze_runs {e : Nat} (he : e < nElem) (hh : drvHeld s e = false) :
    exec (.driveFreeze e) s = .next (drvPut s e { drvGet s e with frz := true }) :=
  congrArg _ (if_pos ⟨he, by simp [hh]⟩)

/-- Settles O19: each of the four commands stores one drive. -/
theorem kickPhases : Obligations.KickPhases := by
  refine ⟨kickWaveformEnd_loads, fun s e he hp => ?_, fun s e he hp ha => ?_, fun s e he hh => ?_⟩
  · exact ⟨_, rampStart_runs he hp, drvPut_moves_one he s _⟩
  · exact ⟨_, handoverEnd_runs he hp ha, drvPut_moves_one he s _⟩
  · obtain ⟨hsame, hother, hframe⟩ := drvPut_moves_one he s { drvGet s e with frz := true }
    exact ⟨_, driveFreeze_runs he hh, hsame, drvPut_frz he s _, hother, hframe⟩

end Sys2Proof.Machine
end

section

/-! PROOFS. The hold clamp, beside a read-back that differs: EDA.RB keeps what the round found, so the tick that clamps does not show. -/

namespace Sys2Proof.Machine

/-- A kick of element 0 has ended its waveform at H0 = 102, a loop has added ΔH = 1, and a tick has applied the clamped code. -/
def clampedDrive : Drv := { Drv.idle with phase := 2, h0 := 102, acc := 102 * 16384, hold := 102, dh := 1, ho := true }

/-- Bank 0 is out of its cold clear, and EDA.RB shows the drive. -/
def clampedState : State := drvPut (State.reset.wr R.EDA_CLR_COLD [0] 0) 0 clampedDrive

/-- A READBACK_VISIT has read the hold code 0 from the latches of element 0: EDA.RB shows what it found (R82). -/
def misreadState : State :=
  match exec (.readbackVisit 0 0 0) clampedState with
  | .next t => t
  | _ => clampedState

/-- The state meets every hypothesis of the second clause of O8. -/
theorem misreadState_hypotheses : misreadState.drivesWf = true ∧ islOn misreadState (12 + bankOf 0) = true ∧
    drvHeld misreadState 0 = false ∧ (drvGet misreadState 0).phase = 2 ∧ 102 < holdRaw (drvGet misreadState 0) := by
  decide +kernel

/-- The bank's fold of a tick visits element 0 alone. -/
theorem misreadState_tick : exec (.slewTick (bankOf 0)) misreadState = .next (tickElem misreadState 0) := by
  show Host.Outcome.next _ = _
  rw [if_pos (by decide +kernel), show ((misreadState.drv.filter fun c => bankOf c.1 == bankOf 0).map (·.1)) = [0] by decide +kernel]
  rfl

/-- The tick leaves the drive at 102; its word of EDA.RB, which `drvPut` writes only where the drive's own word changes, still reads 0. -/
theorem misreadState_shows : holdCode (drvGet (tickElem misreadState 0) 0) = 102 ∧
    (tickElem misreadState 0).rd R.EDA_RB_HOLD [bankOf 0, localIx 0] = 0 := by
  decide +kernel

/-- Refutes O8: its second clause also says that EDA.RB shows 102 after the tick, with no hypothesis on what EDA.RB shows before it; after
a READBACK_VISIT that read another hold code, EDA.RB keeps that one while the drive stays at 102. -/
theorem not_holdClamp : ¬ Obligations.HoldClamp := by
  intro h
  obtain ⟨hwf, hon, hheld, hphase, hraw⟩ := misreadState_hypotheses
  obtain ⟨t, ht, -, hshown, -⟩ := h.2.1 misreadState 0 hwf (by decide) hon hheld hphase hraw
  obtain rfl : tickElem misreadState 0 = t := Host.Outcome.next.inj (misreadState_tick.symm.trans ht)
  rw [misreadState_shows.2] at hshown
  exact absurd hshown (by decide)

end Sys2Proof.Machine
end

section

/-! PROOFS. The clears of the banks (R72 to R79): a command that goes through the banks meets each of them as it stood before, and a bank
that is cleared takes the clear code of every element. -/

namespace Sys2Proof.Machine

variable {s t s₀ : State} {k : Nat}

/-! ## One bank in a fold over all banks -/

/-- A word of bank `k`, or one below the banks. -/
def bankReads (k a : Nat) : Prop := a < 0x2000000 ∨ (0x2000000 + 0x100000 * k ≤ a ∧ a < 0x2100000 + 0x100000 * k)

/-- `t` has of bank `k` what `s` has: its record, its drives and its words, with the words below the banks and the mode record. -/
structure KeepsBank (k : Nat) (s t : State) : Prop where
  bank : bankGet t k = bankGet s k
  drv : ∀ e, bankOf e = k → drvGet t e = drvGet s e
  word : ∀ a, bankReads k a → readN t a = readN s a
  modes : t.modes = s.modes

theorem KeepsBank.refl : KeepsBank k s s := ⟨rfl, fun _ _ => rfl, fun _ _ => rfl, rfl⟩

theorem KeepsBank.trans (h : KeepsBank k s₀ s) (h' : KeepsBank k s t) : KeepsBank k s₀ t where
  bank := h'.bank.trans h.bank
  drv e he := (h'.drv e he).trans (h.drv e he)
  word a ha := (h'.word a ha).trans (h.word a ha)
  modes := h'.modes.trans h.modes

theorem KeepsBank.ite {c : Prop} [Decidable c] (h : KeepsBank k s₀ s) (h' : KeepsBank k s₀ t) : KeepsBank k s₀ (if c then s else t) := by
  split <;> assumption

theorem KeepsBank.foldl {α : Type} {f : State → α → State} {l : List α} (hf : ∀ x ∈ l, ∀ s, KeepsBank k s (f s x)) (h : KeepsBank k s₀ s) :
    KeepsBank k s₀ (l.foldl f s) := by
  induction l generalizing s with
  | nil => exact h
  | cons x l ih => exact ih (fun y hy => hf y (List.mem_cons_of_mem _ hy)) (h.trans (hf x List.mem_cons_self s))

theorem KeepsBank.rd (h : KeepsBank k s t) {F : Fld} {ix : List Nat} (ha : bankReads k (fldAddr F ix)) : t.rd F ix = s.rd F ix := by
  unfold State.rd
  rw [h.word _ ha]

theorem KeepsBank.islOn (h : KeepsBank k s t) {i : Nat} (hi : i < 32) : islOn t i = islOn s i := by
  have hr : t.rd R.PWR_ISL_STATE [i] = s.rd R.PWR_ISL_STATE [i] :=
    h.rd (.inl (by simp only [fldAddr, R.PWR_ISL_STATE, List.zip_cons_cons, List.zip_nil_right, List.map_cons, List.map_nil,
      List.sum_cons, List.sum_nil]; omega))
  unfold Machine.islOn islState
  rw [hr]

theorem wrWord_keepsBank {a : Nat} (v : Nat) (ha : ¬ bankReads k a) (h : KeepsBank k s₀ s) : KeepsBank k s₀ (wrWord s a v) :=
  h.trans ⟨rfl, fun _ _ => rfl, fun _ hb => readN_wrWord_other _ _ _ _ fun he => ha (he ▸ hb), rfl⟩

theorem bankPut_keepsBank {j : Nat} (v : BankSt) (hj : j ≠ k) (h : KeepsBank k s₀ s) : KeepsBank k s₀ (bankPut s j v) :=
  h.trans ⟨cellGet_set_other _ _ _ _ _ hj.symm, fun _ _ => rfl, fun _ _ => rfl, rfl⟩

theorem drvPut_keepsBank {e : Nat} (d : Drv) (he : bankOf e ≠ k) (h : KeepsBank k s₀ s) : KeepsBank k s₀ (drvPut s e d) := by
  by_cases hlt : e < nElem
  case neg => unfold drvPut; rwa [if_neg hlt]
  obtain ⟨hf, hw⟩ := drvPut_frame s e d
  have hb := rbAddr_bounds hlt
  refine h.trans ⟨by rw [hf]; rfl, fun x hx => drvGet_drvPut_other (by rintro rfl; exact he hx) s d, fun a ha => hw a ?_, by rw [hf]⟩
  simp only [List.mem_cons, List.not_mem_nil, or_false]
  unfold bankReads at ha
  omega

theorem mem_bankElems_bank {j e : Nat} (hj : j < 16) (he : e ∈ bankElems s j) : bankOf e = j := by
  unfold bankElems at he
  rcases List.mem_append.1 he with h | h
  · obtain ⟨c, -, rfl⟩ := List.mem_map.1 h
    exact bankOf_elemOfLocal hj _
  · obtain ⟨c, hc, rfl⟩ := List.mem_map.1 h
    have := (List.mem_filter.1 hc).2
    simp only [Bool.and_eq_true, beq_iff_eq] at this
    exact this.1

theorem clearBank_keepsBank {j : Nat} (hj : j < 16) (hjk : j ≠ k) (h : KeepsBank k s₀ s) : KeepsBank k s₀ (clearBank j s) :=
  .foldl (fun _ he _ => drvPut_keepsBank _ (by rwa [mem_bankElems_bank hj he]) .refl) h

theorem not_bankReads_clr {j : Nat} (hjk : j ≠ k) : ¬ bankReads k (0x2000110 + 0x100000 * j) := by
  unfold bankReads
  omega

theorem span_append (a m n : Nat) : span a (m + n) = span a m ++ span (a + m) n := by
  induction m generalizing a with
  | zero => simp [span]
  | succ m ih =>
    rw [show m + 1 + n = (m + n) + 1 by omega, span, span, ih, List.cons_append, show a + 1 + m = a + (m + 1) by omega]

/-- A command that goes through the banks, each time leaving the other banks as they are, meets bank `k` as it stood and leaves it so
afterwards. -/
theorem foldl_banks {f : State → Nat → State} (hk : k < 16) (hf : ∀ j, j < 16 → j ≠ k → ∀ t, KeepsBank k t (f t j)) (s : State) :
    ∃ s1, KeepsBank k s s1 ∧ KeepsBank k (f s1 k) ((span 0 16).foldl f s) := by
  have hsplit : span 0 16 = span 0 k ++ k :: span (k + 1) (15 - k) := by
    have hn : 16 = k + ((15 - k) + 1) := by omega
    conv_lhs => rw [hn, span_append, Nat.zero_add, span]
  refine ⟨(span 0 k).foldl f s, .foldl (fun j hj => ?_) .refl, ?_⟩
  · rw [mem_span] at hj
    exact hf j (by omega) (by omega)
  · rw [hsplit, List.foldl_append, List.foldl_cons]
    refine .foldl (fun j hj => ?_) .refl
    rw [mem_span] at hj
    exact hf j (by omega) (by omega)

/-! ## What a clear shows -/

/-- Only drives and their read-back words differ. -/
structure DrivesOnly (s t : State) : Prop where
  frame : t = { s with regs := t.regs, drv := t.drv }
  word : ∀ a, ¬ rbRegion a → readN t a = readN s a

theorem DrivesOnly.refl : DrivesOnly s s := ⟨rfl, fun _ _ => rfl⟩

theorem DrivesOnly.trans (h : DrivesOnly s₀ s) (h' : DrivesOnly s t) : DrivesOnly s₀ t where
  frame := by rw [h'.frame, h.frame]
  word a ha := (h'.word a ha).trans (h.word a ha)

theorem DrivesOnly.rd (h : DrivesOnly s t) {F : Fld} {ix : List Nat} (ha : ¬ rbRegion (fldAddr F ix)) : t.rd F ix = s.rd F ix := by
  unfold State.rd
  rw [h.word _ ha]

theorem DrivesOnly.bankGet (h : DrivesOnly s t) (k : Nat) : bankGet t k = bankGet s k := by rw [h.frame]; rfl

theorem DrivesOnly.modes (h : DrivesOnly s t) : t.modes = s.modes := by rw [h.frame]

theorem drvPut_drivesOnly (s : State) (e : Nat) (d : Drv) : DrivesOnly s (drvPut s e d) := by
  by_cases he : e < nElem
  case neg => unfold drvPut; rw [if_neg he]; exact .refl
  obtain ⟨hf, hw⟩ := drvPut_frame s e d
  obtain ⟨h0, h1⟩ := rbRegion_rbAddr he
  refine ⟨hf, fun a ha => hw a ?_⟩
  simp only [List.mem_cons, List.not_mem_nil, or_false]
  rintro (rfl | rfl) <;> exact ha ‹_›

theorem clearElem_drivesOnly (s : State) (e : Nat) : DrivesOnly s (clearElem s e) := drvPut_drivesOnly s e _

theorem clearElems_drivesOnly (l : List Nat) (s : State) : DrivesOnly s (l.foldl clearElem s) := by
  induction l generalizing s with
  | nil => exact .refl
  | cons x l ih => exact (clearElem_drivesOnly s x).trans (ih _)

/-! ## The clear codes -/

theorem fldAddr_bank (F : Fld) (k : Nat) (hd : F.dims = [(0x100000, 16)]) : fldAddr F [k] = F.base + 0x100000 * k := by
  simp [fldAddr, hd]

theorem fldAddr_pcode (k i : Nat) : fldAddr R.EDA_ECFG_PCODE [k, i] = 0x2020000 + 0x100000 * k + 4 * i := by
  simp only [fldAddr, R.EDA_ECFG_PCODE, List.zip_cons_cons, List.zip_nil_right, List.map_cons, List.map_nil, List.sum_cons, List.sum_nil]
  omega

theorem pcode_not_rbRegion {e : Nat} (he : e < nElem) : ¬ rbRegion (fldAddr R.EDA_ECFG_PCODE [bankOf e, localIx e]) := by
  have hl := localIx_lt he
  rw [fldAddr_pcode]
  unfold rbRegion
  omega

theorem clearCode_congr {e : Nat} (hb : bankGet t (bankOf e) = bankGet s (bankOf e))
    (hp : t.rd R.EDA_ECFG_PCODE [bankOf e, localIx e] = s.rd R.EDA_ECFG_PCODE [bankOf e, localIx e]) : clearCode t e = clearCode s e := by
  unfold clearCode
  rw [hb, hp]

theorem DrivesOnly.clearedDrv (h : DrivesOnly s t) {e : Nat} (he : e < nElem) : clearedDrv t e = clearedDrv s e := by
  have hup : t.rd R.EDA_RANGE_THR_UP [bankOf e] = s.rd R.EDA_RANGE_THR_UP [bankOf e] :=
    h.rd (by rw [fldAddr_bank _ _ rfl]; unfold rbRegion; simp only [R.EDA_RANGE_THR_UP]; omega)
  unfold Machine.clearedDrv
  rw [clearCode_congr (h.bankGet _) (h.rd (pcode_not_rbRegion he)), hup]

/-- A list of elements is cleared: each of them takes its clear code, the others stay. -/
theorem drvGet_clearElems {e : Nat} (he : e < nElem) (l : List Nat) (s : State) :
    drvGet (l.foldl clearElem s) e = if e ∈ l then clearedDrv s e else drvGet s e := by
  induction l generalizing s with
  | nil => rfl
  | cons x l ih =>
    rw [List.foldl_cons, ih, (clearElem_drivesOnly s x).clearedDrv he]
    by_cases hx : e = x
    · subst hx
      simp [clearElem, drvGet_drvPut_same he]
    · simp [hx, clearElem, drvGet_drvPut_other hx]

theorem cellGet_unlisted {α : Type} (d : Nat → α) (c : Cells α) (a : Nat) (h : ∀ p ∈ c, p.1 ≠ a) : cellGet d c a = d a := by
  induction c with
  | nil => rfl
  | cons p c ih =>
    rw [cellGet, if_neg (h p List.mem_cons_self).symm]
    exact ih fun q hq => h q (List.mem_cons_of_mem _ hq)

/-- The reset value of an `EDA.ECFG` word has PCODE 0: of the fields with a reset value, only KSCALE lies in it. -/
theorem resetNat_pcode {k i : Nat} (hk : k < 16) (hi : i < 2176) : 2 ^ 17 ∣ resetNat (0x2020000 + 0x100000 * k + 4 * i) := by
  have hcov : ∀ F ∈ R.EDA_resets, F.covers (0x2020000 + 0x100000 * k + 4 * i) = true → 17 ≤ F.lo := by
    have hone (b : Nat) (hb : 0x2000000 ≤ b ∧ b < 0x2020000) :
        (0x2020000 + 0x100000 * k + 4 * i - b) % 0x100000 ≠ 0 := by omega
    simp only [R.EDA_resets, List.forall_mem_cons, Fld.covers, coversOfs, R.EDA_RB_CLR, R.EDA_SLEW_RSTEP, R.EDA_SLEW_HSTEP, R.EDA_HO_TIME_B3,
      R.EDA_HO_TIME_B2, R.EDA_HO_TIME_B1, R.EDA_HO_TIME_B0, R.EDA_RANGE_THR_UP, R.EDA_RANGE_THR_DN, R.EDA_VPIN_CFG_HMAX,
      R.EDA_VPIN_CFG_QMAX, R.EDA_CLR_COLD, R.EDA_ECFG_KSCALE]
    simp [hone]
  have hsum (l : List Fld) (hl : ∀ F ∈ l, F.covers (0x2020000 + 0x100000 * k + 4 * i) = true → 17 ≤ F.lo) (acc : Nat) (ha : 2 ^ 17 ∣ acc) :
      2 ^ 17 ∣ l.foldl (fun acc F => if F.covers (0x2020000 + 0x100000 * k + 4 * i) then acc + F.rst * 2 ^ F.lo else acc) acc := by
    induction l generalizing acc with
    | nil => exact ha
    | cons F l ih =>
      refine ih (fun G hG => hl G (List.mem_cons_of_mem _ hG)) _ ?_
      beta_reduce
      split
      · exact Nat.dvd_add ha (Dvd.dvd.mul_left (Nat.pow_dvd_pow 2 (hl F List.mem_cons_self ‹_›)) _)
      · exact ha
  have hf : resetFields (0x2020000 + 0x100000 * k + 4 * i) = R.EDA_resets := by
    unfold resetFields
    iterate 11 rw [if_neg (by omega)]
    rw [if_pos (by omega)]
  unfold resetNat
  rw [if_neg (by omega), if_neg (by omega), if_neg (by omega), if_neg (by omega), hf]
  exact hsum _ hcov 0 (Nat.dvd_zero _)

/-- An element that `bankElems` leaves out is at clear code 0 as after reset. -/
theorem unlisted_at_clear {e : Nat} (he : e < nElem) (hn : e ∉ bankElems s (bankOf e)) :
    drvGet s e = Drv.idle ∧ s.rd R.EDA_ECFG_PCODE [bankOf e, localIx e] = 0 := by
  have hl := localIx_lt he
  unfold bankElems at hn
  rw [List.mem_append, not_or] at hn
  obtain ⟨hcfg, hdrv⟩ := hn
  have hword : ∀ p ∈ s.regs, p.1 ≠ 0x2020000 + 0x100000 * bankOf e + 4 * localIx e := by
    intro p hp ha
    refine hcfg (List.mem_map.2 ⟨p, List.mem_filter.2 ⟨hp, ?_⟩, ?_⟩)
    · simp only [Bool.and_eq_true, decide_eq_true_eq]
      omega
    · rw [show (p.1 - (0x2020000 + 0x100000 * bankOf e)) / 4 = localIx e by omega, elemOfLocal_localIx]
  constructor
  · refine cellGet_unlisted _ _ _ fun p hp ha => hdrv (List.mem_map.2 ⟨p, List.mem_filter.2 ⟨hp, ?_⟩, ha⟩)
    rw [ha, Bool.and_eq_true, Bool.not_eq_true', ← Bool.not_eq_true, List.contains_iff_mem]
    exact ⟨beq_self_eq_true _, hcfg⟩
  · obtain ⟨m, hm⟩ := resetNat_pcode (bankOf_lt e) hl
    unfold State.rd readN
    rw [fldAddr_pcode, cellGet_unlisted _ _ _ hword]
    simp only [resetWord, BitVec.toNat_ofNat, hm, bitsN, R.EDA_ECFG_PCODE]
    omega

theorem clearedDrv_zero {e : Nat} (h : clearCode s e = 0) : clearedDrv s e = Drv.idle := by
  unfold clearedDrv
  simp [h, Drv.idle]

/-- A bank that is cleared takes the clear code of every element, listed or not. -/
theorem drvGet_clearBank {e : Nat} (he : e < nElem) (s : State) : drvGet (clearBank (bankOf e) s) e = clearedDrv s e := by
  unfold clearBank
  rw [drvGet_clearElems he]
  split
  · rfl
  · obtain ⟨hd, hp⟩ := unlisted_at_clear he ‹_›
    rw [hd, clearedDrv_zero]
    unfold clearCode
    rw [hp, ite_self]

theorem clearBank_drivesOnly (k : Nat) (s : State) : DrivesOnly s (clearBank k s) := clearElems_drivesOnly _ _

theorem KeepsBank.clearCode (h : KeepsBank (bankOf e) s t) (he : e < nElem) : clearCode t e = clearCode s e := by
  have hl := localIx_lt he
  refine clearCode_congr h.bank (h.rd (.inr ?_))
  rw [fldAddr_pcode]
  omega

/-! ## The clear register -/

/-- A field of `EDA.CLR` of a bank. -/
def clrField (F : Fld) : Prop := F.base = 0x2000110 ∧ F.dims = [(0x100000, 16)] ∧ F.width = 1 ∧ F.lo + F.width ≤ 32

theorem fldAddr_clr {F : Fld} (hF : clrField F) (k : Nat) : fldAddr F [k] = 0x2000110 + 0x100000 * k := by
  obtain ⟨hb, hd, -⟩ := hF
  rw [fldAddr_bank _ _ hd, hb]

/-- A bit of `EDA.CLR` written as the model writes it. -/
theorem wrWord_clr {F : Fld} (hF : clrField F) {bit : Nat} (hlo : F.lo = bit) (k v : Nat) (s : State) :
    wrWord s (0x2000110 + 0x100000 * k) (setBits (readN s (0x2000110 + 0x100000 * k)) bit 1 v) = s.wr F [k] v := by
  unfold State.wr
  rw [fldAddr_clr hF, hF.2.2.1, hlo]

theorem clr_bankReads (k : Nat) : bankReads k (0x2000110 + 0x100000 * k) := .inr (by omega)

theorem KeepsBank.flag_clr (h : KeepsBank k s t) {F : Fld} (hF : clrField F) : t.flag F [k] = s.flag F [k] := by
  unfold State.flag
  rw [h.rd (by rw [fldAddr_clr hF]; exact clr_bankReads k)]

theorem DrivesOnly.flag_clr (h : DrivesOnly s t) {F : Fld} (hF : clrField F) (k : Nat) : t.flag F [k] = s.flag F [k] := by
  unfold State.flag
  rw [h.rd (by rw [fldAddr_clr hF]; unfold rbRegion; omega)]

theorem flag_wr_same {F : Fld} (hw : F.width = 1) (hF : F.lo + F.width ≤ 32) (s : State) (ix : List Nat) (b : Bool) :
    (s.wr F ix (b2n b)).flag F ix = b := by
  unfold State.flag
  rw [rd_wr_same _ _ _ _ hF, hw]
  cases b <;> rfl

theorem pin_clrField : clrField R.EDA_CLR_PIN := ⟨rfl, rfl, rfl, by decide⟩
theorem park_clrField : clrField R.EDA_CLR_PARK := ⟨rfl, rfl, rfl, by decide⟩
theorem cold_clrField : clrField R.EDA_CLR_COLD := ⟨rfl, rfl, rfl, by decide⟩

theorem bitN_setBits_zero (n i : Nat) : bitN (setBits n i 1 0) i = false := by
  rw [bitN_eq, setBits_testBit, if_pos (by omega), Nat.zero_testBit]

/-! ## The clauses -/

/-- The source bit of the ELEM_CLR_N pin, which a bank that starts later meets. -/
def pinSource (v : Nat) (s : State) : State := { s with modes := { s.modes with clr := setBits s.modes.clr 3 1 v } }

/-- The pin clears a powered bank whose source it asserts. -/
theorem elemClrNAssert_clears (s : State) (e : Nat) (he : e < nElem) (hon : islOn s (12 + bankOf e) = true) :
    runs .elemClrNAssert s fun t =>
      t.flag R.EDA_CLR_PIN [bankOf e] = true ∧ bitN t.modes.clr 3 = true ∧ (drvGet t e).cmd = (drvGet t e).out ∧
      (drvGet t e).phase = 0 ∧
      (drvGet t e).out = (if (bankGet s (bankOf e)).loaded then s.rd R.EDA_ECFG_PCODE [bankOf e, localIx e] else 0) := by
  have hb := bankOf_lt e
  obtain ⟨s1, hbefore, hafter⟩ := foldl_banks (f := fun t k => if islOn t (12 + k) then
      clearBank k (wrWord t (0x2000110 + 0x100000 * k) (setBits (readN t (0x2000110 + 0x100000 * k)) 3 1 1)) else t) hb
    (fun j hj hne t => .ite (clearBank_keepsBank hj hne (wrWord_keepsBank _ (not_bankReads_clr hne) .refl)) .refl)
    (pinSource 1 s)
  refine ⟨_, rfl, ?_⟩
  change KeepsBank _ _ (clrSet 3 s) at hafter
  rw [if_pos ((hbefore.islOn (by omega)).trans hon), wrWord_clr pin_clrField (bit := 3) rfl] at hafter
  have honly := clearBank_drivesOnly (bankOf e) (s1.wr R.EDA_CLR_PIN [bankOf e] 1)
  have hd := (hafter.drv e rfl).trans (drvGet_clearBank he _)
  have hcode : clearCode (s1.wr R.EDA_CLR_PIN [bankOf e] 1) e = clearCode s e := by
    have hbank : clearCode s1 e = clearCode s e := hbefore.clearCode he
    rw [← hbank]
    refine clearCode_congr rfl (rd_wr_word _ _ _ _ _ _ ?_)
    rw [fldAddr_pcode, fldAddr_clr pin_clrField]
    omega
  refine ⟨?_, ?_, by rw [hd]; rfl, by rw [hd]; rfl, by rw [hd]; exact hcode⟩
  · rw [hafter.flag_clr pin_clrField, honly.flag_clr pin_clrField]
    exact flag_wr_same rfl (by decide) s1 _ true
  · rw [hafter.modes, honly.modes, wr_modes, hbefore.modes]
    exact bitN_setBits_one _ _

theorem foldl_regsOnly {α : Type} {f : State → α → State} (hf : ∀ t x, f t x = { t with regs := (f t x).regs }) (l : List α) (s : State) :
    l.foldl f s = { s with regs := (l.foldl f s).regs } := by
  induction l generalizing s with
  | nil => rfl
  | cons x l ih =>
    rw [List.foldl_cons, ih (f s x)]
    rw [hf s x]

/-- The release of the pin writes its bit alone. -/
theorem elemClrNRelease_leaves (s : State) (k : Nat) (hk : k < 16) (hon : islOn s (12 + k) = true) :
    runs .elemClrNRelease s fun t =>
      t.flag R.EDA_CLR_PIN [k] = false ∧ bitN t.modes.clr 3 = false ∧
      t = { s with regs := t.regs, modes := { s.modes with clr := t.modes.clr } } ∧
      t.flag R.EDA_CLR_PARK [k] = s.flag R.EDA_CLR_PARK [k] ∧ t.flag R.EDA_CLR_COLD [k] = s.flag R.EDA_CLR_COLD [k] := by
  obtain ⟨s1, hbefore, hafter⟩ := foldl_banks (f := fun t k => if islOn t (12 + k) then
      wrWord t (0x2000110 + 0x100000 * k) (setBits (readN t (0x2000110 + 0x100000 * k)) 3 1 0) else t) hk
    (fun j hj hne t => .ite (wrWord_keepsBank _ (not_bankReads_clr hne) .refl) .refl)
    (pinSource 0 s)
  have hframe : clrRelease 3 s = { pinSource 0 s with regs := (clrRelease 3 s).regs } :=
    foldl_regsOnly (fun t x => by split <;> rfl) _ _
  refine ⟨_, rfl, ?_⟩
  change KeepsBank _ _ (clrRelease 3 s) at hafter
  rw [if_pos ((hbefore.islOn (by omega)).trans hon), wrWord_clr pin_clrField (bit := 3) rfl] at hafter
  have hother {F : Fld} (hF : clrField F) (h : F.lo + F.width ≤ 3 ∨ 3 + 1 ≤ F.lo) : (clrRelease 3 s).flag F [k] = s.flag F [k] := by
    rw [hafter.flag_clr hF]
    refine Eq.trans ?_ (hbefore.flag_clr hF)
    unfold State.flag
    rw [rd_wr_bits _ _ _ _ _ _ hF.2.2.2 h]
  refine ⟨?_, ?_, ?_, hother park_clrField (by decide), hother cold_clrField (by decide)⟩
  · rw [hafter.flag_clr pin_clrField]
    exact flag_wr_same rfl (by decide) s1 _ false
  · rw [hframe]
    exact bitN_setBits_zero _ _
  · rw [hframe]
    rfl

/-- A bank restarted from cold with its table loaded parks at its clear codes. -/
theorem bankSelfPark_parks (s : State) (e : Nat) (he : e < nElem) (hon : islOn s (12 + bankOf e) = true)
    (hpark : (bankGet s (bankOf e)).selfPark = true) (hload : (bankGet s (bankOf e)).loaded = true) :
    runs .bankSelfPark s fun t =>
      t.flag R.EDA_CLR_COLD [bankOf e] = false ∧ (bankGet t (bankOf e)).selfPark = false ∧
      (drvGet t e).out = s.rd R.EDA_ECFG_PCODE [bankOf e, localIx e] := by
  have hb := bankOf_lt e
  obtain ⟨s1, hbefore, hafter⟩ := foldl_banks (f := fun t k =>
      if (bankGet t k).selfPark && (bankGet t k).loaded && islOn t (12 + k) then
        parkCold k (bankPut t k { bankGet t k with selfPark := false }) else t) hb
    (fun j hj hne t => .ite (wrWord_keepsBank _ (not_bankReads_clr hne) (clearBank_keepsBank hj hne (bankPut_keepsBank _ hne .refl))) .refl) s
  refine ⟨_, rfl, ?_⟩
  rw [if_pos (by rw [hbefore.bank, hpark, hload, hbefore.islOn (by omega), hon]; rfl)] at hafter
  generalize hs2 : bankPut s1 (bankOf e) { bankGet s1 (bankOf e) with selfPark := false } = s2 at hafter
  have hbank : bankGet s2 (bankOf e) = { bankGet s (bankOf e) with selfPark := false } := by
    rw [← hs2, ← hbefore.bank]
    exact cellGet_set_same _ _ _ _
  have honly := clearBank_drivesOnly (bankOf e) s2
  have hclr : parkCold (bankOf e) s2 = (clearBank (bankOf e) s2).wr R.EDA_CLR_COLD [bankOf e] 0 := by
    rw [← wrWord_clr cold_clrField (bit := 0) rfl, honly.word _ (by unfold rbRegion; omega)]
    rfl
  rw [hclr] at hafter
  refine ⟨?_, ?_, ?_⟩
  · rw [hafter.flag_clr cold_clrField]
    exact flag_wr_same rfl (by decide) _ _ false
  · rw [hafter.bank]
    show (bankGet (clearBank (bankOf e) s2) (bankOf e)).selfPark = false
    rw [honly.bankGet, hbank]
  · have hp : s2.rd R.EDA_ECFG_PCODE [bankOf e, localIx e] = s.rd R.EDA_ECFG_PCODE [bankOf e, localIx e] := by
      have hl := localIx_lt he
      rw [← hs2]
      exact hbefore.rd (.inr (by rw [fldAddr_pcode]; omega))
    have hd : drvGet ((clearBank (bankOf e) s2).wr R.EDA_CLR_COLD [bankOf e] 0) e = clearedDrv s2 e := drvGet_clearBank he s2
    rw [hafter.drv e rfl, hd, ← hp]
    show clearCode s2 e = _
    unfold clearCode
    rw [hbank, if_pos hload]

end Sys2Proof.Machine
end

section

/-! PROOFS. A visit of the read-back round (R82, R83): what it notes of its element stands whatever it found. -/

namespace Sys2Proof.Machine

variable {s t s₀ : State} {e : Nat}

/-! ## What follows the note -/

/-- `t` has of a visit to element `e` what `s` has: the bank records, the round's part of word 1 of EDA.RB, and bit 0 of STATUS once
set. -/
structure NoteKept (e : Nat) (s t : State) : Prop where
  banks : t.banks = s.banks
  word : readN t (rbAddr e + 4) % 2 ^ 28 = readN s (rbAddr e + 4) % 2 ^ 28
  mism : bitN (readN s (Blk.eda (bankOf e)).base) 0 = true → bitN (readN t (Blk.eda (bankOf e)).base) 0 = true

theorem NoteKept.refl : NoteKept e s s := ⟨rfl, rfl, id⟩

theorem NoteKept.trans (h : NoteKept e s₀ s) (h' : NoteKept e s t) : NoteKept e s₀ t :=
  ⟨h'.banks.trans h.banks, h'.word.trans h.word, h'.mism ∘ h.mism⟩

theorem NoteKept.ite {c : Prop} [Decidable c] (h : NoteKept e s₀ s) (h' : NoteKept e s₀ t) : NoteKept e s₀ (if c then s else t) := by
  split <;> assumption

/-- A change of fields that a note does not concern. -/
theorem NoteKept.congr (h : NoteKept e s₀ s) (hb : t.banks = s.banks) (hr : t.regs = s.regs) : NoteKept e s₀ t :=
  h.trans ⟨hb, by rw [readN_congr hr], by rw [readN_congr hr]; exact id⟩

/-- A field of the round's part of word 1. -/
theorem NoteKept.rd (h : NoteKept e s t) {F : Fld} {ix : List Nat} (ha : fldAddr F ix = rbAddr e + 4) (hF : F.lo + F.width ≤ 28) :
    t.rd F ix = s.rd F ix := by
  unfold State.rd
  rw [ha, ← bitsN_mod_pow _ hF, h.word, bitsN_mod_pow _ hF]

theorem eda_base (e : Nat) : (Blk.eda (bankOf e)).base = 0x2000000 + 0x100000 * bankOf e := rfl

theorem mod_setBits_above (old v : Nat) {lo w m : Nat} (h : m ≤ lo) : setBits old lo w v % 2 ^ m = old % 2 ^ m := by
  apply Nat.eq_of_testBit_eq
  intro i
  rw [Nat.testBit_mod_two_pow, Nat.testBit_mod_two_pow, setBits_testBit]
  by_cases hi : i < m
  · rw [if_neg (by omega)]
  · simp [hi]

theorem bitN_setBits_mono {old i j : Nat} (h : bitN old j = true) : bitN (setBits old i 1 1) j = true := by
  rw [bitN_eq] at h ⊢
  rw [setBits_testBit]
  split
  · rw [show j - i = 0 by omega]
    rfl
  · exact h

theorem wrWord_noteKept {a : Nat} (v : Nat) (h0 : a ≠ rbAddr e + 4) (h1 : a ≠ (Blk.eda (bankOf e)).base) (h : NoteKept e s₀ s) :
    NoteKept e s₀ (wrWord s a v) :=
  h.trans ⟨rfl, by rw [readN_wrWord_other _ _ _ _ h0.symm], by rw [readN_wrWord_other _ _ _ _ h1.symm]; exact id⟩

theorem raise_noteKept (he : e < nElem) (bit : Nat) (c : Cause) (h : NoteKept e s₀ s) :
    NoteKept e s₀ (raise (.eda (bankOf e)) bit c s) := by
  have hb := bankOf_lt e
  have hr := rbAddr_bounds he
  refine h.trans ⟨by rw [raise_frame], ?_, fun hm => ?_⟩
  · rw [readN_raise (by omega) (.inr (by rw [eda_base]; omega))]
  · rw [(raise_snapOnly _ bit c s).2 _ (by rw [eda_base]; omega), record_status, bitN_eq, Nat.testBit_mod_two_pow, ← bitN_eq,
      bitN_setBits_mono hm]
    rfl

theorem drvPut_noteKept (he : e < nElem) (d : Drv) (h : NoteKept e s₀ s) : NoteKept e s₀ (drvPut s e d) := by
  have hb := bankOf_lt e
  have hr := rbAddr_bounds he
  obtain ⟨hf, hw⟩ := drvPut_frame s e d
  refine h.trans ⟨by rw [hf], ?_, fun hm => ?_⟩
  · rw [drvPut_word1 he, Nat.mod_mod_of_dvd _ (Nat.pow_dvd_pow 2 (by decide)), mod_setBits_above _ _ (by decide)]
  · rw [hw _ (by simp only [List.mem_cons, List.not_mem_nil, or_false, eda_base]; omega)]
    exact hm

/-- Element bits of the availability maps lie in RS. -/
theorem setMapBit_noteKept (he : e < nElem) (v : Bool) (h : NoteKept e s₀ s) : NoteKept e s₀ (setMapBit s 0x730000 e v) := by
  have hr := rbAddr_bounds he
  unfold nElem at he
  exact wrWord_noteKept _ (by omega) (by rw [eda_base]; omega) h

theorem loseElem_noteKept (he : e < nElem) (h : NoteKept e s₀ s) : NoteKept e s₀ (loseElems [e] s) := by
  have h1 := setMapBit_noteKept he true h
  exact .ite h (h1.congr rfl rfl)

theorem fldAddr_rb1 (F : Fld) (hd : F.dims = [(0x100000, 16), (0x8, 2176)]) (hb : F.base = 0x2040004) (e : Nat) :
    fldAddr F [bankOf e, localIx e] = rbAddr e + 4 := by
  rw [fldAddr_rb F e hd (by omega), hb]

/-- FAIL lies above the round's part of word 1. -/
theorem wr_fail_noteKept (he : e < nElem) (h : NoteKept e s₀ s) : NoteKept e s₀ (s.wr R.EDA_RB_FAIL [bankOf e, localIx e] 1) := by
  have hr := rbAddr_bounds he
  have ha : fldAddr R.EDA_RB_FAIL [bankOf e, localIx e] = rbAddr e + 4 := fldAddr_rb1 _ rfl rfl e
  unfold State.wr
  rw [ha]
  refine h.trans ⟨wrWord_banks _ _ _, ?_, fun hm => ?_⟩
  · rw [readN_wrWord_same, Nat.mod_mod_of_dvd _ (Nat.pow_dvd_pow 2 (by decide)), mod_setBits_above _ _ (by decide)]
  · rw [readN_wrWord_other _ _ _ _ (by rw [eda_base]; omega)]
    exact hm

theorem declareFailed_noteKept (he : e < nElem) (h : NoteKept e s₀ s) : NoteKept e s₀ (declareFailed e s) := by
  unfold declareFailed
  exact loseElem_noteKept he (raise_noteKept he _ _ (drvPut_noteKept he _ (wr_fail_noteKept he h)))

theorem noteRound_noteKept (mism hres : Bool) (h : NoteKept e s₀ s) : NoteKept e s₀ (noteRound e mism hres s) := h.congr rfl rfl

/-! ## The visit -/

/-- The visit of element `e` of a bank, as noted in EDA.RB: `hres` tells the heater resistance. -/
def visitNoted (bank latched vh : Nat) (mism hres : Bool) (s : State) : State :=
  let b := bankGet s bank
  let i := b.visits % 2176
  let e := elemOfLocal bank i
  let s0 := wrWord s (rbAddr e) ((drvGet s e).st * 2 ^ 30 + Nat.land latched 0x33FFFFFF)
  (((((bankPut s0 bank { b with visits := b.visits + 1 }).wr R.EDA_RB_RNDNO [bank, i] (b.visits / 2176)).wr R.EDA_RB_VH [bank, i] vh).wr
    R.EDA_RB_COMP [bank, i] (b2n (decide (2700 < vh)))).wr R.EDA_RB_HRES [bank, i] (b2n hres)).wr R.EDA_RB_MISM [bank, i] (b2n mism)

/-- After the note a mismatch is raised; what else the visit does keeps the note. -/
theorem readbackVisit_runs {bank latched vh : Nat} (hk : bank < 16) (hon : islOn s (12 + bank) = true)
    (he : elemOfLocal bank ((bankGet s bank).visits % 2176) = e)
    (hhold : (drvGet s e).hold ≠ 0) (hl : latched < 2 ^ 30) :
    ∃ hres t, exec (.readbackVisit bank latched vh) s = .next t ∧
      NoteKept e (if latched ≠ latchWord (drvGet s e) then
        raise (.eda bank) 0 (Cause.at (rbAddr e)) (visitNoted bank latched vh (decide (latched ≠ latchWord (drvGet s e))) hres s)
        else visitNoted bank latched vh (decide (latched ≠ latchWord (drvGet s e))) hres s) t := by
  have hlt : e < nElem := he ▸ elemOfLocal_lt hk (Nat.mod_lt _ (by decide))
  have hbank : bankOf e = bank := he ▸ bankOf_elemOfLocal hk _
  have hx : exec (.readbackVisit bank latched vh) s = execReadbackVisit bank latched vh s := rfl
  unfold execReadbackVisit at hx
  rw [if_neg (by simp [hon]; omega)] at hx
  extract_lets b i e' d seen mism s0 k cur hres comp again w s1 c s2 s3 s5 s4 at hx
  obtain rfl : e' = e := he
  have hm : mism = decide (latched ≠ latchWord (drvGet s e')) := by
    show decide (seen % 2 ^ 30 ≠ _) = _
    rw [show seen = latched from if_neg hhold, Nat.mod_eq_of_lt hl]
  have h1 : s1 = visitNoted bank latched vh mism hres s := rfl
  refine ⟨hres, _, hx, ?_⟩
  rw [← hm, ← h1]
  have h2 : NoteKept e' s2 s2 := .refl
  have hs2 : s2 = if latched ≠ latchWord (drvGet s e') then raise (.eda bank) 0 (Cause.at (rbAddr e')) s1 else s1 := by
    simp only [s2, hm, decide_eq_true_eq, c]
  rw [← hs2]
  have h3 : NoteKept e' s2 s3 := .ite (hbank ▸ raise_noteKept hlt _ _ h2) h2
  have h5 : NoteKept e' s2 s5 := .ite (hbank ▸ raise_noteKept hlt _ _ h3) h3
  have h4 : NoteKept e' s2 s4 := .ite h5 (noteRound_noteKept _ _ h5)
  exact .ite (declareFailed_noteKept hlt h4) h4

/-- What the visit has noted. -/
theorem visitNoted_shows {bank : Nat} (latched vh : Nat) (mism hres : Bool) (s : State) :
    bankGet (visitNoted bank latched vh mism hres s) bank = { bankGet s bank with visits := (bankGet s bank).visits + 1 } ∧
    (visitNoted bank latched vh mism hres s).rd R.EDA_RB_VH [bank, (bankGet s bank).visits % 2176] = vh % 2 ^ 12 ∧
    (visitNoted bank latched vh mism hres s).flag R.EDA_RB_COMP [bank, (bankGet s bank).visits % 2176] = decide (2700 < vh) ∧
    (visitNoted bank latched vh mism hres s).flag R.EDA_RB_MISM [bank, (bankGet s bank).visits % 2176] = mism := by
  refine ⟨cellGet_set_same _ _ _ _, ?_, ?_, flag_wr_same rfl (by decide) _ _ _⟩
  · unfold visitNoted
    rw [rd_wr_bits _ _ _ _ _ _ (by decide) (by decide), rd_wr_bits _ _ _ _ _ _ (by decide) (by decide),
      rd_wr_bits _ _ _ _ _ _ (by decide) (by decide), rd_wr_same _ _ _ _ (by decide)]
    rfl
  · unfold visitNoted State.flag
    rw [rd_wr_bits _ _ _ _ _ _ (by decide) (by decide), rd_wr_bits _ _ _ _ _ _ (by decide) (by decide)]
    exact flag_wr_same rfl (by decide) _ _ _

/-- A visit notes what it read, and a latched word that differs. -/
theorem readbackVisit_notes (s : State) (k latched vh : Nat) (hk : k < 16) (hon : islOn s (12 + k) = true)
    (hhold : (drvGet s (elemOfLocal k ((bankGet s k).visits % 2176))).hold ≠ 0) (hl : latched < 2 ^ 30) :
    runs (.readbackVisit k latched vh) s fun t =>
      (bankGet t k).visits = (bankGet s k).visits + 1 ∧
      t.rd R.EDA_RB_VH [k, (bankGet s k).visits % 2176] = vh % 2 ^ 12 ∧
      t.flag R.EDA_RB_COMP [k, (bankGet s k).visits % 2176] = decide (2700 < vh) ∧
      t.flag R.EDA_RB_MISM [k, (bankGet s k).visits % 2176] =
        decide (latched ≠ latchWord (drvGet s (elemOfLocal k ((bankGet s k).visits % 2176)))) ∧
      (latched ≠ latchWord (drvGet s (elemOfLocal k ((bankGet s k).visits % 2176))) → t.flag R.EDA_STATUS_MISM [k] = true) := by
  have hi : (bankGet s k).visits % 2176 < 2176 := Nat.mod_lt _ (by decide)
  generalize he : elemOfLocal k ((bankGet s k).visits % 2176) = e at hhold ⊢
  have hlt : e < nElem := he ▸ elemOfLocal_lt hk hi
  have hbank : bankOf e = k := he ▸ bankOf_elemOfLocal hk _
  have hix : localIx e = (bankGet s k).visits % 2176 := he ▸ localIx_elemOfLocal hk _
  obtain ⟨hres, t, hx, hkept⟩ := readbackVisit_runs (vh := vh) hk hon he hhold hl
  obtain ⟨hv, hvh, hcomp, hmism⟩ := visitNoted_shows (bank := k) latched vh (decide (latched ≠ latchWord (drvGet s e))) hres s
  generalize visitNoted k latched vh (decide (latched ≠ latchWord (drvGet s e))) hres s = s1 at hkept hv hvh hcomp hmism
  have hall : NoteKept e s1 t := (NoteKept.ite (hbank ▸ raise_noteKept hlt _ _ .refl) .refl).trans hkept
  have hrd {F : Fld} (hd : F.dims = [(0x100000, 16), (0x8, 2176)]) (hb : F.base = 0x2040004) (hF : F.lo + F.width ≤ 28) :
      t.rd F [k, (bankGet s k).visits % 2176] = s1.rd F [k, (bankGet s k).visits % 2176] :=
    hall.rd (by rw [← hix, ← hbank]; exact fldAddr_rb1 F hd hb e) hF
  refine ⟨t, hx, ?_, (hrd rfl rfl (by decide)).trans hvh, ?_, ?_, fun hne => ?_⟩
  · unfold bankGet at hv ⊢
    rw [hall.banks, hv]
  · unfold State.flag at hcomp ⊢
    rw [hrd rfl rfl (by decide), hcomp]
  · unfold State.flag at hmism ⊢
    rw [hrd rfl rfl (by decide), hmism]
  · rw [if_pos hne] at hkept
    rw [flag_eda_status _ _ rfl rfl rfl, ← hbank]
    exact hkept.mism (by rw [hbank]; exact raise_eda_bit hk (by decide) _ _)

/-- Settles O20, by the two edges of the pin, the self-parking and the visit. -/
theorem bankClears : Obligations.BankClears :=
  ⟨fun s e _ => elemClrNAssert_clears s e, elemClrNRelease_leaves, fun s e _ => bankSelfPark_parks s e, readbackVisit_notes⟩

end Sys2Proof.Machine
end

section

/-! PROOFS. The journal beside a wave: an entry and the shedding that follows a wave leave drives, loop entries, the wave number, the armed
waves and the pending events as they are, and a committed entry steps JSEQ. -/

namespace Sys2Proof.Machine

variable {s₀ s t : State}

/-! ## What the journal leaves of a wave -/

/-- RS.WAVENO and the loop entries. -/
def waveWord (a : Nat) : Prop := a = 0x780008 ∨ (0x1000000 ≤ a ∧ a < 0x1800000)

/-- An event but for the JSEQ of its ACCEPT record, which a checkpoint renews (R380). -/
def Ev.unjournaled (e : Ev) : Ev := { e with acceptJ := 0 }

/-- `t` has of the waves and what they move what `s` has. -/
structure WaveKept (s t : State) : Prop where
  word : ∀ a, waveWord a → readN t a = readN s a
  drv : t.drv = s.drv
  armed : t.armed = s.armed
  lastT0 : t.lastT0 = s.lastT0
  modes : t.modes = s.modes
  evs : t.evs.map Ev.unjournaled = s.evs.map Ev.unjournaled
  aseq : t.jnl.aseq = s.jnl.aseq

theorem WaveKept.refl : WaveKept s s := ⟨fun _ _ => rfl, rfl, rfl, rfl, rfl, rfl, rfl⟩

theorem WaveKept.trans (h : WaveKept s₀ s) (h' : WaveKept s t) : WaveKept s₀ t where
  word a ha := (h'.word a ha).trans (h.word a ha)
  drv := h'.drv.trans h.drv
  armed := h'.armed.trans h.armed
  lastT0 := h'.lastT0.trans h.lastT0
  modes := h'.modes.trans h.modes
  evs := h'.evs.trans h.evs
  aseq := h'.aseq.trans h.aseq

theorem WaveKept.ite {c : Prop} [Decidable c] (h : WaveKept s₀ s) (h' : WaveKept s₀ t) : WaveKept s₀ (if c then s else t) := by
  split <;> assumption

theorem WaveKept.foldl {α : Type} {f : State → α → State} {l : List α} (hf : ∀ x ∈ l, ∀ s, WaveKept s (f s x)) (h : WaveKept s₀ s) :
    WaveKept s₀ (l.foldl f s) := by
  induction l generalizing s with
  | nil => exact h
  | cons x l ih => exact ih (fun y hy => hf y (List.mem_cons_of_mem _ hy)) (h.trans (hf x List.mem_cons_self s))

/-- The fields of the state of which `WaveKept` speaks. -/
def State.waveView (s : State) : Cells Word × Cells Drv × List Wave × Nat × ModeSt × List Ev × Nat :=
  (s.regs, s.drv, s.armed, s.lastT0, s.modes, s.evs, s.jnl.aseq)

/-- A change of other fields. -/
theorem WaveKept.congr (h : WaveKept s₀ s) (hv : t.waveView = s.waveView) : WaveKept s₀ t := by
  simp only [State.waveView, Prod.mk.injEq] at hv
  obtain ⟨hr, hd, ha, hl, hm, he, hq⟩ := hv
  exact h.trans ⟨fun a _ => readN_congr hr a, hd, ha, hl, hm, by rw [he], hq⟩

theorem WaveKept.rd (h : WaveKept s t) {F : Fld} {ix : List Nat} (ha : waveWord (fldAddr F ix)) : t.rd F ix = s.rd F ix := by
  unfold State.rd
  rw [h.word _ ha]

theorem wrWord_waveKept {a : Nat} (v : Nat) (ha : ¬ waveWord a) (h : WaveKept s₀ s) : WaveKept s₀ (wrWord s a v) :=
  h.trans ⟨fun _ hb => readN_wrWord_other _ _ _ _ fun he => ha (he ▸ hb), rfl, rfl, rfl, rfl, rfl, rfl⟩

theorem wr_waveKept {F : Fld} {ix : List Nat} (v : Nat) (ha : ¬ waveWord (fldAddr F ix)) (h : WaveKept s₀ s) :
    WaveKept s₀ (s.wr F ix v) := wrWord_waveKept _ ha h

/-- Fault sets hold no word of a wave. -/
theorem waveWord_faultSet (b : Blk) {a : Nat} (ha : waveWord a) : a < b.base ∨ b.base + 0x18 < a := by
  unfold waveWord at ha
  cases b <;> simp only [Blk.base] <;> omega

theorem not_waveWord_faultSet (b : Blk) {o : Nat} (ho : o ≤ 0x18) : ¬ waveWord (b.base + o) := fun h => by
  have := waveWord_faultSet b h
  omega

theorem raise_waveKept (b : Blk) (bit : Nat) (c : Cause) (h : WaveKept s₀ s) : WaveKept s₀ (raise b bit c s) := by
  have hf := raise_frame b bit c s
  refine h.trans ⟨fun a ha => readN_raise ?_ ?_ bit c s, ?_, ?_, ?_, ?_, ?_, ?_⟩
  case refine_1 => unfold waveWord at ha; omega
  case refine_2 => have := waveWord_faultSet b ha; omega
  all_goals rw [hf]

theorem injHit_waveKept (b : Blk) (sel : Nat) (h : WaveKept s₀ s) : WaveKept s₀ (injHit b sel s).2 := by
  unfold injHit
  dsimp only
  split
  · exact wrWord_waveKept _ (not_waveWord_faultSet b (by decide)) h
  · exact h

theorem countOnly_waveKept (b : Blk) (h : WaveKept s₀ s) : WaveKept s₀ (countOnly b s) :=
  wrWord_waveKept _ (not_waveWord_faultSet b (by decide)) h

theorem eccHit_waveKept (b : Blk) (sel bit a master acc : Nat) (h : WaveKept s₀ s) :
    WaveKept s₀ (eccHit b sel bit a master acc s).2 := by
  have h1 := injHit_waveKept b sel h
  unfold eccHit
  extract_lets hit
  split
  · exact h1
  · split
    · exact countOnly_waveKept _ h1
    · exact raise_waveKept _ _ _ h1

theorem crcHit_waveKept (b : Blk) (sel : Nat) (h : WaveKept s₀ s) : WaveKept s₀ (crcHit b sel s) :=
  .ite (injHit_waveKept b sel h) (countOnly_waveKept _ (injHit_waveKept b sel h))

/-! ## Export records -/

theorem qPut_waveKept (q : Nat) (v : Queue) (h : WaveKept s₀ s) : WaveKept s₀ (qPut s q v) := h.congr rfl

theorem showDepth_waveKept {q : Nat} (hq : q < 65536) (h : WaveKept s₀ s) : WaveKept s₀ (showDepth q s) :=
  wr_waveKept _ (by simp [waveWord, fldAddr, R.EGS_QSTAT_DEPTH]; omega) h

theorem bumpEgs_waveKept {F : Fld} {ix : List Nat} (ha : ¬ waveWord (fldAddr F ix)) (h : WaveKept s₀ s) :
    WaveKept s₀ (bumpEgs F ix s) := by
  have h1 : WaveKept s₀ (s.inc F ix) := wr_waveKept _ ha h
  exact .ite (raise_waveKept _ _ _ (wrWord_waveKept _ (by unfold waveWord; omega) h1)) h1

theorem joinRound_waveKept (p q : Nat) (h : WaveKept s₀ s) : WaveKept s₀ (joinRound p q s) := .ite h (h.congr rfl)

theorem dropDown_waveKept {p : Nat} (hp : p < 2) (q n : Nat) (h : WaveKept s₀ s) : WaveKept s₀ (dropDown p q n s) := by
  induction n generalizing s with
  | zero => exact h
  | succ n ih =>
    unfold dropDown
    split
    · exact h
    · refine ih (raise_waveKept _ _ _ (bumpEgs_waveKept ?_ (qPut_waveKept _ _ h)))
      simp [waveWord, fldAddr, R.EGS_LINK_DROP]
      omega

theorem offer_waveKept {p : Nat} (hp : p < 2) (q : Nat) (h : WaveKept s₀ s) : WaveKept s₀ (offer p q s) := by
  unfold offer
  split
  · exact h
  · exact .ite (joinRound_waveKept _ _ h) (dropDown_waveKept hp _ _ h)

theorem enqueue_waveKept {q : Nat} (hq : q < 65536) (port len : Nat) (b : FBody) (h : WaveKept s₀ s) :
    WaveKept s₀ (enqueue q port len b s) := by
  unfold enqueue
  extract_lets n v s1 egs s2
  have h2 : WaveKept s₀ s2 := h.congr rfl
  refine .ite h (.ite (showDepth_waveKept hq ?_) (showDepth_waveKept hq ?_))
  · exact offer_waveKept (by decide) _ (offer_waveKept (by decide) _ (eccHit_waveKept _ _ _ _ _ _ h2))
  · exact raise_waveKept _ _ _ (bumpEgs_waveKept (by simp [waveWord, fldAddr, R.EGS_TAIL_DROP]) h)

theorem closeFrame_waveKept {q : Nat} (hq : q < 65536) (h : WaveKept s₀ s) : WaveKept s₀ (closeFrame q s) := by
  unfold closeFrame
  extract_lets v
  split
  · exact h
  · exact enqueue_waveKept hq _ _ _ (qPut_waveKept _ _ h)

theorem addRecord_waveKept {q : Nat} (hq : q < 65536) (kind : Nat) (bytes : List Nat) (h : WaveKept s₀ s) :
    WaveKept s₀ (addRecord q kind bytes s) := by
  unfold addRecord addRecordAt
  extract_lets d s1 v f
  have h1 : WaveKept s₀ s1 := by
    unfold s1
    split
    · exact .ite (closeFrame_waveKept hq h) h
    · exact h
  exact .ite h (showDepth_waveKept hq (qPut_waveKept _ _ h1))

/-! ## Entries -/

theorem writeEntry_waveKept (e : Entry) (h : WaveKept s₀ s) : WaveKept s₀ (writeEntry true true e s) := by
  unfold writeEntry
  extract_lets s0 s1 s2 s3 j e1 put hist jn s4 s5
  have h2 : s2 = s := by simp [s2, s1, s0]
  have h3 : WaveKept s₀ s3 := .foldl (fun _ _ _ => .ite .refl (crcHit_waveKept _ _ .refl)) (h2 ▸ h)
  have h4 : WaveKept s₀ s4 := h3.congr rfl
  have h5 : WaveKept s₀ s5 := wr_waveKept _ (by simp [waveWord, fldAddr, R.JNL_JSEQ_HI])
    (wr_waveKept _ (by simp [waveWord, fldAddr, R.JNL_JSEQ_LO]) h4)
  exact .ite (.ite (addRecord_waveKept (rd_lt _ R.JNL_CFG_EXPQ _) _ _ h5) h5) h3

theorem writeEntries_waveKept (l : List Entry) (h : WaveKept s₀ s) :
    WaveKept s₀ (l.foldl (fun t x => writeEntry true true x t) s) := .foldl (fun _ _ _ => writeEntry_waveKept _ .refl) h

/-- The JSEQ of an ACCEPT record renewed. -/
theorem renewAccept_waveKept (aseq j : Nat) (h : WaveKept s₀ s) :
    WaveKept s₀ { s with evs := s.evs.map fun x => if x.aseq = aseq then { x with acceptJ := j } else x } := by
  refine h.trans ⟨fun _ _ => rfl, rfl, rfl, rfl, rfl, ?_, rfl⟩
  rw [List.map_map]
  refine List.map_congr_left fun x _ => ?_
  simp only [Function.comp_apply]
  split <;> rfl

theorem carryOne_waveKept (e : Ev) (h : WaveKept s₀ s) : WaveKept s₀ (carryOne true true e s) :=
  .ite (renewAccept_waveKept _ _ (writeEntries_waveKept _ h)) h

theorem checkpoint_waveKept (h : WaveKept s₀ s) : WaveKept s₀ (checkpoint true true s) := by
  unfold checkpoint
  extract_lets j s1 jn s2
  have h1 : WaveKept s₀ s1 := writeEntries_waveKept _ h
  clear_value s1
  have h2 : WaveKept s₀ s2 := h1.congr rfl
  exact .foldl (fun _ _ _ => carryOne_waveKept _ .refl) (wr_waveKept _ (by simp [waveWord, fldAddr, R.JNL_CKPT]) h2)

theorem appendEntry_waveKept (e : Entry) (h : WaveKept s₀ s) : WaveKept s₀ (appendEntry true true e s) :=
  writeEntry_waveKept _ (.ite (checkpoint_waveKept h) h)

theorem commit_waveKept (kind aseq session type seq : Nat) (payload : List Nat) (h : WaveKept s₀ s) :
    WaveKept s₀ (commit kind aseq session type seq payload s) :=
  .ite (.foldl (fun _ _ _ => appendEntry_waveKept _ .refl) h) h

theorem reshed_waveKept (h : WaveKept s₀ s) : WaveKept s₀ (reshed s) := by
  unfold reshed
  extract_lets lev s1
  have h1 : WaveKept s₀ s1 := h.congr rfl
  exact .ite (raise_waveKept _ _ _ h1) h1

/-! ## A committed entry steps JSEQ -/

/-- A copy accepts entries. -/
def anyCopyLive (s : State) : Bool := copyLive s 0 || copyLive s 1

theorem jnlReady_anyCopyLive (h : jnlReady s = true) : anyCopyLive s = true := by
  unfold jnlReady at h
  rw [Bool.and_eq_true] at h
  exact h.2

/-- The check of an entry leaves the state of the copies. -/
theorem crcHit_copyLive (sel : Nat) (s : State) {c : Nat} (hc : c < 2) : copyLive (crcHit .jnl sel s) c = copyLive s c := by
  have hne (o : Nat) (ho : o < 0x20) : fldAddr R.JNL_COPY_STATE [c] ≠ Blk.jnl.base + o := by
    simp [fldAddr, R.JNL_COPY_STATE, Blk.base]
    omega
  have hinj : (injHit .jnl sel s).2.rd R.JNL_COPY_STATE [c] = s.rd R.JNL_COPY_STATE [c] := by
    unfold injHit
    dsimp only
    split
    · exact rd_wrWord_other _ _ _ _ _ (hne _ (by decide))
    · rfl
  unfold copyLive crcHit
  dsimp only
  split
  · rw [hinj]
  · rw [← hinj]
    exact congrArg (fun n => decide (n = 0)) (rd_wrWord_other _ _ _ _ _ (hne _ (by decide)))

theorem crcHit_anyCopyLive (sel : Nat) (s : State) : anyCopyLive (crcHit .jnl sel s) = anyCopyLive s := by
  unfold anyCopyLive
  rw [crcHit_copyLive sel s (by decide), crcHit_copyLive sel s (by decide)]

/-- JSEQ is higher in `t` than in `s`. -/
structure Journals (s t : State) : Prop where
  jseq : s.jnl.last < t.jnl.last

theorem Journals.evolves (h : Journals s₀ s) (h' : Evolves s t) : Journals s₀ t := ⟨Nat.lt_of_lt_of_le h.jseq h'.jseq⟩

/-- An entry written while a copy is live steps JSEQ. -/
theorem writeEntry_journals (e : Entry) (h : anyCopyLive s = true) : Journals s (writeEntry true true e s) := by
  unfold writeEntry
  extract_lets s0 s1 s2 s3 j e1 put hist jn s4 s5
  have h2 : s2 = s := by simp [s2, s1, s0]
  have hstep : Evolves s s3 := .foldl (fun _ _ => .ite .refl (crcHit_evolves _ _ .refl)) (h2 ▸ .refl)
  have hlive : anyCopyLive s3 = true := by
    have hone (t : State) (c : Nat) (ht : anyCopyLive t = true) :
        anyCopyLive (if s2.rd R.JNL_COPY_STATE [c] = 1 then t else crcHit .jnl c t) = true := by
      split
      · exact ht
      · rwa [crcHit_anyCopyLive]
    exact hone _ 1 (hone _ 0 (h2 ▸ h))
  clear_value s3
  have h4 : Journals s s4 := ⟨Nat.lt_succ_of_le hstep.jseq⟩
  have h5 : Journals s s5 := h4.evolves (wr_evolves _ _ _ (wr_evolves _ _ _ .refl))
  rw [if_pos (show (copyLive s3 0 || copyLive s3 1) = true from hlive)]
  exact h5.evolves (.ite (addRecord_evolves _ _ _ .refl) .refl)

theorem writeEntries_journals {l : List Entry} (hl : l ≠ []) (h : anyCopyLive s = true) :
    Journals s (l.foldl (fun t x => writeEntry true true x t) s) := by
  cases l with
  | nil => exact absurd rfl hl
  | cons x l =>
    rw [List.foldl_cons]
    exact (writeEntry_journals x h).evolves (.foldl (fun _ _ => writeEntry_evolves _ _ _ .refl) .refl)

theorem recordEntries_ne_nil (kind aseq session type seq : Nat) (payload : List Nat) :
    recordEntries kind aseq session type seq payload ≠ [] := by
  have hc : chunks (payload.length + 1) payload ≠ [] := by
    unfold chunks
    split <;> simp
  unfold recordEntries
  generalize chunks (payload.length + 1) payload = cs at hc
  cases cs with
  | nil => exact absurd rfl hc
  | cons c cs => simp [partEntries, span]

theorem checkpoint_journals (h : anyCopyLive s = true) : Journals s (checkpoint true true s) := by
  unfold checkpoint
  extract_lets j s1 jn s2
  have h1 : Journals s s1 := writeEntries_journals (recordEntries_ne_nil _ _ _ _ _ _) h
  clear_value s1
  have h2 : Evolves s1 s2 := Evolves.refl.update le_rfl le_rfl
  exact h1.evolves (.foldl (fun _ _ => carryOne_evolves _ _ _ .refl) (wr_evolves _ _ _ h2))

theorem appendEntry_journals (e : Entry) (h : anyCopyLive s = true) : Journals s (appendEntry true true e s) := by
  unfold appendEntry dueCheckpoint
  split
  · exact (checkpoint_journals h).evolves (writeEntry_evolves true true e .refl)
  · exact writeEntry_journals e h

/-- A record committed while a copy takes entries steps JSEQ. -/
theorem commit_journals (kind aseq session type seq : Nat) (payload : List Nat) (h : jnlReady s = true) :
    Journals s (commit kind aseq session type seq payload s) := by
  unfold commit commitV commitEntries
  rw [if_pos h]
  have hl := recordEntries_ne_nil kind aseq session type seq payload
  generalize recordEntries kind aseq session type seq payload = l at hl
  cases l with
  | nil => exact absurd rfl hl
  | cons x l =>
    rw [List.foldl_cons]
    exact (appendEntry_journals x (jnlReady_anyCopyLive h)).evolves (.foldl (fun _ _ => appendEntry_evolves _ _ _ .refl) .refl)

end Sys2Proof.Machine
end

section

/-! PROOFS. A wave starts (R132, R222, R223): the move of one element, its retarget record, and what follows the moves. -/

namespace Sys2Proof.Machine

variable {s t : State} {w : Wave} {m : EMove}

/-! ## The move of one element -/

/-- An injection that is not armed fires at no checker. -/
theorem injHit_unarmed {b : Blk} (h : bitN (readN s (b.base + 0x18)) 31 = false) (sel : Nat) : injHit b sel s = (0, s) := by
  unfold injHit
  simp [h]

theorem injParity_unarmed {b : Blk} (h : bitN (readN s (b.base + 0x18)) 31 = false) (sel : Nat) : injParity b sel s = (0, s) := by
  unfold injParity
  rw [injHit_unarmed h]
  rfl

theorem kickStart_heater (hh : drvHeld s m.elem = false) (hk : m.kick = false) :
    kickStart m s = (true, drvPut s m.elem (heaterMove m (drvGet s m.elem))) := by
  unfold kickStart
  simp [hh, hk]

theorem kickStart_kick (hh : drvHeld s m.elem = false) (hk : m.kick = true)
    (hv : s.flag R.EDA_KTAB_VALID [bankOf m.elem, startEntry s m] = true)
    (hi : bitN (readN s ((Blk.eda (bankOf m.elem)).base + 0x18)) 31 = false) :
    kickStart m s = (true, drvPut s m.elem (kickMove s.time (startEntry s m) (startDec s m) m (drvGet s m.elem))) := by
  unfold kickStart
  simp [hh, hk, hv, injParity_unarmed hi]

/-! ## The retarget record -/

theorem fldAddr_loop {F : Fld} (hd : F.dims = [(0x40, 35840)]) (e : Nat) : fldAddr F [e] = F.base + 0x40 * e := by
  simp [fldAddr, hd]

/-- Two fields of the loop table lie in different words of an entry or at different bits. -/
abbrev loopApart (F G : Fld) : Prop :=
  F.dims = [(0x40, 35840)] ∧ G.dims = [(0x40, 35840)] ∧ G.lo + G.width ≤ 32 ∧
    (G.base ≠ F.base ∨ G.lo + G.width ≤ F.lo ∨ F.lo + F.width ≤ G.lo)

/-- Fields of one loop entry in other words or at other bits do not touch. -/
theorem rd_wr_loop {F G : Fld} (h : loopApart F G) (s : State) (e v : Nat) : (s.wr F [e] v).rd G [e] = s.rd G [e] := by
  obtain ⟨hF, hG, hw, h⟩ := h
  rcases h with h | h
  · refine rd_wr_word _ _ _ _ _ _ ?_
    rw [fldAddr_loop hF, fldAddr_loop hG]
    omega
  · exact rd_wr_bits _ _ _ _ _ _ hw h

/-- The loop entry of an element as its retarget record gives it, with STATE and HCAUSE. -/
def retargetEntry (m : EMove) (s : State) : State :=
  let w (F : Fld) (v : Nat) (t : State) : State := t.wr F [m.elem] v
  w R.LT_LOOP_STATE 1 (w R.LT_LOOP_HCAUSE 2 (w R.LT_LOOP_DEMOD 0 (w R.LT_LOOP_YAVG 0 (w R.LT_LOOP_NBAD 0 (w R.LT_LOOP_NGOOD 0
    (w R.LT_LOOP_TSTATE m.st (w R.LT_LOOP_EXT (b2n (decide (m.st = stS) && decide (elemPos m.elem < 2)))
    (w R.LT_LOOP_UMOD (calCode s m.elem m.st) (w R.LT_LOOP_TCO (s.rd R.CAL_EREC_TCO [m.elem])
    (w R.LT_LOOP_TREF (s.rd R.CAL_EREC_TREF [m.elem]) (w R.LT_LOOP_REFS m.refs (w R.LT_LOOP_CSET m.cset (w R.LT_LOOP_TARGET 0
    (w R.LT_LOOP_DITH_EN (b2n (m.st != 0)) (w R.LT_LOOP_UCMD m.u (w R.LT_LOOP_DH 0 s))))))))))))))))

/-- The state variables of a loop cleared. -/
def clearStates (e : Nat) (s : State) : State := (span 0 8).foldl (fun t i => t.wr R.LT_LOOP_S [e, i] 0) s

/-- A retarget writes the loop entry, clears the state variables and notes the instant and the command. -/
theorem retarget_eq (m : EMove) (s : State) : ∃ mv lx,
    retarget m s = { clearStates m.elem (retargetEntry m (corrApply m.elem s)) with moved := mv, loopX := lx } :=
  ⟨_, _, rfl⟩

theorem retargetEntry_state (m : EMove) (s : State) : (retargetEntry m s).rd R.LT_LOOP_STATE [m.elem] = 1 := by
  unfold retargetEntry
  dsimp only
  rw [rd_wr_same _ _ _ _ (by decide)]
  rfl

theorem retargetEntry_cause (m : EMove) (s : State) : (retargetEntry m s).rd R.LT_LOOP_HCAUSE [m.elem] = 2 := by
  unfold retargetEntry
  dsimp only
  rw [rd_wr_loop (by decide), rd_wr_same _ _ _ _ (by decide)]
  rfl

theorem retargetEntry_cset (m : EMove) (s : State) :
    (retargetEntry m s).rd R.LT_LOOP_CSET [m.elem] = m.cset % 2 ^ R.LT_LOOP_CSET.width := by
  unfold retargetEntry
  simp (disch := decide) only [rd_wr_loop]
  exact rd_wr_same _ _ _ _ (by decide)

/-- What the writes of a retarget leave of the state. -/
def State.besideRegs (s : State) : Cells Drv × List Wave × ModeSt × List Ev := (s.drv, s.armed, s.modes, s.evs)

theorem wr_besideRegs (s : State) (F : Fld) (ix : List Nat) (v : Nat) : (s.wr F ix v).besideRegs = s.besideRegs := by
  unfold State.besideRegs
  rw [wr_drv, wr_armed, wr_modes, wr_evs]

theorem retargetEntry_besideRegs (m : EMove) (s : State) : (retargetEntry m s).besideRegs = s.besideRegs := by
  simp only [retargetEntry, wr_besideRegs]

/-- The state variables lie beside the first word of the entry. -/
theorem rd_clearStates {G : Fld} (hG : G.dims = [(0x40, 35840)]) (hb : G.base = 0x1000000) (e : Nat) (s : State) :
    (clearStates e s).rd G [e] = s.rd G [e] := by
  have hlist (l : List Nat) (hl : ∀ i ∈ l, i < 8) (s : State) :
      (l.foldl (fun t i => t.wr R.LT_LOOP_S [e, i] 0) s).rd G [e] = s.rd G [e] := by
    induction l generalizing s with
    | nil => rfl
    | cons i l ih =>
      rw [List.foldl_cons, ih fun j hj => hl j (List.mem_cons_of_mem _ hj)]
      refine rd_wr_word _ _ _ _ _ _ ?_
      have := hl i List.mem_cons_self
      rw [fldAddr_loop hG, hb]
      simp only [fldAddr, R.LT_LOOP_S, List.zip_cons_cons, List.zip_nil_right, List.map_cons, List.map_nil, List.sum_cons, List.sum_nil]
      omega
  exact hlist _ (fun i hi => by rw [mem_span] at hi; omega) s

theorem clearStates_besideRegs (e : Nat) (s : State) : (clearStates e s).besideRegs = s.besideRegs := by
  unfold clearStates
  induction span 0 8 generalizing s with
  | nil => rfl
  | cons i l ih => rw [List.foldl_cons, ih, wr_besideRegs]

/-- No correction waits for any actuator. -/
theorem corrApply_none (hr : s.ramps = []) (hc : s.corr = []) (n : Nat) : corrApply n s = s := by
  have hf : corrFields s n = [] := by
    unfold corrFields corrGet
    rw [hr, hc]
    rfl
  unfold corrApply
  simp [hf]

/-- A loop that has taken a retarget record: the first word of its entry shows it; drives, waves and events stay. -/
structure Retargeted (m : EMove) (s t : State) : Prop where
  state : t.rd R.LT_LOOP_STATE [m.elem] = 1
  cause : t.rd R.LT_LOOP_HCAUSE [m.elem] = 2
  cset : t.rd R.LT_LOOP_CSET [m.elem] = m.cset % 2 ^ R.LT_LOOP_CSET.width
  beside : t.besideRegs = s.besideRegs

theorem clearStates_retargeted (m : EMove) (s : State) : Retargeted m s (clearStates m.elem (retargetEntry m s)) where
  state := by rw [rd_clearStates (G := R.LT_LOOP_STATE) (by decide) (by decide), retargetEntry_state]
  cause := by rw [rd_clearStates (G := R.LT_LOOP_HCAUSE) (by decide) (by decide), retargetEntry_cause]
  cset := by rw [rd_clearStates (G := R.LT_LOOP_CSET) (by decide) (by decide), retargetEntry_cset]
  beside := by rw [clearStates_besideRegs, retargetEntry_besideRegs]

/-- A change of the notes of the loops. -/
theorem Retargeted.noted (h : Retargeted m s t) (mv : Cells Nat) (lx : Cells LoopX) :
    Retargeted m s { t with moved := mv, loopX := lx } := ⟨h.state, h.cause, h.cset, h.beside⟩

theorem retarget_retargeted (hr : s.ramps = []) (hc : s.corr = []) : Retargeted m s (retarget m s) := by
  obtain ⟨mv, lx, h⟩ := retarget_eq m s
  rw [h, corrApply_none hr hc]
  exact (clearStates_retargeted m s).noted mv lx

/-! ## What follows the moves -/

theorem noteLastWave_waveKept (no : Nat) (started : List Nat) : WaveKept s (noteLastWave no started s) := by
  have hf {F : Fld} (hd : F.dims = [(0x100000, 16)]) (hb : 0x1800000 ≤ F.base) (k : Nat) : ¬ waveWord (fldAddr F [k]) := by
    rw [fldAddr_bank _ _ hd]
    unfold waveWord
    omega
  exact .foldl (fun k _ _ => .ite .refl (wr_waveKept _ (hf rfl (by decide) k) (wr_waveKept _ (hf rfl (by decide) k) .refl))) .refl

theorem noteLastWave_none (no : Nat) (s : State) : noteLastWave no [] s = s := by
  have hid (l : List Nat) : l.foldl (fun t k => if (([] : List Nat).filter fun e => bankOf e == k).length = 0 then t else
      (t.wr R.EDA_LASTWAVE_WAVE [k] no).wr R.EDA_LASTWAVE_COUNT [k] (([] : List Nat).filter fun e => bankOf e == k).length) s = s := by
    induction l with
    | nil => rfl
    | cons k l ih => exact ih
  exact hid _

/-- The number of a started wave is shown, with the elements that it moved. -/
def waveNoted (w : Wave) (s : State) : State :=
  { (noteLastWave (s.rd R.RS_WAVENO_WAVE [] + 1) (w.moves.map (·.elem)) s).wr R.RS_WAVENO_WAVE [] (s.rd R.RS_WAVENO_WAVE [] + 1) with
    lastT0 := w.start }

/-- A started wave is journaled (R223). -/
def waveJournaled (w : Wave) (s : State) : State :=
  commit 0x04 0 0 0 0 (beBytes 4 (s.rd R.RS_WAVENO_WAVE [] + 1) ++ beBytes 8 w.start ++ ((waveAseqs w).map (beBytes 4)).flatten)
    (waveNoted w s)

theorem failEvents_nil (s : State) : failEvents (nub []) s = s := rfl

/-- A wave that changes no connection and opens no VOA, every element of which started: it is journaled and credited. -/
theorem startWave_plain (hv : w.voas = []) (hc : evWaveChgs w = []) {s1 : State} (hm : startMoves w.moves s = (s1, [])) :
    startWave w s = ((waveJournaled w s1).evs.filter fun e => (waveAseqs w).contains e.aseq).foldl (fun t e => creditEv w [] e t)
      (waveJournaled w s1) := by
  have hsome : ¬ (!w.moves.isEmpty && decide (([] : List Nat).length = w.moves.length)) = true := by
    cases w.moves <;> simp
  have hall : (w.moves.map (·.elem)).filter (fun e => !([] : List Nat).contains e) = w.moves.map (·.elem) := by simp
  unfold startWave
  rw [hm, hc, hv]
  extract_lets r chgs bad lost no s1' s2 good s3 shut s4 s5 rep s6 s7 s7' s8
  rw [if_neg hsome]
  have hbad : bad = [] := rfl
  have hgood : good = [] := rfl
  have hrep : rep.isEmpty = true := rfl
  have h1 : s1' = (noteLastWave no (w.moves.map (·.elem)) s1).wr R.RS_WAVENO_WAVE [] no := by
    rw [← hall]
  have h2 : s2 = waveNoted w s1 := by
    unfold s2 waveNoted
    rw [h1]
  have h3 : s3 = s2 := by
    unfold s3
    rw [hgood, List.foldl_nil]
  have h4 : s4 = s3 := by
    unfold s4
    rw [List.filter_nil, List.foldl_nil]
  have h5 : s5 = waveJournaled w s1 := by
    unfold s5 waveJournaled
    rw [h4, h3, h2]
  have h6 : s6 = s5 := if_pos hrep
  have h7 : s7 = s6 := by
    unfold s7
    rw [hbad, List.foldl_nil]
  have h7' : s7' = s7 := by
    unfold s7'
    rw [hbad, List.foldl_nil]
  have h8 : s8 = ((waveJournaled w s1).evs.filter fun e => (waveAseqs w).contains e.aseq).foldl (fun t e => creditEv w [] e t)
      (waveJournaled w s1) := by
    unfold s8
    rw [h7', h7, h6, h5, hbad]
  rw [hbad, List.map_nil, ← h8]
  exact failEvents_nil s8

/-- Without events nothing is credited. -/
theorem startWave_noUnits (hv : w.voas = []) (hu : w.units = []) {s1 : State} (hm : startMoves w.moves s = (s1, [])) :
    startWave w s = waveJournaled w s1 := by
  have hc : evWaveChgs w = [] := by unfold evWaveChgs; rw [hu]; rfl
  have ha : waveAseqs w = [] := by unfold waveAseqs; rw [hu]; rfl
  have hnone (l : List Ev) : (l.filter fun e => ([] : List Nat).contains e.aseq) = [] := by simp
  rw [startWave_plain hv hc hm, ha, hnone, List.foldl_nil]

/-- Nothing is placed where no event is SOLVED. -/
theorem placeReady_idle (h : ∀ e ∈ s.evs, e.st ≠ evSolved) : placeReady s = s := by
  have hn : s.evs.filter (placeable s) = [] := by
    refine List.filter_eq_nil_iff.2 fun e he => ?_
    unfold placeable
    simp [h e he]
  unfold placeReady
  rw [hn]
  exact ite_self _

theorem leaveNow_none (h : s.modes.leaving = none) : leaveNow s = s := by
  unfold leaveNow
  rw [h]

/-- The first armed wave starts; the rest of the step plans and answers nothing. -/
theorem waveStart_runs (ha : s.armed = [w]) {s1 : State} (hs : startWave w { s with armed := [] } = s1)
    (hp : ∀ e ∈ (reshed s1).evs, e.st ≠ evSolved) (hl : (reshed s1).modes.leaving = none) :
    exec .waveStart s = .next (reshed s1) := by
  have hx : exec .waveStart s = .next (leaveNow (placeReady (reshed (startWave w { s with armed := [] })))) := by
    show execWaveStart s = _
    unfold execWaveStart
    split
    next h => simp [ha] at h
    next h =>
      rw [ha] at h
      cases h
      rfl
  rw [hx, hs, placeReady_idle hp, leaveNow_none hl]

end Sys2Proof.Machine
end

section

/-! PROOFS. What a started wave notes, and the three cases of a wave's start. -/

namespace Sys2Proof.Machine

variable {s t : State} {w : Wave} {m : EMove}

/-! ## What the wave notes -/

theorem noteLastWave_besideRegs (no : Nat) (started : List Nat) (s : State) : (noteLastWave no started s).besideRegs = s.besideRegs := by
  unfold noteLastWave
  induction span 0 16 generalizing s with
  | nil => rfl
  | cons k l ih =>
    rw [List.foldl_cons, ih]
    dsimp only
    split
    · rfl
    · rw [wr_besideRegs, wr_besideRegs]

/-- The number of the next wave is shown; loop entries, drives, armed waves and events stay. -/
structure Numbered (s t : State) : Prop where
  waveno : t.rd R.RS_WAVENO_WAVE [] = (s.rd R.RS_WAVENO_WAVE [] + 1) % 2 ^ 32
  loops : ∀ a, 0x1000000 ≤ a → a < 0x1800000 → readN t a = readN s a
  beside : t.besideRegs = s.besideRegs

theorem Numbered.startedAt (h : Numbered s t) (t0 : Nat) : Numbered s { t with lastT0 := t0 } := ⟨h.waveno, h.loops, h.beside⟩

theorem wr_waveno_numbered (hu : WaveKept s t) (hb : t.besideRegs = s.besideRegs) :
    Numbered s (t.wr R.RS_WAVENO_WAVE [] (s.rd R.RS_WAVENO_WAVE [] + 1)) where
  waveno := by
    have hw : R.RS_WAVENO_WAVE.width = 32 := rfl
    rw [rd_wr_same _ _ _ _ (by decide), hw]
  loops a h1 h2 := by
    rw [readN_wr_other _ _ _ _ _ (by simp [fldAddr, R.RS_WAVENO_WAVE]; omega), hu.word a (.inr ⟨h1, h2⟩)]
  beside := (wr_besideRegs _ _ _ _).trans hb

theorem waveNoted_numbered (w : Wave) (s : State) : Numbered s (waveNoted w s) :=
  (wr_waveno_numbered (noteLastWave_waveKept _ _) (noteLastWave_besideRegs _ _ _)).startedAt w.start

theorem waveNoted_lastT0 (w : Wave) (s : State) : (waveNoted w s).lastT0 = w.start := rfl

/-- A started wave, journaled and shed after. -/
theorem waveJournaled_waveKept (w : Wave) (s : State) : WaveKept (waveNoted w s) (reshed (waveJournaled w s)) :=
  reshed_waveKept (commit_waveKept _ _ _ _ _ _ .refl)

/-! ## A wave of one move -/

theorem startMoves_one (hlo : loopOff s m.elem = false) (hk : kickStart m s = (true, t)) :
    startMoves [m] s = (retarget m t, []) := by
  unfold startMoves
  rw [List.foldl_cons, List.foldl_nil]
  simp [hlo, hk]

theorem startMoves_nil (s : State) : startMoves [] s = (s, []) := rfl

/-- The started move of one element: its drive is `d`, its loop has the retarget record, no other drive moves and no wave is armed. -/
structure MoveStarted (m : EMove) (d : Drv) (s t : State) : Prop where
  drive : drvGet t m.elem = d
  others : ∀ x, x < nElem → x ≠ m.elem → drvGet t x = drvGet s x
  state : t.rd R.LT_LOOP_STATE [m.elem] = 1
  cause : t.rd R.LT_LOOP_HCAUSE [m.elem] = 2
  cset : t.rd R.LT_LOOP_CSET [m.elem] = m.cset % 2 ^ R.LT_LOOP_CSET.width
  armed : t.armed = []

/-- A stored drive leaves waves, events and procedures. -/
theorem drvPut_leaves (s : State) (e : Nat) (d : Drv) :
    (drvPut s e d).armed = s.armed ∧ (drvPut s e d).modes = s.modes ∧ (drvPut s e d).evs = s.evs ∧
      (drvPut s e d).ramps = s.ramps ∧ (drvPut s e d).corr = s.corr := by
  rw [(drvPut_frame s e d).1]
  exact ⟨rfl, rfl, rfl, rfl, rfl⟩

/-- What a wave has moved stands after its number is shown, its entry written and the load shed. -/
structure Survives (s t : State) : Prop where
  loops : ∀ a, 0x1000000 ≤ a → a < 0x1800000 → readN t a = readN s a
  drv : t.drv = s.drv
  armed : t.armed = s.armed
  modes : t.modes = s.modes
  noEvs : s.evs = [] → t.evs = []

theorem Survives.rd (h : Survives s t) {F : Fld} (hd : F.dims = [(0x40, 35840)]) (hb : F.base = 0x1000000) {e : Nat} (he : e < nElem) :
    t.rd F [e] = s.rd F [e] := by
  unfold nElem at he
  unfold State.rd
  rw [fldAddr_loop hd, hb, h.loops _ (by omega) (by omega)]

theorem Numbered.survives {u : State} (h : Numbered s u) (hk : WaveKept u t) : Survives s t := by
  have hb := h.beside
  simp only [State.besideRegs, Prod.mk.injEq] at hb
  obtain ⟨hd, ha, hm, he⟩ := hb
  refine ⟨fun a h1 h2 => (hk.word a (.inr ⟨h1, h2⟩)).trans (h.loops a h1 h2), hk.drv.trans hd, hk.armed.trans ha, hk.modes.trans hm,
    fun hn => ?_⟩
  have hl := hk.evs
  rw [he, hn] at hl
  exact List.map_eq_nil_iff.1 hl

theorem waveJournaled_survives (w : Wave) (s : State) : Survives s (reshed (waveJournaled w s)) :=
  (waveNoted_numbered w s).survives (waveJournaled_waveKept w s)

/-- The retarget record follows the drive, and both survive the end of the wave. -/
theorem Retargeted.moveStarted {d : Drv} {u : State} (h : Retargeted m (drvPut s m.elem d) u) (hu : Survives u t) (he : m.elem < nElem)
    (ha : s.armed = []) : MoveStarted m d s t := by
  have hb := h.beside
  simp only [State.besideRegs, Prod.mk.injEq] at hb
  obtain ⟨hd, har, -, -⟩ := hb
  have hdrv : t.drv = (drvPut s m.elem d).drv := hu.drv.trans hd
  exact {
    drive := (drvGet_congr hdrv _).trans (drvGet_drvPut_same he s d)
    others := fun x _ hx => (drvGet_congr hdrv _).trans (drvGet_drvPut_other hx s d)
    state := (hu.rd (F := R.LT_LOOP_STATE) (by decide) (by decide) he).trans h.state
    cause := (hu.rd (F := R.LT_LOOP_HCAUSE) (by decide) (by decide) he).trans h.cause
    cset := (hu.rd (F := R.LT_LOOP_CSET) (by decide) (by decide) he).trans h.cset
    armed := by rw [hu.armed, har, (drvPut_leaves s m.elem d).1, ha] }

/-- Without events a wave starts with its moves, and what they did survives. -/
theorem startWave_survives (hv : w.voas = []) (hu : w.units = []) {s1 : State} (hm : startMoves w.moves s = (s1, [])) :
    Survives s1 (reshed (startWave w s)) := by
  rw [startWave_noUnits hv hu hm]
  exact waveJournaled_survives w s1

/-- A wave of one element that moves, without events. -/
theorem waveStart_oneMove {d : Drv} (ha : s.armed = [w]) (hl : s.modes.leaving = none) (hev : s.evs = []) (hm : w.moves = [m])
    (hu : w.units = []) (hv : w.voas = []) (he : m.elem < nElem) (hlo : loopOff { s with armed := [] } m.elem = false)
    (hr : s.ramps = []) (hc : s.corr = [])
    (hk : kickStart m { s with armed := [] } = (true, drvPut { s with armed := [] } m.elem d)) :
    runs .waveStart s (MoveStarted m d { s with armed := [] }) := by
  obtain ⟨-, hmodes, hevs, hramps, hcorr⟩ := drvPut_leaves { s with armed := [] } m.elem d
  have hret := retarget_retargeted (m := m) (hramps.trans hr) (hcorr.trans hc)
  have hs := startWave_survives hv hu ((congrArg (startMoves · _) hm).trans (startMoves_one hlo hk))
  generalize retarget m (drvPut { s with armed := [] } m.elem d) = u at hret hs
  have hb := hret.beside
  simp only [State.besideRegs, Prod.mk.injEq] at hb
  obtain ⟨-, -, hmodes', hevs'⟩ := hb
  have hnone := hs.noEvs (hevs'.trans (hevs.trans hev))
  refine ⟨_, waveStart_runs ha rfl (by simp [hnone]) ?_, hret.moveStarted hs he rfl⟩
  rw [hs.modes, hmodes', hmodes]
  exact hl

/-! ## The cases -/

theorem waveStart_kick (s : State) (w : Wave) (m : EMove) (k : Nat) (ha : s.armed = [w]) (hl : s.modes.leaving = none)
    (hev : s.evs = []) (hm : w.moves = [m]) (hu : w.units = []) (hv : w.voas = []) (he : m.elem < nElem) (hb : bankOf m.elem = k)
    (hlo : loopOff s m.elem = false) (hh : drvHeld s m.elem = false) (hr : s.ramps = []) (hc : s.corr = []) (hk : m.kick = true)
    (htab : s.flag R.EDA_KTAB_VALID [k, startEntry s m] = true) (hinj : bitN (readN s ((Blk.eda k).base + 0x18)) 31 = false) :
    runs .waveStart s (MoveStarted m (kickMove s.time (startEntry s m) (startDec s m) m (drvGet s m.elem)) { s with armed := [] }) := by
  subst hb
  exact waveStart_oneMove ha hl hev hm hu hv he hlo hr hc (kickStart_kick (s := { s with armed := [] }) hh hk htab hinj)

theorem waveStart_heater (s : State) (w : Wave) (m : EMove) (ha : s.armed = [w]) (hl : s.modes.leaving = none)
    (hev : s.evs = []) (hm : w.moves = [m]) (hu : w.units = []) (hv : w.voas = []) (he : m.elem < nElem)
    (hlo : loopOff s m.elem = false) (hh : drvHeld s m.elem = false) (hr : s.ramps = []) (hc : s.corr = []) (hk : m.kick = false) :
    runs .waveStart s (MoveStarted m (heaterMove m (drvGet s m.elem)) { s with armed := [] }) :=
  waveStart_oneMove ha hl hev hm hu hv he hlo hr hc (kickStart_heater (s := { s with armed := [] }) hh hk)

end Sys2Proof.Machine
end

section

/-! PROOFS. A wave that moves no element is credited to its event (R222, R223); the cases of a wave's start together. -/

namespace Sys2Proof.Machine

variable {s t : State} {w : Wave} {m : EMove} {e : Ev}

/-! ## The event's table entry -/

/-- Words of the event table or above it changed, nothing else. -/
structure TableOnly (s t : State) : Prop where
  frame : t = { s with regs := t.regs }
  below : ∀ a, a < 0x790000 → readN t a = readN s a

theorem TableOnly.refl : TableOnly s s := ⟨rfl, fun _ _ => rfl⟩

theorem TableOnly.wrWord (h : TableOnly s t) {a : Nat} (ha : 0x790000 ≤ a) (v : Nat) : TableOnly s (wrWord t a v) := by
  refine ⟨?_, fun b hb => (readN_wrWord_other _ _ _ _ (by omega)).trans (h.below b hb)⟩
  rw [h.frame]
  rfl

theorem TableOnly.wr (h : TableOnly s t) {F : Fld} (hd : F.dims = [(0x10, 1024)]) (hb : 0x790000 ≤ F.base) (n v : Nat) :
    TableOnly s (t.wr F [n] v) := by
  refine h.wrWord ?_ _
  simp only [fldAddr, hd, List.zip_cons_cons, List.zip_nil_right, List.map_cons, List.map_nil, List.sum_cons, List.sum_nil]
  omega

theorem showEv_tableOnly (e : Ev) (reason : Nat) (s : State) : TableOnly s (showEv e reason s) := by
  unfold showEv
  extract_lets w
  iterate 11 refine TableOnly.wr ?_ (by decide) (by decide) _ _
  exact .refl

/-! ## The credit of a wave -/

/-- What a wave shows of an event: its ACCEPT record's JSEQ has no part in it. -/
def Ev.progress (v : Ev) : Nat × Nat × Nat × Bool := (v.aseq, v.st, v.started, v.failing)

theorem WaveKept.progress (h : WaveKept s t) : t.evs.map Ev.progress = s.evs.map Ev.progress := by
  have hp (l : List Ev) : l.map Ev.progress = (l.map Ev.unjournaled).map Ev.progress := by
    rw [List.map_map]
    rfl
  rw [hp, h.evs, ← hp]

theorem progress_of_unjournaled {v v' : Ev} (h : v'.unjournaled = v.unjournaled) : v'.progress = v.progress :=
  calc v'.progress = v'.unjournaled.progress := rfl
    _ = v.unjournaled.progress := by rw [h]
    _ = v.progress := rfl

/-- The one event of the list with a wave more. -/
structure Credited (e : Ev) (s t : State) : Prop where
  events : t.evs.map Ev.progress = [(e.aseq, e.st, e.started + 1, e.failing)]
  waveno : t.rd R.RS_WAVENO_WAVE [] = s.rd R.RS_WAVENO_WAVE []
  drv : t.drv = s.drv
  armed : t.armed = s.armed
  lastT0 : t.lastT0 = s.lastT0
  modes : t.modes = s.modes
  jnl : t.jnl = s.jnl

theorem creditEv_whole (w : Wave) (e : Ev) (s : State) : ∃ e1 : Ev, e1.progress = (e.aseq, e.st, e.started + 1, e.failing) ∧
    creditEv w [] e s = showEv e1 0 (evSet e1 s) := by
  refine ⟨_, ?_, rfl⟩
  simp [Ev.progress]

theorem creditEv_credited (w : Wave) (h : s.evs = [e]) : Credited e s (creditEv w [] e s) := by
  obtain ⟨e1, hp, hc⟩ := creditEv_whole w e s
  obtain ⟨hf, hb⟩ := showEv_tableOnly e1 0 (evSet e1 s)
  have hq : e1.aseq = e.aseq := congrArg Prod.fst hp
  have hw : (showEv e1 0 (evSet e1 s)).rd R.RS_WAVENO_WAVE [] = s.rd R.RS_WAVENO_WAVE [] := by
    unfold State.rd
    rw [hb _ (by decide)]
    rfl
  rw [hc]
  generalize showEv e1 0 (evSet e1 s) = u at hf hw
  have hev : u.evs = [e1] := by
    rw [hf]
    simp [evSet, h, hq]
  refine ⟨by rw [hev]; exact congrArg (fun p => [p]) hp, hw, ?_, ?_, ?_, ?_, ?_⟩
  all_goals rw [hf]; rfl

/-! ## A wave of an event that moves no element -/

theorem wr_waveno_jnlReady (s : State) (v : Nat) : jnlReady (s.wr R.RS_WAVENO_WAVE [] v) = jnlReady s := by
  unfold jnlReady islOn islState copyLive
  rw [rd_wr_word _ _ R.PWR_ISL_STATE _ _ _ (by decide), rd_wr_word _ _ R.JNL_COPY_STATE _ [0] _ (by decide),
    rd_wr_word _ _ R.JNL_COPY_STATE _ [1] _ (by decide), wr_jnl]

theorem jnlReady_startedAt (s : State) (t0 : Nat) : jnlReady { s with lastT0 := t0 } = jnlReady s := rfl

theorem waveNoted_jnlReady (hm : w.moves = []) (s : State) : jnlReady (waveNoted w s) = jnlReady s := by
  unfold waveNoted
  rw [jnlReady_startedAt, hm, List.map_nil, noteLastWave_none, wr_waveno_jnlReady]

theorem waveNoted_jnl (hm : w.moves = []) (s : State) : (waveNoted w s).jnl = s.jnl := by
  have hn := wr_jnl s R.RS_WAVENO_WAVE [] (s.rd R.RS_WAVENO_WAVE [] + 1)
  unfold waveNoted
  rw [hm, List.map_nil, noteLastWave_none]
  exact hn

/-- A journal that takes entries takes the wave's. -/
theorem waveJournaled_journals (hm : w.moves = []) (h : jnlReady s = true) : Journals s (waveJournaled w s) := by
  obtain ⟨hj⟩ := commit_journals 0x04 0 0 0 0
    (beBytes 4 (s.rd R.RS_WAVENO_WAVE [] + 1) ++ beBytes 8 w.start ++ ((waveAseqs w).map (beBytes 4)).flatten)
    ((waveNoted_jnlReady hm s).trans h)
  rw [waveNoted_jnl hm] at hj
  exact ⟨hj⟩

/-- A wave of one event that changes no connection is journaled and credited to it. -/
theorem startWave_credits {u : SUnit} (hev : s.evs = [e]) (hm : w.moves = []) (hv : w.voas = []) (hu : w.units = [(e.aseq, u)])
    (hc : u.chgs = []) : ∃ e', (waveJournaled w s).evs = [e'] ∧ e'.unjournaled = e.unjournaled ∧
      startWave w s = creditEv w [] e' (waveJournaled w s) := by
  have hk : WaveKept (waveNoted w s) (waveJournaled w s) := commit_waveKept _ _ _ _ _ _ .refl
  have hbeside := (waveNoted_numbered w s).beside
  simp only [State.besideRegs, Prod.mk.injEq] at hbeside
  obtain ⟨-, -, -, hnoted⟩ := hbeside
  have hevs := hk.evs
  rw [hnoted, hev, List.map_singleton, List.map_eq_singleton_iff] at hevs
  obtain ⟨e', he', hun⟩ := hevs
  have hq : e'.aseq = e.aseq := congrArg Prod.fst (progress_of_unjournaled hun)
  have hchgs : evWaveChgs w = [] := by
    unfold evWaveChgs
    rw [hu]
    simp [hc]
  have hseqs : waveAseqs w = [e.aseq] := by
    unfold waveAseqs
    rw [hu]
    rfl
  have hmine : [e'].filter (fun x => [e.aseq].contains x.aseq) = [e'] := by simp [hq]
  refine ⟨e', he', hun, ?_⟩
  rw [startWave_plain hv hchgs (s1 := s) (by rw [hm, startMoves_nil]), hseqs, he', hmine, List.foldl_cons, List.foldl_nil]

/-- What the start of a wave shows that moves no element. -/
structure WaveCounted (w : Wave) (e : Ev) (s t : State) : Prop where
  armed : t.armed = s.armed
  lastT0 : t.lastT0 = w.start
  waveno : t.rd R.RS_WAVENO_WAVE [] = (s.rd R.RS_WAVENO_WAVE [] + 1) % 2 ^ 32
  events : t.evs.map Ev.progress = [(e.aseq, e.st, e.started + 1, e.failing)]
  jseq : s.jnl.last < t.jnl.last
  aseq : t.jnl.aseq = s.jnl.aseq
  drv : t.drv = s.drv
  modes : t.modes = s.modes

theorem startWave_counted {u : SUnit} (hev : s.evs = [e]) (hm : w.moves = []) (hv : w.voas = []) (hu : w.units = [(e.aseq, u)])
    (hc : u.chgs = []) (hj : jnlReady s = true) : WaveCounted w e s (reshed (startWave w s)) := by
  obtain ⟨e', hevs, hun, hs⟩ := startWave_credits hev hm hv hu hc
  have hnum := waveNoted_numbered w s
  have hbeside := hnum.beside
  simp only [State.besideRegs, Prod.mk.injEq] at hbeside
  obtain ⟨hdrv, harmed, hmodes, -⟩ := hbeside
  have hkept : WaveKept (waveNoted w s) (waveJournaled w s) := commit_waveKept _ _ _ _ _ _ .refl
  have hcred := creditEv_credited w hevs
  have hshed : WaveKept (startWave w s) (reshed (startWave w s)) := reshed_waveKept .refl
  have hlast : Journals s (waveJournaled w s) := waveJournaled_journals hm hj
  have hcredJ : Evolves (waveJournaled w s) (reshed (startWave w s)) := by
    rw [hs]
    exact reshed_evolves (creditEv_evolves _ _ _ .refl)
  have hprog : (e'.aseq, e'.st, e'.started + 1, e'.failing) = (e.aseq, e.st, e.started + 1, e.failing) := by
    have h := progress_of_unjournaled hun
    simp only [Ev.progress, Prod.mk.injEq] at h
    obtain ⟨h1, h2, h3, h4⟩ := h
    rw [h1, h2, h3, h4]
  rw [← hs] at hcred
  exact {
    armed := by rw [hshed.armed, hcred.armed, hkept.armed, harmed]
    lastT0 := by rw [hshed.lastT0, hcred.lastT0, hkept.lastT0, waveNoted_lastT0]
    waveno := by rw [hshed.rd (.inl rfl), hcred.waveno, hkept.rd (.inl rfl), hnum.waveno]
    events := by rw [hshed.progress, hcred.events, hprog]
    jseq := (hlast.evolves hcredJ).jseq
    aseq := by rw [hshed.aseq, hcred.jnl, hkept.aseq, waveNoted_jnl hm]
    drv := by rw [hshed.drv, hcred.drv, hkept.drv, hdrv]
    modes := by rw [hshed.modes, hcred.modes, hkept.modes, hmodes] }

theorem WaveCounted.notSolved (h : WaveCounted w e s t) (he : e.st = evArmed) : ∀ v ∈ t.evs, v.st ≠ evSolved := by
  intro v hv hst
  have hp : v.progress ∈ t.evs.map Ev.progress := List.mem_map_of_mem hv
  rw [h.events, List.mem_singleton] at hp
  have : v.st = e.st := congrArg (fun p => p.2.1) hp
  rw [this, he] at hst
  exact absurd hst (by decide)

/-- The case of a wave that moves no element. -/
theorem waveStart_counted {u : SUnit} (ha : s.armed = [w]) (hl : s.modes.leaving = none) (hev : s.evs = [e]) (he : e.st = evArmed)
    (hm : w.moves = []) (hv : w.voas = []) (hu : w.units = [(e.aseq, u)]) (hc : u.chgs = []) (hj : jnlReady s = true) :
    runs .waveStart s (WaveCounted w e { s with armed := [] }) := by
  have h := startWave_counted (s := { s with armed := [] }) hev hm hv hu hc hj
  exact ⟨_, waveStart_runs ha rfl (h.notSolved he) (by rw [h.modes]; exact hl), h⟩

/-- Settles O32: the wave without moves is counted and credited; the drive and the loop of a moved element survive what follows the
moves. -/
theorem wavesStart : Obligations.WavesStart := by
  refine ⟨?noMove, ?kick, ?heater⟩
  case noMove =>
    intro s w e u ha hl hev he hm hv hu hc hj
    obtain ⟨t, ht, h⟩ := waveStart_counted ha hl hev he hm hv hu hc hj
    have hevs := h.events
    rw [he] at hevs
    exact ⟨t, ht, h.armed, h.lastT0, h.waveno, hevs, h.jseq, h.aseq, h.drv⟩
  case kick =>
    intro s w m k ha hl hev hm hu hv he hb hlo hh hr hc hk htab hinj
    obtain ⟨t, ht, h⟩ := waveStart_kick s w m k ha hl hev hm hu hv he hb hlo hh hr hc hk htab hinj
    refine ⟨t, ht, ?_⟩
    dsimp only
    rw [h.drive, ← hb]
    exact ⟨rfl, rfl, rfl, rfl, rfl, rfl, rfl, rfl, rfl, rfl, rfl, h.state, h.cause, h.cset, h.others, h.armed⟩
  case heater =>
    intro s w m ha hl hev hm hu hv he hlo hh hr hc hk
    obtain ⟨t, ht, h⟩ := waveStart_heater s w m ha hl hev hm hu hv he hlo hh hr hc hk
    exact ⟨t, ht, h.drive, h.state, h.cause, h.others, h.armed⟩

end Sys2Proof.Machine
end

section

/-! PROOFS. A sample of a sensor (R90 to R101): what its boundary latches, and what a missed boundary leaves. -/

namespace Sys2Proof.Machine

variable {s t u : State} {n raw : Nat}

/-! ## The words of a sample -/

theorem fldAddr_sampleValue (n : Nat) : fldAddr R.ESA_SAMPLE_VALUE [n] = sampleAddr n := rfl

theorem fldAddr_sampleFlag {F : Fld} (hb : F.base = 0x3200004) (hd : F.dims = [(0x8, 36864)]) (n : Nat) :
    fldAddr F [n] = sampleAddr n + 4 := by
  simp only [fldAddr, hb, hd, sampleAddr, List.zip_cons_cons, List.zip_nil_right, List.map_cons, List.map_nil, List.sum_cons, List.sum_nil]
  omega

/-- The fields of a flag word. -/
theorem sampleFlags_fields (valid sat rchg fill move under : Bool) {g1 : Nat} (hg : g1 < 2) (seq : Nat) :
    bitsN (sampleFlags valid sat rchg fill move under g1 seq) 31 1 = b2n valid ∧
      bitsN (sampleFlags valid sat rchg fill move under g1 seq) 30 1 = b2n sat ∧
      bitsN (sampleFlags valid sat rchg fill move under g1 seq) 25 1 = g1 ∧
      bitsN (sampleFlags valid sat rchg fill move under g1 seq) 0 16 = seq % 2 ^ 16 := by
  have hb (b : Bool) : b2n b < 2 := by cases b <;> decide
  have h1 := hb valid
  have h2 := hb sat
  have h3 := hb rchg
  have h4 := hb fill
  have h5 := hb move
  have h6 := hb under
  unfold sampleFlags bitsN
  omega

/-- `t` shows value `v` and flags `fl` as the sample of sensor `n`; every other word is as in `s`. -/
structure SampleShown (n v fl : Nat) (s t : State) : Prop where
  value : readN t (sampleAddr n) = v % 2 ^ 32
  flags : readN t (sampleAddr n + 4) = fl % 2 ^ 32
  words : wordsKept s t [sampleAddr n, sampleAddr n + 4]

theorem SampleShown.rd_value {v fl : Nat} (h : SampleShown n v fl s t) (hv : v < 2 ^ 32) : t.rd R.ESA_SAMPLE_VALUE [n] = v := by
  show bitsN (readN t (fldAddr R.ESA_SAMPLE_VALUE [n])) 0 32 = v
  rw [fldAddr_sampleValue, h.value]
  unfold bitsN
  omega

theorem SampleShown.rd_flag {v fl : Nat} (h : SampleShown n v fl s t) {F : Fld} (hb : F.base = 0x3200004)
    (hd : F.dims = [(0x8, 36864)]) (hF : F.lo + F.width ≤ 32) : t.rd F [n] = bitsN fl F.lo F.width := by
  unfold State.rd
  rw [fldAddr_sampleFlag hb hd, h.flags, bitsN_mod _ _ _ hF]

theorem wrWord_sampleShown (n v fl : Nat) (s : State) :
    SampleShown n v fl s (wrWord (s.wr R.ESA_SAMPLE_VALUE [n] v) (sampleAddr n + 4) fl) := by
  have ha := fldAddr_sampleValue n
  refine ⟨?_, readN_wrWord_same _ _ _, fun a hw => ?_⟩
  · rw [readN_wrWord_other _ _ _ _ (by omega)]
    unfold State.wr
    rw [ha, readN_wrWord_same]
    show setBits _ 0 32 v % 2 ^ 32 = v % 2 ^ 32
    unfold setBits
    omega
  · simp only [List.mem_cons, List.not_mem_nil, or_false, not_or] at hw
    rw [readN_wrWord_other _ _ _ _ hw.2, readN_wr_other _ _ _ _ _ (ha ▸ hw.1)]

theorem SampleShown.congr {v fl : Nat} (h : SampleShown n v fl s t) (hr : u.regs = t.regs) : SampleShown n v fl s u :=
  ⟨(readN_congr hr _).trans h.value, (readN_congr hr _).trans h.flags, fun a ha => (readN_congr hr a).trans (h.words a ha)⟩

theorem SampleShown.since {v fl : Nat} (h : SampleShown n v fl u t) (hr : u.regs = s.regs) : SampleShown n v fl s t :=
  ⟨h.value, h.flags, fun a ha => (h.words a ha).trans (readN_congr hr a)⟩

/-! ## Latching -/

/-- A correction read while no injection is armed is sound (R101). -/
theorem readCorr_unarmed (h : bitN (readN s (Blk.esa.base + 0x18)) 31 = false) (n : Nat) : readCorr n s = s := by
  unfold readCorr
  rw [injParity_unarmed h]
  rfl

/-- The range rule counts; it writes no word. -/
theorem rangeRule_leaves (n raw g1 : Nat) (s : State) : (rangeRule n raw g1 s).regs = s.regs ∧ (rangeRule n raw g1 s).osr = s.osr ∧
    (rangeRule n raw g1 s).modes = s.modes := by
  have hdue : (rangeDue n s).regs = s.regs ∧ (rangeDue n s).osr = s.osr ∧ (rangeDue n s).modes = s.modes := ⟨rfl, rfl, rfl⟩
  unfold rangeRule
  extract_lets k
  split
  · exact ⟨rfl, rfl, rfl⟩
  · split
    · split
      · exact hdue
      · exact ⟨rfl, rfl, rfl⟩
    · split
      · exact hdue
      · exact ⟨rfl, rfl, rfl⟩

section SampleCounts
variable (n due fi : Nat) (clip valid : Bool) (s : State)

theorem sampleCounts_regs : (sampleCounts n due fi clip valid s).regs = s.regs := rfl
theorem sampleCounts_osr : (sampleCounts n due fi clip valid s).osr = s.osr := rfl
theorem sampleCounts_modes : (sampleCounts n due fi clip valid s).modes = s.modes := rfl

end SampleCounts

theorem correct_lt (s : State) (n raw g1 : Nat) : correct s n raw g1 < 2 ^ 32 :=
  Nat.lt_of_le_of_lt (Nat.min_le_left _ _) (by decide)

/-- The sample of a sensor below the range limit, outside any range change and refill, with a sound correction. -/
theorem latchSample_plain (hraw : raw < 0xC00000) (hr : cellGet (fun _ => 0) s.rchg n = 0)
    (hf : cellGet (fun _ => 2) s.refill n = 0) (hc : s.corrBad.contains n = false)
    (hi : bitN (readN s (Blk.esa.base + 0x18)) 31 = false) :
    ∃ move under, SampleShown n (correct s n raw (s.rd R.ESA_SAMPLE_GRANGE [n]))
        (sampleFlags true false false false move under (s.rd R.ESA_SAMPLE_GRANGE [n]) (s.rd R.ESA_SAMPLE_SEQ [n] + 1)) s
        (latchSample n raw false s) ∧
      (latchSample n raw false s).osr = s.osr ∧ (latchSample n raw false s).modes = s.modes := by
  unfold latchSample
  rw [readCorr_unarmed hi]
  extract_lets s0 due rc fi g0 g1 sat valid under v per fl s1 s2 s3 s4
  have hdue : due = 0 := hr
  have hrc : rc = 0 := by unfold rc; rw [hdue]
  have hfi : fi = 0 := hf
  have hg : g1 = s.rd R.ESA_SAMPLE_GRANGE [n] := if_neg (by omega)
  have hsat : sat = false := by simp [sat, Nat.not_le.2 hraw]
  have hvalid : valid = true := by
    show (rc == 0 && fi == 0 && !s.corrBad.contains n) = true
    rw [hrc, hfi, hc]
    rfl
  have hv : v = correct s n raw (s.rd R.ESA_SAMPLE_GRANGE [n]) := by simp only [v, hsat, hg]; rfl
  have hfl : fl = sampleFlags true false false false (decide (n < 34816) && moveIn s n (lastBoundary s n) per) under (s.rd R.ESA_SAMPLE_GRANGE [n]) (s.rd R.ESA_SAMPLE_SEQ [n] + 1) := by
    unfold fl
    rw [hvalid, hsat, hrc, hfi, hg]
    rfl
  have hs3 : s3 = s2 := if_neg (by rw [hsat]; exact Bool.false_ne_true)
  have hs4 : s4 = wrWord (s1.wr R.ESA_SAMPLE_VALUE [n] v) (sampleAddr n + 4) fl := by
    unfold s4
    rw [if_neg Bool.false_ne_true, hs3]
    unfold s2
    rw [if_pos hvalid]
  have hshown : SampleShown n v fl s s4 := by
    rw [hs4]
    exact (wrWord_sampleShown n v fl s1).since (sampleCounts_regs ..)
  obtain ⟨hregs, hosr, hmodes⟩ := rangeRule_leaves n raw g1 s4
  rw [if_neg (by omega : ¬ 4 ≤ due)]
  refine ⟨_, under, hfl ▸ hv ▸ hshown.congr hregs, hosr.trans ?_, hmodes.trans ?_⟩
  · rw [hs4, wrWord_osr, wr_osr, sampleCounts_osr]
  · rw [hs4, wrWord_modes, wr_modes, sampleCounts_modes]

/-! ## A boundary without a change of ESA.TAPCFG, and one with it -/

theorem settleS_idle (ho : cellGet (fun _ => 0) s.osr n = 0) (hb : s.modes.busyS.contains n = false) : settleS n s = s := by
  unfold settleS
  simp only [ho, if_true, hb]
  rfl

/-- What a boundary settles shows in OVL_BUSY alone; the missed boundaries stay noted. -/
theorem settleS_leaves (n : Nat) (s : State) :
    wordsKept s (settleS n s) [0x100010] ∧ (settleS n s).missed = s.missed := by
  have hset (x : State) : wordsKept x (settle x) [0x100010] ∧ (settle x).missed = x.missed := by
    unfold settle
    split
    · exact ⟨fun a ha => readN_wr_other _ _ _ _ _ (by rw [fldAddr_busy]; exact fun h => ha (List.mem_singleton.2 h)), wr_missed _ _ _ _⟩
    · exact ⟨fun _ _ => rfl, rfl⟩
  unfold settleS
  extract_lets old s1
  have h1 : s1.regs = s.regs ∧ s1.missed = s.missed := by
    unfold s1
    split
    · exact ⟨rfl, rfl⟩
    · exact ⟨rfl, rfl⟩
  obtain ⟨hr, hm⟩ := h1
  split
  · obtain ⟨hw, hk⟩ := hset { s1 with modes := { s1.modes with busyS := s1.modes.busyS.filter (· != n) } }
    exact ⟨fun a ha => (hw a ha).trans (readN_congr hr a), hk.trans hm⟩
  · exact ⟨fun a _ => readN_congr hr a, hm⟩

/-! ## The clauses of a sample -/

theorem sensor_live (hn : n < 36864) (hrun : sensRuns s n = true) (hg : onGrid s n = true) :
    ¬ (36864 ≤ n ∨ (!sensRuns s n) = true ∨ (!onGrid s n) = true) := by simp [hrun, hg, hn]

theorem sensorSample_latches {w : Nat} (clip : Bool) (hn : n < 34816) (hrun : sensRuns s n = true) (hg : onGrid s n = true) :
    exec (.sensorSample n (some w) clip) s = .next (settleS n (latchSample n (rawOf (osrOf (sensRate s n)) w) clip s)) := by
  exact congrArg _ ((if_neg (sensor_live (by omega) hrun hg)).trans (if_pos hn))

/-- The boundary is noted as missed. -/
def missNoted (n : Nat) (s : State) : State := { s with missed := if s.missed.contains n then s.missed else n :: s.missed }

theorem missNoted_contains (n : Nat) (s : State) : (missNoted n s).missed.contains n = true := by
  unfold missNoted
  dsimp only
  split
  · assumption
  · simp

theorem sensorSample_misses (clip : Bool) (hn : n < 36864) (hrun : sensRuns s n = true) (hg : onGrid s n = true) :
    exec (.sensorSample n none clip) s = .next (settleS n (raise .esa 2 (Cause.at (sampleAddr n)) (missNoted n s))) := by
  exact congrArg _ (if_neg (sensor_live hn hrun hg))

theorem sensorSample_offGrid (b : Option Nat) (clip : Bool) (hg : onGrid s n = false) : exec (.sensorSample n b clip) s = .next s :=
  congrArg _ (if_pos (.inr (.inr (by simp [hg]))))

/-- A corrected value as R97 gives it, in the range in force. -/
theorem correct_eq (s : State) (n raw g1 : Nat) : correct s n raw g1 =
    if g1 = 1 then clampN 4294967295 ((((raw : Int) - s.rdS R.ESA_CORR_OFS1 [n]) * (s.rd R.ESA_CORR_GAIN1 [n] : Int)) / 65536 -
      (darkLevel s n : Int))
    else clampN 4294967295 ((((raw : Int) - s.rdS R.ESA_CORR_OFS0 [n]) * (s.rd R.ESA_CORR_GAIN0 [n] : Int)) / 65536 -
      (darkLevel s n : Int)) := by
  unfold correct
  split
  · rfl
  · rfl

theorem SampleShown.shows {v seq g : Nat} {move under : Bool} (h : SampleShown n v (sampleFlags true false false false move under g seq) s t)
    (hg : g < 2) : t.flag R.ESA_SAMPLE_VALID [n] = true ∧ t.flag R.ESA_SAMPLE_SAT [n] = false ∧ t.rd R.ESA_SAMPLE_GRANGE [n] = g ∧
      t.rd R.ESA_SAMPLE_SEQ [n] = seq % 2 ^ 16 := by
  obtain ⟨hvalid, hsat, hrange, hseq⟩ := sampleFlags_fields true false false false move under hg seq
  refine ⟨?_, ?_, (h.rd_flag rfl rfl (by decide)).trans hrange, (h.rd_flag rfl rfl (by decide)).trans hseq⟩
  · unfold State.flag
    rw [h.rd_flag rfl rfl (by decide)]
    exact beq_iff_eq.2 hvalid
  · unfold State.flag
    rw [h.rd_flag rfl rfl (by decide)]
    exact beq_eq_false_iff_ne.2 (hsat.trans_ne (by decide))

theorem sensorSample_shows (s : State) (n w : Nat) (hn : n < 34816) (hrun : sensRuns s n = true) (hg : onGrid s n = true)
    (hraw : rawOf (osrOf (sensRate s n)) w < 0xC00000) (hr : cellGet (fun _ => 0) s.rchg n = 0)
    (hf : cellGet (fun _ => 2) s.refill n = 0) (ho : cellGet (fun _ => 0) s.osr n = 0) (hc : s.corrBad.contains n = false)
    (hb : s.modes.busyS.contains n = false) (hi : bitN (readN s (Blk.esa.base + 0x18)) 31 = false) :
    ∃ t move under, exec (.sensorSample n (some w) false) s = .next t ∧
      SampleShown n (correct s n (rawOf (osrOf (sensRate s n)) w) (s.rd R.ESA_SAMPLE_GRANGE [n]))
        (sampleFlags true false false false move under (s.rd R.ESA_SAMPLE_GRANGE [n]) (s.rd R.ESA_SAMPLE_SEQ [n] + 1)) s t := by
  obtain ⟨move, under, hshown, hosr, hmodes⟩ := latchSample_plain hraw hr hf hc hi
  have hx := sensorSample_latches (w := w) false hn hrun hg
  rw [settleS_idle (by rw [hosr, ho]) (by rw [hmodes, hb])] at hx
  exact ⟨_, move, under, hx, hshown⟩

theorem sensorSample_miss_shows (s : State) (n : Nat) (hn : n < 36864) (hrun : sensRuns s n = true) (hg : onGrid s n = true) :
    runs (.sensorSample n none false) s fun t =>
      bitN (readN t Blk.esa.base) 2 = true ∧ readN t (sampleAddr n) = readN s (sampleAddr n) ∧
      readN t (sampleAddr n + 4) = readN s (sampleAddr n + 4) ∧ t.missed.contains n = true := by
  obtain ⟨hw, hm⟩ := settleS_leaves n (raise .esa 2 (Cause.at (sampleAddr n)) (missNoted n s))
  have hword {a : Nat} (hlo : 0x3000014 < a) (hhi : a < 0x4500000) :
      readN (settleS n (raise .esa 2 (Cause.at (sampleAddr n)) (missNoted n s))) a = readN s a := by
    rw [hw a (by rw [List.mem_singleton]; omega), readN_raise (b := .esa) hhi (.inr hlo)]
    rfl
  refine ⟨_, sensorSample_misses false hn hrun hg, ?_, hword ?_ ?_, hword ?_ ?_, ?_⟩
  · rw [hw _ (by decide)]
    exact raise_status_bit _ _ _ (by decide) (by decide)
  · unfold sampleAddr; omega
  · unfold sampleAddr; omega
  · unfold sampleAddr; omega
  · unfold sampleAddr; omega
  · rw [hm, raise_frame]
    exact missNoted_contains n s

end Sys2Proof.Machine
end

section

/-! PROOFS. A comparator crossing (R108, R310, R313); the cases of a sample and of a crossing together. -/

namespace Sys2Proof.Machine

variable {s : State} {n x : Nat}

/-! ## A crossing -/

/-- The dark verification of a port has failed in channel B (R310). -/
def darkFailed (n : Nat) (s : State) : State :=
  { s with chB := { s.chB with
    dver := if s.chB.dver.contains n then s.chB.dver else n :: s.chB.dver
    locks := setBits s.chB.locks 4 1 1 } }

theorem comparator_live (hx : x < 1024) (hi : islOn s 4 = true) : ¬ (1024 ≤ x ∨ (!islOn s 4) = true) := by simp [hi, hx]

theorem comparatorCrossing_dark (hx : x < 1024) (hi : islOn s 4 = true) (hd : heldDark s (x % 512) = true)
    (hl : darkLong s (x % 512) = true) : exec (.comparatorCrossing x) s = .next (darkFailed (x % 512) s) := by
  exact congrArg _ ((if_neg (comparator_live hx hi)).trans ((if_pos hd).trans (if_neg (by simp [hl]))))

theorem comparatorCrossing_slp (hx : x < 1024) (hi : islOn s 4 = true) (hd : heldDark s (x % 512) = false)
    (he : spbOn s.chB R.SAF_SLPCFG_EN [x % 512] = true) : exec (.comparatorCrossing x) s = .next (slpTrip 1 (x % 512) s) := by
  exact congrArg _ ((if_neg (comparator_live hx hi)).trans ((if_neg (by simp [hd])).trans (if_pos he)))

theorem darkFailed_dver (n : Nat) (s : State) : (darkFailed n s).chB.dver.contains n = true := by
  unfold darkFailed
  dsimp only
  split
  · assumption
  · simp

theorem darkFailed_locks (n : Nat) (s : State) : bitN (darkFailed n s).chB.locks 4 = true := bitN_setBits_one _ _

/-! ## A trip in channel B -/

/-- Channel B with the trip of a port latched, and its block. -/
def slpLatched (n time : Nat) (v : Chan) : Chan :=
  let v1 := if v.blocks.contains n then v else { v with blocks := n :: v.blocks, blkAt := cellSet (fun _ => 0) v.blkAt n (time + 1) }
  { v1 with trips := n :: v.trips }

theorem slpLatched_trips (n time : Nat) (v : Chan) : (slpLatched n time v).trips.contains n = true := by simp [slpLatched]

theorem slpLatched_blocks (n time : Nat) (v : Chan) : (slpLatched n time v).blocks.contains n = true := by
  unfold slpLatched
  dsimp only
  split
  · assumption
  · simp

/-- A port that is latched already stays as it is. -/
theorem slpTrip_again (h : s.chB.trips.contains n = true) : slpTrip 1 n s = s := if_pos (by rw [Bool.or_eq_true]; exact .inl h)

/-- The trip and the block of a port stand in channel B. -/
def slpBlocked (n : Nat) (s : State) : State := { s with chB := slpLatched n s.time s.chB }

theorem slpTrip_live (hi : islOn s 4 = true) (h : s.chB.trips.contains n = false) :
    slpTrip 1 n s = snapTrigger snapSafety ((slpBlocked n s).inc R.SAF_CNT_SLP_TRIP_B []) := by
  have hlive : ¬ (s.chB.trips.contains n || !islOn s 4) = true := by
    rw [h, hi]
    exact Bool.false_ne_true
  exact if_neg hlive

theorem snapTrigger_chans (src : Nat) (s : State) : (snapTrigger src s).chA = s.chA ∧ (snapTrigger src s).chB = s.chB := by
  rw [(snapTrigger_snapOnly src s).1]
  exact ⟨rfl, rfl⟩

theorem slpTrip_latches (hi : islOn s 4 = true) (h : s.chB.trips.contains n = false) :
    (slpTrip 1 n s).chB = slpLatched n s.time s.chB ∧ (slpTrip 1 n s).chA = s.chA := by
  obtain ⟨ha, hb⟩ := snapTrigger_chans snapSafety ((slpBlocked n s).inc R.SAF_CNT_SLP_TRIP_B [])
  rw [slpTrip_live hi h, ha, hb, inc_eq, wr_chA, wr_chB]
  exact ⟨rfl, rfl⟩

theorem slpTrip_trips (hi : islOn s 4 = true) : (slpTrip 1 n s).chB.trips.contains n = true ∧
    (s.chB.trips.contains n = true ∨ (slpTrip 1 n s).chB.blocks.contains n = true) ∧ (slpTrip 1 n s).chA = s.chA := by
  by_cases h : s.chB.trips.contains n = true
  · rw [slpTrip_again h]
    exact ⟨h, .inl h, rfl⟩
  · obtain ⟨hb, ha⟩ := slpTrip_latches hi (Bool.eq_false_iff.2 h)
    rw [hb]
    exact ⟨slpLatched_trips n _ _, .inr (slpLatched_blocks n _ _), ha⟩

/-! ## The statement -/

/-- Settles O21: a boundary latches one sample or notes a miss, and a crossing fails the dark verification or trips its port. -/
theorem sensorSamples : Obligations.SensorSamples := by
  refine ⟨?sample, sensorSample_miss_shows, fun s n b x hg => ⟨s, sensorSample_offGrid b x hg, rfl⟩, ?dark, ?slp⟩
  case sample =>
    intro s n w hn hrun hg hraw hr hf ho hc hb hi
    obtain ⟨t, move, under, ht, h⟩ := sensorSample_shows s n w hn hrun hg hraw hr hf ho hc hb hi
    obtain ⟨hvalid, hsat, hrange, hseq⟩ := h.shows (rd_lt s R.ESA_SAMPLE_GRANGE [n])
    exact ⟨t, ht, hvalid, hsat, hrange, hseq, (h.rd_value (correct_lt _ _ _ _)).trans (correct_eq _ _ _ _), h.words⟩
  case dark =>
    intro s x hx hi hd hl
    exact ⟨_, comparatorCrossing_dark hx hi hd hl, darkFailed_dver _ s, darkFailed_locks _ s, rfl, rfl⟩
  case slp =>
    intro s x hx hi hd he
    exact ⟨_, comparatorCrossing_slp hx hi hd he, slpTrip_trips hi⟩

end Sys2Proof.Machine
end

section

/-! PROOFS. A loop entry rewritten (R140): which bits of an entry an image loads, and what a rebuilt entry leaves. -/

namespace Sys2Proof.Machine

variable {s t : State} {n a i : Nat}

/-! ## The bits that a load sets -/

theorem testBit_foldl_lor (l : List Nat) (m i : Nat) : (l.foldl Nat.lor m).testBit i = (m.testBit i || l.any (·.testBit i)) := by
  induction l generalizing m with
  | nil => simp
  | cons x l ih =>
    have hx : (Nat.lor m x).testBit i = (m.testBit i || x.testBit i) := Nat.testBit_or m x i
    rw [List.foldl_cons, ih, hx, List.any_cons, Bool.or_assoc]

theorem Fld.testBit_mask (F : Fld) (i : Nat) : F.mask.testBit i = (decide (F.lo ≤ i) && decide (i < F.lo + F.width)) := by
  unfold Fld.mask
  rw [Nat.testBit_mul_two_pow, Nat.testBit_two_pow_sub_one]
  by_cases h : F.lo ≤ i
  · simp only [h, decide_true, Bool.true_and, decide_eq_decide]
    omega
  · simp [h]

/-- A bit of an access mask lies in a field of that access code. -/
theorem field_of_accMask {c : Acc} {l : List Fld} (h : (accMask c l).testBit i = true) :
    ∃ F ∈ l, F.acc = c ∧ i < F.lo + F.width := by
  unfold accMask at h
  rw [testBit_foldl_lor, Nat.zero_testBit, Bool.false_or, List.any_map, List.any_eq_true] at h
  obtain ⟨F, hF, hbit⟩ := h
  rw [List.mem_filter, beq_iff_eq] at hF
  rw [Function.comp_apply, Fld.testBit_mask, Bool.and_eq_true, decide_eq_true_eq, decide_eq_true_eq] at hbit
  exact ⟨F, hF.1, hF.2, hbit.2⟩

/-- A bit that a load sets lies in a field of the word that is not read-only. -/
theorem field_of_loadMask (h : (loadMask a).testBit i = true) : ∃ F ∈ fieldsAt a, F.acc ≠ .ro ∧ i < F.lo + F.width := by
  have hor (x y : Nat) : (Nat.lor x y).testBit i = (x.testBit i || y.testBit i) := Nat.testBit_or x y i
  have hsub {F : Fld} (hF : F ∈ if 0x6FFF80 ≤ a ∧ a < 0x700000 then [] else fieldsAt a) : F ∈ fieldsAt a := by
    split at hF
    · exact absurd hF List.not_mem_nil
    · exact hF
  unfold loadMask at h
  simp only [hor, Bool.or_eq_true] at h
  rcases h with (h | h) | h
  all_goals
    obtain ⟨F, hF, hacc, hi⟩ := field_of_accMask h
    exact ⟨F, hsub hF, by simp [hacc], hi⟩

/-! ## The words of an entry -/

/-- The sixteen words of a loop's entry. -/
def entryWords (n : Nat) : List Nat := (span 0 16).map fun i => entryAddr n + 4 * i

theorem mem_entryWords : a ∈ entryWords n ↔ entryAddr n ≤ a ∧ a < entryAddr n + 64 ∧ a % 4 = 0 := by
  simp only [entryWords, List.mem_map, mem_span, entryAddr]
  constructor
  · rintro ⟨i, hi, rfl⟩
    omega
  · rintro ⟨h1, h2, h3⟩
    exact ⟨(a - (0x1000000 + 64 * n)) / 4, by omega, by omega⟩

/-- Every field of the loop table lies in whole words of an entry; one that a load sets is not repeated in its entry, and none of
those in the first word reaches STATE. -/
theorem loopFields_shape : ∀ F ∈ R.LT_fields, F.base % 4 = 0 ∧ F.dims.all (fun d => d.1 % 4 == 0) = true ∧
    (F.acc ≠ .ro → F.dims = [(0x40, 35840)] ∧ (F.base % 64 = 0 → F.lo + F.width ≤ 30)) := by
  decide

theorem coversOfs_mod_four {l : List (Nat × Nat)} (hl : l.all (fun d => d.1 % 4 == 0) = true) {r : Nat} (h : coversOfs l r = true) :
    r % 4 = 0 := by
  induction l generalizing r with
  | nil =>
    have hr : r = 0 := by simpa [coversOfs] using h
    rw [hr]
  | cons d l ih =>
    rw [List.all_cons, Bool.and_eq_true, beq_iff_eq] at hl
    obtain ⟨hd, hl⟩ := hl
    rw [coversOfs] at h
    split at h
    · rw [← ih hl h, Nat.mod_mod_of_dvd _ (Nat.dvd_of_mod_eq_zero hd)]
    · exact absurd h Bool.false_ne_true

theorem mem_fieldsAt_entry (hn : n < nLoop) (hlo : entryAddr n ≤ a) (hhi : a < entryAddr n + 64) {F : Fld} (h : F ∈ fieldsAt a) :
    F ∈ R.LT_fields ∧ F.covers a = true := by
  unfold nLoop at hn
  unfold entryAddr at hlo hhi
  have hb : blockFields a = R.LT_fields := by
    unfold blockFields
    iterate 9 rw [if_neg (by omega)]
    rw [if_pos (by omega)]
  unfold fieldsAt at h
  rw [hb, List.mem_filter, Bool.and_eq_true] at h
  exact ⟨h.1, h.2.1⟩

/-- A load sets nothing at an address that is no word address. -/
theorem loadMask_between (hn : n < nLoop) (hlo : entryAddr n ≤ a) (hhi : a < entryAddr n + 64) (h4 : a % 4 ≠ 0) : loadMask a = 0 := by
  refine Nat.eq_of_testBit_eq fun i => ?_
  rw [Nat.zero_testBit]
  refine Bool.eq_false_iff.2 fun h => h4 ?_
  obtain ⟨F, hF, -⟩ := field_of_loadMask h
  obtain ⟨hmem, hcov⟩ := mem_fieldsAt_entry hn hlo hhi hF
  obtain ⟨hbase, hdims, -⟩ := loopFields_shape F hmem
  unfold Fld.covers at hcov
  rw [Bool.and_eq_true, decide_eq_true_eq] at hcov
  have := coversOfs_mod_four hdims hcov.2
  omega

/-- A load leaves STATE, bits 31:30 of the first word. -/
theorem loadMask_entry (hn : n < nLoop) (h : (loadMask (entryAddr n)).testBit i = true) : i < 30 := by
  obtain ⟨F, hF, hacc, hi⟩ := field_of_loadMask h
  obtain ⟨hmem, hcov⟩ := mem_fieldsAt_entry hn (Nat.le_refl _) (by omega) hF
  obtain ⟨hdims, hlow⟩ := (loopFields_shape F hmem).2.2 hacc
  unfold Fld.covers at hcov
  rw [hdims, Bool.and_eq_true, decide_eq_true_eq, coversOfs] at hcov
  obtain ⟨hle, hcov⟩ := hcov
  split at hcov
  · have hr : (entryAddr n - F.base) % 64 = 0 := by simpa [coversOfs] using hcov
    have := hlow (by unfold entryAddr at hle hr; omega)
    omega
  · exact absurd hcov Bool.false_ne_true

/-! ## A masked write -/

theorem maskIn_testBit (x mask v : Nat) (i : Nat) (h : mask.testBit i = false) :
    (maskIn (BitVec.ofNat 32 x) (BitVec.ofNat 32 mask) (BitVec.ofNat 32 v)).toNat.testBit i = (x % 2 ^ 32).testBit i := by
  have hm : (BitVec.ofNat 32 mask).getLsbD i = false := by rw [BitVec.getLsbD_ofNat, h, Bool.and_false]
  unfold maskIn
  rw [BitVec.testBit_toNat, BitVec.getLsbD_or, BitVec.getLsbD_and, BitVec.getLsbD_and, BitVec.getLsbD_not, hm, BitVec.getLsbD_ofNat,
    Nat.testBit_mod_two_pow]
  by_cases hi : i < 32 <;> simp [hi]

/-- A masked write keeps every bit outside the mask. -/
theorem readN_mergeWord_testBit (mask v : Nat) (h : mask.testBit i = false) :
    (readN (mergeWord mask a v s) a).testBit i = (readN s a).testBit i := by
  unfold mergeWord
  rw [readN_wrWord_same, Nat.mod_eq_of_lt (BitVec.isLt _), maskIn_testBit _ _ _ _ h, Nat.mod_eq_of_lt (readN_lt _ _)]

theorem readN_mergeWord_none (v b : Nat) : readN (mergeWord 0 a v s) b = readN s b := by
  by_cases hb : b = a
  · subst hb
    exact Nat.eq_of_testBit_eq fun i => readN_mergeWord_testBit 0 v (Nat.zero_testBit i)
  · exact readN_wrWord_other _ _ _ _ hb

theorem rd_mergeWord {F : Fld} {ix : List Nat} {mask : Nat} (v : Nat) (ha : fldAddr F ix = a)
    (h : ∀ i, F.lo ≤ i → mask.testBit i = false) : (mergeWord mask a v s).rd F ix = s.rd F ix := by
  refine Nat.eq_of_testBit_eq fun i => ?_
  unfold State.rd
  rw [ha, bitsN_testBit, bitsN_testBit, readN_mergeWord_testBit mask v (h _ (Nat.le_add_right _ _))]

/-! ## What a rebuilt entry leaves -/

/-- Nothing but the entry of the loop has changed, and not the loop's state in it. -/
structure EntryWritten (n : Nat) (s t : State) : Prop where
  only : onlyWords s t (entryWords n)
  state : t.rd R.LT_LOOP_STATE [n] = s.rd R.LT_LOOP_STATE [n]

theorem EntryWritten.refl : EntryWritten n s s := ⟨onlyWords_refl _ _, rfl⟩

/-- A field of an entry. -/
abbrev entryField (F : Fld) : Prop := F.dims = [(0x40, 35840)] ∧ 0x1000000 ≤ F.base ∧ F.base < 0x1000040 ∧ F.base % 4 = 0

theorem fldAddr_mem_entryWords {F : Fld} (hF : entryField F) (n : Nat) : fldAddr F [n] ∈ entryWords n := by
  obtain ⟨hd, h1, h2, h3⟩ := hF
  rw [mem_entryWords, fldAddr_loop hd]
  unfold entryAddr
  omega

theorem EntryWritten.wr (h : EntryWritten n s t) {F : Fld} (hF : entryField F) (hS : loopApart F R.LT_LOOP_STATE) (v : Nat) :
    EntryWritten n s (t.wr F [n] v) :=
  ⟨onlyWords_wr _ _ _ h.only (fldAddr_mem_entryWords hF n), (rd_wr_loop hS _ _ _).trans h.state⟩

/-- A word of the image in the entry, at whatever address it is listed. -/
theorem EntryWritten.load (h : EntryWritten n s t) (hn : n < nLoop) (hlo : entryAddr n ≤ a) (hhi : a < entryAddr n + 64) (v : Nat) :
    EntryWritten n s (mergeWord (loadMask a) a v t) := by
  by_cases h4 : a % 4 = 0
  case neg =>
    have hw (b : Nat) : readN (mergeWord (loadMask a) a v t) b = readN t b := by
      rw [loadMask_between hn hlo hhi h4, readN_mergeWord_none]
    refine ⟨⟨?_, fun b hb => (hw b).trans (h.only.2 b hb)⟩, ?_⟩
    · unfold mergeWord
      rw [wrWord_regsOnly, h.only.1]
    · rw [← h.state]
      unfold State.rd
      rw [hw]
  case pos =>
    refine ⟨onlyWords_wrWord _ _ h.only (mem_entryWords.2 ⟨hlo, hhi, h4⟩), Eq.trans ?_ h.state⟩
    have hs : fldAddr R.LT_LOOP_STATE [n] = entryAddr n := fldAddr_loop rfl n
    by_cases ha : a = entryAddr n
    · subst ha
      refine rd_mergeWord v hs fun i hi => Bool.eq_false_iff.2 fun hbit => ?_
      have hb := loadMask_entry hn hbit
      exact absurd hi (Nat.not_le.2 hb)
    · exact rd_wrWord_other _ _ _ _ _ (by rw [hs]; exact Ne.symm ha)

theorem EntryWritten.loadAll (hn : n < nLoop) {l : List (Nat × Nat)} (hl : ∀ w ∈ l, entryAddr n ≤ w.1 ∧ w.1 < entryAddr n + 64)
    (h : EntryWritten n s t) : EntryWritten n s (l.foldl (fun t w => mergeWord (loadMask w.1) w.1 w.2 t) t) := by
  induction l generalizing t with
  | nil => exact h
  | cons w l ih =>
    obtain ⟨hlo, hhi⟩ := hl w List.mem_cons_self
    exact ih (fun x hx => hl x (List.mem_cons_of_mem _ hx)) (h.load hn hlo hhi _)

theorem entryFor_written (hn : n < nLoop) (use : Option (Route × Nat)) (s : State) : EntryWritten n s (entryFor n use s) := by
  unfold entryFor
  extract_lets words s1 st refs w
  have hwords : ∀ x ∈ words, entryAddr n ≤ x.1 ∧ x.1 < entryAddr n + 64 := by
    intro x hx
    unfold words at hx
    split at hx
    · rw [List.mem_filter, Bool.and_eq_true, decide_eq_true_eq, decide_eq_true_eq] at hx
      omega
    · exact absurd hx List.not_mem_nil
  have h1 : EntryWritten n s s1 := .loadAll hn hwords .refl
  split
  · exact h1.wr (by decide) (by decide) _
  · unfold w
    iterate 8 refine EntryWritten.wr ?_ (by decide) (by decide) _
    exact h1

/-- The entry of an element takes the state that its connection gives it, PARK without one. -/
theorem rebuildEntry_tstate (hn : n < nElem) (s : State) :
    (rebuildEntry n s).rd R.LT_LOOP_TSTATE [n] = ((elemUse s n).map (·.2)).getD 0 % 4 := by
  unfold rebuildEntry entryFor
  extract_lets words s1 st refs w
  rw [if_neg (show ¬ 34816 ≤ n from Nat.not_le.2 hn)]
  exact rd_wr_same _ _ _ _ (by decide)

end Sys2Proof.Machine
end

section

/-! PROOFS. The loop of a rewritten entry resumes (R140), and the comparator self-test (R108). -/

namespace Sys2Proof.Machine

variable {s t : State} {n : Nat}

/-! ## The freeze flags -/

/-- Words below the loop table have changed, nothing else. -/
structure BelowLoops (s t : State) : Prop where
  frame : t = { s with regs := t.regs }
  word : ∀ a, 0x1000000 ≤ a → readN t a = readN s a

theorem BelowLoops.refl : BelowLoops s s := ⟨rfl, fun _ _ => rfl⟩

theorem BelowLoops.wr (h : BelowLoops s t) {F : Fld} {ix : List Nat} (ha : fldAddr F ix < 0x1000000) (v : Nat) :
    BelowLoops s (t.wr F ix v) := by
  refine ⟨?_, fun b hb => (readN_wr_other _ _ _ _ _ (by omega)).trans (h.word b hb)⟩
  rw [h.frame]
  rfl

theorem BelowLoops.rd (h : BelowLoops s t) {F : Fld} (hF : entryField F) (n : Nat) : t.rd F [n] = s.rd F [n] := by
  obtain ⟨hd, hb, -⟩ := hF
  unfold State.rd
  rw [h.word _ (by rw [fldAddr_loop hd]; omega)]

theorem showFlags_belowLoops {o : Nat} (ho : o < 512) (h : BelowLoops s t) : BelowLoops s (showFlags o t) := by
  have ha {F : Fld} (hb : F.base = 0x710004) (hd : F.dims = [(0x8, 512)]) : fldAddr F [o] < 0x1000000 := by
    simp only [fldAddr, hb, hd, List.zip_cons_cons, List.zip_nil_right, List.map_cons, List.map_nil, List.sum_cons, List.sum_nil]
    omega
  exact (h.wr (ha rfl rfl) _).wr (ha rfl rfl) _

theorem connsOf_lt {o : Nat} (ho : o ∈ connsOf s n) : o < 512 := by
  unfold connsOf at ho
  split at ho
  · have hm := (List.mem_filter.1 ho).1
    rw [mem_span] at hm
    omega
  · rw [List.mem_singleton] at ho
    rw [ho]
    exact Nat.mod_lt _ (by decide)

theorem showFrz_belowLoops (n : Nat) (s : State) : BelowLoops s (showFrz n s) := by
  have hfold (l : List Nat) (hl : ∀ o ∈ l, o < 512) {t : State} (h : BelowLoops s t) :
      BelowLoops s (l.foldl (fun t o => showFlags o t) t) := by
    induction l generalizing t with
    | nil => exact h
    | cons o l ih =>
      exact ih (fun x hx => hl x (List.mem_cons_of_mem _ hx)) (showFlags_belowLoops (hl o List.mem_cons_self) h)
  exact hfold _ (fun o ho => connsOf_lt ho) .refl

/-! ## The loop resumes -/

/-- STATE is MODEL_HOLD, with its cause. -/
def holdShown (n c : Nat) (s : State) : State := (s.wr R.LT_LOOP_STATE [n] 1).wr R.LT_LOOP_HCAUSE [n] c

theorem holdShown_onlyWords (n c : Nat) (s : State) : onlyWords s (holdShown n c s) (entryWords n) :=
  onlyWords_wr _ _ _ (onlyWords_wr _ _ _ (onlyWords_refl _ _) (fldAddr_mem_entryWords (by decide) n))
    (fldAddr_mem_entryWords (by decide) n)

theorem holdShown_state (n c : Nat) (s : State) : (holdShown n c s).rd R.LT_LOOP_STATE [n] = 1 :=
  (rd_wr_loop (by decide) _ _ _).trans (rd_wr_same _ _ _ _ (by decide))

theorem holdShown_cause (n c : Nat) (s : State) : (holdShown n c s).rd R.LT_LOOP_HCAUSE [n] = c % 8 := rd_wr_same _ _ _ _ (by decide)

theorem holdShown_tstate (n c : Nat) (s : State) : (holdShown n c s).rd R.LT_LOOP_TSTATE [n] = s.rd R.LT_LOOP_TSTATE [n] :=
  (rd_wr_loop (by decide) _ _ _).trans (rd_wr_loop (by decide) _ _ _)

/-- A running loop goes to MODEL_HOLD: a loop that leaves FROZEN clears FRZ of its connections. -/
theorem loopGo_hold (eng c : Nat) (h : s.rd R.LT_LOOP_STATE [n] ≠ 0) : loopGo n eng (1, c) s =
    if s.rd R.LT_LOOP_STATE [n] = 3 then showFrz n (holdShown n c s) else holdShown n c s := by
  unfold loopGo
  simp [h, holdShown]

theorem loopGo_hold_belowLoops (eng c : Nat) (h : s.rd R.LT_LOOP_STATE [n] ≠ 0) :
    BelowLoops (holdShown n c s) (loopGo n eng (1, c) s) := by
  rw [loopGo_hold eng c h]
  split
  · exact showFrz_belowLoops _ _
  · exact .refl

/-! ## The clauses -/

/-- The entry is rebuilt, and its error is over. -/
def entryRewritten (n : Nat) (s : State) : State := rebuildEntry n { s with loopBad := s.loopBad.filter (· != n) }

theorem entryRewritten_written (hn : n < nLoop) (s : State) :
    EntryWritten n { s with loopBad := s.loopBad.filter (· != n) } (entryRewritten n s) := entryFor_written hn _ _

/-- What a rewrite shows: the statement's clauses for a loop that runs and one that is OFF. -/
structure Rewritten (n : Nat) (s t : State) : Prop where
  frame : t = { s with regs := t.regs, loopBad := s.loopBad.filter (· != n) }
  runs : s.rd R.LT_LOOP_STATE [n] ≠ 0 → t.rd R.LT_LOOP_STATE [n] = 1 ∧ t.rd R.LT_LOOP_HCAUSE [n] = 5
  off : s.rd R.LT_LOOP_STATE [n] = 0 → t.rd R.LT_LOOP_STATE [n] = 0
  target : n < nElem → t.rd R.LT_LOOP_TSTATE [n] = ((elemUse s n).map (·.2)).getD 0 % 4
  words : s.rd R.LT_LOOP_STATE [n] ≠ 3 → wordsKept s t (entryWords n)

theorem Rewritten.bad (h : Rewritten n s t) : t.loopBad = s.loopBad.filter (· != n) := congrArg State.loopBad h.frame

theorem elemUse_loopBad (s : State) (l : List Nat) (n : Nat) : elemUse { s with loopBad := l } n = elemUse s n := rfl

theorem entryRewritten_tstate (hn : n < nElem) (s : State) :
    (entryRewritten n s).rd R.LT_LOOP_TSTATE [n] = ((elemUse s n).map (·.2)).getD 0 % 4 := by
  unfold entryRewritten
  rw [rebuildEntry_tstate hn, elemUse_loopBad]

theorem entryRewritten_off (hn : n < nLoop) (h0 : s.rd R.LT_LOOP_STATE [n] = 0) : Rewritten n s (entryRewritten n s) := by
  obtain ⟨⟨hf, hw⟩, hst⟩ := entryRewritten_written hn s
  exact {
    frame := hf
    runs := fun h => absurd h0 h
    off := fun _ => hst.trans h0
    target := fun he => entryRewritten_tstate he s
    words := fun _ => hw }

theorem entryRewritten_resumes (hn : n < nLoop) (h0 : s.rd R.LT_LOOP_STATE [n] ≠ 0) :
    Rewritten n s (loopGo n 0 (1, 5) (entryRewritten n s)) := by
  obtain ⟨⟨hf, hw⟩, hst⟩ := entryRewritten_written hn s
  have hst : (entryRewritten n s).rd R.LT_LOOP_STATE [n] = s.rd R.LT_LOOP_STATE [n] := hst
  obtain ⟨hhf, hhw⟩ := holdShown_onlyWords n 5 (entryRewritten n s)
  have hb := loopGo_hold_belowLoops 0 5 (hst.symm ▸ h0)
  exact {
    frame := hb.frame.trans (by rw [hhf, hf])
    runs := fun _ => ⟨(hb.rd (by decide) n).trans (holdShown_state n 5 _), (hb.rd (by decide) n).trans (holdShown_cause n 5 _)⟩
    off := fun h => absurd h h0
    target := fun he => (hb.rd (by decide) n).trans ((holdShown_tstate n 5 _).trans (entryRewritten_tstate he s))
    words := fun h3 a ha => by
      rw [loopGo_hold 0 5 (hst.symm ▸ h0), if_neg (hst.symm ▸ h3), hhw a ha, hw a ha]
      rfl }

theorem loopEntryRewrite_rewrites (s : State) (n : Nat) (hn : n < nLoop) (hb : s.loopBad.contains n = true)
    (hm : s.modes.mpDown = false) (hi : islOn s (actIsland n) = true) : runs (.loopEntryRewrite n) s (Rewritten n s) := by
  have hx : exec (.loopEntryRewrite n) s = .next (if (entryRewritten n s).rd R.LT_LOOP_STATE [n] = 0 then entryRewritten n s
      else loopGo n 0 (1, 5) (entryRewritten n s)) := congrArg _ (if_pos ⟨hb, by simp [hm], hi, hn⟩)
  have hst : (entryRewritten n s).rd R.LT_LOOP_STATE [n] = s.rd R.LT_LOOP_STATE [n] := (entryRewritten_written hn s).state
  refine ⟨_, hx, ?_⟩
  rw [hst]
  split
  next h0 => exact entryRewritten_off hn h0
  next h0 => exact entryRewritten_resumes hn h0

/-- Settles O23: a rewrite writes the entry alone, where no load reaches STATE, and puts the state of a loop that runs; a self-test changes
nothing. -/
theorem loopEntries : Obligations.LoopEntries := by
  refine ⟨fun s n hn hb hm hi => ?_, fun s n hb => ⟨s, congrArg _ (if_neg fun h => Bool.false_ne_true (hb.symm.trans h.1)), rfl⟩, fun s _ _ => ⟨s, rfl, rfl⟩⟩
  obtain ⟨t, ht, h⟩ := loopEntryRewrite_rewrites s n hn hb hm hi
  exact ⟨t, ht, h.bad, h.runs, h.off, h.target, h.bad ▸ h.frame, h.words⟩

end Sys2Proof.Machine
end

section

/-! PROOFS. Engines and clusters (R111, R116, R136 to R139): what a new shedding decision and a change of the DEGRADED causes leave as they
are, and a cluster that fails and returns. -/

namespace Sys2Proof.Machine

variable {s t u : State} {c n : Nat}

/-! ## A new shedding decision -/

/-- A STATUS bit that is set stays set at a further occurrence in the block. -/
theorem raise_status_stays {b : Blk} (hb : b.base < 0x4500000) (bit : Nat) (x : Cause) {i : Nat} (h : bitN (readN s b.base) i = true) :
    bitN (readN (raise b bit x s) b.base) i = true := by
  rw [bitN_eq] at h
  have hi : i < 32 := Nat.lt_of_not_le fun h32 => by rw [readN_testBit_ge _ _ _ h32] at h; exact Bool.false_ne_true h
  rw [(raise_snapOnly b bit x s).2 _ hb, record_status, bitN_eq, Nat.testBit_mod_two_pow, setBits_testBit, h]
  split
  next hbit => simp [hi, show i - bit = 0 by omega]
  next => simp [hi]

/-- The shed level and the picture may have changed, and of the words the fault set of the CE, where no STATUS bit has gone, and the
snapshot block. -/
structure ShedAnew (s t : State) : Prop where
  frame : t = { s with regs := t.regs, pic := t.pic, shed := t.shed }
  word : ∀ a, a < 0x4500000 → a < 0x800000 ∨ 0x800014 < a → readN t a = readN s a
  status : ∀ i, bitN (readN s Blk.ce.base) i = true → bitN (readN t Blk.ce.base) i = true

theorem ShedAnew.trans (h : ShedAnew s t) (h' : ShedAnew t u) : ShedAnew s u where
  frame := h'.frame.trans (by rw [h.frame])
  word a ha hb := (h'.word a ha hb).trans (h.word a ha hb)
  status i hi := h'.status i (h.status i hi)

theorem raise_ce_shedAnew (bit : Nat) (x : Cause) (s : State) : ShedAnew s (raise .ce bit x s) where
  frame := by rw [raise_frame]
  word _ ha hb := readN_raise (b := .ce) ha hb bit x s
  status _ hi := raise_status_stays (b := .ce) (by decide) bit x hi

theorem reshed_shedAnew (s : State) : ShedAnew s (reshed s) := by
  have hlev (lev : Nat) : ShedAnew s { s with shed := lev } := ⟨rfl, fun _ _ _ => rfl, fun _ hi => hi⟩
  unfold reshed
  extract_lets lev s1
  split
  · exact (hlev lev).trans (raise_ce_shedAnew _ _ s1)
  · exact hlev lev

theorem ShedAnew.rd (h : ShedAnew s t) {F : Fld} {ix : List Nat} (ha : fldAddr F ix < 0x4500000)
    (hb : fldAddr F ix < 0x800000 ∨ 0x800014 < fldAddr F ix) : t.rd F ix = s.rd F ix := by
  unfold State.rd
  rw [h.word _ ha hb]

/-! ## A change of the DEGRADED causes -/

/-- The mode record may have changed, and of the words the DEGRADED condition of PWR.MODE. -/
structure DegChanged (s t : State) : Prop where
  frame : t = { s with regs := t.regs, modes := t.modes }
  word : ∀ a, a ≠ 0x100010 → readN t a = readN s a
  rd : ∀ F ix, F.lo + F.width ≤ 32 → fldApart R.PWR_MODE_C_DEG [] F ix = true → t.rd F ix = s.rd F ix

theorem DegChanged.refl : DegChanged s s := ⟨rfl, fun _ _ => rfl, fun _ _ _ _ => rfl⟩

theorem DegChanged.set (h : DegChanged s t) (m : ModeSt) (v : Nat) : DegChanged s ({ t with modes := m }.wr R.PWR_MODE_C_DEG [] v) where
  frame := by rw [h.frame]; rfl
  word a ha := (readN_wr_other _ _ _ _ _ ha).trans (h.word a ha)
  rd F ix hF hap := (rd_wr_apart _ _ _ _ _ _ hF hap).trans (h.rd F ix hF hap)

theorem degOn_degChanged (k : Nat) (s : State) : DegChanged s (degOn k s) := DegChanged.refl.set _ _

theorem degOn_shown (k : Nat) (s : State) : (degOn k s).flag R.PWR_MODE_C_DEG [] = true := by
  unfold State.flag degOn
  rw [rd_wr_same _ _ _ _ (by decide)]
  rfl

theorem clustersWhole_degChanged (s : State) : DegChanged s (clustersWhole s) := by
  have hfold (l : List Nat) {t : State} (h : DegChanged s t) : DegChanged s (l.foldl (fun t k => degOff k t) t) := by
    induction l generalizing t with
    | nil => exact h
    | cons k l ih => exact ih (h.set _ _)
  unfold clustersWhole
  split
  · exact hfold _ .refl
  · exact .refl

/-! ## The tick in DARK -/

/-- DARK without a demand for SAFE_STOP or LOCKOUT: a mode-control tick changes nothing (R15, R21). -/
def darkSteady (s : State) : Prop :=
  modeOf s = mDark ∧ s.flag R.PWR_MODE_C_LOCKOUT [] = false ∧ s.flag R.PWR_MODE_C_STOP [] = false

theorem modeTick_darkSteady (h : darkSteady s) : modeTick s = s := by
  obtain ⟨hm, hl, hs⟩ := h
  unfold modeTick modeTickBy
  simp [hm, hl, hs, mDark]

theorem darkSteady.congr (h : darkSteady s) (hr : ∀ F ∈ [R.PWR_MODE_CUR, R.PWR_MODE_C_LOCKOUT, R.PWR_MODE_C_STOP], t.rd F [] = s.rd F []) :
    darkSteady t := by
  unfold darkSteady modeOf State.flag at h ⊢
  rwa [hr _ (by simp), hr _ (by simp), hr _ (by simp)]

theorem darkSteady.shedAnew (h : darkSteady s) (hd : ShedAnew s t) : darkSteady t :=
  h.congr fun F hF => by
    have ha : fldAddr F [] = 0x100010 := by revert F; decide
    exact hd.rd (by omega) (by omega)

theorem darkSteady.degChanged (h : darkSteady s) (hd : DegChanged s t) : darkSteady t :=
  h.congr fun F hF => hd.rd F [] (by revert F; decide) (by revert F; decide)

/-! ## A cluster fails -/

/-- The failed cluster's home loops are with the survivors, its engines out of service. -/
def clusterLost (c : Nat) (s : State) : State :=
  State.wr { s with away := c :: s.away } R.CE_CLSTAT_LIVE [] (setBits (s.rd R.CE_CLSTAT_LIVE []) (8 * c) 8 0)

theorem wr_setAway (s : State) (l : List Nat) (F : Fld) (ix : List Nat) (v : Nat) :
    { s.wr F ix v with away := l } = State.wr { s with away := l } F ix v := rfl

theorem clusterLost_rest (c : Nat) (s : State) : (clusterLost c s).away = c :: s.away ∧ (clusterLost c s).jnl = s.jnl ∧
    (clusterLost c s).evs = s.evs ∧ (clusterLost c s).drv = s.drv := by
  unfold clusterLost
  rw [wr_away, wr_jnl, wr_evs, wr_drv]
  exact ⟨rfl, rfl, rfl, rfl⟩

theorem darkSteady.clusterLost (h : darkSteady s) (c : Nat) : darkSteady (clusterLost c s) :=
  h.congr fun F hF => rd_wr_word _ _ _ _ _ _ (by revert F; decide)

theorem failCluster_eq (ha : s.away.contains c = false) :
    failCluster c s = reshed (degOn (degCluster c) (raise0 .ce 2 (clusterLost c s))) := by
  unfold failCluster
  rw [if_neg (by rw [ha]; exact Bool.false_ne_true)]
  dsimp only
  rw [wr_setAway]
  rfl

theorem engLive_clusterLost {g : Nat} (hg : g < 32) (c : Nat) (s : State) :
    engLive (clusterLost c s) g = (engLive s g && decide (g / 8 ≠ c)) := by
  have hlive : (clusterLost c s).rd R.CE_CLSTAT_LIVE [] = setBits (s.rd R.CE_CLSTAT_LIVE []) (8 * c) 8 0 % 2 ^ R.CE_CLSTAT_LIVE.width :=
    rd_wr_same _ _ _ _ (by decide)
  unfold engLive
  rw [hlive, bitN_eq, bitN_eq, Nat.testBit_mod_two_pow, setBits_testBit, Nat.zero_testBit]
  split
  next h => simp [show g / 8 = c by omega]
  next h => simp [R.CE_CLSTAT_LIVE, hg, show g / 8 ≠ c by omega]

/-- A home loop of the only cluster that is away is with one of the other three (R137). -/
theorem ownerOf_survivor (ha : s.away = [c]) (hn : homeOf n = c) (hc : c < 4) : ownerOf s n = ((span 0 4).filter (· != c))[n % 3]? := by
  have hs : survivors s = (span 0 4).filter (· != c) := by
    unfold survivors
    rw [ha]
    exact List.filter_congr fun x _ => by simp [bne, Bool.beq_eq_decide_eq]
  have hl : ((span 0 4).filter (· != c)).length = 3 := by
    clear ha hn hs
    revert c
    decide
  unfold ownerOf
  dsimp only
  rw [hn, ha, hs, hl, if_neg (by simp), if_neg (by rw [List.isEmpty_iff_length_eq_zero, hl]; decide)]

/-- What the failure of a cluster shows: the fields of the statement. -/
structure ClusterFailed (c : Nat) (s t : State) : Prop where
  away : t.away = c :: s.away
  live : ∀ g < 32, engLive t g = (engLive s g && decide (g / 8 ≠ c))
  degraded : t.flag R.PWR_MODE_C_DEG [] = true
  status : bitN (readN t Blk.ce.base) 2 = true
  rest : t.jnl = s.jnl ∧ t.evs = s.evs ∧ t.drv = s.drv
  steady : darkSteady s → darkSteady t

theorem failCluster_fails (ha : s.away.contains c = false) : ClusterFailed c s (failCluster c s) := by
  obtain ⟨haway, hrest⟩ := clusterLost_rest c s
  have hraise := raise_ce_shedAnew 2 Cause.none (clusterLost c s)
  have hbit : bitN (readN (raise .ce 2 Cause.none (clusterLost c s)) Blk.ce.base) 2 = true :=
    raise_status_bit _ _ _ (by decide) (by decide)
  have hdeg := degOn_degChanged (degCluster c) (raise .ce 2 Cause.none (clusterLost c s))
  have hon := degOn_shown (degCluster c) (raise .ce 2 Cause.none (clusterLost c s))
  rw [failCluster_eq ha]
  unfold raise0
  generalize raise .ce 2 Cause.none (clusterLost c s) = t₁ at *
  generalize degOn (degCluster c) t₁ = t₂ at *
  have hshed := reshed_shedAnew t₂
  generalize reshed t₂ = t₃ at *
  have hlive : t₃.rd R.CE_CLSTAT_LIVE [] = (clusterLost c s).rd R.CE_CLSTAT_LIVE [] := by
    rw [hshed.rd (by decide) (by decide), hdeg.rd _ _ (by decide) (by decide), hraise.rd (by decide) (by decide)]
  refine ⟨?_, fun g hg => ?_, ?_, hshed.status 2 ?_, ?_, fun h => ?_⟩
  · rw [hshed.frame, hdeg.frame, hraise.frame, haway]
  · rw [← engLive_clusterLost hg]
    unfold engLive
    rw [hlive]
  · unfold State.flag
    rw [hshed.rd (by decide) (by decide)]
    exact hon
  · rw [hdeg.word _ (by decide)]
    exact hbit
  · rw [hshed.frame, hdeg.frame, hraise.frame]
    exact hrest
  · exact (((h.clusterLost c).shedAnew hraise).degChanged hdeg).shedAnew hshed

theorem clusterFail_runs (hc : c < 4) (ha : s.away.contains c = false) (hd : darkSteady s) :
    exec (.clusterFail c) s = .next (failCluster c s) := by
  have hx : exec (.clusterFail c) s = .next (modeTick (failCluster c s)) := congrArg _ (if_pos hc)
  rw [hx, modeTick_darkSteady ((failCluster_fails ha).steady hd)]

/-! ## A cluster returns -/

/-- The cluster serves its home loops again. -/
def clusterBack (c : Nat) (s : State) : State := reshed (clustersWhole { s with away := s.away.filter (· != c) })

theorem ownerOf_home (ha : s.away.contains (homeOf n) = false) : ownerOf s n = some (homeOf n) := by
  unfold ownerOf
  dsimp only
  rw [ha]
  rfl

theorem clusterBack_leaves (c : Nat) (s : State) : (clusterBack c s).away = s.away.filter (· != c) ∧ (clusterBack c s).jnl = s.jnl ∧
    (clusterBack c s).evs = s.evs ∧ (clusterBack c s).drv = s.drv ∧ (darkSteady s → darkSteady (clusterBack c s)) := by
  have hwhole := clustersWhole_degChanged { s with away := s.away.filter (· != c) }
  have hshed := reshed_shedAnew (clustersWhole { s with away := s.away.filter (· != c) })
  have hf : clusterBack c s = _ := hshed.frame.trans (by rw [hwhole.frame])
  refine ⟨by rw [hf], by rw [hf], by rw [hf], by rw [hf], fun h => ?_⟩
  have h0 : darkSteady { s with away := s.away.filter (· != c) } := h
  exact (h0.degChanged hwhole).shedAnew hshed

theorem clusterOwnershipReturn_runs (ha : s.away.contains c = true) (hi : islOn s (8 + c) = true) (hl : 0 < liveOf s c)
    (hd : darkSteady s) : exec (.clusterOwnershipReturn c) s = .next (clusterBack c s) := by
  obtain ⟨-, -, -, -, hsteady⟩ := clusterBack_leaves c s
  have hx : exec (.clusterOwnershipReturn c) s = .next (modeTick (clusterBack c s)) := congrArg _ (if_pos ⟨ha, hi, hl⟩)
  rw [hx, modeTick_darkSteady (hsteady hd)]

/-- Settles O24: with no other cluster away the home loops of the failed one are spread over the other three, and a cluster that is not
away owns its home loops. -/
theorem clusters : Obligations.Clusters := by
  constructor
  case left =>
    intro s c n hc ha hn hm hl hs
    have haway : s.away.contains c = false := by simp [ha]
    obtain ⟨hcons, hlive, hdeg, hstatus, ⟨hj, he, hd⟩, -⟩ := failCluster_fails haway
    rw [ha] at hcons
    refine ⟨_, clusterFail_runs hc haway ⟨hm, hl, hs⟩, hcons, ownerOf_survivor hcons hn hc, ?_, hdeg, hstatus, hj, he, hd⟩
    rw [List.all_eq_true]
    intro g hg
    rw [mem_span] at hg
    rw [hlive g (by omega), beq_self_eq_true]
  case right =>
    intro s c n hc ha hi hv hm hl hs hn
    obtain ⟨haway, hj, he, hd, -⟩ := clusterBack_leaves c s
    have hback : (clusterBack c s).away.contains (homeOf n) = false := by simp [haway, hn]
    exact ⟨_, clusterOwnershipReturn_runs ha hi hv ⟨hm, hl, hs⟩, (ownerOf_home hback).trans (by rw [hn]), haway, hj, he, hd⟩

end Sys2Proof.Machine
end

section

/-! PROOFS. The model command of an element's loop (R126, R128): what it is computed from, and what sending it writes. -/

namespace Sys2Proof.Machine

variable {s t u : State} {n v : Nat}

/-! ## The words of an update -/

/-- Words of the loop's entry and its feed-forward state have changed, with the notes of the loops. -/
structure LoopWritten (n : Nat) (s t : State) : Prop where
  frame : t = { s with regs := t.regs, loopX := t.loopX }
  words : wordsKept s t (fldAddr R.CE_FFTAB_FFS [n] :: entryWords n)

theorem LoopWritten.refl : LoopWritten n s s := ⟨rfl, fun _ _ => rfl⟩

theorem LoopWritten.trans (h : LoopWritten n s t) (h' : LoopWritten n t u) : LoopWritten n s u :=
  ⟨h'.frame.trans (by rw [h.frame]), fun a ha => (h'.words a ha).trans (h.words a ha)⟩

theorem LoopWritten.wr (h : LoopWritten n s t) {F : Fld} {ix : List Nat}
    (ha : fldAddr F ix ∈ fldAddr R.CE_FFTAB_FFS [n] :: entryWords n) (v : Nat) : LoopWritten n s (t.wr F ix v) := by
  refine ⟨?_, fun b hb => (readN_wr_other _ _ _ _ _ ?_).trans (h.words b hb)⟩
  · rw [wr_regsOnly, h.frame]
  · rintro rfl
    exact hb ha

theorem LoopWritten.entry (h : LoopWritten n s t) {F : Fld} (hF : entryField F) (v : Nat) : LoopWritten n s (t.wr F [n] v) :=
  h.wr (List.mem_cons_of_mem _ (fldAddr_mem_entryWords hF n)) v

theorem LoopWritten.ffState (h : LoopWritten n s t) (v : Nat) : LoopWritten n s (t.wr R.CE_FFTAB_FFS [n] v) :=
  h.wr List.mem_cons_self v

theorem LoopWritten.notes (h : LoopWritten n s t) (l : Cells LoopX) : LoopWritten n s { t with loopX := l } :=
  ⟨by rw [h.frame], h.words⟩

theorem fldAddr_ffState (n : Nat) : fldAddr R.CE_FFTAB_FFS [n] = 0x90000C + 0x10 * n := by
  simp [fldAddr, R.CE_FFTAB_FFS]

/-- Addresses of neither the feed-forward table nor the loop tables. -/
def besideLoops (a : Nat) : Prop := a < 0x900000 ∨ 0x1800000 ≤ a

theorem LoopWritten.beside (h : LoopWritten n s t) (hn : n < nElem) {a : Nat} (ha : besideLoops a) : readN t a = readN s a := by
  refine h.words a fun hm => ?_
  unfold besideLoops at ha
  unfold nElem at hn
  rw [List.mem_cons, mem_entryWords, fldAddr_ffState] at hm
  unfold entryAddr at hm
  omega

/-! ## What a loop reads -/

theorem tempOf_congr (h : ∀ a, besideLoops a → readN t a = readN s a) (n : Nat) : tempOf t n = tempOf s n := by
  have hrd {F : Fld} (hF : 0x1800000 ≤ F.base) (ix : List Nat) : t.rd F ix = s.rd F ix := by
    unfold State.rd
    rw [h (fldAddr F ix) (.inr (Nat.le_trans hF (Nat.le_add_right _ _)))]
  have hvalid : cellValid t = cellValid s := funext fun c => by
    unfold cellValid State.flag
    rw [hrd (by decide), hrd (by decide)]
  have htemp (c : Nat) : t.rdS R.THM_TEMP_TEMP [c] = s.rdS R.THM_TEMP_TEMP [c] := congrArg (toS _) (hrd (by decide) _)
  have htcal : t.rdS R.ESA_CORR_TCAL [n] = s.rdS R.ESA_CORR_TCAL [n] := congrArg (toS _) (hrd (by decide) _)
  unfold tempOf tempAbove
  simp only [hvalid, htemp, htcal]

/-- The model command depends on the temperature and on UMOD, TCO and TREF of the entry. -/
theorem modelCmd_congr (h : ∀ a, besideLoops a → readN t a = readN s a)
    (hf : ∀ F ∈ [R.LT_LOOP_UMOD, R.LT_LOOP_TCO, R.LT_LOOP_TREF], t.rd F [n] = s.rd F [n]) : modelCmd t n = modelCmd s n := by
  unfold modelCmd State.rdS
  rw [hf _ (by simp), hf _ (by simp), hf _ (by simp), tempOf_congr h]

theorem modelCmd_lt (hn : n < nElem) (s : State) : modelCmd s n < 2 ^ R.LT_LOOP_UCMD.width := by
  have htop : cmdTop n = 131071 := if_pos hn
  show modelCmd s n < 2 ^ 17
  unfold modelCmd modelAt clampI
  rw [htop]
  omega

theorem drvHeld_congr (h : ∀ a, besideLoops a → readN t a = readN s a) (hb : t.banks = s.banks) (e : Nat) : drvHeld t e = drvHeld s e := by
  have hrd {F : Fld} {ix : List Nat} (ha : besideLoops (fldAddr F ix)) : t.rd F ix = s.rd F ix := by
    unfold State.rd
    rw [h _ ha]
  have hisl : islOn t (12 + bankOf e) = islOn s (12 + bankOf e) := by
    have hk := bankOf_lt e
    unfold islOn islState
    rw [hrd (.inl (by simp only [fldAddr, R.PWR_ISL_STATE, List.zip_cons_cons, List.zip_nil_right, List.map_cons, List.map_nil,
      List.sum_cons, List.sum_nil]; omega))]
  have hclr : clrActive t (bankOf e) = clrActive s (bankOf e) := by
    unfold clrActive bankGet
    rw [h _ (.inr (by omega)), hb]
  have hfail : elemFailed t e = elemFailed s e := by
    unfold elemFailed State.flag
    rw [hrd (.inr (by rw [fldAddr_rb _ _ rfl (by decide)]; unfold rbAddr; omega))]
  have hpark : calParks t = calParks s := by
    unfold calParks
    rw [hrd (.inr (by decide))]
  unfold drvHeld
  rw [hisl, hclr, hfail, hpark]

/-! ## A command is sent -/

theorem rd_setNotes (s : State) (l : Cells LoopX) (F : Fld) (ix : List Nat) : ({ s with loopX := l } : State).rd F ix = s.rd F ix := rfl

/-- A field of the entry in another word than UCMD and DH. -/
abbrev besideCommand (F : Fld) : Prop := entryField F ∧ F.base ≠ 0x100001C

/-- The entry of the loop shows the command `v` without a hold correction, and elsewhere what it showed. -/
structure CommandShown (n v : Nat) (s t : State) : Prop where
  written : LoopWritten n s t
  field : ∀ F, besideCommand F → t.rd F [n] = s.rd F [n]
  ucmd : t.rd R.LT_LOOP_UCMD [n] = v
  dh : t.rd R.LT_LOOP_DH [n] = 0

theorem CommandShown.notes (h : CommandShown n v s t) (l : Cells LoopX) : CommandShown n v s { t with loopX := l } where
  written := h.written.notes l
  field F hF := (rd_setNotes ..).trans (h.field F hF)
  ucmd := (rd_setNotes ..).trans h.ucmd
  dh := (rd_setNotes ..).trans h.dh

/-- The hold correction and the command are written into the entry. -/
theorem LoopWritten.command (h : LoopWritten n s t) (hfields : ∀ F, entryField F → t.rd F [n] = s.rd F [n])
    (hv : v < 2 ^ R.LT_LOOP_UCMD.width) : CommandShown n v s ((t.wrS R.LT_LOOP_DH [n] 0).wr R.LT_LOOP_UCMD [n] v) where
  written := (h.entry (by decide) _).entry (by decide) _
  field F hF := by
    obtain ⟨hE, hb⟩ := hF
    have hne {G : Fld} (hG : G.dims = [(0x40, 35840)]) (hg : G.base = 0x100001C) : fldAddr F [n] ≠ fldAddr G [n] := by
      rw [fldAddr_loop hE.1, fldAddr_loop hG, hg]
      omega
    rw [← hfields F hE]
    exact (rd_wr_word _ _ _ _ _ _ (hne rfl rfl)).trans (rd_wr_word _ _ _ _ _ _ (hne rfl rfl))
  ucmd := (rd_wr_same _ _ _ _ (by decide)).trans (Nat.mod_eq_of_lt hv)
  dh := (rd_wr_loop (by decide) _ _ _).trans (rd_wr_same _ _ _ _ (by decide))

/-- A command stores the element's drive, or nothing. -/
theorem driveCmd_frame (e v : Nat) (dh : Int) (st : Nat) (s : State) :
    driveCmd e v dh st s = { s with regs := (driveCmd e v dh st s).regs, drv := (driveCmd e v dh st s).drv } ∧
      wordsKept s (driveCmd e v dh st s) [rbAddr e, rbAddr e + 4] := by
  unfold driveCmd
  split
  · exact ⟨rfl, fun _ _ => rfl⟩
  · exact drvPut_frame _ _ _

/-- A drive that is not held takes the command, and ΔH during handover; a freeze ends. -/
theorem driveCmd_taken {e : Nat} (he : e < nElem) (hh : drvHeld s e = false) (v : Nat) (dh : Int) (st : Nat) :
    (drvGet (driveCmd e v dh st s) e).cmd = v ∧ (drvGet (driveCmd e v dh st s) e).dh = (if (drvGet s e).ho then dh else 0) ∧
      (drvGet (driveCmd e v dh st s) e).frz = false := by
  unfold driveCmd
  rw [if_neg (by simp [hh]), drvGet_drvPut_same he]
  exact ⟨rfl, rfl, rfl⟩

theorem noteUcmd_notes (n v : Nat) (s : State) : ∃ l, noteUcmd n v s = { s with loopX := l } := by
  unfold noteUcmd
  split
  · exact ⟨_, rfl⟩
  · exact ⟨s.loopX, rfl⟩

theorem wr_setNotes (s : State) (l : Cells LoopX) (F : Fld) (ix : List Nat) (v : Nat) :
    State.wr { s with loopX := l } F ix v = { s.wr F ix v with loopX := l } := rfl

/-- The command `v` without a hold correction has been sent, and the filter of the loop may have advanced: what the entry shows, what the
drive has taken, and what stays. -/
structure CommandSent (n v : Nat) (s t : State) : Prop where
  frame : t = { s with regs := t.regs, drv := t.drv, loopX := t.loopX }
  words : wordsKept s t (rbAddr n :: (rbAddr n + 4) :: fldAddr R.CE_FFTAB_FFS [n] :: entryWords n)
  field : ∀ F, besideCommand F → t.rd F [n] = s.rd F [n]
  ucmd : t.rd R.LT_LOOP_UCMD [n] = v
  dh : t.rd R.LT_LOOP_DH [n] = 0
  drive : drvHeld s n = false → (drvGet t n).cmd = v ∧ (drvGet t n).dh = 0 ∧ (drvGet t n).frz = false

theorem CommandSent.notes (h : CommandSent n v s t) (l : Cells LoopX) : CommandSent n v s { t with loopX := l } where
  frame := by rw [h.frame]
  words := h.words
  field F hF := (rd_setNotes ..).trans (h.field F hF)
  ucmd := (rd_setNotes ..).trans h.ucmd
  dh := (rd_setNotes ..).trans h.dh
  drive := h.drive

theorem CommandSent.low (h : CommandSent n v s t) {a : Nat} (ha : a < 0x900000) : readN t a = readN s a := by
  refine h.words a fun hm => ?_
  rw [List.mem_cons, List.mem_cons, List.mem_cons, mem_entryWords, fldAddr_ffState] at hm
  unfold entryAddr rbAddr at hm
  omega

/-- An element's entry and its read-back words lie apart. -/
theorem fldAddr_ne_rbAddr (hn : n < nElem) {F : Fld} (hF : entryField F) : fldAddr F [n] ∉ [rbAddr n, rbAddr n + 4] := by
  obtain ⟨hd, -, hb, -⟩ := hF
  unfold nElem at hn
  rw [fldAddr_loop hd]
  simp only [rbAddr, List.mem_cons, List.not_mem_nil, or_false]
  omega

theorem CommandShown.drive (h : CommandShown n v s t) (hn : n < nElem) (st : Nat) : CommandSent n v s (driveCmd n v 0 st t) := by
  obtain ⟨hframe, hwords⟩ := driveCmd_frame n v 0 st t
  have hentry {F : Fld} (hF : entryField F) : (driveCmd n v 0 st t).rd F [n] = t.rd F [n] := by
    unfold State.rd
    rw [hwords _ (fldAddr_ne_rbAddr hn hF)]
  have hheld : drvHeld t n = drvHeld s n := drvHeld_congr (fun _ ha => h.written.beside hn ha) (by rw [h.written.frame]) n
  exact {
    frame := by rw [hframe, h.written.frame]
    words := fun a ha => by
      simp only [List.mem_cons, not_or] at ha
      obtain ⟨h0, h4, hf, he⟩ := ha
      exact (hwords a (by simp [h0, h4])).trans (h.written.words a (by simp [hf, he]))
    field := fun F hF => (hentry hF.1).trans (h.field F hF)
    ucmd := (hentry (by decide)).trans h.ucmd
    dh := (hentry (by decide)).trans h.dh
    drive := fun hh => by
      obtain ⟨hcmd, hd, hfrz⟩ := driveCmd_taken hn (hheld.trans hh) v 0 st
      exact ⟨hcmd, hd.trans (ite_self _), hfrz⟩ }

/-- A command without a hold correction, sent after other words of the loop have been written. -/
theorem sendCmd_sent (hn : n < nElem) (hv : v < 2 ^ R.LT_LOOP_UCMD.width) (h : LoopWritten n s t)
    (hfields : ∀ F, entryField F → t.rd F [n] = s.rd F [n]) : CommandSent n v s (sendCmd n v 0 t) := by
  obtain ⟨l, hl⟩ := noteUcmd_notes n v (t.wrS R.LT_LOOP_DH [n] 0)
  unfold sendCmd
  dsimp only
  rw [if_pos (show n < 34816 from hn), hl, wr_setNotes]
  exact (((h.command hfields hv).notes l).drive hn _).notes _

/-! ## The command of MODEL_HOLD -/

/-- An element's loop in MODEL_HOLD, but for a calibration run, sends its model command without a hold correction (R128). -/
theorem holdCmd_element (hn : n < nElem) (hc : s.rd R.LT_LOOP_HCAUSE [n] ≠ 3) :
    ∃ l, holdCmd n s = sendCmd n (modelCmd s n) 0 { s with loopX := l } := by
  have hvoa : ¬ 34816 ≤ n := Nat.not_le.2 hn
  unfold holdCmd
  simp only [hvoa, decide_false, Bool.false_and, Bool.false_eq_true, if_false, beq_eq_false_iff_ne.2 hc, Bool.and_false]
  exact ⟨_, rfl⟩

/-- The filter of an element advances; the fields of the entry stay. -/
theorem ffAdvance_written (hn : n < nElem) (s : State) :
    LoopWritten n s (ffAdvance n s) ∧ ∀ F, entryField F → (ffAdvance n s).rd F [n] = s.rd F [n] := by
  have heq : ffAdvance n s = s.wrS R.CE_FFTAB_FFS [n] (sat32 (ffState s n)) := if_pos hn
  rw [heq]
  refine ⟨LoopWritten.refl.ffState _, fun F hF => rd_wr_word _ _ _ _ _ _ ?_⟩
  obtain ⟨hd, hb, -⟩ := hF
  unfold nElem at hn
  rw [fldAddr_ffState, fldAddr_loop hd]
  omega

/-- An element's loop in MODEL_HOLD advances its feed-forward filter and sends its model command. -/
theorem holdCmd_sent (hn : n < nElem) (hc : s.rd R.LT_LOOP_HCAUSE [n] ≠ 3) :
    CommandSent n (modelCmd s n) s (holdCmd n (ffAdvance n s)) := by
  obtain ⟨hff, hfields⟩ := ffAdvance_written hn s
  have hmodel : modelCmd (ffAdvance n s) n = modelCmd s n :=
    modelCmd_congr (fun _ ha => hff.beside hn ha) fun F hF => hfields F (by revert F; decide)
  generalize ffAdvance n s = x at *
  obtain ⟨l, hhold⟩ := holdCmd_element (s := x) hn (by rwa [hfields _ (by decide)])
  rw [hhold, hmodel]
  exact sendCmd_sent hn (modelCmd_lt hn s) (hff.notes l) hfields

end Sys2Proof.Machine
end

section

/-! PROOFS. LOOP_UPDATE of an element's loop that is OFF or in MODEL_HOLD (R112, R116, R128, R129). -/

namespace Sys2Proof.Machine

variable {s t : State} {n g c : Nat}

/-! ## The parts of an update -/

theorem settleL_idle (h : s.modes.busyL.contains n = false) : settleL n s = s :=
  if_neg (by rw [h]; exact Bool.false_ne_true)

theorem rampTick_none (h : s.ramps = []) (n : Nat) : rampTick n s = s := by
  unfold rampTick
  rw [h]
  rfl

/-- A loop whose trace queue is not in use leaves no record. -/
theorem loopRecord_unused (h : (qGet s n).en = false) (e : Int) : loopRecord n e s = s := by
  unfold loopRecord gatherAt
  simp [h]

theorem checkUpdate_clean (h : bitN (readN s (Blk.ce.base + 0x18)) 31 = false) : checkUpdate true s = (.clean, s) := by
  unfold checkUpdate
  simp only [injHit_unarmed h]
  rfl

theorem takeRate_same (h : s.rd R.LT_LOOP_RATE [n] = rateAt s s.shed n) : takeRate n s = s := if_pos h

/-- The rate and the phase of a loop are written into its entry. -/
def rateShown (n r : Nat) (s : State) : State := (s.wr R.LT_LOOP_RATE [n] r).wr R.LT_LOOP_PHASE [n] (n % 2 ^ r)

theorem rateShown_written (n r : Nat) (s : State) : LoopWritten n s (rateShown n r s) :=
  (LoopWritten.refl.entry (by decide) _).entry (by decide) _

theorem rateShown_rd {F : Fld} (hr : loopApart R.LT_LOOP_RATE F) (hp : loopApart R.LT_LOOP_PHASE F) (n r : Nat) (s : State) :
    (rateShown n r s).rd F [n] = s.rd F [n] := (rd_wr_loop hp _ _ _).trans (rd_wr_loop hr _ _ _)

theorem takeRate_new (h : s.rd R.LT_LOOP_RATE [n] ≠ rateAt s s.shed n) :
    ∃ l, takeRate n s = { rateShown n (rateAt s s.shed n) s with refill := l } := ⟨_, if_neg h⟩

theorem rd_setRefill (s : State) (l : Cells Nat) (F : Fld) (ix : List Nat) : ({ s with refill := l } : State).rd F ix = s.rd F ix := rfl

theorem takeRate_rd {F : Fld} (hr : loopApart R.LT_LOOP_RATE F) (hp : loopApart R.LT_LOOP_PHASE F) (n : Nat) (s : State) :
    (takeRate n s).rd F [n] = s.rd F [n] := by
  by_cases h : s.rd R.LT_LOOP_RATE [n] = rateAt s s.shed n
  case pos => rw [takeRate_same h]
  case neg =>
    obtain ⟨l, hl⟩ := takeRate_new h
    rw [hl]
    exact (rd_setRefill _ l _ _).trans (rateShown_rd hr hp ..)

/-- With its rate a loop journals nothing. -/
theorem takeRate_rest (n : Nat) (s : State) :
    (takeRate n s).jnl = s.jnl ∧ (takeRate n s).evs = s.evs ∧ (takeRate n s).modes = s.modes := by
  by_cases h : s.rd R.LT_LOOP_RATE [n] = rateAt s s.shed n
  case pos =>
    rw [takeRate_same h]
    exact ⟨rfl, rfl, rfl⟩
  case neg =>
    obtain ⟨l, hl⟩ := takeRate_new h
    have hframe := (rateShown_written n (rateAt s s.shed n) s).frame
    rw [hl]
    exact ⟨by rw [hframe], by rw [hframe], by rw [hframe]⟩

/-- The rate of an element's loop follows from CE.RATECFG, its target state and the armed waves. -/
theorem rateAt_congr (hn : n < nElem) (hw : readN t 0x800100 = readN s 0x800100)
    (ht : t.rd R.LT_LOOP_TSTATE [n] = s.rd R.LT_LOOP_TSTATE [n]) (ha : t.armed = s.armed) (lev : Nat) : rateAt t lev n = rateAt s lev n := by
  have hrd {F : Fld} (hF : fldAddr F [] = 0x800100) : t.rd F [] = s.rd F [] := by
    unfold State.rd
    rw [hF, hw]
  have hlit : t.rd R.CE_RATECFG_LIT [] = s.rd R.CE_RATECFG_LIT [] := hrd (by decide)
  have hdark : t.rd R.CE_RATECFG_DARK [] = s.rd R.CE_RATECFG_DARK [] := hrd (by decide)
  have hvoa : ¬ 34816 ≤ n := Nat.not_le.2 hn
  unfold rateAt movesSoon
  rw [if_neg hvoa, if_neg hvoa, ht, ha, hlit, hdark]

/-! ## The transition -/

/-- A loop that is OFF enters MODEL_HOLD with cause 4 once its entry and tables are loaded. -/
theorem loopNext_off (hi : islOn s (actIsland n) = true) (hf : elemFailed s n = false) (hm : 2 ≤ modeOf s)
    (hst : s.rd R.LT_LOOP_STATE [n] = 0) (hl : entryLoaded s n = true) (u : Use) : loopNext s n u = (1, 4) := by
  have hr : modeOf s ≠ mReset := fun h => by rw [h] at hm; exact absurd hm (by decide)
  unfold loopNext
  simp [hi, hf, hr, hst, hl]

/-- A loop in MODEL_HOLD with cause 0 stays as it is. -/
theorem loopNext_untargeted (hi : islOn s (actIsland n) = true) (hf : elemFailed s n = false) (hm : 2 ≤ modeOf s)
    (hc : modeOf s ≠ mCalibrate) (hst : s.rd R.LT_LOOP_STATE [n] = 1) (h0 : s.rd R.LT_LOOP_HCAUSE [n] = 0) (u : Use) :
    loopNext s n u = (1, 0) := by
  have hr : modeOf s ≠ mReset := fun h => by rw [h] at hm; exact absurd hm (by decide)
  unfold loopNext
  simp [hi, hf, hr, hc, hst, h0]

/-- A new shedding decision leaves the entries. -/
theorem ShedAnew.rd_entry (h : ShedAnew s t) (hn : n < nElem) {F : Fld} (hF : entryField F) : t.rd F [n] = s.rd F [n] := by
  obtain ⟨hd, hb, hb', -⟩ := hF
  unfold nElem at hn
  exact h.rd (by rw [fldAddr_loop hd]; omega) (by rw [fldAddr_loop hd]; omega)

/-- A loop that leaves OFF runs from now on: the load is decided anew. -/
theorem loopGo_off (eng c : Nat) (h : s.rd R.LT_LOOP_STATE [n] = 0) : loopGo n eng (1, c) s = reshed (holdShown n c s) := by
  unfold loopGo
  simp [h, holdShown]

/-- An update after which the loop is in MODEL_HOLD, and before which it was not closed, is the transition, the step of the feed-forward
filter, the command of MODEL_HOLD and the taking of a new rate. -/
theorem updateLoop_hold {q : Nat × Nat} (hn : n < nElem) (hr : s.ramps = []) (hb : s.modes.busyL.contains n = false)
    (hs : s.rd R.LT_LOOP_STATE [n] < 2) (hq : ∀ u, loopNext s n u = q) (hst : (loopGo n g q s).rd R.LT_LOOP_STATE [n] = 1)
    (hc : (loopGo n g q s).rd R.LT_LOOP_HCAUSE [n] ≠ 3) (hen : (qGet (loopGo n g q s) n).en = false) :
    updateLoop n g s = takeRate n (holdCmd n (ffAdvance n (loopGo n g q s))) := by
  have hsent := holdCmd_sent hn hc
  unfold updateLoop
  rw [rampTick_none hr, settleL_idle hb]
  extract_lets s0 u live s1 s2 st s2b s3 r s4 trip
  have hlive : live = false := decide_eq_false (Nat.not_le.2 hs)
  have hs1 : s1 = s := by unfold s1; rw [hlive]; rfl
  have hs2 : s2 = loopGo n g q s := by unfold s2; rw [hs1, hq]
  have hst1 : st = 1 := by unfold st; rw [hs2, hst]
  have hs2b : s2b = loopGo n g q s := by unfold s2b; rw [if_neg (by omega), hs2]
  have hs3 : s3 = ffAdvance n (loopGo n g q s) := by unfold s3; rw [if_neg (by omega), hs2b]
  have hr : r = (0, holdCmd n (ffAdvance n (loopGo n g q s))) := by unfold r; rw [if_neg (by omega), if_pos hst1, hs3]
  have hs4 : s4 = holdCmd n (ffAdvance n (loopGo n g q s)) := by
    unfold s4
    rw [if_neg (fun h => absurd h.1 (Nat.not_le.2 hn)), hr]
  have hstate : s4.rd R.LT_LOOP_STATE [n] = 1 := by rw [hs4, hsent.field _ (by decide), hst]
  have htrip : trip = false := by unfold trip; rw [hstate]; rfl
  have hqueue : (qGet s4 n).en = false := by
    rw [hs4]
    unfold qGet
    rw [hsent.frame]
    exact hen
  rw [htrip, if_neg Bool.false_ne_true, loopRecord_unused hqueue, hs4]

/-! ## The command -/

/-- What both clauses of the statement ask of a loop and an engine, so that the update takes place and only the loop's state decides
what it does. -/
structure LoopReady (n g : Nat) (s : State) : Prop where
  element : n < nElem
  engine : g < 32
  live : engLive s g = true
  cluster : islOn s (8 + g / 8) = true
  owner : ownerOf s n = some (g / 8)
  actuator : islOn s (actIsland n) = true
  sound : s.loopBad.contains n = false
  ramps : s.ramps = []
  settled : s.modes.busyL.contains n = false
  unarmed : bitN (readN s (Blk.ce.base + 0x18)) 31 = false
  mode : 2 ≤ modeOf s
  working : elemFailed s n = false
  rate : s.rd R.LT_LOOP_RATE [n] = rateAt s s.shed n
  queue : (qGet s n).en = false

/-- The update is counted at its sample boundary. -/
def updateNoted (n g : Nat) (s : State) : State := noteUpdate (g / 8) (lastBoundary s n / 125) s

theorem loopUpdate_runs (h : LoopReady n g s) (hsup : suppressed s n = false) :
    exec (.loopUpdate n g true) s = .next (updateLoop n g (updateNoted n g s)) := by
  have hn : n < 34816 := h.element
  have hg : g < 32 := h.engine
  have hclean : checkUpdate true (updateNoted n g s) = (.clean, updateNoted n g s) := checkUpdate_clean h.unarmed
  show execLoopUpdate n g true s = _
  unfold execLoopUpdate
  dsimp only
  rw [if_neg (by
    simp only [h.live, h.cluster, h.owner, h.actuator, h.sound, hsup, Bool.not_true, Bool.false_eq_true, ne_eq, not_true, or_false]
    omega)]
  rw [show noteUpdate (g / 8) (lastBoundary s n / 125) s = updateNoted n g s from rfl, hclean]
  dsimp only
  rw [if_neg (by omega)]

theorem holdShown_rd {F : Fld} (hs : loopApart R.LT_LOOP_STATE F) (hc : loopApart R.LT_LOOP_HCAUSE F) (n c : Nat) (s : State) :
    (holdShown n c s).rd F [n] = s.rd F [n] := (rd_wr_loop hc _ _ _).trans (rd_wr_loop hs _ _ _)

theorem holdShown_written (n c : Nat) (s : State) : LoopWritten n s (holdShown n c s) :=
  (LoopWritten.refl.entry (by decide) _).entry (by decide) _

theorem modelCmd_holdShown (hn : n < nElem) (c : Nat) (s : State) : modelCmd (holdShown n c s) n = modelCmd s n :=
  modelCmd_congr (fun _ ha => (holdShown_written n c s).beside hn ha)
    fun F hF => holdShown_rd (by revert F; decide) (by revert F; decide) n c s

theorem drvHeld_holdShown (hn : n < nElem) (c : Nat) (s : State) : drvHeld (holdShown n c s) n = drvHeld s n :=
  drvHeld_congr (fun _ ha => (holdShown_written n c s).beside hn ha) (by rw [(holdShown_written n c s).frame]) n

/-- The loop of an element without a target stays in MODEL_HOLD and sends its model command; its rate stands. -/
theorem loopUpdate_untargeted (h : LoopReady n g s) (hc : modeOf s ≠ mCalibrate) (hst : s.rd R.LT_LOOP_STATE [n] = 1)
    (h0 : s.rd R.LT_LOOP_HCAUSE [n] = 0) :
    ∃ t, exec (.loopUpdate n g true) s = .next t ∧ CommandSent n (modelCmd s n) (holdShown n 0 (updateNoted n g s)) t := by
  have hx := loopUpdate_runs h (by simp [suppressed, h0])
  have hst' : (updateNoted n g s).rd R.LT_LOOP_STATE [n] = 1 := hst
  have hgo : loopGo n g (1, 0) (updateNoted n g s) = holdShown n 0 (updateNoted n g s) := by
    rw [loopGo_hold g 0 (by omega), if_neg (by omega)]
  have hcause : (holdShown n 0 (updateNoted n g s)).rd R.LT_LOOP_HCAUSE [n] ≠ 3 := by rw [holdShown_cause]; decide
  have hen : (qGet (holdShown n 0 (updateNoted n g s)) n).en = false := by
    unfold qGet
    rw [(holdShown_written n 0 _).frame]
    exact h.queue
  have hup := updateLoop_hold (g := g) (s := updateNoted n g s) (q := (1, 0)) h.element h.ramps h.settled (by omega)
    (loopNext_untargeted h.actuator h.working h.mode hc hst h0) (by rw [hgo, holdShown_state]) (by rwa [hgo]) (by rwa [hgo])
  have hsent := holdCmd_sent h.element hcause
  rw [modelCmd_holdShown h.element] at hsent
  rw [hgo] at hup
  have hwritten := holdShown_written n 0 (updateNoted n g s)
  have hkeeps {F : Fld} (hs : loopApart R.LT_LOOP_STATE F) (hc : loopApart R.LT_LOOP_HCAUSE F) :=
    holdShown_rd hs hc n 0 (updateNoted n g s)
  generalize holdShown n 0 (updateNoted n g s) = x at *
  generalize holdCmd n (ffAdvance n x) = y at *
  refine ⟨y, ?_, hsent⟩
  have hrate : rateAt y y.shed n = rateAt s s.shed n := by
    have hshed : y.shed = s.shed := by rw [hsent.frame, hwritten.frame]; rfl
    rw [hshed]
    refine rateAt_congr h.element ?_ ?_ ?_ _
    · exact (hsent.low (by decide)).trans (hwritten.beside h.element (.inl (by decide)))
    · exact (hsent.field _ (by decide)).trans (hkeeps (by decide) (by decide))
    · rw [hsent.frame, hwritten.frame]
      rfl
  have htake : takeRate n y = y := takeRate_same (by
    rw [hrate, ← h.rate]
    exact (hsent.field _ (by decide)).trans (hkeeps (by decide) (by decide)))
  rw [hx, hup, htake]

/-- The loop of an element whose entry and tables are loaded leaves OFF. -/
theorem loopUpdate_starts (h : LoopReady n g s) (hst : s.rd R.LT_LOOP_STATE [n] = 0) (hl : entryLoaded s n = true) :
    runs (.loopUpdate n g true) s fun t =>
      t.rd R.LT_LOOP_STATE [n] = 1 ∧ t.rd R.LT_LOOP_HCAUSE [n] = 4 ∧ t.jnl = s.jnl ∧ t.evs = s.evs ∧ t.modes = s.modes := by
  have hx := loopUpdate_runs h (by simp [suppressed, hst])
  have hgo : loopGo n g (1, 4) (updateNoted n g s) = reshed (holdShown n 4 (updateNoted n g s)) := loopGo_off g 4 hst
  have hshed := reshed_shedAnew (holdShown n 4 (updateNoted n g s))
  have hwritten := holdShown_written n 4 (updateNoted n g s)
  have hstate : (reshed (holdShown n 4 (updateNoted n g s))).rd R.LT_LOOP_STATE [n] = 1 := by
    rw [hshed.rd_entry h.element (by decide), holdShown_state]
  have hcause : (reshed (holdShown n 4 (updateNoted n g s))).rd R.LT_LOOP_HCAUSE [n] = 4 := by
    rw [hshed.rd_entry h.element (by decide), holdShown_cause]
  have hen : (qGet (reshed (holdShown n 4 (updateNoted n g s))) n).en = false := by
    unfold qGet
    rw [hshed.frame, hwritten.frame]
    exact h.queue
  have hup := updateLoop_hold (g := g) (s := updateNoted n g s) (q := (1, 4)) h.element h.ramps h.settled
    (hst.trans_lt (by decide)) (loopNext_off h.actuator h.working h.mode hst hl) (by rwa [hgo]) (by rw [hgo, hcause]; decide)
    (by rwa [hgo])
  have hsent := holdCmd_sent (s := reshed (holdShown n 4 (updateNoted n g s))) h.element (by rw [hcause]; decide)
  rw [hgo] at hup
  generalize holdShown n 4 (updateNoted n g s) = x at *
  generalize reshed x = y at *
  generalize holdCmd n (ffAdvance n y) = z at *
  obtain ⟨hj, he, hm⟩ := takeRate_rest n z
  refine ⟨takeRate n z, by rw [hx, hup], ?_, ?_, ?_, ?_, ?_⟩
  · rw [takeRate_rd (by decide) (by decide), hsent.field _ (by decide), hstate]
  · rw [takeRate_rd (by decide) (by decide), hsent.field _ (by decide), hcause]
  · rw [hj, hsent.frame, hshed.frame, hwritten.frame]
    rfl
  · rw [he, hsent.frame, hshed.frame, hwritten.frame]
    rfl
  · rw [hm, hsent.frame, hshed.frame, hwritten.frame]
    rfl

/-- Settles O22: both updates end in MODEL_HOLD, which sends the model command of the element. -/
theorem loopUpdates : Obligations.LoopUpdates := by
  constructor
  case left =>
    intro s n g hn hg hlive hclus hown hact hbad hramps hbusy harm hmode hfail hrate hq hcal hst h0
    have h : LoopReady n g s := ⟨hn, hg, hlive, hclus, hown, hact, hbad, hramps, hbusy, harm, hmode, hfail, hrate, hq⟩
    obtain ⟨t, hx, hsent⟩ := loopUpdate_untargeted h hcal hst h0
    have hwritten := holdShown_written n 0 (updateNoted n g s)
    have hstate := (hsent.field R.LT_LOOP_STATE (by decide)).trans (holdShown_state n 0 _)
    have hcause := (hsent.field R.LT_LOOP_HCAUSE (by decide)).trans (holdShown_cause n 0 _)
    have hheld : drvHeld (holdShown n 0 (updateNoted n g s)) n = drvHeld s n := drvHeld_holdShown h.element 0 _
    generalize holdShown n 0 (updateNoted n g s) = x at *
    refine ⟨t, hx, hstate, hcause, hsent.ucmd, hsent.dh, fun hh => hsent.drive (hheld.trans hh), ?_, fun a ha => ?_⟩
    · rw [hsent.frame, hwritten.frame]
      rfl
    · exact (hsent.words a ha).trans (hwritten.words a fun hm => ha (List.mem_cons_of_mem _ (List.mem_cons_of_mem _ hm)))
  case right =>
    intro s n g hn hg hlive hclus hown hact hbad hramps hbusy harm hmode hfail hrate hq hst hl
    exact loopUpdate_starts ⟨hn, hg, hlive, hclus, hown, hact, hbad, hramps, hbusy, harm, hmode, hfail, hrate, hq⟩ hst hl

end Sys2Proof.Machine
end

section

/-! PROOFS. What messages, records and journal entries leave: every word outside the journal, the network interfaces, the egress block but
for its queue configuration, and the snapshots. -/

namespace Sys2Proof.Machine

variable {n j : Bool} {s₀ s t : State}

/-! ## Traffic -/

/-- The blocks JNL, NI, EGS up to `EGS.QCFG`, and SNP. -/
def trafficWord (a : Nat) : Prop := (0x300000 ≤ a ∧ a < 0x400000) ∨ (0x500000 ≤ a ∧ a < 0x680000) ∨ 0x4500000 ≤ a

theorem not_trafficWord_of_lt {a : Nat} (h : (0x3800000 ≤ a ∧ a < 0x4500000) ∨ a < 0x300000) : ¬ trafficWord a := by
  unfold trafficWord
  omega

/-- `t` comes from `s` by traffic: messages that leave or are taken (the sessions may change when `n`), and journal entries (the journal
may change, and the pending events in place, when `j`). -/
structure Sends (n j : Bool) (s t : State) : Prop where
  word : ∀ a, ¬ trafficWord a → readN t a = readN s a
  frame : t = { s with regs := t.regs, egs := t.egs, netA := t.netA, netB := t.netB, jnl := t.jnl, sess := t.sess, notes := t.notes,
                       evs := t.evs, pic := t.pic }
  sess : n = false → t.sess = s.sess
  jnl : j = false → t.jnl = s.jnl ∧ t.evs = s.evs
  pending : t.evs.length = s.evs.length

theorem Sends.refl : Sends n j s s := ⟨fun _ _ => rfl, rfl, fun _ => rfl, fun _ => ⟨rfl, rfl⟩, rfl⟩

theorem Sends.trans (h : Sends n j s₀ s) (h' : Sends n j s t) : Sends n j s₀ t where
  word a ha := (h'.word a ha).trans (h.word a ha)
  frame := h'.frame.trans (by rw [h.frame])
  sess hn := (h'.sess hn).trans (h.sess hn)
  jnl hj := ⟨(h'.jnl hj).1.trans (h.jnl hj).1, (h'.jnl hj).2.trans (h.jnl hj).2⟩
  pending := h'.pending.trans h.pending

theorem Sends.ite {c : Prop} [Decidable c] (h : Sends n j s₀ s) (h' : Sends n j s₀ t) : Sends n j s₀ (if c then s else t) := by
  split <;> assumption

theorem Sends.foldl {α : Type} {f : State → α → State} {l : List α} (hf : ∀ x ∈ l, ∀ s, Sends n j s (f s x)) (h : Sends n j s₀ s) :
    Sends n j s₀ (l.foldl f s) := by
  induction l generalizing s with
  | nil => exact h
  | cons x l ih => exact ih (fun y hy => hf y (List.mem_cons_of_mem _ hy)) (h.trans (hf x List.mem_cons_self s))

/-- A change of queues, ports and the picture. -/
theorem Sends.update {egs netA netB pic} (h : Sends n j s₀ s) :
    Sends n j s₀ { s with egs := egs, netA := netA, netB := netB, pic := pic } :=
  h.trans ⟨fun _ _ => rfl, rfl, fun _ => rfl, fun _ => ⟨rfl, rfl⟩, rfl⟩

theorem Sends.setSess {sess notes} (h : Sends true j s₀ s) : Sends true j s₀ { s with sess := sess, notes := notes } :=
  h.trans ⟨fun _ _ => rfl, rfl, nofun, fun _ => ⟨rfl, rfl⟩, rfl⟩

theorem Sends.setJnl {jnl} (h : Sends n true s₀ s) : Sends n true s₀ { s with jnl := jnl } :=
  h.trans ⟨fun _ _ => rfl, rfl, fun _ => rfl, nofun, rfl⟩

theorem Sends.mapEvs (f : Ev → Ev) (h : Sends n true s₀ s) : Sends n true s₀ { s with evs := s.evs.map f } :=
  h.trans ⟨fun _ _ => rfl, rfl, fun _ => rfl, nofun, List.length_map f⟩

/-! What stays. -/

theorem Sends.rd (h : Sends n j s t) {F : Fld} {ix : List Nat} (ha : ¬ trafficWord (fldAddr F ix)) : t.rd F ix = s.rd F ix := by
  unfold State.rd
  rw [h.word _ ha]

theorem Sends.flag (h : Sends n j s t) {F : Fld} {ix : List Nat} (ha : ¬ trafficWord (fldAddr F ix)) : t.flag F ix = s.flag F ix := by
  unfold State.flag
  rw [h.rd ha]

theorem Sends.modes (h : Sends n j s t) : t.modes = s.modes := by rw [h.frame]
theorem Sends.drv (h : Sends n j s t) : t.drv = s.drv := by rw [h.frame]
theorem Sends.setpt (h : Sends n j s t) : t.setpt = s.setpt := by rw [h.frame]
theorem Sends.spLev (h : Sends n j s t) : t.spLev = s.spLev := by rw [h.frame]
theorem Sends.image (h : Sends n j s t) : t.image = s.image := by rw [h.frame]

/-- An island is on by the STATE of its word. -/
theorem islOn_congr {i : Nat} (h : readN t (0x100200 + 0x4 * i) = readN s (0x100200 + 0x4 * i)) : islOn t i = islOn s i := by
  unfold islOn islState State.rd
  rw [show fldAddr R.PWR_ISL_STATE [i] = 0x100200 + 0x4 * i from rfl, h]

/-! ## Words and fault sets -/

theorem wrWord_sends {a : Nat} (v : Nat) (ha : trafficWord a) (h : Sends n j s₀ s) : Sends n j s₀ (wrWord s a v) :=
  h.trans ⟨fun b hb => readN_wrWord_other s a b v fun he => hb (he ▸ ha), rfl, fun _ => rfl, fun _ => ⟨rfl, rfl⟩, rfl⟩

theorem wr_sends {F : Fld} {ix : List Nat} (v : Nat) (ha : trafficWord (fldAddr F ix)) (h : Sends n j s₀ s) :
    Sends n j s₀ (s.wr F ix v) := wrWord_sends _ ha h

/-- The blocks whose fault sets traffic reaches. -/
def trafficBlk (b : Blk) : Prop := b = .egs ∨ b = .jnl

theorem trafficWord_faultSet {b : Blk} (hb : trafficBlk b) {o : Nat} (ho : o ≤ 0x18) : trafficWord (b.base + o) := by
  unfold trafficWord
  rcases hb with rfl | rfl <;> simp only [Blk.base] <;> omega

theorem raise_sends {b : Blk} (hb : trafficBlk b) (bit : Nat) (c : Cause) (h : Sends n j s₀ s) : Sends n j s₀ (raise b bit c s) := by
  have hf := raise_frame b bit c s
  refine h.trans ⟨fun a ha => readN_raise (Nat.lt_of_not_le fun h => ha (.inr (.inr h))) ?_ bit c s, ?_, fun _ => ?_, fun _ => ⟨?_, ?_⟩, ?_⟩
  case refine_1 =>
    refine Decidable.byContradiction fun hin => ha ?_
    rw [show a = b.base + (a - b.base) by omega]
    exact trafficWord_faultSet hb (by omega)
  all_goals rw [hf]

theorem injHit_sends {b : Blk} (hb : trafficBlk b) (sel : Nat) (h : Sends n j s₀ s) : Sends n j s₀ (injHit b sel s).2 := by
  unfold injHit
  dsimp only
  split
  · exact wrWord_sends _ (trafficWord_faultSet hb (by decide)) h
  · exact h

theorem countOnly_sends {b : Blk} (hb : trafficBlk b) (h : Sends n j s₀ s) : Sends n j s₀ (countOnly b s) :=
  wrWord_sends _ (trafficWord_faultSet hb (by decide)) h

theorem eccHit_sends {b : Blk} (hb : trafficBlk b) (sel bit a master acc : Nat) (h : Sends n j s₀ s) :
    Sends n j s₀ (eccHit b sel bit a master acc s).2 := by
  have h1 := injHit_sends hb sel h
  unfold eccHit
  extract_lets hit
  split
  · exact h1
  · split
    · exact countOnly_sends hb h1
    · exact raise_sends hb _ _ h1

theorem crcHit_sends {b : Blk} (hb : trafficBlk b) (sel : Nat) (h : Sends n j s₀ s) : Sends n j s₀ (crcHit b sel s) :=
  .ite (injHit_sends hb sel h) (countOnly_sends hb (injHit_sends hb sel h))

/-! ## Queues and records -/

theorem trafficBlk_egs : trafficBlk .egs := .inl rfl
theorem trafficBlk_jnl : trafficBlk .jnl := .inr rfl

theorem qPut_sends (q : Nat) (v : Queue) (h : Sends n j s₀ s) : Sends n j s₀ (qPut s q v) := h.update

theorem showDepth_sends {q : Nat} (hq : q < 65536) (h : Sends n j s₀ s) : Sends n j s₀ (showDepth q s) :=
  wr_sends _ (by simp [trafficWord, fldAddr, R.EGS_QSTAT_DEPTH]; omega) h

theorem bumpEgs_sends {F : Fld} {ix : List Nat} (ha : trafficWord (fldAddr F ix)) (h : Sends n j s₀ s) :
    Sends n j s₀ (bumpEgs F ix s) := by
  have h1 : Sends n j s₀ (s.inc F ix) := wr_sends _ ha h
  exact .ite (raise_sends trafficBlk_egs _ _ (wrWord_sends _ (.inr (.inl (by decide))) h1)) h1

theorem joinRound_sends (p q : Nat) (h : Sends n j s₀ s) : Sends n j s₀ (joinRound p q s) := .ite h h.update

theorem dropDown_sends {p : Nat} (hp : p < 2) (q k : Nat) (h : Sends n j s₀ s) : Sends n j s₀ (dropDown p q k s) := by
  have ha : trafficWord (fldAddr R.EGS_LINK_DROP [p]) := by
    simp [trafficWord, fldAddr, R.EGS_LINK_DROP]
    omega
  induction k generalizing s with
  | zero => exact h
  | succ k ih =>
    unfold dropDown
    split
    · exact h
    · exact ih (raise_sends trafficBlk_egs _ _ (bumpEgs_sends ha (qPut_sends _ _ h)))

theorem offer_sends {p : Nat} (hp : p < 2) (q : Nat) (h : Sends n j s₀ s) : Sends n j s₀ (offer p q s) := by
  unfold offer
  split
  · exact h
  · exact .ite (joinRound_sends _ _ h) (dropDown_sends hp _ _ h)

theorem enqueue_sends {q : Nat} (hq : q < 65536) (port len : Nat) (b : FBody) (h : Sends n j s₀ s) :
    Sends n j s₀ (enqueue q port len b s) := by
  unfold enqueue
  extract_lets m v s1 egs s2
  have h2 : Sends n j s₀ s2 := (qPut_sends _ _ h).update
  refine .ite h (.ite (showDepth_sends hq ?_) (showDepth_sends hq ?_))
  · exact offer_sends (by decide) _ (offer_sends (by decide) _ (eccHit_sends trafficBlk_egs _ _ _ _ _ h2))
  · exact raise_sends trafficBlk_egs _ _ (bumpEgs_sends (.inr (.inl (by decide))) h)

theorem closeFrame_sends {q : Nat} (hq : q < 65536) (h : Sends n j s₀ s) : Sends n j s₀ (closeFrame q s) := by
  unfold closeFrame
  extract_lets v
  split
  · exact h
  · exact enqueue_sends hq _ _ _ (qPut_sends _ _ h)

theorem addRecordAt_sends (stamp : Nat → Bool × Nat × Nat) {q : Nat} (hq : q < 65536) (kind : Nat) (bytes : List Nat)
    (h : Sends n j s₀ s) : Sends n j s₀ (addRecordAt stamp q kind bytes s) := by
  unfold addRecordAt
  extract_lets d s1 v f
  have h1 : Sends n j s₀ s1 := by
    unfold s1
    split
    · exact .ite (closeFrame_sends hq h) h
    · exact h
  exact .ite h (showDepth_sends hq (qPut_sends _ _ h1))

theorem gather_sends {q : Nat} (hq : q < 65536) (kind shift : Nat) (bytes : List Nat) (h : Sends n j s₀ s) :
    Sends n j s₀ (gather q kind shift bytes s) :=
  .ite h (.ite (qPut_sends _ _ h) (addRecordAt_sends _ hq _ _ (qPut_sends _ _ h)))

/-! ## Messages -/

theorem sessPut_sends (k : Nat) (v : Sess) (h : Sends true j s₀ s) : Sends true j s₀ (sessPut s k v) := h.setSess

theorem sendNote_sends (k kind : Nat) (params : List Nat) (h : Sends true j s₀ s) : Sends true j s₀ (sendNote k kind params s) :=
  enqueue_sends (rd_lt _ R.JNL_SESS_NQ _) _ _ _ (sessPut_sends _ _ h)

theorem notifyTo_sends (k kind : Nat) (params : List Nat) (h : Sends true j s₀ s) : Sends true j s₀ (notifyTo k kind params s) :=
  .ite h.setSess (sendNote_sends _ _ _ h)

theorem notifyAll_sends (kind : Nat) (params : List Nat) (h : Sends true j s₀ s) : Sends true j s₀ (notifyAll kind params s) :=
  .foldl (fun _ _ _ => .ite (notifyTo_sends _ _ _ .refl) .refl) h

theorem sendAnswer_sends (x : Hdr) (dup : Bool) (a : Ans) (h : Sends n j s₀ s) : Sends n j s₀ (sendAnswer x dup a s) :=
  enqueue_sends (by decide) _ _ _ h

/-! ## Journal entries -/

/-- An entry that both copies verify. -/
theorem writeEntry_sends (e : Entry) (h : Sends n true s₀ s) : Sends n true s₀ (writeEntry true true e s) := by
  unfold writeEntry
  extract_lets s0 s1 s2 s3 i e1 put hist jn s4 s5
  have h2 : s2 = s := by simp [s2, s1, s0]
  have h3 : Sends n true s₀ s3 := .foldl (fun _ _ _ => .ite .refl (crcHit_sends trafficBlk_jnl _ .refl)) (h2 ▸ h)
  have h4 : Sends n true s₀ s4 := h3.setJnl
  have h5 : Sends n true s₀ s5 := wr_sends _ (.inl (by decide)) (wr_sends _ (.inl (by decide)) h4)
  exact .ite (.ite (addRecordAt_sends _ (rd_lt _ R.JNL_CFG_EXPQ _) _ _ h5) h5) h3

theorem writeEntries_sends (l : List Entry) (h : Sends n true s₀ s) :
    Sends n true s₀ (l.foldl (fun t x => writeEntry true true x t) s) := .foldl (fun _ _ _ => writeEntry_sends _ .refl) h

theorem carryOne_sends (e : Ev) (h : Sends n true s₀ s) : Sends n true s₀ (carryOne true true e s) :=
  .ite (.mapEvs _ (writeEntries_sends _ h)) h

theorem checkpoint_sends (h : Sends n true s₀ s) : Sends n true s₀ (checkpoint true true s) := by
  unfold checkpoint
  extract_lets i s1 jn s2
  have h1 : Sends n true s₀ s1 := writeEntries_sends _ h
  have h2 : Sends n true s₀ s2 := h1.setJnl
  exact .foldl (fun _ _ _ => carryOne_sends _ .refl) (wr_sends _ (.inl (by decide)) h2)

theorem appendEntry_sends (e : Entry) (h : Sends n true s₀ s) : Sends n true s₀ (appendEntry true true e s) :=
  writeEntry_sends _ (.ite (checkpoint_sends h) h)

theorem commitEntries_sends (l : List Entry) (h : Sends n true s₀ s) : Sends n true s₀ (commitEntries true true l s) :=
  .ite (.foldl (fun _ _ _ => appendEntry_sends _ .refl) h) h

end Sys2Proof.Machine
end

section

/-! PROOFS. Set-point inputs (R151, R152, R154): what a measurement takes and shows, and the value in use. -/

namespace Sys2Proof.Machine

variable {s t : State} {k : Nat}

/-! ## Readings of an input -/

theorem fldAddr_setpt_mode (k : Nat) : fldAddr R.PORT_SETPT_MODE [k] = 0x3803000 + 0x10 * k := rfl
/-- An input in operation is not OFF, and is one of eight. -/
theorem setptRuns_iff : setptRuns s k = true ↔ k < 8 ∧ s.rd R.PORT_SETPT_MODE [k] ≠ 0 ∧ (islOn s 28 || islOn s 29) = true := by
  unfold setptRuns
  simp only [Bool.and_eq_true, decide_eq_true_eq, bne_iff_ne, and_assoc]

theorem setptGet_setptPut (s : State) (k : Nat) (c : Nat × Nat × Option Nat) : setptGet (setptPut s k c) k = c := cellGet_set_same _ _ _ _

/-- Out of OFF an input uses what its latest measurement took. -/
theorem setptHeld_running (hm : s.rd R.PORT_SETPT_MODE [k] ≠ 0) : setptHeld s k = cellGet (fun _ => (0x0FA00000, 0, false)) s.spLev k :=
  if_neg hm

theorem setptHeld_congr (hm : s.rd R.PORT_SETPT_MODE [k] ≠ 0) (hmt : t.rd R.PORT_SETPT_MODE [k] = s.rd R.PORT_SETPT_MODE [k])
    (hl : t.spLev = s.spLev) : setptHeld t k = setptHeld s k := by
  rw [setptHeld_running hm, setptHeld_running (hmt ▸ hm), hl]

/-- The value in use out of OFF: FB before any valid value and in LOS with FALLBACK. -/
theorem setptUse_running (hm : s.rd R.PORT_SETPT_MODE [k] ≠ 0) :
    setptUse s k = if (setptGet s k).2.2 = none ∨ (s.flag R.PORT_SETPT_LOS [k] = true ∧ (setptHeld s k).2.2 = true)
      then (setptHeld s k).2.1 else (setptGet s k).2.2.getD 0 := by
  unfold setptUse
  cases (setptGet s k).2.2 with
  | none => simp
  | some v => simp [hm]

/-! ## The value shown -/

theorem setptShow_frame (k : Nat) (s : State) : setptShow k s = { s with regs := (setptShow k s).regs } := by
  unfold setptShow
  exact wr_regsOnly _ _ _ _

theorem setptShow_jnl (k : Nat) (s : State) : (setptShow k s).jnl = s.jnl := by rw [setptShow, wr_jnl]
theorem setptShow_evs (k : Nat) (s : State) : (setptShow k s).evs = s.evs := by rw [setptShow, wr_evs]

theorem readN_setptShow (s : State) {a : Nat} (ha : a ≠ 0x380300C + 0x10 * k) : readN (setptShow k s) a = readN s a := by
  unfold setptShow
  exact readN_wr_other _ _ _ _ _ ha

theorem rd_v_setptShow (k : Nat) (s : State) : (setptShow k s).rd R.PORT_SETPT_V [k] = setptUse s k % 2 ^ 16 := by
  unfold setptShow
  exact rd_wr_same _ _ _ _ (by decide)

/-- VALID and LOS lie above V. -/
theorem flag_setptShow (k : Nat) (s : State) {F : Fld} (hF : F.lo + F.width ≤ 32) (hlo : 16 ≤ F.lo) :
    (setptShow k s).flag F [k] = s.flag F [k] := by
  unfold setptShow
  exact congrArg (· == 1) (rd_wr_bits s R.PORT_SETPT_V F [k] [k] (setptUse s k) hF (.inr hlo))

theorem setptGet_setptShow (k : Nat) (s : State) : setptGet (setptShow k s) k = setptGet s k := by
  unfold setptGet
  rw [setptShow_frame]

/-! ## A measurement -/

/-- A measurement has taken levels, FB and LOSACT, with VALID and its counts and last value `c`; V is not yet shown. -/
def setptNoted (k : Nat) (valid : Bool) (c : Nat × Nat × Option Nat) (s : State) : State :=
  setptPut ((setptLatch k s).wr R.PORT_SETPT_VALID [k] (b2n valid)) k c

section Noted
variable (k : Nat) (valid : Bool) (c : Nat × Nat × Option Nat) (s : State)

theorem setptNoted_frame : setptNoted k valid c s =
    { s with regs := (setptNoted k valid c s).regs, setpt := (setptNoted k valid c s).setpt,
             spLev := (setptNoted k valid c s).spLev } := by
  unfold setptNoted setptPut
  rw [wr_regsOnly]
  rfl

theorem setptGet_setptNoted : setptGet (setptNoted k valid c s) k = c := setptGet_setptPut _ k c

theorem readN_setptNoted {a : Nat} (ha : a ≠ 0x380300C + 0x10 * k) : readN (setptNoted k valid c s) a = readN s a :=
  readN_wr_other (setptLatch k s) R.PORT_SETPT_VALID [k] (b2n valid) a ha

theorem flag_valid_setptNoted : (setptNoted k valid c s).flag R.PORT_SETPT_VALID [k] = valid :=
  flag_wr_same (F := R.PORT_SETPT_VALID) rfl (by decide) (setptLatch k s) [k] valid

theorem flag_los_setptNoted : (setptNoted k valid c s).flag R.PORT_SETPT_LOS [k] = s.flag R.PORT_SETPT_LOS [k] := by
  have h := rd_wr_bits (setptLatch k s) R.PORT_SETPT_VALID R.PORT_SETPT_LOS [k] [k] (b2n valid) (by decide) (by decide)
  exact congrArg (· == 1) h

theorem rd_mode_setptNoted : (setptNoted k valid c s).rd R.PORT_SETPT_MODE [k] = s.rd R.PORT_SETPT_MODE [k] := by
  unfold State.rd
  rw [readN_setptNoted k valid c s (by rw [fldAddr_setpt_mode]; omega)]

theorem setptHeld_setptNoted (hm : s.rd R.PORT_SETPT_MODE [k] ≠ 0) : setptHeld (setptNoted k valid c s) k =
    (readN s (0x3803004 + 16 * k), s.rd R.PORT_SETPT_FB [k], s.flag R.PORT_SETPT_LOSACT [k]) :=
  (setptHeld_running (rd_mode_setptNoted k valid c s ▸ hm)).trans (cellGet_set_same _ _ _ _)

end Noted

/-- A valid measurement while LOS is clear. -/
theorem setptTake_valid (v : Nat) (hlos : s.flag R.PORT_SETPT_LOS [k] = false) :
    setptTake k (some v) s = setptShow k (setptNoted k true (0, min 255 ((setptGet s k).2.1 + 1), some v) s) := by
  have hclear : setptLos k false (setptNoted k true (0, min 255 ((setptGet s k).2.1 + 1), some v) s) =
      setptNoted k true (0, min 255 ((setptGet s k).2.1 + 1), some v) s := if_pos ((flag_los_setptNoted _ _ _ s).trans hlos)
  have hx : setptTake k (some v) s = setptShow k
      (if (setptLatch k s).rd R.PORT_SETPT_CLRN [k] ≤ min 255 ((setptGet s k).2.1 + 1)
        then setptLos k false (setptNoted k true (0, min 255 ((setptGet s k).2.1 + 1), some v) s)
        else setptNoted k true (0, min 255 ((setptGet s k).2.1 + 1), some v) s) := rfl
  rw [hx, hclear, ite_self]

/-- An invalid measurement that does not assert LOS. -/
theorem setptTake_invalid (h : min 15 ((setptGet s k).1 + 1) < s.rd R.PORT_SETPT_LOSN [k]) :
    setptTake k none s = setptShow k (setptNoted k false (min 15 ((setptGet s k).1 + 1), 0, (setptGet s k).2.2) s) :=
  congrArg (setptShow k) (if_neg (Nat.not_le.2 h))

/-- What a measurement that leaves LOS as it is comes to, from `s` to `t`. -/
structure SetptTaken (k : Nat) (valid : Bool) (c : Nat × Nat × Option Nat) (s t : State) : Prop where
  valid : t.flag R.PORT_SETPT_VALID [k] = valid
  counts : setptGet t k = c
  levels : setptLevels t k = readN s (0x3803004 + 16 * k)
  value : t.rd R.PORT_SETPT_V [k] =
    (if c.2.2 = none ∨ (s.flag R.PORT_SETPT_LOS [k] = true ∧ s.flag R.PORT_SETPT_LOSACT [k] = true)
      then s.rd R.PORT_SETPT_FB [k] else c.2.2.getD 0) % 2 ^ 16
  frame : t = { s with regs := t.regs, setpt := t.setpt, spLev := t.spLev }
  words : wordsKept s t [fldAddr R.PORT_SETPT_VALID [k], fldAddr R.PORT_SETPT_V [k]]

theorem setptShow_setptNoted (valid : Bool) (c : Nat × Nat × Option Nat) (hm : s.rd R.PORT_SETPT_MODE [k] ≠ 0) :
    SetptTaken k valid c s (setptShow k (setptNoted k valid c s)) := by
  have hmode := rd_mode_setptNoted k valid c s
  have hheld := setptHeld_setptNoted k valid c s hm
  have hne : (setptNoted k valid c s).rd R.PORT_SETPT_MODE [k] ≠ 0 := hmode ▸ hm
  have hword {a : Nat} (ha : a ≠ 0x380300C + 0x10 * k) : readN (setptShow k (setptNoted k valid c s)) a = readN s a :=
    (readN_setptShow _ ha).trans (readN_setptNoted k valid c s ha)
  have hshown : setptHeld (setptShow k (setptNoted k valid c s)) k = setptHeld (setptNoted k valid c s) k :=
    setptHeld_congr hne (by unfold State.rd; rw [readN_setptShow _ (by rw [fldAddr_setpt_mode]; omega)]) (by rw [setptShow_frame])
  constructor
  case valid => rw [flag_setptShow _ _ (by decide) (by decide), flag_valid_setptNoted]
  case counts => rw [setptGet_setptShow, setptGet_setptNoted]
  case levels => rw [setptLevels, hshown, hheld]
  case value => rw [rd_v_setptShow, setptUse_running hne, setptGet_setptNoted, flag_los_setptNoted, hheld]
  case frame => rw [setptShow_frame, setptNoted_frame]
  case words => exact fun a ha => hword fun he => ha (he ▸ List.mem_cons_self)

/-- A valid value shows while LOS is clear. -/
theorem SetptTaken.value_some {valid : Bool} {c₁ c₂ v : Nat} (h : SetptTaken k valid (c₁, c₂, some v) s t)
    (hlos : s.flag R.PORT_SETPT_LOS [k] = false) (hv : v < 2 ^ 16) : t.rd R.PORT_SETPT_V [k] = v := by
  rw [h.value, hlos, if_neg (by simp)]
  exact Nat.mod_eq_of_lt hv

/-! ## Values of 16 bits -/

theorem clampN_lt (x : Int) : clampN 65535 x < 2 ^ 16 := Nat.lt_succ_of_le (Nat.min_le_left _ _)

/-- A value, where there is one, is clamped to 16 bits. -/
theorem lt_of_clamped {c : Prop} [Decidable c] {x : Int} {v : Nat} (h : (if c then none else some (clampN 65535 x)) = some v) :
    v < 2 ^ 16 := by
  split at h
  · exact absurd h (by simp)
  · exact Option.some.inj h ▸ clampN_lt x

theorem setptPwm_lt {a b v : Nat} (h : setptPwm a b = some v) : v < 2 ^ 16 := lt_of_clamped h
theorem setptPfm_lt {lo hi a b v : Nat} (h : setptPfm lo hi a b = some v) : v < 2 ^ 16 := lt_of_clamped h
theorem setptAnalog_lt {c : Int} {v : Nat} (h : setptAnalog c = some v) : v < 2 ^ 16 := lt_of_clamped h

/-! ## A period or a gate -/

/-- What a period (PWM) or a gate (PFM) measures. -/
def setptMeasured (s : State) (k a b : Nat) : Option Nat :=
  if s.rd R.PORT_SETPT_MODE [k] = 1 then setptPwm a b else setptPfm (s.rd R.PORT_SETPT_FLO [k]) (s.rd R.PORT_SETPT_FHI [k]) a b

theorem setptMeasured_lt {a b v : Nat} (h : setptMeasured s k a b = some v) : v < 2 ^ 16 := by
  unfold setptMeasured at h
  split at h
  · exact setptPwm_lt h
  · exact setptPfm_lt h

theorem setptMeasurement_digital (a b : Nat) (hr : setptRuns s k = true) (hm : s.rd R.PORT_SETPT_MODE [k] ≤ 2) :
    exec (.setptMeasurement k a b) s = .next (setptTake k (setptMeasured s k a b) s) := by
  have hx : exec (.setptMeasurement k a b) s = execSetptMeasurement k a b s := rfl
  have h0 := (setptRuns_iff.1 hr).2.1
  rw [hx]
  unfold execSetptMeasurement setptMeasured
  rw [if_neg (by simp [hr])]
  rcases (show s.rd R.PORT_SETPT_MODE [k] = 1 ∨ s.rd R.PORT_SETPT_MODE [k] = 2 by omega) with h | h <;> simp [h]

theorem setptMeasurement_valid (s : State) (k a b v : Nat) (hr : setptRuns s k = true) (hm : s.rd R.PORT_SETPT_MODE [k] ≤ 2)
    (hv : setptMeasured s k a b = some v) (hlos : s.flag R.PORT_SETPT_LOS [k] = false) :
    runs (.setptMeasurement k a b) s fun t => SetptTaken k true (0, min 255 ((setptGet s k).2.1 + 1), some v) s t ∧
      t.rd R.PORT_SETPT_V [k] = v := by
  have hx := setptMeasurement_digital a b hr hm
  rw [hv, setptTake_valid v hlos] at hx
  have ht := setptShow_setptNoted true (0, min 255 ((setptGet s k).2.1 + 1), some v) (setptRuns_iff.1 hr).2.1
  exact ⟨_, hx, ht, ht.value_some hlos (setptMeasured_lt hv)⟩

theorem setptMeasurement_invalid (s : State) (k a b : Nat) (hr : setptRuns s k = true) (hm : s.rd R.PORT_SETPT_MODE [k] ≤ 2)
    (hv : setptMeasured s k a b = none) (hn : min 15 ((setptGet s k).1 + 1) < s.rd R.PORT_SETPT_LOSN [k]) :
    runs (.setptMeasurement k a b) s fun t => SetptTaken k false (min 15 ((setptGet s k).1 + 1), 0, (setptGet s k).2.2) s t := by
  have hx := setptMeasurement_digital a b hr hm
  rw [hv, setptTake_invalid hn] at hx
  exact ⟨_, hx, setptShow_setptNoted _ _ (setptRuns_iff.1 hr).2.1⟩

end Sys2Proof.Machine
end

section

/-! PROOFS. Set-point inputs (R151, R152, R422): a conversion of the Precision Converter as a measurement, and a lost signal. -/

namespace Sys2Proof.Machine

variable {s t : State} {k e : Nat}

/-! ## A conversion -/

theorem seqEntry_some {ch : Nat} (h : seqEntry s ch = some e) : e < 30 ∧ s.rd R.PCV_SEQ_CH [e] = ch := by
  have hmem := mem_span.1 (List.mem_of_find?_eq_some h)
  have hp := List.find?_some h
  rw [Bool.and_eq_true, beq_iff_eq] at hp
  exact ⟨by omega, hp.2⟩

/-- The entries below 30 are none of the CAL's photodiodes. -/
theorem pcvConvert_ordinary (he : e < 30) (raw : Int) (s : State) : pcvConvert e raw s = pcvConverted e raw s :=
  if_neg (Nat.not_le.2 he)

/-- The result word of a settled conversion in range, of a channel that is not reserved. -/
def pcvResult (s : State) (e : Nat) (c : Int) : Nat := 2 ^ 31 + (s.rd R.PCV_RESULT_CNT [e] + 1) % 32 * 2 ^ 24 + ofS 24 c

/-- The result of a conversion is shown. -/
def pcvShown (e : Nat) (c : Int) (s : State) : State :=
  wrWord { s with therm := { s.therm with conv := convOf s e } } (0x4200300 + 4 * e) (pcvResult s e c)

/-- A good conversion of a set-point input's channel: shown, recorded, then its measurement. -/
theorem pcvConverted_setpt (a : Nat) (hk : k < 8) (hch : s.rd R.PCV_SEQ_CH [e] = 56 + k) (href : s.therm.refxBad = false)
    (hsat : satS 24 (a : Int) = a) (huns : unsettled s e = false) :
    pcvConverted e a s =
      setptConversion (56 + k) true (pcvCorrect s (56 + k) a) (pcvRecord e (pcvShown e (pcvCorrect s (56 + k) a) s)) := by
  have hres : pcvReserved (56 + k) = false := by
    simp only [pcvReserved, Bool.or_eq_false_iff, Bool.and_eq_false_iff, beq_eq_false_iff_ne, decide_eq_false_iff_not]
    omega
  have hw (c : Int) : b2n true * 2 ^ 31 + b2n false * 2 ^ 30 + b2n false * 2 ^ 29 + (s.rd R.PCV_RESULT_CNT [e] + 1) % 32 * 2 ^ 24 + ofS 24 c =
      pcvResult s e c := by
    simp [b2n, pcvResult]
  unfold pcvConverted
  simp only [hch, hres, href, huns, hsat, hw, ne_eq, not_true_eq_false, decide_false, Bool.not_false, Bool.and_false, Bool.and_true,
    Bool.false_eq_true, if_false, pcvShown]

/-- The fields of the result word. -/
theorem pcvResult_fields (s : State) (e : Nat) (c : Int) :
    bitsN (pcvResult s e c % 2 ^ 32) 31 1 = 1 ∧ bitsN (pcvResult s e c % 2 ^ 32) 24 5 = (s.rd R.PCV_RESULT_CNT [e] + 1) % 32 := by
  have hc := ofS_lt 24 c
  unfold pcvResult bitsN
  omega

/-- The state in which the measurement of a conversion is taken: the result is shown, and its record gathered. -/
def pcvNoted (e : Nat) (c : Int) (s : State) : State := pcvRecord e (pcvShown e c s)

theorem pcvNoted_sends (he : e < 32) (c : Int) (s : State) : Sends false false (pcvShown e c s) (pcvNoted e c s) :=
  gather_sends (by omega) _ _ _ .refl

theorem readN_pcvNoted (he : e < 32) (c : Int) (s : State) {a : Nat} (ha : ¬ trafficWord a) (hne : a ≠ 0x4200300 + 4 * e) :
    readN (pcvNoted e c s) a = readN s a :=
  ((pcvNoted_sends he c s).word a ha).trans (readN_wrWord_other { s with therm := { s.therm with conv := convOf s e } } _ _ _ hne)

theorem readN_pcvNoted_result (he : e < 32) (c : Int) (s : State) :
    readN (pcvNoted e c s) (0x4200300 + 4 * e) = pcvResult s e c % 2 ^ 32 :=
  ((pcvNoted_sends he c s).word _ (not_trafficWord_of_lt (.inl (by omega)))).trans
    (readN_wrWord_same { s with therm := { s.therm with conv := convOf s e } } _ _)

/-- A field below the results reads as before. -/
theorem rd_pcvNoted (he : e < 32) (c : Int) (s : State) {F : Fld} {ix : List Nat}
    (ha : 0x3800000 ≤ fldAddr F ix ∧ fldAddr F ix < 0x4200300 ∨ fldAddr F ix < 0x300000) : (pcvNoted e c s).rd F ix = s.rd F ix := by
  unfold State.rd
  rw [readN_pcvNoted he c s (not_trafficWord_of_lt (by omega)) (by omega)]

theorem setptGet_pcvNoted (he : e < 32) (c : Int) (s : State) (k : Nat) : setptGet (pcvNoted e c s) k = setptGet s k := by
  unfold setptGet
  rw [(pcvNoted_sends he c s).setpt, pcvShown, wrWord_setpt]

theorem pcvNoted_drv (he : e < 32) (c : Int) (s : State) : (pcvNoted e c s).drv = s.drv := by
  rw [(pcvNoted_sends he c s).drv, pcvShown, wrWord_drv]

theorem pcvNoted_evs (he : e < 32) (c : Int) (s : State) : (pcvNoted e c s).evs = s.evs := by
  rw [((pcvNoted_sends he c s).jnl rfl).2, pcvShown, wrWord_evs]

theorem rd_setpt_pcvNoted (he : e < 32) (c : Int) (s : State) (hk : k < 8) {F : Fld} (hF : F.dims = [(0x10, 8)])
    (hb : 0x3803000 ≤ F.base ∧ F.base < 0x3803010) : (pcvNoted e c s).rd F [k] = s.rd F [k] := by
  refine rd_pcvNoted he c s (.inl ?_)
  simp only [fldAddr, hF, List.zip_cons_cons, List.zip_nil_right, List.map_cons, List.map_nil, List.sum_cons, List.sum_nil, Nat.add_zero]
  omega

theorem rd_setpt_mode_pcvNoted (he : e < 32) (c : Int) (s : State) (hk : k < 8) :
    (pcvNoted e c s).rd R.PORT_SETPT_MODE [k] = s.rd R.PORT_SETPT_MODE [k] := rd_setpt_pcvNoted he c s hk rfl (by decide)

theorem setptRuns_pcvNoted (he : e < 32) (c : Int) (hr : setptRuns s k = true) : setptRuns (pcvNoted e c s) k = true := by
  obtain ⟨hk, hm, hi⟩ := setptRuns_iff.1 hr
  have hisl {i : Nat} (h : i < 30) : islOn (pcvNoted e c s) i = islOn s i :=
    islOn_congr (readN_pcvNoted he c s (not_trafficWord_of_lt (.inr (by omega))) (by omega))
  rw [setptRuns_iff, rd_setpt_mode_pcvNoted he c s hk, hisl (by decide), hisl (by decide)]
  exact ⟨hk, hm, hi⟩

/-- A good conversion is a valid measurement of its input. -/
theorem setptMeasurement_analog (s : State) (k a b e v : Nat) (hr : setptRuns s k = true) (hm : s.rd R.PORT_SETPT_MODE [k] = 3)
    (he : seqEntry s (56 + k) = some e) (hturn : pcvTurn s e = true) (href : s.therm.refxBad = false) (hsat : satS 24 (a : Int) = a)
    (huns : unsettled s e = false) (hv : setptAnalog (pcvCorrect s (56 + k) a) = some v) (hlos : s.flag R.PORT_SETPT_LOS [k] = false) :
    runs (.setptMeasurement k a b) s fun t =>
      SetptTaken k true (0, min 255 ((setptGet s k).2.1 + 1), some v) (pcvNoted e (pcvCorrect s (56 + k) a) s) t ∧
      t.rd R.PORT_SETPT_V [k] = v := by
  obtain ⟨he30, hch⟩ := seqEntry_some he
  have he32 : e < 32 := by omega
  have hk := (setptRuns_iff.1 hr).1
  have hx : exec (.setptMeasurement k a b) s = .next (pcvConvert e a s) := by
    have hx : exec (.setptMeasurement k a b) s = execSetptMeasurement k a b s := rfl
    rw [hx]
    unfold execSetptMeasurement
    simp [hr, hm, he, hturn]
  rw [pcvConvert_ordinary he30, pcvConverted_setpt a hk hch href hsat huns] at hx
  change exec (.setptMeasurement k a b) s = .next (setptConversion _ _ _ (pcvNoted e (pcvCorrect s (56 + k) a) s)) at hx
  generalize hc : pcvCorrect s (56 + k) a = c at hx hv
  have hruns := setptRuns_pcvNoted he32 c hr
  have hmode := rd_setpt_mode_pcvNoted he32 c s hk
  have hlosN : (pcvNoted e c s).flag R.PORT_SETPT_LOS [k] = false :=
    (congrArg (· == 1) (rd_setpt_pcvNoted he32 c s hk rfl (by decide))).trans hlos
  have hconv : setptConversion (56 + k) true c (pcvNoted e c s) = setptTake k (some v) (pcvNoted e c s) := by
    unfold setptConversion
    simp [hruns, hmode, hm, hv]
  rw [hconv, setptTake_valid v hlosN, setptGet_pcvNoted he32] at hx
  have ht := setptShow_setptNoted true (0, min 255 ((setptGet s k).2.1 + 1), some v) (setptRuns_iff.1 hruns).2.1
  exact ⟨_, hx, ht, ht.value_some hlosN (setptAnalog_lt hv)⟩

/-- The result of the conversion stands beside its measurement. -/
theorem SetptTaken.result {valid : Bool} {c : Nat × Nat × Option Nat} {x : Int} (he : e < 32)
    (h : SetptTaken k valid c (pcvNoted e x s) t) (hk : k < 8) : readN t (0x4200300 + 4 * e) = pcvResult s e x % 2 ^ 32 := by
  have hne : 0x4200300 + 4 * e ≠ 0x380300C + 0x10 * k := by omega
  have hw := h.words (0x4200300 + 4 * e) (by simpa [fldAddr, R.PORT_SETPT_VALID, R.PORT_SETPT_V] using hne)
  exact hw.trans (readN_pcvNoted_result he x s)

/-! ## A lost signal -/

/-- LOS has been asserted, with the counts and the last value `c`; neither notified nor shown in V yet. -/
def setptLost (k : Nat) (c : Nat × Nat × Option Nat) (s : State) : State := (setptPut s k c).wr R.PORT_SETPT_LOS [k] (b2n true)

section Lost
variable (k : Nat) (c : Nat × Nat × Option Nat) (s : State)

theorem flag_los_setptLost : (setptLost k c s).flag R.PORT_SETPT_LOS [k] = true := flag_wr_same rfl (by decide) _ _ _

theorem setptGet_setptLost : setptGet (setptLost k c s) k = c := by
  unfold setptLost
  rw [setptGet, wr_setpt]
  exact setptGet_setptPut s k c

theorem rd_mode_setptLost : (setptLost k c s).rd R.PORT_SETPT_MODE [k] = s.rd R.PORT_SETPT_MODE [k] :=
  rd_wr_word (setptPut s k c) _ _ _ _ _ (by rw [fldAddr_setpt_mode]; simp [fldAddr, R.PORT_SETPT_LOS])

theorem setptLost_spLev : (setptLost k c s).spLev = s.spLev := by rw [setptLost, wr_spLev, setptPut]
theorem setptLost_jnl : (setptLost k c s).jnl = s.jnl := by rw [setptLost, wr_jnl, setptPut]
theorem setptLost_evs : (setptLost k c s).evs = s.evs := by rw [setptLost, wr_evs, setptPut]

/-- A change of LOS to asserted is notified. -/
theorem setptLos_setptPut (h : s.flag R.PORT_SETPT_LOS [k] = false) :
    setptLos k true (setptPut s k c) = notifyAll 0x05 [k, b2n true] (setptLost k c s) := by
  have h' : (setptPut s k c).flag R.PORT_SETPT_LOS [k] = false := h
  unfold setptLos
  rw [if_neg (by rw [h']; exact Bool.false_ne_true), setptLost]

end Lost

/-- The value in use in LOS: FB with FALLBACK or before any valid value. -/
theorem setptUse_lost (hm : s.rd R.PORT_SETPT_MODE [k] ≠ 0) (hlos : s.flag R.PORT_SETPT_LOS [k] = true) :
    setptUse s k = if (setptHeld s k).2.2 = true ∨ (setptGet s k).2.2 = none then (setptHeld s k).2.1 else (setptGet s k).2.2.getD 0 := by
  rw [setptUse_running hm, hlos]
  simp only [true_and, or_comm]

theorem setptLosTimeout_exec (hr : setptRuns s k = true) (hlos : s.flag R.PORT_SETPT_LOS [k] = false) :
    exec (.setptLosTimeout k) s = .next (setptShow k
      (notifyAll 0x05 [k, b2n true] (setptLost k ((setptGet s k).1, 0, (setptGet s k).2.2) s))) := by
  have hx : exec (.setptLosTimeout k) s = execSetptLosTimeout k s := rfl
  rw [hx, execSetptLosTimeout, if_pos hr]
  dsimp only
  rw [setptLos_setptPut _ _ _ hlos]

/-- A timeout asserts LOS and restarts the run of valid measurements. -/
theorem setptLosTimeout_asserts (s : State) (k : Nat) (hr : setptRuns s k = true) (hlos : s.flag R.PORT_SETPT_LOS [k] = false) :
    runs (.setptLosTimeout k) s fun t =>
      t.flag R.PORT_SETPT_LOS [k] = true ∧ setptGet t k = ((setptGet s k).1, 0, (setptGet s k).2.2) ∧ t.jnl = s.jnl ∧ t.evs = s.evs ∧
      t.rd R.PORT_SETPT_V [k] = (if (setptHeld s k).2.2 = true ∨ (setptGet s k).2.2 = none
        then (setptHeld s k).2.1 else (setptGet s k).2.2.getD 0) % 2 ^ 16 := by
  obtain ⟨hk, hm, -⟩ := setptRuns_iff.1 hr
  have hx := setptLosTimeout_exec hr hlos
  have hsent : Sends true false (setptLost k ((setptGet s k).1, 0, (setptGet s k).2.2) s) _ := notifyAll_sends 0x05 [k, b2n true] .refl
  generalize notifyAll 0x05 [k, b2n true] (setptLost k ((setptGet s k).1, 0, (setptGet s k).2.2) s) = u at hx hsent
  have haddr {F : Fld} (ha : fldAddr F [k] = 0x3803000 + 0x10 * k ∨ fldAddr F [k] = 0x380300C + 0x10 * k) : ¬ trafficWord (fldAddr F [k]) :=
    not_trafficWord_of_lt (.inl (by omega))
  have hmode : u.rd R.PORT_SETPT_MODE [k] = s.rd R.PORT_SETPT_MODE [k] := (hsent.rd (haddr (.inl rfl))).trans (rd_mode_setptLost k _ s)
  have hlost : u.flag R.PORT_SETPT_LOS [k] = true := (hsent.flag (haddr (.inr rfl))).trans (flag_los_setptLost k _ s)
  have hget : setptGet u k = ((setptGet s k).1, 0, (setptGet s k).2.2) := by
    rw [setptGet, hsent.setpt]
    exact setptGet_setptLost k _ s
  have hheld : setptHeld u k = setptHeld s k := setptHeld_congr hm hmode (hsent.spLev.trans (setptLost_spLev k _ s))
  obtain ⟨hjnl, hevs⟩ := hsent.jnl rfl
  refine ⟨_, hx, ?los, ?counts, ?jnl, ?evs, ?value⟩
  case los => rw [flag_setptShow _ _ (by decide) (by decide), hlost]
  case counts => rw [setptGet_setptShow, hget]
  case jnl => rw [setptShow_jnl, hjnl, setptLost_jnl]
  case evs => rw [setptShow_evs, hevs, setptLost_evs]
  case value => rw [rd_v_setptShow, setptUse_lost (hmode ▸ hm) hlost, hget, hheld]

/-! ## The clauses -/

/-- Settles O25: a period or a gate, valid and invalid, a conversion, and a lost signal. -/
theorem setPointInputs : Obligations.SetPointInputs := by
  refine ⟨?valid, ?invalid, ?analog, setptLosTimeout_asserts⟩
  case valid =>
    intro s k a b v hr hm hv hlos
    obtain ⟨t, hx, ht, hshown⟩ := setptMeasurement_valid s k a b v hr hm hv hlos
    exact ⟨t, hx, ht.valid, hshown, ht.counts, ht.levels, ht.frame, ht.words⟩
  case invalid =>
    intro s k a b hr hm hv hn
    obtain ⟨t, hx, ht⟩ := setptMeasurement_invalid s k a b hr hm hv hn
    exact ⟨t, hx, ht.valid, ht.value, ht.counts, ht.frame, ht.words⟩
  case analog =>
    intro s k a b e v hr hm he hturn href hsat huns hv hlos
    obtain ⟨t, hx, ht, hshown⟩ := setptMeasurement_analog s k a b e v hr hm he hturn href hsat huns hv hlos
    have he32 : e < 32 := Nat.lt_trans (seqEntry_some he).1 (by decide)
    have hres := ht.result he32 (setptRuns_iff.1 hr).1
    obtain ⟨hvalid, hcnt⟩ := pcvResult_fields s e (pcvCorrect s (56 + k) a)
    rw [← hres] at hvalid hcnt
    refine ⟨t, hx, ht.valid, hshown, ht.counts, congrArg (· == 1) hvalid, hcnt, ?_, ?_⟩
    · rw [ht.frame, pcvNoted_drv he32]
    · rw [ht.frame, pcvNoted_evs he32]

end Sys2Proof.Machine
end

section

/-! PROOFS. A WRITE of a plain word (R371): the levels of a set-point input and the configuration of a queue, words that have no checker, no
W1C field and nothing that follows their write. -/

namespace Sys2Proof.Machine

variable {s t : State} {a m v : Nat}

/-! ## Plain words -/

/-- The words of `EGS.QCFG` that hosts write, and word 1 of the inputs of `PORT.SETPT`. -/
def plainWord (a : Nat) : Prop := (0x680000 ≤ a ∧ a < 0x6FFF80) ∨ (0x3803000 ≤ a ∧ a < 0x3803080 ∧ a % 16 = 4)

theorem not_trafficWord_of_plain (ha : plainWord a) : ¬ trafficWord a := by
  unfold plainWord at ha
  unfold trafficWord
  omega

theorem mirrored_plain (ha : plainWord a) : mirrored a = [a] := by
  unfold plainWord at ha
  exact if_neg (by omega)

/-! Each function that goes by the address meets a plain word in a branch of its own, or in none. -/

theorem checkerOf_plain (ha : plainWord a) : checkerOf a = none := by
  unfold plainWord at ha
  unfold checkerOf
  grind

theorem injectBlk_plain (ha : plainWord a) : injectBlk a = none := by
  unfold injectBlk
  rw [List.find?_eq_none]
  intro b _ hb
  rw [beq_iff_eq] at hb
  unfold plainWord at ha
  cases b <;> simp only [Blk.base] at hb <;> omega

theorem fieldHook_plain (ha : plainWord a) (old : Nat) (s : State) : fieldHook a old s = s := by
  unfold plainWord at ha
  unfold fieldHook
  grind

theorem writeHook_plain (ha : plainWord a) (mask v old : Nat) (s : State) : writeHook a mask v old s = s := by
  have hf := fieldHook_plain ha old s
  have hi := injectBlk_plain ha
  unfold plainWord at ha
  unfold writeHook
  grind

theorem hookOwned_plain (ha : plainWord a) : hookOwned a = false := by
  unfold plainWord at ha
  simp only [hookOwned, Bool.or_eq_false_iff, Bool.and_eq_false_iff, decide_eq_false_iff_not]
  omega

theorem blockFields_plain (ha : plainWord a) : blockFields a = R.EGS_fields ∨ blockFields a = R.PORT_fields := by
  unfold plainWord at ha
  unfold blockFields
  grind

/-- The W1C fields of EGS and PORT stand once each, in words of the blocks' own. -/
theorem w1c_single : ∀ F ∈ R.EGS_fields ++ R.PORT_fields, F.acc = .w1c →
    F.dims = [] ∧ (F.base < 0x680000 ∨ (0x700000 ≤ F.base ∧ F.base < 0x3803000)) := by
  decide

theorem accMask_w1c_plain (ha : plainWord a) : accMask .w1c (fieldsAt a) = 0 := by
  have hnone : (fieldsAt a).filter (fun F => F.acc == .w1c) = [] := by
    rw [List.filter_eq_nil_iff]
    intro F hF hw
    rw [beq_iff_eq] at hw
    unfold fieldsAt at hF
    rw [List.mem_filter, Bool.and_eq_true] at hF
    obtain ⟨hmem, hcov, -⟩ := hF
    have hin : F ∈ R.EGS_fields ++ R.PORT_fields := by
      rw [List.mem_append]
      rcases blockFields_plain ha with h | h
      · exact .inl (h ▸ hmem)
      · exact .inr (h ▸ hmem)
    obtain ⟨hd, hb⟩ := w1c_single F hin hw
    simp only [Fld.covers, hd, coversOfs, Bool.and_eq_true, decide_eq_true_eq, beq_iff_eq] at hcov
    unfold plainWord at ha
    omega
  unfold accMask
  rw [hnone]
  rfl

/-! ## The application of an item -/

/-- A masked word is what the item leaves. -/
theorem readN_mergeWord (mask : Nat) (a v : Nat) (s : State) : readN (mergeWord mask a v s) a = merged s a mask v := by
  unfold mergeWord merged
  rw [readN_wrWord_same, Nat.mod_eq_of_lt (BitVec.isLt _)]

theorem merged_congr (h : readN t a = readN s a) (mask v : Nat) : merged t a mask v = merged s a mask v := by
  unfold merged
  rw [h]

/-- What an accepted item of a plain word leaves: the bits of its mask that hosts may write take the value. -/
structure ItemApplied (a m v : Nat) (s t : State) : Prop where
  word : readN t a = merged s a (Nat.land (m % 2 ^ 32) (accMask .rwr (fieldsAt a))) (v % 2 ^ 32)
  others : ∀ b, b ≠ a → readN t b = readN s b
  frame : t = { s with regs := t.regs, wbase := t.wbase }

theorem mergeWord_applied (s : State) (a m v : Nat) :
    ItemApplied a m v s (mergeWord (Nat.land (m % 2 ^ 32) (accMask .rwr (fieldsAt a))) a (v % 2 ^ 32) s) :=
  ⟨readN_mergeWord _ _ _ _, fun _ hb => readN_wrWord_other _ _ _ _ hb, rfl⟩

/-- An item under whose mask hosts may write nothing. -/
theorem ItemApplied.of_none (h : Nat.land (m % 2 ^ 32) (accMask .rwr (fieldsAt a)) = 0) : ItemApplied a m v s s :=
  ⟨by rw [h, ← readN_mergeWord, readN_mergeWord_none], fun _ _ => rfl, rfl⟩

theorem ItemApplied.base {w : Cells Word} (h : ItemApplied a m v s t) : ItemApplied a m v s { t with wbase := w } :=
  ⟨h.word, h.others, by rw [h.frame]⟩

theorem applyItem_plain (ha : plainWord a) (m v : Nat) (s : State) : ItemApplied a m v s (applyItem (a, m, v) s) := by
  have hc : Nat.land (Nat.land (m % 2 ^ 32) (v % 2 ^ 32)) (accMask .w1c (fieldsAt a)) = 0 := by
    rw [accMask_w1c_plain ha]
    exact Nat.and_zero _
  unfold applyItem
  extract_lets a' mask val l mk c old s1 base s2
  have h1 : ItemApplied a m v s s1 := by
    unfold s1
    rw [hookOwned_plain ha]
    split
    next h => exact .of_none (h.resolve_right Bool.false_ne_true)
    next =>
      rw [putMasked, mirrored_plain ha]
      exact mergeWord_applied s a m v
  have h2 : s2 = s1 := if_pos hc
  split
  next h => exact .of_none (by rw [show m % 2 ^ 32 = 0 from h]; exact Nat.zero_and _)
  next =>
    rw [writeHook_plain ha, touch, checkerOf_plain ha, h2]
    exact h1.base

/-! ## The checks of an item -/

theorem valueOk_plain (ha : plainWord a) (t s : State) (mask w : Nat) : valueOk t a mask w = valueOk s a mask w := by
  unfold plainWord at ha
  unfold valueOk
  grind

theorem stateReason_plain (ha : plainWord a) (s : State) (mask v : Nat) : stateReason s a mask v = none := by
  have hi := injectBlk_plain ha
  unfold plainWord at ha
  unfold stateReason
  rw [hi, if_neg (by simp), if_neg (by omega)]

/-- The configuration of a queue lies on PI05, an input's on the two port banks. -/
theorem addrIslands_plain (ha : plainWord a) : addrIslands a = [5] ∨ addrIslands a = [28, 29] := by
  unfold plainWord at ha
  unfold addrIslands
  grind

theorem regOn_plain (ha : plainWord a) (h : ∀ i, i < 30 → islOn t i = islOn s i) : regOn t a = regOn s a := by
  have hl : ∀ i ∈ addrIslands a, i < 30 := by
    rcases addrIslands_plain ha with hl | hl <;> simp [hl]
  unfold regOn
  rw [Bool.eq_iff_iff, List.any_eq_true, List.any_eq_true]
  exact ⟨fun ⟨i, hi, hon⟩ => ⟨i, hi, h i (hl i hi) ▸ hon⟩, fun ⟨i, hi, hon⟩ => ⟨i, hi, (h i (hl i hi)).symm ▸ hon⟩⟩

/-- The checks of a plain word rest on its island, its content, and the overlay of the mode. -/
theorem itemReason_plain (ha : plainWord a) (all : List (Nat × Nat × Nat)) (m v : Nat) (hisl : ∀ i, i < 30 → islOn t i = islOn s i)
    (hw : readN t a = readN s a) (him : t.image = s.image) (hm : modeOf t = modeOf s) :
    itemReason t all (a, m, v) = itemReason s all (a, m, v) := by
  have hov (mask : Nat) : overlayHit t a mask = overlayHit s a mask := by
    unfold overlayHit overlayOf
    rw [him, hm]
  have hne : a ≠ 0x800100 := by
    unfold plainWord at ha
    omega
  unfold itemReason
  simp only [regOn_plain ha hisl, merged_congr hw, valueOk_plain ha t s, stateReason_plain ha, hov, hne, false_and, if_false]

end Sys2Proof.Machine
end

section

/-! PROOFS. A request whose turn has come (R363 to R369): it is taken from its ring, performed, answered, and nothing else waits. -/

namespace Sys2Proof.Machine

variable {s t u : State} {h : Hdr} {r : Req} {k : Nat}

/-! ## The mode-control tick -/

/-- The fields that a mode-control tick reads stand in PWR.MODE. -/
theorem modeSteady_congr (hw : readN t 0x100010 = readN s 0x100010) : modeSteady t = modeSteady s := by
  have hrd {F : Fld} (hF : fldAddr F [] = 0x100010) : t.rd F [] = s.rd F [] := by
    unfold State.rd
    rw [hF, hw]
  unfold modeSteady modeByRank modeOf State.flag
  rw [hrd (F := R.PWR_MODE_CUR) rfl, hrd (F := R.PWR_MODE_C_LOCKOUT) rfl, hrd (F := R.PWR_MODE_C_STOP) rfl, hrd (F := R.PWR_MODE_C_SHED) rfl,
    hrd (F := R.PWR_MODE_C_MAINT) rfl, hrd (F := R.PWR_MODE_C_DEG) rfl, hrd (F := R.PWR_MODE_C_UPD) rfl, hrd (F := R.PWR_MODE_RESTING) rfl]

/-- With no mode change due the tick changes nothing. -/
theorem modeTick_steady (hs : modeSteady s = true) : modeTick s = s := by
  unfold modeSteady at hs
  unfold modeTick modeTickBy
  dsimp only at hs ⊢
  split
  case isTrue => rfl
  case isFalse =>
    split
    case isTrue hl =>
      rw [if_pos hl, beq_iff_eq] at hs
      rw [if_pos hs]
    case isFalse hl =>
      rw [if_neg hl] at hs
      split
      case isTrue hstop =>
        rw [if_pos hstop, Bool.or_eq_true, beq_iff_eq, beq_iff_eq] at hs
        rw [if_pos hs]
      case isFalse hstop =>
        rw [if_neg hstop] at hs
        simp only [Bool.or_eq_true, Bool.and_eq_true, beq_iff_eq, decide_eq_true_eq, Bool.not_eq_true'] at hs
        split
        case isTrue => rfl
        case isFalse hm =>
          obtain ⟨hrank, hupd⟩ := hs.resolve_left (by simpa only [or_assoc] using hm)
          have hkeep : (if modeByRank s ≠ mUpdate ∧ rankOf (modeByRank s) < 5 then abandonUpdate s else s) = s := by
            split
            case isTrue h =>
              have hoff : s.flag R.PWR_MODE_C_UPD [] = false := hupd.resolve_left (by rw [← hrank]; omega)
              exact if_neg (by rw [hoff]; exact Bool.false_ne_true)
            case isFalse => rfl
          rw [hkeep, if_pos hrank]

/-! ## The frame is taken -/

/-- The words of a port's ring lie in the network interfaces. -/
theorem takeRing_word (p : Nat) (hp : p < 2) (s : State) {a : Nat} (ha : a < 0x500000 ∨ 0x510000 ≤ a) :
    readN (takeRing p 0 s) a = readN s a := by
  have h1 : a ≠ fldAddr R.NI_RING_FREE [p, 0] := by simp [fldAddr, R.NI_RING_FREE]; omega
  have h2 : a ≠ fldAddr R.NI_RING_LOW [p, 0] := by simp [fldAddr, R.NI_RING_LOW]; omega
  unfold takeRing
  split
  · rfl
  · unfold ringSet
    rw [readN_wr_other _ _ _ _ _ h2, readN_wr_other _ _ _ _ _ h1]
    exact readN_congr (by unfold portPut; split <;> rfl) a

theorem ringSet_sends {n j : Bool} {p : Nat} (hp : p < 2) (l : List RxHeld) (s : State) : Sends n j s (ringSet p 0 l s) := by
  have ha (F : Fld) (hb : F.base = 0x500200) (hd : F.dims = [(0x8000, 2), (0x4, 4)]) : trafficWord (fldAddr F [p, 0]) := by
    simp [trafficWord, fldAddr, hb, hd]
    omega
  exact wr_sends _ (ha R.NI_RING_LOW rfl rfl) (wr_sends _ (ha R.NI_RING_FREE rfl rfl) (.ite Sends.refl.update Sends.refl.update))

theorem takeRing_sends {n j : Bool} {p : Nat} (hp : p < 2) (s : State) : Sends n j s (takeRing p 0 s) := by
  unfold takeRing
  split
  · exact .refl
  · exact ringSet_sends hp _ s

/-! ## A request in turn -/

/-- What `inTurn` says, part by part, of the state from which the frame is taken. -/
structure Turn (h : Hdr) (s : State) : Prop where
  up : kcpUp s = true
  port : h.port < 2
  mid : h.mid = s.rd R.GLB_MID_MID []
  session : 0 < h.session ∧ h.session < 32
  isOpen : sessOpen s h.session = true
  tag : h.tagOk = true
  sound : badHdr h = false
  known : h.odd = none
  seq : h.seq = s.rd R.JNL_SESS_NEXT [h.session]
  held : (sessGet s h.session).held = []
  late : (sessGet s h.session).late = none
  ring : (portGet s h.port).kcp ≠ []
  journal : jnlReady s = true
  copies : h.verA = true ∧ h.verB = true

theorem turn_of_inTurn (ht : inTurn h s = true) : Turn h s := by
  simp only [inTurn, Bool.and_eq_true, decide_eq_true_eq, beq_iff_eq, Bool.not_eq_true', Option.isNone_iff_eq_none, List.isEmpty_iff,
    and_assoc] at ht
  obtain ⟨hup, hport, hmid, h0, h32, hopen, htag, hbad, hodd, hseq, hheld, hlate, hring, hjnl, hA, hB⟩ := ht
  have hne : (portGet s h.port).kcp ≠ [] := fun he => by simp [he] at hring
  exact ⟨hup, hport, hmid, ⟨h0, h32⟩, hopen, htag, hbad, hodd, hseq, hheld, hlate, hne, hjnl, hA, hB⟩

/-- The fields of the header are within their widths. -/
theorem Turn.normHdr (ht : Turn h s) : normHdr h = h := by
  have hm : h.mid < 64 := ht.mid ▸ rd_lt s R.GLB_MID_MID []
  have hq : h.seq < 2 ^ 32 := ht.seq ▸ rd_lt s R.JNL_SESS_NEXT [h.session]
  unfold Machine.normHdr
  rw [Nat.mod_eq_of_lt ht.port, Nat.mod_eq_of_lt hm, Nat.mod_eq_of_lt ht.session.2, Nat.mod_eq_of_lt hq]

theorem drainHeld_none (n : Nat) (hh : (sessGet s k).held = []) : drainHeld n k s = s := by
  cases n with
  | zero => rfl
  | succ n =>
    unfold drainHeld
    simp [hh]

/-- The state in which the request is served: its frame is taken. -/
def taken (h : Hdr) (s : State) : State := takeRing h.port 0 s

theorem Turn.taken_sends {n j : Bool} (ht : Turn h s) : Sends n j s (taken h s) := takeRing_sends ht.port s

theorem Turn.taken_sess (ht : Turn h s) (k : Nat) : sessGet (taken h s) k = sessGet s k := by
  unfold sessGet
  rw [(ht.taken_sends (n := false) (j := false)).sess rfl]

/-- A field outside the network interfaces reads as before. -/
theorem Turn.taken_rd (ht : Turn h s) {F : Fld} {ix : List Nat} (ha : fldAddr F ix < 0x500000) : (taken h s).rd F ix = s.rd F ix := by
  unfold State.rd taken
  rw [takeRing_word _ ht.port s (.inl ha)]

theorem Turn.taken_flag (ht : Turn h s) {F : Fld} {ix : List Nat} (ha : fldAddr F ix < 0x500000) : (taken h s).flag F ix = s.flag F ix := by
  unfold State.flag
  rw [ht.taken_rd ha]

/-- A word of the host sessions. -/
theorem fldAddr_sess_lt {F : Fld} (hd : F.dims = [(0x10, 32)]) (hb : F.base < 0x300210) (hk : k < 32) : fldAddr F [k] < 0x500000 := by
  simp only [fldAddr, hd, List.zip_cons_cons, List.zip_nil_right, List.map_cons, List.map_nil, List.sum_cons, List.sum_nil, Nat.add_zero]
  omega

theorem Turn.taken_jnlReady (ht : Turn h s) : jnlReady (taken h s) = true := by
  have hcopy {c : Nat} (hc : c < 2) : copyLive (taken h s) c = copyLive s c := by
    unfold copyLive
    rw [ht.taken_rd (by simp [fldAddr, R.JNL_COPY_STATE]; omega)]
  have hisl : islOn (taken h s) 1 = islOn s 1 := islOn_congr (takeRing_word _ ht.port s (.inl (by decide)))
  have hj := ((ht.taken_sends (n := false) (j := false)).jnl rfl).1
  have hr := ht.journal
  unfold jnlReady at hr ⊢
  rwa [hisl, hj, hcopy (by decide), hcopy (by decide)]

/-- The request is served, and the tick follows. -/
theorem Turn.kcp (ht : Turn h s) (r : Req) :
    kcp h r s = modeTick (drainHeld 16 h.session (serve h r (taken h s))) := by
  have hheld : drainHeld 16 h.session (takeRing h.port 0 s) = taken h s := drainHeld_none 16 (by rw [← taken, ht.taken_sess, ht.held])
  have hmid : (taken h s).rd R.GLB_MID_MID [] = s.rd R.GLB_MID_MID [] := ht.taken_rd (by decide)
  have hopen : sessOpen (taken h s) h.session = true := (ht.taken_flag (fldAddr_sess_lt rfl (by decide) ht.session.2)).trans ht.isOpen
  have hseq : (taken h s).rd R.JNL_SESS_NEXT [h.session] = h.seq :=
    (ht.taken_rd (fldAddr_sess_lt rfl (by decide) ht.session.2)).trans ht.seq.symm
  have hlate : isLate (taken h s) h = false := by
    unfold isLate
    rw [ht.taken_sess, ht.late]
  have hd : (h.seq + 2 ^ 32 - h.seq) % 2 ^ 32 = 0 := by omega
  have hring : (portGet s h.port).kcp.isEmpty = false := by
    simpa using ht.ring
  have hby : bySeq h r (taken h s) = drainHeld 16 h.session (serve h r (taken h s)) := by
    unfold bySeq
    simp only [hlate, hseq, hd, if_true, Bool.false_eq_true, if_false]
  have h0 : h.session ≠ 0 := Nat.ne_of_gt ht.session.1
  unfold Machine.kcp
  simp only [ht.normHdr, ht.up, hring, ht.known, Option.getD_none, hheld, hmid, ← ht.mid, hopen, ht.tag, h0, hby, ne_eq, not_true_eq_false,
    Bool.not_true, Bool.false_eq_true, or_self, if_false]

/-! ## The answer -/

/-- A request that is answered now. -/
theorem serve_now {a : Ans} (hx : attempt h r s = (.now a, t)) : serve h r s = answerCopies h a (sendAnswer h false a (consume h r a t)) := by
  unfold serve
  rw [hx]

theorem sessGet_sessPut (s : State) (k : Nat) (v : Sess) : sessGet (sessPut s k v) k = v := cellGet_set_same _ _ _ _

/-- What an answer leaves: the request stands in its session's window with it, and the session holds nothing else. -/
structure Answered (h : Hdr) (r : Req) (a : Ans) (t u : State) : Prop where
  served : served u h r a
  held : (sessGet u h.session).held = []
  sends : Sends true false t u

theorem consume_sends (hk : h.session < 32) (r : Req) (a : Ans) (s : State) : Sends true false s (consume h r a s) :=
  sessPut_sends _ _ (wr_sends _ (by simp [trafficWord, fldAddr, R.JNL_SESS_NEXT]; omega) .refl)

theorem answerCopies_none (a : Ans) (hh : (sessGet s h.session).held = []) :
    answerCopies h a s = sessPut s h.session { sessGet s h.session with held := [] } := by
  unfold answerCopies
  simp only [hh, List.filter_nil, List.foldl_nil]

theorem answered (hk : h.session < 32) (r : Req) (a : Ans) (hh : (sessGet t h.session).held = []) :
    Answered h r a t (answerCopies h a (sendAnswer h false a (consume h r a t))) := by
  have hsent : Sends false false (consume h r a t) (sendAnswer h false a (consume h r a t)) := sendAnswer_sends _ _ _ .refl
  have hget : sessGet (sendAnswer h false a (consume h r a t)) h.session =
      { sessGet t h.session with window := ((h.seq, r, a) :: (sessGet t h.session).window).take 1024, late := none } := by
    rw [sessGet, hsent.sess rfl]
    exact sessGet_sessPut _ _ _
  have hall : Sends true false t (sendAnswer h false a (consume h r a t)) := sendAnswer_sends _ _ _ (consume_sends hk r a t)
  rw [answerCopies_none a (by rw [hget]; exact hh)]
  refine ⟨?_, ?_, sessPut_sends _ _ hall⟩
  · unfold Machine.served
    rw [sessGet_sessPut, hget]
    rfl
  · rw [sessGet_sessPut]

end Sys2Proof.Machine
end

section

/-! PROOFS. A WRITE of one plain word (R154, R369, R371): its entries are committed, its item applied, its answer sent. -/

namespace Sys2Proof.Machine

variable {s t u : State} {h : Hdr} {a m v : Nat}

/-! ## The request is performed -/

/-- Entries committed while a copy takes them step JSEQ. -/
theorem commitEntries_journals {l : List Entry} (hl : l ≠ []) (hj : jnlReady s = true) : Journals s (commitEntries true true l s) := by
  unfold commitEntries
  rw [if_pos hj]
  cases l with
  | nil => exact absurd rfl hl
  | cons x l =>
    rw [List.foldl_cons]
    exact (appendEntry_journals x (jnlReady_anyCopyLive hj)).evolves (.foldl (fun _ _ => appendEntry_evolves _ _ _ .refl) .refl)

/-- The entries of a WRITE of one item. -/
def itemEntries (h : Hdr) (f : Nat × Nat × Nat) : List Entry := partEntries 0x05 0 h.session 0x04 h.seq (writeChunks 10 [f])

theorem itemEntries_ne_nil (h : Hdr) (f : Nat × Nat × Nat) : itemEntries h f ≠ [] := by
  simp [itemEntries, writeChunks, partEntries, span]

/-- The answer to an accepted WRITE. -/
def writeAck : Ans := ⟨0x84, 0, 0, 0, false, []⟩

/-- A WRITE of one item that passes its checks, with the right and the journal at hand. -/
theorem attempt_write (f : Nat × Nat × Nat) (hbad : badHdr h = false) (hv : h.verA = true ∧ h.verB = true) (hj : jnlReady s = true)
    (hright : bitN (s.rd R.JNL_SESS_RIGHTS [h.session]) 1 = true) (hok : firstReject s [f] [f] 0 = none) :
    attempt h (.write [f]) s = (.now writeAck, applyItem f (commitEntries true true (itemEntries h f) s)) := by
  have hcopy : (copyLive s 0 || copyLive s 1) = true := jnlReady_anyCopyLive hj
  have htakes : journalTakes h s = (true, s) := by
    unfold journalTakes
    simp [hj, hv, hcopy]
  have hneeds : needsJournal s (.write [f]) = true := rfl
  have hlacks : lacksRight s h (.write [f]) = false := by
    have h1 : lacksRight s h (.write [f]) = !bitN (s.rd R.JNL_SESS_RIGHTS [h.session]) 1 := rfl
    rw [h1, hright, Bool.not_true]
  have hdo : doWrite h (.write [f]) [f] s = (.now writeAck, applyItem f (commitEntries true true (itemEntries h f) s)) := by
    unfold doWrite
    rw [if_neg (by simp), hok, hv.1, hv.2]
    rfl
  unfold attempt perform
  rw [if_pos hneeds, htakes]
  simp only [if_true, hbad, hlacks, Bool.false_eq_true, if_false, hdo]

/-! ## The word -/

theorem ItemApplied.drv (hi : ItemApplied a m v s t) : t.drv = s.drv := by rw [hi.frame]
theorem ItemApplied.modes (hi : ItemApplied a m v s t) : t.modes = s.modes := by rw [hi.frame]
theorem ItemApplied.setpt (hi : ItemApplied a m v s t) : t.setpt = s.setpt := by rw [hi.frame]
theorem ItemApplied.evs (hi : ItemApplied a m v s t) : t.evs = s.evs := by rw [hi.frame]
theorem ItemApplied.jnl (hi : ItemApplied a m v s t) : t.jnl = s.jnl := by rw [hi.frame]
theorem ItemApplied.sess (hi : ItemApplied a m v s t) : t.sess = s.sess := by rw [hi.frame]

/-- The checks of a plain word do not depend on the frame that carries the WRITE. -/
theorem Turn.taken_firstReject (ht : Turn h s) (ha : plainWord a) (m v : Nat) :
    firstReject (taken h s) [(a, m, v)] [(a, m, v)] 0 = firstReject s [(a, m, v)] [(a, m, v)] 0 := by
  have hsent : Sends false false s (taken h s) := ht.taken_sends
  have hisl (i : Nat) (hi : i < 30) : islOn (taken h s) i = islOn s i :=
    islOn_congr (hsent.word _ (not_trafficWord_of_lt (.inr (by omega))))
  have hm : modeOf (taken h s) = modeOf s := hsent.rd (not_trafficWord_of_lt (.inr (by decide)))
  unfold firstReject
  rw [itemReason_plain ha _ m v hisl (hsent.word _ (not_trafficWord_of_plain ha)) hsent.image hm]
  rfl

/-- What a WRITE of a plain word comes to beside its answer. -/
structure WordWritten (a m v : Nat) (s t : State) : Prop where
  jseq : s.jnl.last < t.jnl.last
  word : readN t a = merged s a (Nat.land (m % 2 ^ 32) (accMask .rwr (fieldsAt a))) (v % 2 ^ 32)
  mode : readN t 0x100010 = readN s 0x100010
  pending : t.evs.length = s.evs.length
  drv : t.drv = s.drv
  modes : t.modes = s.modes
  setpt : t.setpt = s.setpt

theorem not_trafficWord_mode : ¬ trafficWord 0x100010 := not_trafficWord_of_lt (.inr (by decide))

theorem WordWritten.sends (hw : WordWritten a m v s t) (ha : plainWord a) (hs : Sends true false t u) : WordWritten a m v s u where
  jseq := (hs.jnl rfl).1 ▸ hw.jseq
  word := (hs.word a (not_trafficWord_of_plain ha)).trans hw.word
  mode := (hs.word _ not_trafficWord_mode).trans hw.mode
  pending := hs.pending.trans hw.pending
  drv := hs.drv.trans hw.drv
  modes := hs.modes.trans hw.modes
  setpt := hs.setpt.trans hw.setpt

/-- An item applied after its entries have been committed. -/
theorem applyItem_written (ha : plainWord a) (m v : Nat) {l : List Entry} (hl : l ≠ []) (hj : jnlReady s = true) :
    WordWritten a m v s (applyItem (a, m, v) (commitEntries true true l s)) := by
  have hc : Sends false true s (commitEntries true true l s) := commitEntries_sends _ .refl
  have hi := applyItem_plain ha m v (commitEntries true true l s)
  have hne : 0x100010 ≠ a := by
    unfold plainWord at ha
    omega
  constructor
  case jseq => exact hi.jnl ▸ (commitEntries_journals hl hj).jseq
  case word => rw [hi.word, merged_congr (hc.word _ (not_trafficWord_of_plain ha))]
  case mode => rw [hi.others _ hne, hc.word _ not_trafficWord_mode]
  case pending => rw [hi.evs, hc.pending]
  case drv => rw [hi.drv, hc.drv]
  case modes => rw [hi.modes, hc.modes]
  case setpt => rw [hi.setpt, hc.setpt]

/-- Taking the frame before is no part of what the WRITE does. -/
theorem WordWritten.of_taken (ht : Turn h s) (ha : plainWord a) (hw : WordWritten a m v (taken h s) t) : WordWritten a m v s t := by
  have hs : Sends false false s (taken h s) := ht.taken_sends
  constructor
  case jseq => exact (hs.jnl rfl).1 ▸ hw.jseq
  case word => rw [hw.word, merged_congr (hs.word _ (not_trafficWord_of_plain ha))]
  case mode => rw [hw.mode, hs.word _ not_trafficWord_mode]
  case pending => rw [hw.pending, hs.pending]
  case drv => rw [hw.drv, hs.drv]
  case modes => rw [hw.modes, hs.modes]
  case setpt => rw [hw.setpt, hs.setpt]

/-- A WRITE of a plain word in turn: served, then the word takes its value. -/
theorem writeWords_plain (hturn : inTurn h s = true) (hsteady : modeSteady s = true)
    (hright : bitN (s.rd R.JNL_SESS_RIGHTS [h.session]) 1 = true) (ha : plainWord a)
    (hok : firstReject s [(a, m, v)] [(a, m, v)] 0 = none) :
    runs (.writeWords h [(a, m, v)]) s fun t => served t h (.write [(a, m, v)]) writeAck ∧ WordWritten a m v s t := by
  have ht := turn_of_inTurn hturn
  have hk := ht.session.2
  have hrights : (taken h s).rd R.JNL_SESS_RIGHTS [h.session] = s.rd R.JNL_SESS_RIGHTS [h.session] :=
    ht.taken_rd (fldAddr_sess_lt rfl (by decide) hk)
  have htry := attempt_write (a, m, v) ht.sound ht.copies ht.taken_jnlReady (hrights ▸ hright) ((ht.taken_firstReject ha m v).trans hok)
  have hw := (applyItem_written ha m v (itemEntries_ne_nil h (a, m, v)) ht.taken_jnlReady).of_taken ht ha
  have hsess : sessGet (applyItem (a, m, v) (commitEntries true true (itemEntries h (a, m, v)) (taken h s))) h.session =
      sessGet s h.session := by
    rw [sessGet, (applyItem_plain ha m v _).sess, (commitEntries_sends (n := false) _ .refl).sess rfl]
    exact ht.taken_sess h.session
  have hx : exec (.writeWords h [(a, m, v)]) s = .next (kcp h (.write [(a, m, v)]) s) := rfl
  rw [ht.kcp, serve_now htry] at hx
  generalize applyItem (a, m, v) (commitEntries true true (itemEntries h (a, m, v)) (taken h s)) = t at hw hsess hx
  have hans := answered hk (.write [(a, m, v)]) writeAck (hsess ▸ ht.held)
  rw [drainHeld_none _ hans.held] at hx
  generalize answerCopies h writeAck (sendAnswer h false writeAck (consume h (.write [(a, m, v)]) writeAck t)) = u at hans hx
  have hu := hw.sends ha hans.sends
  rw [modeTick_steady ((modeSteady_congr hu.mode).trans hsteady)] at hx
  exact ⟨u, hx, hans.served, hu⟩

/-! ## The statement -/

/-- The levels of an input stand in a plain word. -/
theorem plainWord_levels {k : Nat} (hk : k < 8) : plainWord (fldAddr R.PORT_SETPT_PHI [k]) := by
  have ha : fldAddr R.PORT_SETPT_PHI [k] = 0x3803004 + 0x10 * k := rfl
  rw [ha]
  exact .inr (by omega)

/-- Settles O52: both kinds of word are plain. -/
theorem writesApply : Obligations.WritesApply := by
  constructor
  case left =>
    intro s h k m v hturn hsteady hright hk hok
    obtain ⟨t, hx, hserved, hw⟩ := writeWords_plain hturn hsteady hright (plainWord_levels hk) hok
    exact ⟨t, hx, hserved, hw.jseq, hw.word, hw.pending, hw.drv, hw.modes, hw.setpt⟩
  case right =>
    intro s h a m v hturn hsteady hright hlo hhi _ hok
    obtain ⟨t, hx, hserved, hw⟩ := writeWords_plain hturn hsteady hright (.inl ⟨hlo, hhi⟩) hok
    exact ⟨t, hx, hserved, hw.jseq, hw.word, hw.pending, hw.drv⟩

end Sys2Proof.Machine
end

section

/-! PROOFS. Time domains (R166 to R180): signed words, the fields of one domain, what the servo keeps per port, and what a raised bit of the
TBU leaves. -/

namespace Sys2Proof.Machine

variable {s t : State} {d p : Nat} {F G : Fld} {ix : List Nat}

/-! ## Signed words -/

theorem toS_ofS_word {x : Int} (hl : -(2 ^ 31) ≤ x) (hu : x < 2 ^ 31) : toS 32 (ofS 32 x) = x := by
  unfold toS ofS
  dsimp only
  split <;> omega

/-- A signed word reads back what was written. -/
theorem rdS_wrS_same (hlo : F.lo = 0) (hw : F.width = 32) {x : Int} (hl : -(2 ^ 31) ≤ x) (hu : x < 2 ^ 31) (ix : List Nat) (s : State) :
    (s.wrS F ix x).rdS F ix = x := by
  unfold State.rdS State.wrS
  rw [rd_wr_same _ _ _ _ (by omega), hw, Nat.mod_eq_of_lt (ofS_lt 32 x), toS_ofS_word hl hu]

/-! ## The fields of one domain -/

theorem fldAddr_dom (hF : F.dims = [(0x400, 8)]) (d : Nat) : fldAddr F [d] = F.base + 0x400 * d := by
  simp [fldAddr, hF]

/-- Two fields of a domain that do not touch. -/
abbrev domApart (F G : Fld) : Prop :=
  F.dims = [(0x400, 8)] ∧ G.dims = [(0x400, 8)] ∧ G.lo + G.width ≤ 32 ∧
    (G.base ≠ F.base ∨ G.lo + G.width ≤ F.lo ∨ F.lo + F.width ≤ G.lo)

theorem rd_wr_dom (h : domApart F G) (s : State) (d v : Nat) : (s.wr F [d] v).rd G [d] = s.rd G [d] := by
  obtain ⟨hF, hG, hw, hapart⟩ := h
  obtain hne | hbits := hapart
  · refine rd_wr_word _ _ _ _ _ _ ?_
    rw [fldAddr_dom hF, fldAddr_dom hG]
    omega
  · exact rd_wr_bits _ _ _ _ _ _ hw hbits

theorem flag_wr_dom (h : domApart F G) (s : State) (d v : Nat) : (s.wr F [d] v).flag G [d] = s.flag G [d] := by
  unfold State.flag
  rw [rd_wr_dom h]

theorem flag_congr (h : t.regs = s.regs) (F : Fld) (ix : List Nat) : t.flag F ix = s.flag F ix := by
  unfold State.flag
  rw [rd_congr h]

/-! ## What the servo keeps -/

@[simp] theorem servoGet_servoPut_same (s : State) (d : Nat) (v : Servo) : servoGet (servoPut s d v) d = v := cellGet_set_same _ _ _ _

theorem servoGet_congr (h : t.servo = s.servo) (d : Nat) : servoGet t d = servoGet s d := by
  unfold servoGet
  rw [h]

theorem ptpGet_congr (h : t.servo = s.servo) (d p : Nat) : ptpGet t d p = ptpGet s d p := by
  unfold ptpGet
  rw [servoGet_congr h]

@[simp] theorem ptpGet_wr (s : State) (F : Fld) (ix : List Nat) (v d p : Nat) : ptpGet (s.wr F ix v) d p = ptpGet s d p := rfl

@[simp] theorem ptpGet_ptpPut_same (s : State) (d p : Nat) (v : PtpPort) : ptpGet (ptpPut s d p v) d p = v := by
  unfold ptpGet ptpPut
  rw [servoGet_servoPut_same]
  split <;> rfl

/-- The other port of a domain. -/
theorem ptpGet_ptpPut_other (hp : p < 2) (s : State) (d : Nat) (v : PtpPort) : ptpGet (ptpPut s d p v) d (1 - p) = ptpGet s d (1 - p) := by
  unfold ptpGet ptpPut
  rw [servoGet_servoPut_same]
  obtain rfl | rfl : p = 0 ∨ p = 1 := by omega
  · rfl
  · rfl

/-- The ports apart, what the servo keeps of a domain stays. -/
theorem servoGet_ptpPut_est (s : State) (d p : Nat) (v : PtpPort) : (servoGet (ptpPut s d p v) d).est = (servoGet s d).est := by
  unfold ptpPut
  rw [servoGet_servoPut_same]
  split <;> rfl

theorem ptpPut_servoOnly (s : State) (d p : Nat) (v : PtpPort) : ptpPut s d p v = { s with servo := (ptpPut s d p v).servo } := rfl

/-! ## A raised bit of the TBU -/

theorem readN_raise_tbu {a : Nat} (hlo : 0x400014 < a) (hhi : a < 0x4500000) (bit : Nat) (s : State) :
    readN (raise0 .tbu bit s) a = readN s a := readN_raise (b := .tbu) hhi (.inr hlo) bit _ s

theorem rd_raise_tbu (hlo : 0x400014 < fldAddr F ix) (hhi : fldAddr F ix < 0x4500000) (bit : Nat) (s : State) :
    (raise0 .tbu bit s).rd F ix = s.rd F ix := by
  unfold State.rd
  rw [readN_raise_tbu hlo hhi]

theorem raise_tbu_frame (bit : Nat) (s : State) :
    raise0 .tbu bit s = { s with regs := (raise0 .tbu bit s).regs, pic := (raise0 .tbu bit s).pic } := raise_frame .tbu bit _ s

theorem raise_tbu_bit {bit : Nat} (h : bit < 32) (s : State) : bitN (readN (raise0 .tbu bit s) Blk.tbu.base) bit = true :=
  raise_status_bit .tbu _ s (by decide) h

end Sys2Proof.Machine
end

section

/-! PROOFS. The latched words of a domain's time (R168). -/

namespace Sys2Proof.Machine

variable {s t : State} {a d j : Nat}

/-! ## What a read of a TBU word latches -/

theorem regOn_tbu (hlo : 0x400000 ≤ a) (hhi : a < 0x500000) (s : State) : regOn s a = islOn s 6 := by
  unfold regOn addrIslands
  rw [if_neg (by omega), if_pos hhi]
  simp

theorem checkerOf_tbu (hlo : 0x400000 ≤ a) (hhi : a < 0x500000) : checkerOf a = some (.tbu, 0, false) := by
  have hr : inRegion a = true := by
    unfold inRegion
    simp only [Bool.or_eq_true, Bool.and_eq_true, decide_eq_true_eq]
    omega
  unfold checkerOf
  rw [hr]
  simp only [Bool.not_true, Bool.false_eq_true, if_false]
  rw [if_neg (by omega), if_neg (by omega), if_neg (by omega), if_pos hhi]

theorem readView_tbu (hhi : a < 0x500000) (s : State) : readView s a = viewWord s a := if_neg (by omega)

theorem injHit_latch (b : Blk) (sel : Nat) (s : State) : (injHit b sel s).2.latch = s.latch := by
  unfold injHit
  dsimp only
  split
  · rw [wrWord_latch]
  · rfl

/-- The parity checker of the TBU counts what it finds and does nothing else. -/
theorem touch_tbu_latch (hlo : 0x400000 ≤ a) (hhi : a < 0x500000) (m acc f : Nat) (s : State) : (touch a m acc f s).latch = s.latch := by
  have hi : (injParity .tbu 0 s).2.latch = s.latch := injHit_latch .tbu 0 s
  unfold touch
  rw [checkerOf_tbu hlo hhi]
  simp only [Bool.false_eq_true, if_false, Bool.false_and]
  split
  · exact hi
  · exact hi

theorem readClear_latch (a : Nat) (s : State) : (readClear a s).latch = s.latch := by
  unfold readClear
  extract_lets m
  split
  · rfl
  · split
    · exact wrWord_latch _ _ _
    · exact wrWord_latch _ _ _

/-- The words that a read of TIME_SEC_HI latches: TIME_SEC_LO, TIME_NS, TIME_FRAC and AF. -/
theorem latchGroup_time (hd : d < 8) :
    latchGroup (0x401010 + 0x400 * d) = ([1, 2, 3, 4].map fun j => 0x401010 + 0x400 * d + 4 * j, false) := by
  unfold latchGroup
  rw [if_neg (by omega), if_neg (by omega), if_neg (by omega), if_neg (by omega), if_pos (by omega)]
  rfl

theorem latchGroup_before (hd : d < 8) : latchGroup (0x401010 + 0x400 * d - 4) = ([], false) := by
  unfold latchGroup
  rw [if_neg (by omega), if_neg (by omega), if_neg (by omega), if_neg (by omega), if_neg (by omega)]

/-- What a read of TIME_SEC_HI leaves latched. -/
theorem readWord_time_latch (hd : d < 8) (hon : islOn s 6 = true) :
    (readWord (0x401010 + 0x400 * d) s).2.latch =
      ([1, 2, 3, 4].map fun j => 0x401010 + 0x400 * d + 4 * j).foldl
        (fun c x => cellSet (fun _ => 0) c x (readView s x + 1)) s.latch := by
  unfold readWord
  rw [regOn_tbu (by omega) (by omega), hon, latchGroup_time hd, latchGroup_before hd]
  simp only [Bool.not_true, Bool.false_eq_true, if_false, Bool.false_and]
  rw [touch_tbu_latch (by omega) (by omega), readClear_latch]

theorem readWord_time_latched (hd : d < 8) (h1 : 1 ≤ j) (h4 : j ≤ 4) (hon : islOn s 6 = true) :
    cellGet (fun _ => 0) (readWord (0x401010 + 0x400 * d) s).2.latch (0x401010 + 0x400 * d + 4 * j) =
      viewWord s (0x401010 + 0x400 * d + 4 * j) + 1 := by
  rw [readWord_time_latch hd hon, ← readView_tbu (by omega)]
  simp only [List.map_cons, List.map_nil, List.foldl_cons, List.foldl_nil, cellGet_set]
  obtain rfl | rfl | rfl | rfl : j = 1 ∨ j = 2 ∨ j = 3 ∨ j = 4 := by omega
  all_goals simp

/-- A read answers the latched word, or else the present one. -/
theorem readWord_tbu (hlo : 0x400000 ≤ a) (hhi : a < 0x500000) (hon : islOn s 6 = true) :
    (readWord a s).1 = if cellGet (fun _ => 0) s.latch a = 0 then viewWord s a else cellGet (fun _ => 0) s.latch a - 1 := by
  unfold readWord
  rw [regOn_tbu hlo hhi, hon, ← readView_tbu hhi]
  rfl

/-- Settles O9: what the read latches is what the later reads answer. -/
theorem domainTimeReads : Obligations.DomainTimeReads := by
  intro s t d j hd h1 h4 hs ht hlatch
  refine ⟨?_, fun h0 => ?_⟩
  · rw [readWord_tbu (by omega) (by omega) ht, hlatch, readWord_time_latched hd h1 h4 hs, if_neg (Nat.succ_ne_zero _)]
    rfl
  · rw [readWord_tbu (by omega) (by omega) hs, if_pos h0]

end Sys2Proof.Machine
end

section

/-! PROOFS. A domain changes state (R169, R170, R172): what the new state shows and what it leaves. -/

namespace Sys2Proof.Machine

variable {s t u : State} {d st : Nat} {F : Fld}

theorem foldl_fixed {α β : Type} {f : β → α → β} {l : List α} {b : β} (h : ∀ x ∈ l, f b x = b) : l.foldl f b = b := by
  induction l with
  | nil => rfl
  | cons x l ih =>
    rw [List.foldl_cons, h x List.mem_cons_self]
    exact ih fun y hy => h y (List.mem_cons_of_mem _ hy)

/-! ## Messages and gates -/

theorem commit_sends {n : Bool} {s₀ : State} (kind aseq session type seq : Nat) (payload : List Nat) (h : Sends n true s₀ s) :
    Sends n true s₀ (commit kind aseq session type seq payload s) := commitEntries_sends _ h

theorem gatesFall_sends {n j : Bool} {s₀ : State} (d : Nat) (h : Sends n j s₀ s) : Sends n j s₀ (gatesFall d s) :=
  .foldl (fun _ _ _ => .ite (raise_sends trafficBlk_egs _ _ Sends.refl.update) .refl) h

theorem ppsSquelch_frame (s : State) : ppsSquelch s = { s with ppsOut := (ppsSquelch s).ppsOut } := by
  unfold ppsSquelch
  split <;> rfl

/-! ## The new state is shown -/

/-- What the servo keeps of a domain that takes state `st`. -/
def domServo (d st : Nat) (s : State) : Servo :=
  { servoGet s d with
    good := 0, bad := 0, hoFrom := if st = 3 then s.time else (servoGet s d).hoFrom,
    holdT := if s.rd R.TBU_DOM_STATE_STATE [d] = 0 then s.rd R.TBU_DOM_HOLD_HOLDOVER_T [d] else (servoGet s d).holdT }

/-- The word STATE of a domain that takes state `st`. -/
def stateShown (d st : Nat) (s : State) : State := (s.wr R.TBU_DOM_STATE_STATE [d] st).wr R.TBU_DOM_STATE_HO_MS [d] 0

/-- Domain `d` has taken state `st`: its word STATE and what the servo keeps of it follow, its STATUS bit is set, PPS_OUT may fall, and
beside that there is traffic. -/
structure DomShown (d st : Nat) (s t : State) : Prop where
  frame : t = { s with regs := t.regs, egs := t.egs, netA := t.netA, netB := t.netB, jnl := t.jnl, sess := t.sess, notes := t.notes,
                       evs := t.evs, pic := t.pic, ppsOut := t.ppsOut, servo := t.servo }
  word : ∀ a, ¬ trafficWord a → a < 0x400000 ∨ 0x400014 < a → a ≠ 0x401008 + 0x400 * d → readN t a = readN s a
  shown : readN t (0x401008 + 0x400 * d) = readN (stateShown d st s) (0x401008 + 0x400 * d)
  servo : t.servo = (servoPut s d (domServo d st s)).servo
  pending : t.evs.length = s.evs.length
  unlock : st = 1 → bitN (readN t Blk.tbu.base) 0 = true
  holdover : st = 3 → bitN (readN t Blk.tbu.base) 1 = true

theorem not_trafficWord_tbu {a : Nat} (hlo : 0x400000 ≤ a) (hhi : a < 0x500000) : ¬ trafficWord a := by
  unfold trafficWord
  omega

/-- The STATUS bit of a change of state. -/
def stateRaised (st : Nat) (s : State) : State := if st = 1 then raise0 .tbu 0 s else if st = 3 then raise0 .tbu 1 s else s

theorem stateRaised_frame (st : Nat) (s : State) :
    stateRaised st s = { s with regs := (stateRaised st s).regs, pic := (stateRaised st s).pic } := by
  unfold stateRaised
  split
  · exact raise_tbu_frame 0 s
  · split
    · exact raise_tbu_frame 1 s
    · rfl

theorem readN_stateRaised {a : Nat} (ha : a < 0x4500000) (hb : a < 0x400000 ∨ 0x400014 < a) (st : Nat) (s : State) :
    readN (stateRaised st s) a = readN s a := by
  have hr (bit : Nat) : readN (raise0 .tbu bit s) a = readN s a := readN_raise (b := .tbu) ha hb bit _ s
  unfold stateRaised
  split
  · exact hr 0
  · split
    · exact hr 1
    · rfl

theorem readN_stateShown {a : Nat} (ha : a ≠ 0x401008 + 0x400 * d) (st : Nat) (s : State) : readN (stateShown d st s) a = readN s a := by
  have h {F : Fld} (hb : F.base = 0x401008) (hd : F.dims = [(0x400, 8)]) : a ≠ fldAddr F [d] := by rwa [fldAddr_dom hd, hb]
  unfold stateShown
  rw [readN_wr_other _ _ _ _ _ (h rfl rfl), readN_wr_other _ _ _ _ _ (h rfl rfl)]

theorem stateShown_frame (d st : Nat) (s : State) : stateShown d st s = { s with regs := (stateShown d st s).regs } :=
  (onlyWords_wr (l := [fldAddr R.TBU_DOM_STATE_STATE [d], fldAddr R.TBU_DOM_STATE_HO_MS [d]]) _ _ _
    (onlyWords_wr _ _ _ (onlyWords_refl s _) (by simp)) (by simp)).1

theorem servoPut_frame {x : State} (hx : x = { s with regs := x.regs }) (d : Nat) (v : Servo) :
    servoPut x d v = { s with regs := x.regs, servo := (servoPut s d v).servo } := by
  rw [hx]
  rfl

theorem ppsSquelch_beside {x : State} {r : Cells Word} {v : Cells Servo} (h : x = { s with regs := r, servo := v }) :
    ppsSquelch x = { s with regs := r, servo := v, ppsOut := (ppsSquelch x).ppsOut } := by
  subst h
  exact ppsSquelch_frame _

/-- The state that a change of state shows, before its STATUS bit, its entry and its notification. -/
def stateTaken (d st : Nat) (s : State) : State := ppsSquelch (servoPut (stateShown d st s) d (domServo d st s))

theorem stateTaken_frame (d st : Nat) (s : State) : stateTaken d st s =
    { s with regs := (stateShown d st s).regs, servo := (servoPut s d (domServo d st s)).servo, ppsOut := (stateTaken d st s).ppsOut } :=
  ppsSquelch_beside (servoPut_frame (stateShown_frame d st s) d _)

theorem servoPut_wr (s : State) (d : Nat) (v : Servo) (F : Fld) (ix : List Nat) (x : Nat) :
    (servoPut s d v).wr F ix x = servoPut (s.wr F ix x) d v := rfl

theorem domShow_eq (d st : Nat) (s : State) : domShow d st s = notifyAll 0x02 [d, st] (commit 0x0A 0 0 0 0 [d, st]
    (stateRaised st (if st ≤ 1 then gatesFall d (stateTaken d st s) else stateTaken d st s))) := by
  unfold domShow
  extract_lets v s1 s2 s3 s4
  have h2 : s2 = stateTaken d st s := congrArg ppsSquelch (servoPut_wr _ _ _ _ _ _)
  rw [← h2]
  rfl

/-- What a change of state leaves: its own words, the servo and the pin taken together with traffic and a STATUS bit. -/
theorem DomShown.of_parts {s2 s3 s4 : State} {r : Cells Word} {v : Cells Servo} {o : Bool}
    (h2 : s2 = { s with regs := r, servo := v, ppsOut := o }) (h3 : Sends true true s2 s3)
    (h4 : s4 = { s3 with regs := s4.regs, pic := s4.pic }) (h5 : Sends true true s4 t) :
    t = { s with regs := t.regs, egs := t.egs, netA := t.netA, netB := t.netB, jnl := t.jnl, sess := t.sess, notes := t.notes,
                 evs := t.evs, pic := t.pic, ppsOut := t.ppsOut, servo := t.servo } ∧ t.servo = v ∧ t.evs.length = s.evs.length := by
  obtain ⟨-, h5, -, -, p5⟩ := h5
  obtain ⟨-, h3, -, -, p3⟩ := h3
  refine ⟨by rw [h5, h4, h3, h2], by rw [h5, h4, h3, h2], ?_⟩
  rw [p5, h4]
  dsimp only
  rw [p3, h2]

theorem domShow_shown (hd : d < 8) (st : Nat) (s : State) : DomShown d st s (domShow d st s) := by
  rw [domShow_eq]
  have h2 := stateTaken_frame d st s
  generalize stateTaken d st s = s2 at h2 ⊢
  have h3 : Sends true true s2 (if st ≤ 1 then gatesFall d s2 else s2) := .ite (gatesFall_sends d .refl) .refl
  generalize (if st ≤ 1 then gatesFall d s2 else s2) = s3 at h3 ⊢
  have h4 := stateRaised_frame st s3
  have h5 : Sends true true (stateRaised st s3) (notifyAll 0x02 [d, st] (commit 0x0A 0 0 0 0 [d, st] (stateRaised st s3))) :=
    notifyAll_sends _ _ (commit_sends _ _ _ _ _ _ .refl)
  generalize notifyAll 0x02 [d, st] (commit 0x0A 0 0 0 0 [d, st] (stateRaised st s3)) = t at h5 ⊢
  obtain ⟨hframe, hservo, hpending⟩ := DomShown.of_parts h2 h3 h4 h5
  have hword (a : Nat) (ha : ¬ trafficWord a) (hb : a < 0x400000 ∨ 0x400014 < a) : readN t a = readN (stateShown d st s) a := by
    have hlt : a < 0x4500000 := by unfold trafficWord at ha; omega
    rw [h5.word a ha, readN_stateRaised hlt hb, h3.word a ha]
    exact readN_congr (by rw [h2]) a
  have hbit {bit : Nat} (h : bitN (readN (stateRaised st s3) Blk.tbu.base) bit = true) : bitN (readN t Blk.tbu.base) bit = true := by
    rwa [h5.word _ (not_trafficWord_tbu (by decide) (by decide))]
  constructor
  case frame => exact hframe
  case word => exact fun a ha hb hne => (hword a ha hb).trans (readN_stateShown hne st s)
  case shown => exact hword _ (not_trafficWord_tbu (by omega) (by omega)) (by omega)
  case servo => exact hservo
  case pending => exact hpending
  case unlock =>
    intro h
    exact hbit (by rw [stateRaised, if_pos h]; exact raise_tbu_bit (by decide) s3)
  case holdover =>
    intro h
    exact hbit (by rw [stateRaised, if_neg (by omega), if_pos h]; exact raise_tbu_bit (by decide) s3)

/-! What a change of state shows. -/

theorem DomShown.state (h : DomShown d st s t) (hst : st < 4) : t.rd R.TBU_DOM_STATE_STATE [d] = st := by
  have hr : t.rd R.TBU_DOM_STATE_STATE [d] = (stateShown d st s).rd R.TBU_DOM_STATE_STATE [d] := by
    unfold State.rd
    rw [fldAddr_dom rfl]
    exact congrArg (bitsN · _ _) h.shown
  rw [hr, stateShown, rd_wr_dom (by decide), rd_wr_same _ _ _ _ (by decide)]
  exact Nat.mod_eq_of_lt hst

/-- TTPORT, TTVALID and TTCLASS stay. -/
theorem DomShown.rd_beside (h : DomShown d st s t) (hb : F.base = 0x401008) (hS : domApart R.TBU_DOM_STATE_STATE F)
    (hH : domApart R.TBU_DOM_STATE_HO_MS F) : t.rd F [d] = s.rd F [d] := by
  have hr : t.rd F [d] = (stateShown d st s).rd F [d] := by
    unfold State.rd
    rw [fldAddr_dom hS.2.1, hb]
    exact congrArg (bitsN · _ _) h.shown
  rw [hr, stateShown, rd_wr_dom hH, rd_wr_dom hS]

/-- Every other word of the domain stays. -/
theorem DomShown.rd_dom (h : DomShown d st s t) (hd : d < 8) (hF : F.dims = [(0x400, 8)])
    (hb : 0x401000 ≤ F.base ∧ F.base < 0x401400 ∧ F.base ≠ 0x401008) : t.rd F [d] = s.rd F [d] := by
  have ha := fldAddr_dom hF d
  unfold State.rd
  rw [h.word _ (not_trafficWord_tbu (by omega) (by omega)) (by omega) (by omega)]

theorem DomShown.cnt (h : DomShown d st s t) : t.cnt = s.cnt := by rw [h.frame]
theorem DomShown.phase (h : DomShown d st s t) : t.phase = s.phase := by rw [h.frame]

theorem DomShown.servoGet (h : DomShown d st s t) : servoGet t d = domServo d st s := by
  rw [servoGet_congr h.servo, servoGet_servoPut_same]

theorem DomShown.ptpGet (h : DomShown d st s t) (p : Nat) : ptpGet t d p = ptpGet s d p := by
  unfold Machine.ptpGet
  rw [h.servoGet]
  rfl

theorem DomShown.hoFrom (h : DomShown d 3 s t) : (Machine.servoGet t d).hoFrom = s.time := by rw [h.servoGet]; rfl

theorem DomShown.noEvs (h : DomShown d st s t) (h0 : s.evs = []) : t.evs = [] := List.length_eq_zero_iff.1 (by rw [h.pending, h0]; rfl)

/-! ## From one state to another -/

/-- Between LOCKED and HOLDOVER nothing more happens. -/
theorem domSet_usable (h2 : 2 ≤ s.rd R.TBU_DOM_STATE_STATE [d]) (hne : s.rd R.TBU_DOM_STATE_STATE [d] ≠ st) (hst : 2 ≤ st) :
    domSet d st s = domShow d st s := by
  unfold domSet
  dsimp only
  rw [if_neg hne, if_neg (by omega), if_neg (by omega)]

theorem stopSched_idle {k : Nat} (h : s.flag R.PLAN_SCTL_RUN [k] = false) (fault : Bool) : stopSched k fault s = s :=
  if_neg (by rw [h]; exact Bool.false_ne_true)

/-- With no event pending and no schedule running the loss of a domain ends nothing. -/
theorem domLost_idle (h0 : s.evs = []) (hrun : ∀ k < 8, s.flag R.PLAN_SCTL_RUN [k] = false) (d : Nat) : domLost d s = s := by
  unfold domLost
  dsimp only
  rw [failWhere_nil h0]
  refine foldl_fixed fun k hk => ?_
  rw [mem_span] at hk
  rw [stopSched_idle (hrun k (by omega)), ite_self]

theorem domSet_unlocks (hd : d < 8) (hs : s.rd R.TBU_DOM_STATE_STATE [d] ≠ 1) (h0 : s.evs = [])
    (hrun : ∀ k < 8, s.flag R.PLAN_SCTL_RUN [k] = false) : domSet d 1 s = domShow d 1 s := by
  have h := domShow_shown hd 1 s
  unfold domSet
  dsimp only
  rw [if_neg hs, if_pos (le_refl 1)]
  refine domLost_idle (h.noEvs h0) (fun k hk => ?_) d
  have ha : fldAddr R.PLAN_SCTL_RUN [k] = 0x4404000 + 4 * k := rfl
  unfold State.flag State.rd
  rw [h.word _ (not_trafficWord_of_lt (by omega)) (by omega) (by omega)]
  exact hrun k hk

/-! ## Generators -/

/-- What a restart leaves: where the generators that satisfy `p` begin to learn, and nothing else. -/
theorem rcRestart_eq (p : Nat → Bool) (s : State) : rcRestart p s = { s with
    rcFrom := (span 0 8).foldl (fun c g => if p g then cellSet (fun _ => 0) c g (domNs s (genDomain s g)) else c) s.rcFrom } := by
  have h (l : List Nat) (t : State) : l.foldl (fun t g =>
      if p g then { t with rcFrom := cellSet (fun _ => 0) t.rcFrom g (domNs t (genDomain t g)) } else t) t = { t with
        rcFrom := l.foldl (fun c g => if p g then cellSet (fun _ => 0) c g (domNs t (genDomain t g)) else c) t.rcFrom } := by
    induction l generalizing t with
    | nil => rfl
    | cons g l ih =>
      rw [List.foldl_cons, List.foldl_cons, ih]
      split <;> rfl
  exact h _ s

theorem cellGet_foldl_set {α : Type} [DecidableEq α] (dflt : Nat → α) (p : Nat → Bool) (f : Nat → α) (l : List Nat) (c : Cells α) (x : Nat) :
    cellGet dflt (l.foldl (fun c g => if p g then cellSet dflt c g (f g) else c) c) x =
      if x ∈ l ∧ p x = true then f x else cellGet dflt c x := by
  induction l generalizing c with
  | nil => simp
  | cons g l ih =>
    rw [List.foldl_cons, ih]
    by_cases hx : x = g
    · subst hx
      by_cases hp : p x = true <;> simp [hp]
    · by_cases hp : p g = true <;> simp [hp, hx, cellGet_set_other]

theorem rcRestart_rcFrom (p : Nat → Bool) (s : State) {g : Nat} (hg : g < 8) :
    cellGet (fun _ => 0) (rcRestart p s).rcFrom g = if p g = true then domNs s (genDomain s g) else cellGet (fun _ => 0) s.rcFrom g := by
  have hm : g ∈ span 0 8 := mem_span.2 (by omega)
  rw [rcRestart_eq]
  dsimp only
  rw [cellGet_foldl_set]
  simp only [hm, true_and]

end Sys2Proof.Machine
end

section

/-! PROOFS. HOLDOVER and the epoch of a domain (R169, R170, R180). -/

namespace Sys2Proof.Machine

variable {s t : State} {d c : Nat}

/-! ## The entry to HOLDOVER -/

theorem classHold_enters (hst : s.rd R.TBU_DOM_STATE_STATE [d] = 2)
    (hc : s.rd R.TBU_DOM_CFG_CLASS_MAX [d] < s.rd R.TBU_DOM_STATE_TTCLASS [d]) : classHold d s = domSet d 3 s := if_pos ⟨hst, hc⟩

/-- Each cause but the lost Announce enters HOLDOVER at once. -/
theorem holdoverEntry_runs (hd : d < 8) (hon : islOn s 6 = true) (hst : s.rd R.TBU_DOM_STATE_STATE [d] = 2)
    (hc : c = 0 ∨ c = 4 ∨ (c = 2 ∧ s.rd R.TBU_DOM_CFG_CLASS_MAX [d] < s.rd R.TBU_DOM_STATE_TTCLASS [d]) ∨
      (c = 3 ∧ s.rd R.TBU_DOM_PPSCFG_PPSMODE [d] = 2)) :
    exec (.domainHoldoverEntry d c) s = .next (domShow d 3 s) := by
  have hset : domSet d 3 s = domShow d 3 s := domSet_usable (by omega) (by omega) (by omega)
  show execDomainHoldoverEntry d c s = _
  unfold execDomainHoldoverEntry
  rw [← hset, if_neg (by simp [hon, hst]; omega), if_neg (by omega)]
  by_cases h2 : c = 2
  · rw [if_pos h2, classHold_enters hst (by omega)]
  · rw [if_neg h2, if_pos ⟨hst, by omega⟩]

theorem domainHoldoverEntry_enters (s : State) (d c : Nat) (hd : d < 8) (hon : islOn s 6 = true) (hst : s.rd R.TBU_DOM_STATE_STATE [d] = 2)
    (hc : c = 0 ∨ c = 4 ∨ (c = 2 ∧ s.rd R.TBU_DOM_CFG_CLASS_MAX [d] < s.rd R.TBU_DOM_STATE_TTCLASS [d]) ∨
      (c = 3 ∧ s.rd R.TBU_DOM_PPSCFG_PPSMODE [d] = 2)) :
    runs (.domainHoldoverEntry d c) s fun t =>
      t.rd R.TBU_DOM_STATE_STATE [d] = 3 ∧ (servoGet t d).hoFrom = s.time ∧ bitN (readN t Blk.tbu.base) 1 = true ∧
      t.rd R.TBU_DOM_FADJ [d] = s.rd R.TBU_DOM_FADJ [d] ∧ t.cnt = s.cnt ∧ t.phase = s.phase := by
  have h := domShow_shown hd 3 s
  exact ⟨_, holdoverEntry_runs hd hon hst hc, h.state (by decide), h.hoFrom, h.holdover rfl, h.rd_dom hd rfl (by decide), h.cnt, h.phase⟩

/-! ## The lost Announce -/

/-- No transmitter is qualified. -/
theorem selectTransmitter_none (ha : (ptpGet s d 0).ann.seen = false) (hb : (ptpGet s d 1).ann.seen = false) :
    selectTransmitter d s = (s.wr R.TBU_DOM_STATE_TTVALID [d] 0).wr R.TBU_DOM_STATE_TTCLASS [d] 255 := by
  unfold selectTransmitter
  dsimp only
  rw [ha, hb]
  exact if_pos rfl

/-- Port A falls silent, and no other transmitter is qualified. -/
def annGone (d : Nat) (s : State) : State :=
  ((ptpPut s d 0 { ptpGet s d 0 with ann := Annc.silent }).wr R.TBU_DOM_STATE_TTVALID [d] 0).wr R.TBU_DOM_STATE_TTCLASS [d] 255

theorem annLost_only (hb : (ptpGet s d 1).ann.seen = false) : annLost d 0 s = annGone d s :=
  selectTransmitter_none (by rw [ptpGet_ptpPut_same]; rfl) ((congrArg (·.ann.seen) (ptpGet_ptpPut_other (p := 0) (by decide) s d _)).trans hb)

theorem annGone_rd {F : Fld} (hV : domApart R.TBU_DOM_STATE_TTVALID F) (hC : domApart R.TBU_DOM_STATE_TTCLASS F) (s : State) (d : Nat) :
    (annGone d s).rd F [d] = s.rd F [d] := by
  unfold annGone
  rw [rd_wr_dom hC, rd_wr_dom hV]
  rfl

theorem annGone_invalid (d : Nat) (s : State) : (annGone d s).rd R.TBU_DOM_STATE_TTVALID [d] = 0 := by
  unfold annGone
  rw [rd_wr_dom (by decide), rd_wr_same _ _ _ _ (by decide)]
  rfl

theorem annGone_silent (d : Nat) (s : State) : (ptpGet (annGone d s) d 0).ann = Annc.silent := by
  rw [annGone, ptpGet_wr, ptpGet_wr, ptpGet_ptpPut_same]

theorem annGone_cnt (d : Nat) (s : State) : (annGone d s).cnt = s.cnt := by rw [annGone, wr_cnt, wr_cnt, ptpPut_servoOnly]
theorem annGone_phase (d : Nat) (s : State) : (annGone d s).phase = s.phase := by rw [annGone, wr_phase, wr_phase, ptpPut_servoOnly]

theorem holdoverEntry_announce (hd : d < 8) (hon : islOn s 6 = true) (hst : s.rd R.TBU_DOM_STATE_STATE [d] = 2)
    (hp : s.rd R.TBU_DOM_STATE_TTPORT [d] = 0) (hb : (ptpGet s d 1).ann.seen = false) :
    exec (.domainHoldoverEntry d 1) s = .next (domShow d 3 (annGone d s)) := by
  have hst1 : (annGone d s).rd R.TBU_DOM_STATE_STATE [d] = 2 := (annGone_rd (by decide) (by decide) s d).trans hst
  show execDomainHoldoverEntry d 1 s = _
  unfold execDomainHoldoverEntry
  rw [if_neg (by simp [hon, hst]; omega), if_pos rfl, hp, annLost_only hb]
  dsimp only
  rw [if_neg (by unfold State.flag; rw [annGone_invalid]; decide), if_pos hst1, domSet_usable (by omega) (by omega) (by omega)]

theorem domainHoldoverEntry_announce (s : State) (d : Nat) (hd : d < 8) (hon : islOn s 6 = true) (hst : s.rd R.TBU_DOM_STATE_STATE [d] = 2)
    (hp : s.rd R.TBU_DOM_STATE_TTPORT [d] = 0) (hb : (ptpGet s d 1).ann.seen = false) :
    runs (.domainHoldoverEntry d 1) s fun t =>
      t.rd R.TBU_DOM_STATE_STATE [d] = 3 ∧ t.flag R.TBU_DOM_STATE_TTVALID [d] = false ∧ (ptpGet t d 0).ann = Annc.silent ∧
      t.rd R.TBU_DOM_FADJ [d] = s.rd R.TBU_DOM_FADJ [d] ∧ t.cnt = s.cnt ∧ t.phase = s.phase := by
  have h := domShow_shown hd 3 (annGone d s)
  refine ⟨_, holdoverEntry_announce hd hon hst hp hb, h.state (by decide), ?_, ?_, ?_, h.cnt.trans (annGone_cnt d s), h.phase.trans (annGone_phase d s)⟩
  · unfold State.flag
    rw [h.rd_beside rfl (by decide) (by decide), annGone_invalid]
    rfl
  · rw [h.ptpGet, annGone_silent]
  · rw [h.rd_dom hd rfl (by decide), annGone_rd (by decide) (by decide)]

/-! ## The expiry of HOLDOVER -/

theorem holdoverExpiry_unlocks (s : State) (d : Nat) (hd : d < 8) (hst : s.rd R.TBU_DOM_STATE_STATE [d] = 3)
    (ht : (servoGet s d).holdT * 1000000 ≤ s.time - (servoGet s d).hoFrom) (h0 : s.evs = [])
    (hrun : (span 0 8).all (fun k => !s.flag R.PLAN_SCTL_RUN [k]) = true) :
    runs (.holdoverExpiry d) s fun t =>
      t.rd R.TBU_DOM_STATE_STATE [d] = 1 ∧ bitN (readN t Blk.tbu.base) 0 = true ∧
      t.rd R.TBU_DOM_FADJ [d] = s.rd R.TBU_DOM_FADJ [d] ∧ t.cnt = s.cnt ∧ t.phase = s.phase ∧ t.evs = [] := by
  have hidle : ∀ k < 8, s.flag R.PLAN_SCTL_RUN [k] = false := fun k hk => by
    simpa using List.all_eq_true.1 hrun k (mem_span.2 (by omega))
  have hx : exec (.holdoverExpiry d) s = .next (domSet d 1 s) := congrArg _ (if_pos ⟨hd, hst, ht⟩)
  rw [domSet_unlocks hd (by omega) h0 hidle] at hx
  have h := domShow_shown hd 1 s
  exact ⟨_, hx, h.state (by decide), h.unlock rfl, h.rd_dom hd rfl (by decide), h.cnt, h.phase, h.noEvs h0⟩

/-! ## The epoch -/

theorem usableNow_nil (h0 : s.evs = []) (d : Nat) : usableNow d s = s := by
  have hlate : lateWhere (fun e => e.dom == d) s = s := by simp [lateWhere, h0]
  have hplace : placeReady s = s := placeReady_idle (by simp [h0])
  unfold usableNow
  rw [hlate, hplace, ite_self]

theorem epochReached_restarts (s : State) (d : Nat) (hd : d < 8) (hr : domReady s d = true) (h0 : s.evs = []) :
    runs (.epochReached d) s fun t =>
      t = { s with rcFrom := t.rcFrom } ∧
      ((span 0 8).all fun g => cellGet (fun _ => 0) t.rcFrom g ==
        if s.rd R.CE_RCGEN_DOMAIN [g] = d then domNs s (genDomain s g) else cellGet (fun _ => 0) s.rcFrom g) = true := by
  have hx : exec (.epochReached d) s = .next (usableNow d (rcRestart (fun g => s.rd R.CE_RCGEN_DOMAIN [g] == d) s)) :=
    congrArg _ (if_pos ⟨hd, hr⟩)
  have hf := rcRestart_eq (fun g => s.rd R.CE_RCGEN_DOMAIN [g] == d) s
  rw [usableNow_nil (by rw [hf]; exact h0)] at hx
  refine ⟨_, hx, by rw [hf], List.all_eq_true.2 fun g hg => beq_iff_eq.2 ?_⟩
  rw [mem_span] at hg
  rw [rcRestart_rcFrom _ _ (by omega)]
  simp only [beq_iff_eq]

/-- Settles O28, by the entries to HOLDOVER, its expiry, and the epoch. -/
theorem domainHoldover : Obligations.DomainHoldover :=
  ⟨domainHoldoverEntry_enters, domainHoldoverEntry_announce, holdoverExpiry_unlocks, epochReached_restarts⟩

end Sys2Proof.Machine
end

section

/-! PROOFS. Rate, residual phase and step of a domain (R167, R171). -/

namespace Sys2Proof.Machine

variable {s t : State} {d sec ns : Nat}

/-! ## The rate offset -/

theorem clampI_eq (lo hi x : Int) : clampI lo hi x = max lo (min hi x) := rfl

theorem domainFadjWrite_stores (s : State) (d : Nat) (v : Int) (hd : d < 8) (hon : islOn s 6 = true) (hst : s.rd R.TBU_DOM_STATE_STATE [d] ≠ 3) :
    runs (.domainFadjWrite d v) s fun t =>
      t.rdS R.TBU_DOM_FADJ [d] = max (-2146246697) (min 2146246697 v) ∧ onlyWords s t [fldAddr R.TBU_DOM_FADJ [d]] := by
  have hx : exec (.domainFadjWrite d v) s = .next (s.wrS R.TBU_DOM_FADJ [d] (clampI (-fadjMax) fadjMax v)) :=
    congrArg _ (if_neg (by simp [hon, hst]; omega))
  refine ⟨_, hx, ?_, onlyWords_wr _ _ _ (onlyWords_refl s _) List.mem_cons_self⟩
  rw [clampI_eq, show fadjMax = 2146246697 from rfl]
  exact rdS_wrS_same rfl rfl (by omega) (by omega) _ _

/-! ## The residual phase -/

theorem phaseGet_phasePut (d : Nat) (p : Int) (s : State) (x : Nat) :
    phaseGet (phasePut d p s) x = if x = d then p else phaseGet s x := cellGet_set _ _ _ _ _

theorem phasePut_others (d : Nat) (p : Int) (s : State) :
    ((span 0 8).all fun x => x == d || phaseGet (phasePut d p s) x == phaseGet s x) = true := by
  refine List.all_eq_true.2 fun x _ => ?_
  rw [phaseGet_phasePut]
  by_cases h : x = d <;> simp [h]

theorem phasePut_frame (d : Nat) (p : Int) (s : State) :
    phasePut d p s = { s with regs := (phasePut d p s).regs, phase := (phasePut d p s).phase } := by
  unfold phasePut
  rw [wrS_eq, wr_regsOnly]

theorem phasePut_words (d : Nat) (p : Int) (s : State) : wordsKept s (phasePut d p s) [fldAddr R.TBU_DOM_PHADJ [d]] := fun a ha => by
  unfold phasePut
  rw [wrS_eq, readN_wr_other _ _ _ _ _ (by simpa using ha)]
  exact readN_congr rfl a

theorem phasePut_phadj (d : Nat) {v : Int} (hl : -(2 ^ 31) ≤ v) (hu : v < 2 ^ 31) (s : State) :
    (phasePut d (v * 2 ^ 28) s).rdS R.TBU_DOM_PHADJ [d] = v := by
  have hv : sra (v * 2 ^ 28) 28 = v := Int.mul_ediv_cancel v (by decide)
  unfold phasePut
  rw [hv]
  exact rdS_wrS_same rfl rfl hl hu _ _

theorem satS_word {v : Int} (hl : -(2 ^ 31) ≤ v) (hu : v < 2 ^ 31) : satS 32 v = v := by
  unfold satS
  omega

theorem domainPhadjWrite_loads (s : State) (d : Nat) (v : Int) (hd : d < 8) (hon : islOn s 6 = true) (hst : s.rd R.TBU_DOM_STATE_STATE [d] ≠ 3)
    (hl : -(2 ^ 31) ≤ v) (hu : v < 2 ^ 31) :
    runs (.domainPhadjWrite d v) s fun t =>
      t.rdS R.TBU_DOM_PHADJ [d] = v ∧ phaseGet t d = v * 2 ^ 28 ∧
      ((span 0 8).all fun x => x == d || phaseGet t x == phaseGet s x) = true ∧
      t = { s with regs := t.regs, phase := t.phase } ∧ wordsKept s t [fldAddr R.TBU_DOM_PHADJ [d]] := by
  have hx : exec (.domainPhadjWrite d v) s = .next (phasePut d (satS 32 v * 2 ^ 28) s) := congrArg _ (if_neg (by simp [hon, hst]; omega))
  rw [satS_word hl hu] at hx
  exact ⟨_, hx, phasePut_phadj d hl hu s, (phaseGet_phasePut d _ s d).trans (if_pos rfl), phasePut_others d _ s, phasePut_frame d _ s,
    phasePut_words d _ s⟩

/-! ## The time of a step -/

/-- The servo has written the time of a step. -/
def stepWritten (d sec ns : Nat) (s : State) : State :=
  ((s.wr R.TBU_DOM_STEP_SEC_HI [d] (sec / 2 ^ 32)).wr R.TBU_DOM_STEP_SEC_LO [d] sec).wr R.TBU_DOM_STEP_NS [d] ns

theorem stepWritten_onlyWords (d sec ns : Nat) (s : State) : onlyWords s (stepWritten d sec ns s)
    [fldAddr R.TBU_DOM_STEP_GO [d], fldAddr R.TBU_DOM_STEP_SEC_HI [d], fldAddr R.TBU_DOM_STEP_SEC_LO [d], fldAddr R.TBU_DOM_STEP_NS [d]] :=
  onlyWords_wr _ _ _ (onlyWords_wr _ _ _ (onlyWords_wr _ _ _ (onlyWords_refl s _) (by simp)) (by simp)) (by simp)

theorem stepWritten_rd {F : Fld} (hhi : domApart R.TBU_DOM_STEP_SEC_HI F) (hlo : domApart R.TBU_DOM_STEP_SEC_LO F)
    (hns : domApart R.TBU_DOM_STEP_NS F) (d sec ns : Nat) (s : State) : (stepWritten d sec ns s).rd F [d] = s.rd F [d] := by
  unfold stepWritten
  rw [rd_wr_dom hns, rd_wr_dom hlo, rd_wr_dom hhi]

theorem stepWritten_islOn (d sec ns : Nat) (s : State) : islOn (stepWritten d sec ns s) 6 = islOn s 6 := by
  refine islOn_congr ((stepWritten_onlyWords d sec ns s).2 _ ?_)
  have hgo : fldAddr R.TBU_DOM_STEP_GO [d] = 0x401030 + 0x400 * d := fldAddr_dom rfl d
  have hhi : fldAddr R.TBU_DOM_STEP_SEC_HI [d] = 0x401030 + 0x400 * d := fldAddr_dom rfl d
  have hlo : fldAddr R.TBU_DOM_STEP_SEC_LO [d] = 0x401034 + 0x400 * d := fldAddr_dom rfl d
  have hns : fldAddr R.TBU_DOM_STEP_NS [d] = 0x401038 + 0x400 * d := fldAddr_dom rfl d
  rw [hgo, hhi, hlo, hns]
  simp only [List.mem_cons, List.not_mem_nil, or_false]
  omega

/-- Unless it is removed through the residual phase, the time of a step is written and STEP_GO with it. -/
theorem domainStepGo_writes (hd : d < 8) (hon : islOn s 6 = true) (h : s.rd R.TBU_DOM_STATE_STATE [d] ≠ 1 ∨ wantsStep s d = true) :
    exec (.domainStepGo d sec ns) s = .next (stepGo d (stepWritten d sec ns s)) := by
  show execDomainStepGo d sec ns s = _
  unfold execDomainStepGo
  rw [if_neg (by simp [hon]; omega), if_neg]
  · rfl
  · rintro ⟨h1, h2⟩
    exact h.elim (absurd h1) fun hw => by simp [hw] at h2

theorem stepGo_requests (hd : d < 8) (hon : islOn s 6 = true) (hst : s.rd R.TBU_DOM_STATE_STATE [d] = 1) :
    stepGo d s = s.wr R.TBU_DOM_STEP_GO [d] 1 := by
  unfold stepGo
  rw [if_neg (by simp [hon]; omega), if_pos hst]

theorem stepGo_refused (hd : d < 8) (hon : islOn s 6 = true) (hst : s.rd R.TBU_DOM_STATE_STATE [d] ≠ 1) :
    stepGo d s = raise0 .tbu 5 s := by
  unfold stepGo
  rw [if_neg (by simp [hon]; omega), if_neg hst]

theorem domainStepGo_requests (s : State) (d sec ns : Nat) (hd : d < 8) (hon : islOn s 6 = true) (hst : s.rd R.TBU_DOM_STATE_STATE [d] = 1)
    (hw : wantsStep s d = true) :
    runs (.domainStepGo d sec ns) s fun t =>
      t.flag R.TBU_DOM_STEP_GO [d] = true ∧ t.rd R.TBU_DOM_STEP_SEC_HI [d] = sec / 2 ^ 32 % 2 ^ 16 ∧
      t.rd R.TBU_DOM_STEP_SEC_LO [d] = sec % 2 ^ 32 ∧ t.rd R.TBU_DOM_STEP_NS [d] = ns % 2 ^ 30 ∧
      onlyWords s t [fldAddr R.TBU_DOM_STEP_GO [d], fldAddr R.TBU_DOM_STEP_SEC_HI [d], fldAddr R.TBU_DOM_STEP_SEC_LO [d],
        fldAddr R.TBU_DOM_STEP_NS [d]] := by
  have hx := domainStepGo_writes (sec := sec) (ns := ns) hd hon (.inr hw)
  rw [stepGo_requests hd ((stepWritten_islOn d sec ns s).trans hon)
    ((stepWritten_rd (by decide) (by decide) (by decide) d sec ns s).trans hst)] at hx
  refine ⟨_, hx, flag_wr_same rfl (by decide) _ _ true, ?_, ?_, ?_, onlyWords_wr _ _ _ (stepWritten_onlyWords d sec ns s) List.mem_cons_self⟩
  · rw [rd_wr_dom (by decide), stepWritten, rd_wr_dom (by decide), rd_wr_dom (by decide)]
    exact rd_wr_same _ _ _ _ (by decide)
  · rw [rd_wr_dom (by decide), stepWritten, rd_wr_dom (by decide)]
    exact rd_wr_same _ _ _ _ (by decide)
  · rw [rd_wr_dom (by decide), stepWritten]
    exact rd_wr_same _ _ _ _ (by decide)

theorem domainStepGo_refused (s : State) (d sec ns : Nat) (hd : d < 8) (hon : islOn s 6 = true) (hst : s.rd R.TBU_DOM_STATE_STATE [d] ≠ 1) :
    runs (.domainStepGo d sec ns) s fun t =>
      t.cnt = s.cnt ∧ t.flag R.TBU_DOM_STEP_GO [d] = s.flag R.TBU_DOM_STEP_GO [d] ∧ bitN (readN t Blk.tbu.base) 5 = true ∧
      t.rd R.TBU_DOM_STATE_STATE [d] = s.rd R.TBU_DOM_STATE_STATE [d] := by
  have hx := domainStepGo_writes (sec := sec) (ns := ns) hd hon (.inl hst)
  have hst1 := stepWritten_rd (F := R.TBU_DOM_STATE_STATE) (by decide) (by decide) (by decide) d sec ns s
  rw [stepGo_refused hd ((stepWritten_islOn d sec ns s).trans hon) (hst1 ▸ hst)] at hx
  have hrd {F : Fld} (hF : F.dims = [(0x400, 8)]) (hb : 0x401000 ≤ F.base ∧ F.base < 0x401400) :
      (raise0 .tbu 5 (stepWritten d sec ns s)).rd F [d] = (stepWritten d sec ns s).rd F [d] :=
    rd_raise_tbu (by rw [fldAddr_dom hF]; omega) (by rw [fldAddr_dom hF]; omega) 5 _
  refine ⟨_, hx, ?_, ?_, raise_tbu_bit (by decide) _, (hrd rfl (by decide)).trans hst1⟩
  · rw [raise_tbu_frame, (stepWritten_onlyWords d sec ns s).1]
  · unfold State.flag
    rw [hrd rfl (by decide), stepWritten_rd (by decide) (by decide) (by decide)]

theorem domainStepGo_removes (s : State) (d sec ns : Nat) (hd : d < 8) (hon : islOn s 6 = true) (hst : s.rd R.TBU_DOM_STATE_STATE [d] = 1)
    (hw : wantsStep s d = false) :
    runs (.domainStepGo d sec ns) s fun t =>
      phaseGet t d = -(s.rdS R.TBU_DOM_EST [d]) * 2 ^ 36 ∧ t = { s with regs := t.regs, phase := t.phase } ∧
      wordsKept s t [fldAddr R.TBU_DOM_PHADJ [d]] := by
  have hx : exec (.domainStepGo d sec ns) s = .next (phasePut d (-(s.rdS R.TBU_DOM_EST [d]) * 2 ^ 36) s) := by
    show execDomainStepGo d sec ns s = _
    unfold execDomainStepGo
    rw [if_neg (by simp [hon]; omega), if_pos ⟨hst, by simp [hw]⟩]
  exact ⟨_, hx, (phaseGet_phasePut d _ s d).trans (if_pos rfl), phasePut_frame d _ s, phasePut_words d _ s⟩

/-! ## The step -/

theorem domCnt_congr (h : t.cnt = s.cnt) (d : Nat) : domCnt t d = domCnt s d := by
  unfold domCnt
  rw [h]

theorem domCnt_cntPut (d c : Nat) (s : State) (x : Nat) : domCnt (cntPut d c s) x = if x = d then c else domCnt s x :=
  cellGet_set _ _ _ _ _

theorem cntPut_beside (d c : Nat) (s : State) : (cntPut d c s).evs = s.evs ∧ (cntPut d c s).jnl = s.jnl ∧ (cntPut d c s).regs = s.regs :=
  ⟨rfl, rfl, rfl⟩

/-- The time that the servo wrote for a step, in 2⁻⁴⁴ ns. -/
def stepTime (s : State) (d : Nat) : Nat :=
  ((s.rd R.TBU_DOM_STEP_SEC_HI [d] * 2 ^ 32 + s.rd R.TBU_DOM_STEP_SEC_LO [d]) * 1000000000 + s.rd R.TBU_DOM_STEP_NS [d]) * 2 ^ 44

/-- The counter has taken the written time, and STEP_GO is clear. -/
def stepped (d : Nat) (s : State) : State := cntPut d (stepTime s d) (s.wr R.TBU_DOM_STEP_GO [d] 0)

theorem stepped_kept (d : Nat) (s : State) : (stepped d s).evs = s.evs ∧ (stepped d s).jnl = s.jnl :=
  ⟨(cntPut_beside _ _ _).1.trans (by rw [wr_regsOnly]), (cntPut_beside _ _ _).2.1.trans (by rw [wr_regsOnly])⟩

theorem stepped_flag (d : Nat) (s : State) : (stepped d s).flag R.TBU_DOM_STEP_GO [d] = false :=
  (flag_congr (cntPut_beside _ _ _).2.2 _ _).trans (flag_wr_same rfl (by decide) s _ false)

theorem domCnt_stepped (d : Nat) (s : State) (x : Nat) : domCnt (stepped d s) x = if x = d then stepTime s d else domCnt s x := by
  unfold stepped
  rw [domCnt_cntPut, domCnt_congr (wr_cnt _ _ _ _)]

/-- After the step generators of the domain restart, STATUS shows it, and the sessions are told. -/
theorem domainStepApply_steps (hd : d < 8) (hon : islOn s 6 = true) (hgo : s.flag R.TBU_DOM_STEP_GO [d] = true) (h0 : s.evs = [])
    (hst : s.rd R.TBU_DOM_STATE_STATE [d] = 1) :
    ∃ p, exec (.domainStepApply d) s = .next (notifyAll 0x03 [d] (raise0 .tbu 4 (rcRestart p (stepped d s)))) := by
  show ∃ p, execDomainStepApply d s = _
  unfold execDomainStepApply stepped stepTime
  rw [if_neg (by simp [hon, hgo, h0]; omega), if_neg (by simp [hst])]
  exact ⟨_, rfl⟩

theorem domainStepApply_applies (s : State) (d : Nat) (hd : d < 8) (hon : islOn s 6 = true) (hgo : s.flag R.TBU_DOM_STEP_GO [d] = true)
    (h0 : s.evs = []) (hst : s.rd R.TBU_DOM_STATE_STATE [d] = 1) :
    runs (.domainStepApply d) s fun t =>
      domCnt t d = ((s.rd R.TBU_DOM_STEP_SEC_HI [d] * 2 ^ 32 + s.rd R.TBU_DOM_STEP_SEC_LO [d]) * 1000000000 +
        s.rd R.TBU_DOM_STEP_NS [d]) * 2 ^ 44 ∧
      t.flag R.TBU_DOM_STEP_GO [d] = false ∧ bitN (readN t Blk.tbu.base) 4 = true ∧
      ((span 0 8).all fun x => x == d || domCnt t x == domCnt s x) = true ∧ t.evs = [] ∧ t.jnl = s.jnl := by
  obtain ⟨p, hx⟩ := domainStepApply_steps hd hon hgo h0 hst
  rw [show ((s.rd R.TBU_DOM_STEP_SEC_HI [d] * 2 ^ 32 + s.rd R.TBU_DOM_STEP_SEC_LO [d]) * 1000000000 +
    s.rd R.TBU_DOM_STEP_NS [d]) * 2 ^ 44 = stepTime s d from rfl]
  have hr := rcRestart_eq p (stepped d s)
  have hregs : (rcRestart p (stepped d s)).regs = (stepped d s).regs := by rw [hr]
  have hframe := raise_tbu_frame 4 (rcRestart p (stepped d s))
  have hsent : Sends true false (raise0 .tbu 4 (rcRestart p (stepped d s))) (notifyAll 0x03 [d] (raise0 .tbu 4 (rcRestart p (stepped d s)))) :=
    notifyAll_sends _ _ .refl
  generalize notifyAll 0x03 [d] (raise0 .tbu 4 (rcRestart p (stepped d s))) = t at hx hsent
  have hcnt : t.cnt = (stepped d s).cnt := by rw [hsent.frame, hframe, hr]
  have hdom (x : Nat) : domCnt t x = if x = d then stepTime s d else domCnt s x :=
    (domCnt_congr hcnt x).trans (domCnt_stepped d s x)
  obtain ⟨hjnl, hevs⟩ := hsent.jnl rfl
  refine ⟨t, hx, (hdom d).trans (if_pos rfl), ?_, ?_, List.all_eq_true.2 fun x _ => ?_, ?_, ?_⟩
  · have ha : fldAddr R.TBU_DOM_STEP_GO [d] = 0x401030 + 0x400 * d := fldAddr_dom rfl d
    rw [hsent.flag (not_trafficWord_tbu (by omega) (by omega)), State.flag, rd_raise_tbu (by omega) (by omega), rd_congr hregs]
    exact stepped_flag d s
  · rw [hsent.word _ (not_trafficWord_tbu (by decide) (by decide))]
    exact raise_tbu_bit (by decide) _
  · rw [hdom]
    by_cases h : x = d <;> simp [h]
  · rw [hevs, hframe, hr]
    exact (stepped_kept d s).1.trans h0
  · rw [hjnl, hframe, hr]
    exact (stepped_kept d s).2

/-- Settles O27, by the two writes of the servo, the three cases of a step's request, and the step. -/
theorem domainRates : Obligations.DomainRates :=
  ⟨domainFadjWrite_stores, domainPhadjWrite_loads, domainStepGo_requests, domainStepGo_refused, domainStepGo_removes, domainStepApply_applies⟩

end Sys2Proof.Machine
end

section

/-! PROOFS. PTP messages (R174 to R177): the frame that the MP takes from a ring, and what the servo keeps of it. -/

namespace Sys2Proof.Machine

variable {s t u : State} {d p typ : Nat} {F : Fld} {ix ws l : List Nat}

/-! ## Words, rings and the servo move, nothing else -/

/-- Nothing has changed but register words of the list, the rings of the ports, and what the servo keeps. -/
def ptpOnly (s t : State) (l : List Nat) : Prop :=
  t = { s with regs := t.regs, netA := t.netA, netB := t.netB, servo := t.servo } ∧ wordsKept s t l

theorem ptpOnly_refl (s : State) (l : List Nat) : ptpOnly s s l := ⟨rfl, fun _ _ => rfl⟩

theorem ptpOnly_wr (v : Nat) (h : ptpOnly s t l) (ha : fldAddr F ix ∈ l) : ptpOnly s (t.wr F ix v) l := by
  obtain ⟨hframe, hwords⟩ := h
  refine ⟨?_, fun a hna => (readN_wr_other _ _ _ _ _ (ne_of_mem_of_not_mem ha hna).symm).trans (hwords a hna)⟩
  rw [wr_regsOnly, hframe]

theorem ptpOnly_inc (h : ptpOnly s t l) (ha : fldAddr F ix ∈ l) : ptpOnly s (t.inc F ix) l := ptpOnly_wr _ h ha

theorem ptpOnly_servoPut (d : Nat) (v : Servo) (h : ptpOnly s t l) : ptpOnly s (servoPut t d v) l := by
  obtain ⟨hframe, hwords⟩ := h
  refine ⟨?_, hwords⟩
  unfold servoPut
  rw [hframe]

theorem ptpOnly_ptpPut (d p : Nat) (v : PtpPort) (h : ptpOnly s t l) : ptpOnly s (ptpPut t d p v) l := ptpOnly_servoPut _ _ h

theorem ptpOnly_portPut (p : Nat) (v : NetPort) (h : ptpOnly s t l) : ptpOnly s (portPut t p v) l := by
  obtain ⟨hframe, hwords⟩ := h
  unfold portPut
  split
  · exact ⟨by rw [hframe], hwords⟩
  · exact ⟨by rw [hframe], hwords⟩

@[simp] theorem portGet_wr (s : State) (F : Fld) (ix : List Nat) (v p : Nat) : portGet (s.wr F ix v) p = portGet s p := rfl
@[simp] theorem portGet_inc (s : State) (F : Fld) (ix : List Nat) (p : Nat) : portGet (s.inc F ix) p = portGet s p := rfl
@[simp] theorem portGet_servoPut (s : State) (d : Nat) (v : Servo) (p : Nat) : portGet (servoPut s d v) p = portGet s p := rfl
@[simp] theorem portGet_ptpPut (s : State) (d q : Nat) (v : PtpPort) (p : Nat) : portGet (ptpPut s d q v) p = portGet s p := rfl

@[simp] theorem portGet_portPut_same (s : State) (p : Nat) (v : NetPort) : portGet (portPut s p v) p = v := by
  unfold portGet portPut
  by_cases h : p = 0 <;> simp [h]

theorem portPut_servo (s : State) (p : Nat) (v : NetPort) : (portPut s p v).servo = s.servo := by
  unfold portPut
  split <;> rfl

@[simp] theorem servoGet_inc (s : State) (F : Fld) (ix : List Nat) (d : Nat) : servoGet (s.inc F ix) d = servoGet s d := rfl
@[simp] theorem ptpGet_inc (s : State) (F : Fld) (ix : List Nat) (d p : Nat) : ptpGet (s.inc F ix) d p = ptpGet s d p := rfl

theorem portGet_raise_tbu (bit : Nat) (s : State) (p : Nat) : portGet (raise0 .tbu bit s) p = portGet s p := by
  rw [raise_tbu_frame]
  rfl

theorem raise_tbu_servo (bit : Nat) (s : State) : (raise0 .tbu bit s).servo = s.servo := by rw [raise_tbu_frame]

theorem rd_ptpPut (s : State) (d p : Nat) (v : PtpPort) (F : Fld) (ix : List Nat) : (ptpPut s d p v).rd F ix = s.rd F ix := rfl

theorem rd_inc_same (hF : F.lo + F.width ≤ 32) (s : State) (ix : List Nat) : (s.inc F ix).rd F ix = (s.rd F ix + 1) % 2 ^ F.width :=
  rd_wr_same _ _ _ _ hF

theorem rd_inc_dom {G : Fld} (h : domApart F G) (s : State) (d : Nat) : (s.inc F [d]).rd G [d] = s.rd G [d] := rd_wr_dom h _ _ _

/-! ## The frame that the MP takes -/

/-- The oldest frame has left the PTP ring of port `p`; the rest of the ring is `l`. -/
structure PtpTaken (p : Nat) (l : List RxHeld) (s u : State) : Prop where
  ring : (portGet u p).ptp = l
  only : ∀ ws, fldAddr R.NI_RING_FREE [p, 1] ∈ ws → fldAddr R.NI_RING_LOW [p, 1] ∈ ws → ptpOnly s u ws
  servo : u.servo = s.servo

theorem ringPut_ptp (v : NetPort) (l : List RxHeld) : (ringPut v 1 l).ptp = l := rfl

theorem ptpTaken_ringSet (p : Nat) (l : List RxHeld) (s : State) : PtpTaken p l s (ringSet p 1 l s) := by
  unfold ringSet
  constructor
  case ring => rw [portGet_wr, portGet_wr, portGet_portPut_same, ringPut_ptp]
  case only => exact fun ws hfree hlow => ptpOnly_wr _ (ptpOnly_wr _ (ptpOnly_portPut _ _ (ptpOnly_refl s ws)) hfree) hlow
  case servo => rw [wr_servo, wr_servo, portPut_servo]

theorem PtpTaken.word {r : List RxHeld} (h : PtpTaken p r s u) {a : Nat} (ha : a < 0x500000) : readN u a = readN s a := by
  have hring {F : Fld} (hb : F.base = 0x500200) (hd : F.dims = [(0x8000, 2), (0x4, 4)]) : a ≠ fldAddr F [p, 1] := by
    simp [fldAddr, hb, hd]
    omega
  refine (h.only [fldAddr R.NI_RING_FREE [p, 1], fldAddr R.NI_RING_LOW [p, 1]] (by simp) (by simp)).2 a ?_
  simp only [List.mem_cons, List.not_mem_nil, or_false, not_or]
  exact ⟨hring rfl rfl, hring rfl rfl⟩

theorem PtpTaken.rd {r : List RxHeld} (h : PtpTaken p r s u) (ha : fldAddr F ix < 0x500000) : u.rd F ix = s.rd F ix := by
  unfold State.rd
  rw [h.word ha]

theorem PtpTaken.rd_dom {r : List RxHeld} (h : PtpTaken p r s u) (hd : d < 8) (hF : F.dims = [(0x400, 8)]) (hb : F.base < 0x401400) :
    u.rd F [d] = s.rd F [d] := h.rd (by rw [fldAddr_dom hF]; omega)

theorem PtpTaken.flag_dom {r : List RxHeld} (h : PtpTaken p r s u) (hd : d < 8) (hF : F.dims = [(0x400, 8)]) (hb : F.base < 0x401400) :
    u.flag F [d] = s.flag F [d] := by
  unfold State.flag
  rw [h.rd_dom hd hF hb]

theorem PtpTaken.servoGet {r : List RxHeld} (h : PtpTaken p r s u) (d : Nat) : servoGet u d = Machine.servoGet s d := servoGet_congr h.servo d
theorem PtpTaken.ptpGet {r : List RxHeld} (h : PtpTaken p r s u) (d q : Nat) : ptpGet u d q = Machine.ptpGet s d q := ptpGet_congr h.servo d q

theorem ptpDomain_lt {m : Bool} {n : Nat} (h : ptpDomain s p n m = some d) : d < 8 := by
  have hm := List.mem_of_find?_eq_some h
  rw [mem_span] at hm
  omega

section
variable {f : RxHeld} {r : List RxHeld} {g : PtpTag}
variable (hp : p < 2) (hon : islOn s 6 = true) (hr : (portGet s p).ptp = f :: r) (hf : f.ptp = some g) (htyp : g.typ = typ)
include hp hon hr hf htyp

theorem takePtp_taken : takePtp p typ s = some (g, ptpDomain s p g.dom g.mcast, ringSet p 1 r s) := by
  have hring : takeRing p 1 s = ringSet p 1 r s := by
    unfold takeRing
    rw [show ringGet (portGet s p) 1 = f :: r from hr]
  unfold takePtp
  rw [if_neg (by simp [hon]; omega), hr]
  dsimp only
  rw [hf]
  dsimp only
  rw [if_pos htyp, hring]

/-- A message of a domain is acted on. -/
theorem withPtp_acts (hok : g.ok = true) (hd : ptpDomain s p g.dom g.mcast = some d) :
    ∃ u, PtpTaken p r s u ∧ ∀ act, withPtp p typ act s = act g d u := by
  refine ⟨_, ptpTaken_ringSet p r s, fun act => ?_⟩
  unfold withPtp
  rw [takePtp_taken hp hon hr hf htyp, hd]
  exact if_pos hok

/-- A message of no enabled domain is counted. -/
theorem withPtp_noDomain (hd : ptpDomain s p g.dom g.mcast = none) : ∃ u, PtpTaken p r s u ∧ ∀ act, withPtp p typ act s = noDomain u := by
  refine ⟨_, ptpTaken_ringSet p r s, fun act => ?_⟩
  unfold withPtp
  rw [takePtp_taken hp hon hr hf htyp, hd]

end

end Sys2Proof.Machine
end

section

/-! PROOFS. The messages of the PTP servo, one by one (R174 to R176). -/

namespace Sys2Proof.Machine

variable {s t : State} {d p : Nat}

/-! ## Sync -/

/-- A two-step Sync is counted and held with its stamp at the reference plane. -/
def syncHeld (d p q : Nat) (t2 co : Int) (s : State) : State :=
  ptpPut (s.inc R.TBU_DOM_SYNC_RX [d]) d p { ptpGet s d p with sync := some (q, t2, co) }

theorem ptpSyncRx_holds (s : State) (p d q : Nat) (li t1 co : Int) (f : RxHeld) (l : List RxHeld) (g : PtpTag) (hp : p < 2)
    (hon : islOn s 6 = true) (hr : (portGet s p).ptp = f :: l) (hf : f.ptp = some g) (htyp : g.typ = 0) (hok : g.ok = true)
    (hd : ptpDomain s p g.dom g.mcast = some d) (hl : -7 ≤ li) (hu : li ≤ 0) :
    runs (.ptpSyncRx p q li true t1 co) s fun t =>
      (ptpGet t d p).sync = some (q, (g.raw : Int) - ((s.rd R.TBU_RXLAT [p] * 256 : Nat) : Int), co) ∧
      t.rd R.TBU_DOM_SYNC_RX [d] = (s.rd R.TBU_DOM_SYNC_RX [d] + 1) % 2 ^ 32 ∧ (servoGet t d).est = (servoGet s d).est ∧
      (portGet t p).ptp = l ∧ t = { s with regs := t.regs, netA := t.netA, netB := t.netB, servo := t.servo } ∧
      wordsKept s t [fldAddr R.TBU_DOM_SYNC_RX [d], fldAddr R.NI_RING_FREE [p, 1], fldAddr R.NI_RING_LOW [p, 1]] := by
  obtain ⟨u, htaken, hact⟩ := withPtp_acts hp hon hr hf htyp hok hd
  have hlat : u.rd R.TBU_RXLAT [p] = s.rd R.TBU_RXLAT [p] := htaken.rd (by simp [fldAddr, R.TBU_RXLAT]; omega)
  have hx : exec (.ptpSyncRx p q li true t1 co) s =
      .next (syncHeld d p q ((g.raw : Int) - ((s.rd R.TBU_RXLAT [p] * 256 : Nat) : Int)) co u) := by
    show execPtpSyncRx p q li true t1 co s = _
    unfold execPtpSyncRx
    rw [hact, if_neg (by omega), hlat]
    dsimp only
    rw [if_pos rfl, ptpGet_inc, syncHeld]
  refine ⟨_, hx, ?_, ?_, ?_, ?_, ptpOnly_ptpPut _ _ _ (ptpOnly_inc (htaken.only _ (by simp) (by simp)) (by simp))⟩
  · rw [syncHeld, ptpGet_ptpPut_same]
  · rw [syncHeld, rd_ptpPut, rd_inc_same (by decide), htaken.rd_dom (ptpDomain_lt hd) rfl (by decide)]
    rfl
  · rw [syncHeld, servoGet_ptpPut_est, servoGet_inc, htaken.servoGet]
  · rw [syncHeld, portGet_ptpPut, portGet_inc, htaken.ring]

theorem ptpSyncRx_bad (s : State) (p d q : Nat) (li t1 co : Int) (two : Bool) (f : RxHeld) (l : List RxHeld) (g : PtpTag) (hp : p < 2)
    (hon : islOn s 6 = true) (hr : (portGet s p).ptp = f :: l) (hf : f.ptp = some g) (htyp : g.typ = 0) (hok : g.ok = true)
    (hd : ptpDomain s p g.dom g.mcast = some d) (hl : li < -7 ∨ 0 < li) :
    runs (.ptpSyncRx p q li two t1 co) s fun t =>
      t.rd R.TBU_DOM_PTP_BAD [d] = (s.rd R.TBU_DOM_PTP_BAD [d] + 1) % 2 ^ 32 ∧ t.servo = s.servo ∧
      (portGet t p).ptp = l ∧ t = { s with regs := t.regs, netA := t.netA, netB := t.netB, servo := t.servo } ∧
      wordsKept s t [fldAddr R.TBU_DOM_PTP_BAD [d], fldAddr R.NI_RING_FREE [p, 1], fldAddr R.NI_RING_LOW [p, 1]] := by
  obtain ⟨u, htaken, hact⟩ := withPtp_acts hp hon hr hf htyp hok hd
  have hx : exec (.ptpSyncRx p q li two t1 co) s = .next (u.inc R.TBU_DOM_PTP_BAD [d]) := by
    show execPtpSyncRx p q li two t1 co s = _
    unfold execPtpSyncRx
    rw [hact, if_pos hl]
  refine ⟨_, hx, ?_, ?_, ?_, ptpOnly_inc (htaken.only _ (by simp) (by simp)) (by simp)⟩
  · rw [rd_inc_same (by decide), htaken.rd_dom (ptpDomain_lt hd) rfl (by decide)]
    rfl
  · rw [inc_eq, wr_servo, htaken.servo]
  · rw [portGet_inc, htaken.ring]

theorem ptpSyncRx_noDomain (s : State) (p q : Nat) (li t1 co : Int) (two : Bool) (f : RxHeld) (l : List RxHeld) (g : PtpTag) (hp : p < 2)
    (hon : islOn s 6 = true) (hr : (portGet s p).ptp = f :: l) (hf : f.ptp = some g) (htyp : g.typ = 0)
    (hd : ptpDomain s p g.dom g.mcast = none) :
    runs (.ptpSyncRx p q li two t1 co) s fun t =>
      t.rd R.TBU_NODOM [] = (s.rd R.TBU_NODOM [] + 1) % 2 ^ 32 ∧ bitN (readN t Blk.tbu.base) 2 = true ∧
      (portGet t p).ptp = l ∧ t.servo = s.servo := by
  obtain ⟨u, htaken, hact⟩ := withPtp_noDomain hp hon hr hf htyp hd
  have hx : exec (.ptpSyncRx p q li two t1 co) s = .next (noDomain u) := by
    show execPtpSyncRx p q li two t1 co s = _
    unfold execPtpSyncRx
    rw [hact]
  refine ⟨_, hx, ?_, raise_tbu_bit (by decide) _, ?_, ?_⟩
  · rw [noDomain, rd_raise_tbu (by decide) (by decide), rd_inc_same (by decide), htaken.rd (by decide)]
    rfl
  · rw [noDomain, portGet_raise_tbu, portGet_inc, htaken.ring]
  · rw [noDomain, raise_tbu_servo, inc_eq, wr_servo, htaken.servo]

/-! ## A pair -/

/-- The servo has one more estimate of the domain. -/
def estimated (d : Nat) (e : Int) (s : State) : State := servoPut s d { servoGet s d with est := (servoGet s d).est ++ [e] }

theorem servoGet_estimated (d : Nat) (e : Int) (s : State) : (servoGet (estimated d e s) d).est = (servoGet s d).est ++ [e] := by
  rw [estimated, servoGet_servoPut_same]

theorem ptpGet_estimated (d p : Nat) (e : Int) (s : State) : ptpGet (estimated d e s) d p = ptpGet s d p := by
  unfold ptpGet
  rw [estimated, servoGet_servoPut_same]

theorem ptpPair_estimates {t1 t2 cs t3 t4 cd : Int} (hdelay : (ptpGet s d p).delay = some (t3, t4, cd)) (hnear : (t2 - t3).natAbs ≤ 65536000000000)
    (hv : s.flag R.TBU_DOM_STATE_TTVALID [d] = true) (hport : s.rd R.TBU_DOM_STATE_TTPORT [d] = p)
    (hmode : s.rd R.TBU_DOM_PPSCFG_PPSMODE [d] ≠ 2) :
    ptpPair d p t1 t2 cs s = estimated d (ptpOffset t1 t2 cs t3 t4 cd (s.rdS R.TBU_DOM_ASYM [d, p])) s := by
  unfold ptpPair
  rw [hdelay]
  exact if_pos ⟨hnear, hv, hport, hmode⟩

theorem ptpOffset_eq (t1 t2 cs t3 t4 cd asym : Int) :
    ptpOffset t1 t2 cs t3 t4 cd asym = (t2 - t1 - cs - ((t2 - t1 - cs) + (t4 - t3 - cd)) / 2 - asym) / 256 := rfl

/-! ## Follow_Up -/

/-- No Sync is held any more. -/
def syncDone (d p : Nat) (s : State) : State := ptpPut s d p { ptpGet s d p with sync := none }

theorem ptpFollowUpRx_estimates (s : State) (p d q : Nat) (t1 co t2 c t3 t4 cd : Int) (f : RxHeld) (l : List RxHeld) (g : PtpTag)
    (hp : p < 2) (hon : islOn s 6 = true) (hr : (portGet s p).ptp = f :: l) (hf : f.ptp = some g) (htyp : g.typ = 8) (hok : g.ok = true)
    (hd : ptpDomain s p g.dom g.mcast = some d) (hsync : (ptpGet s d p).sync = some (q, t2, c))
    (hdelay : (ptpGet s d p).delay = some (t3, t4, cd)) (hnear : (t2 - t3).natAbs ≤ 65536000000000)
    (hv : s.flag R.TBU_DOM_STATE_TTVALID [d] = true) (hport : s.rd R.TBU_DOM_STATE_TTPORT [d] = p)
    (hmode : s.rd R.TBU_DOM_PPSCFG_PPSMODE [d] ≠ 2) :
    runs (.ptpFollowUpRx p q t1 co) s fun t =>
      (ptpGet t d p).sync = none ∧ (servoGet t d).est = (servoGet s d).est ++
        [((t2 - t1 - (c + co) - ((t2 - t1 - (c + co)) + (t4 - t3 - cd)) / 2 - s.rdS R.TBU_DOM_ASYM [d, p])) / 256] ∧
      (portGet t p).ptp = l ∧ t = { s with regs := t.regs, netA := t.netA, netB := t.netB, servo := t.servo } ∧
      wordsKept s t [fldAddr R.NI_RING_FREE [p, 1], fldAddr R.NI_RING_LOW [p, 1]] := by
  obtain ⟨u, htaken, hact⟩ := withPtp_acts hp hon hr hf htyp hok hd
  have hd8 := ptpDomain_lt hd
  have hasym : (syncDone d p u).rdS R.TBU_DOM_ASYM [d, p] = s.rdS R.TBU_DOM_ASYM [d, p] := by
    unfold State.rdS
    rw [syncDone, rd_ptpPut, htaken.rd (by simp [fldAddr, R.TBU_DOM_ASYM]; omega)]
  have hpair : ptpPair d p t1 t2 (c + co) (syncDone d p u) =
      estimated d (ptpOffset t1 t2 (c + co) t3 t4 cd (s.rdS R.TBU_DOM_ASYM [d, p])) (syncDone d p u) := by
    rw [← hasym]
    refine ptpPair_estimates ?_ hnear ?_ ?_ ?_
    · rw [syncDone, ptpGet_ptpPut_same, htaken.ptpGet, hdelay]
    · rw [State.flag, syncDone, rd_ptpPut]
      exact (htaken.flag_dom hd8 rfl (by decide)).trans hv
    · rw [syncDone, rd_ptpPut, htaken.rd_dom hd8 rfl (by decide), hport]
    · rw [syncDone, rd_ptpPut, htaken.rd_dom hd8 rfl (by decide)]
      exact hmode
  have hx : exec (.ptpFollowUpRx p q t1 co) s =
      .next (estimated d (ptpOffset t1 t2 (c + co) t3 t4 cd (s.rdS R.TBU_DOM_ASYM [d, p])) (syncDone d p u)) := by
    show execPtpFollowUpRx p q t1 co s = _
    unfold execPtpFollowUpRx
    rw [hact, ← hpair]
    dsimp only
    rw [htaken.ptpGet, hsync]
    dsimp only
    rw [if_pos rfl, syncDone, htaken.ptpGet]
  refine ⟨_, hx, ?_, ?_, ?_, ptpOnly_servoPut _ _ (ptpOnly_ptpPut _ _ _ (htaken.only _ (by simp) (by simp)))⟩
  · rw [ptpGet_estimated, syncDone, ptpGet_ptpPut_same]
  · rw [servoGet_estimated, syncDone, servoGet_ptpPut_est, htaken.servoGet, ptpOffset_eq]
  · rw [estimated, portGet_servoPut, syncDone, portGet_ptpPut, htaken.ring]

/-! ## Delay_Resp -/

/-- The answer to the Delay_Req is counted and held. -/
def delayHeld (d p : Nat) (t3 t4 co li : Int) (s : State) : State :=
  ptpPut (s.inc R.TBU_DOM_DRESP_RX [d]) d p { ptpGet s d p with delay := some (t3, t4, co), t3 := none, dreqLog := li }

theorem ptpDelayRespRx_holds (s : State) (p d q : Nat) (li t3 t4 co : Int) (f : RxHeld) (l : List RxHeld) (g : PtpTag) (hp : p < 2)
    (hon : islOn s 6 = true) (hr : (portGet s p).ptp = f :: l) (hf : f.ptp = some g) (htyp : g.typ = 9) (hok : g.ok = true)
    (hd : ptpDomain s p g.dom g.mcast = some d) (hl : -7 ≤ li) (hu : li ≤ 0) (ht3 : (ptpGet s d p).t3 = some (q, t3)) :
    runs (.ptpDelayRespRx p q li t4 co) s fun t =>
      (ptpGet t d p).delay = some (t3, t4, co) ∧ (ptpGet t d p).t3 = none ∧ (ptpGet t d p).dreqLog = li ∧
      t.rd R.TBU_DOM_DRESP_RX [d] = (s.rd R.TBU_DOM_DRESP_RX [d] + 1) % 2 ^ 32 ∧
      (portGet t p).ptp = l ∧ t = { s with regs := t.regs, netA := t.netA, netB := t.netB, servo := t.servo } ∧
      wordsKept s t [fldAddr R.TBU_DOM_DRESP_RX [d], fldAddr R.NI_RING_FREE [p, 1], fldAddr R.NI_RING_LOW [p, 1]] := by
  obtain ⟨u, htaken, hact⟩ := withPtp_acts hp hon hr hf htyp hok hd
  have hx : exec (.ptpDelayRespRx p q li t4 co) s = .next (delayHeld d p t3 t4 co li u) := by
    show execPtpDelayRespRx p q li t4 co s = _
    unfold execPtpDelayRespRx
    rw [hact]
    dsimp only
    rw [if_neg (by omega), htaken.ptpGet, ht3]
    dsimp only
    rw [if_pos rfl, delayHeld, htaken.ptpGet]
  have hport : ptpGet (delayHeld d p t3 t4 co li u) d p = { ptpGet u d p with delay := some (t3, t4, co), t3 := none, dreqLog := li } :=
    ptpGet_ptpPut_same _ _ _ _
  refine ⟨_, hx, ?_, ?_, ?_, ?_, ?_, ptpOnly_ptpPut _ _ _ (ptpOnly_inc (htaken.only _ (by simp) (by simp)) (by simp))⟩
  · rw [hport]
  · rw [hport]
  · rw [hport]
  · rw [delayHeld, rd_ptpPut, rd_inc_same (by decide), htaken.rd_dom (ptpDomain_lt hd) rfl (by decide)]
    rfl
  · rw [delayHeld, portGet_ptpPut, portGet_inc, htaken.ring]

/-! ## Announce -/

/-- The only transmitter seen is selected. -/
theorem selectTransmitter_only (hp : p < 2) (hseen : (ptpGet s d p).ann.seen = true) (hother : (ptpGet s d (1 - p)).ann.seen = false) :
    selectTransmitter d s = ((s.wr R.TBU_DOM_STATE_TTVALID [d] 1).wr R.TBU_DOM_STATE_TTPORT [d] p).wr R.TBU_DOM_STATE_TTCLASS [d]
      (ptpGet s d p).ann.cls := by
  unfold selectTransmitter betterAnnc
  obtain rfl | rfl : p = 0 ∨ p = 1 := by omega
  · simp only [Nat.sub_zero] at hother
    simp [hseen, hother, b2n]
  · simp only [Nat.sub_self] at hother
    simp [hseen, hother, b2n]

/-- The data set of a port is the Announce, which is counted. -/
def annHeld (d p : Nat) (a : Annc) (s : State) : State := ptpPut (s.inc R.TBU_DOM_ANN_RX [d]) d p { ptpGet s d p with ann := a }

/-- The transmitter of the port is the one that the servo uses. -/
def transmitterShown (d p cls : Nat) (s : State) : State :=
  ((s.wr R.TBU_DOM_STATE_TTVALID [d] 1).wr R.TBU_DOM_STATE_TTPORT [d] p).wr R.TBU_DOM_STATE_TTCLASS [d] cls

theorem transmitterShown_state (d p cls : Nat) (s : State) :
    (transmitterShown d p cls s).rd R.TBU_DOM_STATE_STATE [d] = s.rd R.TBU_DOM_STATE_STATE [d] := by
  rw [transmitterShown, rd_wr_dom (by decide), rd_wr_dom (by decide), rd_wr_dom (by decide)]

theorem annHeld_state (d p : Nat) (a : Annc) (s : State) :
    (annHeld d p a s).rd R.TBU_DOM_STATE_STATE [d] = s.rd R.TBU_DOM_STATE_STATE [d] := by
  rw [annHeld, rd_ptpPut, rd_inc_dom (by decide)]

theorem ptpAnnounceRx_selects (s : State) (p d cls v : Nat) (f : RxHeld) (l : List RxHeld) (g : PtpTag) (hp : p < 2)
    (hon : islOn s 6 = true) (hr : (portGet s p).ptp = f :: l) (hf : f.ptp = some g) (htyp : g.typ = 11) (hok : g.ok = true)
    (hd : ptpDomain s p g.dom g.mcast = some d) (hd8 : d < 8) (hother : (ptpGet s d (1 - p)).ann.seen = false)
    (hst : s.rd R.TBU_DOM_STATE_STATE [d] ≠ 2) (hcls : cls < 256) :
    runs (.ptpAnnounceRx p cls v true) s fun t =>
      (ptpGet t d p).ann = ⟨true, cls, v⟩ ∧ (ptpGet t d (1 - p)).ann = (ptpGet s d (1 - p)).ann ∧
      t.flag R.TBU_DOM_STATE_TTVALID [d] = true ∧ t.rd R.TBU_DOM_STATE_TTPORT [d] = p ∧
      t.rd R.TBU_DOM_STATE_TTCLASS [d] = cls ∧ (portGet t p).ptp = l ∧
      t = { s with regs := t.regs, netA := t.netA, netB := t.netB, servo := t.servo } ∧
      wordsKept s t [fldAddr R.TBU_DOM_ANN_RX [d], fldAddr R.TBU_DOM_STATE_TTCLASS [d], fldAddr R.NI_RING_FREE [p, 1],
        fldAddr R.NI_RING_LOW [p, 1]] := by
  obtain ⟨u, htaken, hact⟩ := withPtp_acts hp hon hr hf htyp hok hd
  have hport : ptpGet (annHeld d p ⟨true, cls, v⟩ u) d p = { ptpGet u d p with ann := ⟨true, cls, v⟩ } := ptpGet_ptpPut_same _ _ _ _
  have hbeside : ptpGet (annHeld d p ⟨true, cls, v⟩ u) d (1 - p) = ptpGet s d (1 - p) := by
    rw [annHeld, ptpGet_ptpPut_other hp, ptpGet_inc, htaken.ptpGet]
  have hsel : selectTransmitter d (annHeld d p ⟨true, cls, v⟩ u) = transmitterShown d p cls (annHeld d p ⟨true, cls, v⟩ u) := by
    rw [selectTransmitter_only hp (by rw [hport]) (by rw [hbeside]; exact hother), hport, transmitterShown]
  have hstate : (transmitterShown d p cls (annHeld d p ⟨true, cls, v⟩ u)).rd R.TBU_DOM_STATE_STATE [d] ≠ 2 := by
    rwa [transmitterShown_state, annHeld_state, htaken.rd_dom hd8 rfl (by decide)]
  have hx : exec (.ptpAnnounceRx p cls v true) s = .next (transmitterShown d p cls (annHeld d p ⟨true, cls, v⟩ u)) := by
    show execPtpAnnounceRx p cls v true s = _
    unfold execPtpAnnounceRx
    rw [hact]
    dsimp only
    rw [ptpGet_inc, show ptpPut _ _ _ _ = annHeld d p ⟨true, cls, v⟩ u from rfl, hsel, classHold, if_neg (fun h => hstate h.1)]
  have hword : fldAddr R.TBU_DOM_STATE_TTVALID [d] = fldAddr R.TBU_DOM_STATE_TTCLASS [d] ∧
      fldAddr R.TBU_DOM_STATE_TTPORT [d] = fldAddr R.TBU_DOM_STATE_TTCLASS [d] := ⟨rfl, rfl⟩
  generalize hh : annHeld d p ⟨true, cls, v⟩ u = h at hx hport hbeside
  have honly : ptpOnly s h [fldAddr R.TBU_DOM_ANN_RX [d], fldAddr R.TBU_DOM_STATE_TTCLASS [d], fldAddr R.NI_RING_FREE [p, 1],
      fldAddr R.NI_RING_LOW [p, 1]] := hh ▸ ptpOnly_ptpPut _ _ _ (ptpOnly_inc (htaken.only _ (by simp) (by simp)) (by simp))
  refine ⟨_, hx, ?_, ?_, ?_, ?_, ?_, ?_, ptpOnly_wr _ (ptpOnly_wr _ (ptpOnly_wr _ honly (by simp [hword])) (by simp [hword])) (by simp)⟩
  · rw [transmitterShown, ptpGet_wr, ptpGet_wr, ptpGet_wr, hport]
  · rw [transmitterShown, ptpGet_wr, ptpGet_wr, ptpGet_wr, hbeside]
  · rw [transmitterShown, flag_wr_dom (by decide), flag_wr_dom (by decide)]
    exact flag_wr_same rfl (by decide) _ _ true
  · rw [transmitterShown, rd_wr_dom (by decide), rd_wr_same _ _ _ _ (by decide)]
    exact Nat.mod_eq_of_lt hp
  · rw [transmitterShown, rd_wr_same _ _ _ _ (by decide)]
    exact Nat.mod_eq_of_lt hcls
  · rw [transmitterShown, portGet_wr, portGet_wr, portGet_wr, ← hh, annHeld, portGet_ptpPut, portGet_inc, htaken.ring]

/-- Settles O29, by what each message does with the frame taken from the ring. -/
theorem ptpMessages : Obligations.PtpMessages :=
  ⟨ptpSyncRx_holds, ptpSyncRx_bad, ptpFollowUpRx_estimates, ptpDelayRespRx_holds, ptpAnnounceRx_selects, ptpSyncRx_noDomain⟩

end Sys2Proof.Machine
end

section

/-! PROOFS. A Delay_Req of a port that counts as failed (R177, R332). -/

namespace Sys2Proof.Machine

/-- Domain 0 sends on port A, whose link is up but which counts as failed. -/
def failedPortSends : State :=
  { ((((((State.reset.wr R.PWR_ISL_STATE [5] 0).wr R.PWR_ISL_STATE [6] 0).wr R.NI_LINK_UP [0] 1).wr R.NI_LINK_UP [1] 1).wr
        R.EGS_QCFG_LIMIT [65535] 64).wr R.TBU_DOM_CFG_PORTS [0] 3).wr R.TBU_DOM_CFG_EN [0] 1 with
    netA := { NetPort.idle with failed := true } }

/-- The state meets every hypothesis of the last clause of O30. -/
theorem failedPortSends_hypotheses : failedPortSends.flag R.TBU_DOM_CFG_EN [0] = true ∧
    bitN (failedPortSends.rd R.TBU_DOM_CFG_PORTS [0]) 0 = true ∧ islOn failedPortSends 6 = true ∧ islOn failedPortSends 5 = true ∧
    fits failedPortSends 65535 1 = true ∧ failedPortSends.flag R.NI_LINK_UP [0] = true ∧ failedPortSends.flag R.NI_LINK_UP [1] = true := by
  decide +kernel

/-- A port that counts as failed carries no PTP frame, so that the Delay_Req is discarded from the queue at once (R332). -/
theorem failedPort_discards : ∃ t, execDelayReqTx 0 0 failedPortSends = .next t ∧ (qGet t 65535).frames = [] :=
  ⟨_, rfl, by decide +kernel⟩

/-- Refutes O30: its last clause leaves the port's failure open, and R332 discards the Delay_Req of a port that counts as failed, so that
the queue does not hold it. -/
theorem not_pulsesPerSecond : ¬ Obligations.PulsesPerSecond := by
  intro h
  obtain ⟨-, -, -, -, -, hsend⟩ := h
  obtain ⟨hen, hports, htbu, hegs, hfits, hlinkA, hlinkB⟩ := failedPortSends_hypotheses
  obtain ⟨t, ht, hframes, -⟩ := hsend failedPortSends 0 0 (by decide) (by decide) hen hports htbu hegs hfits hlinkA hlinkB
  obtain ⟨u, hu, hempty⟩ := failedPort_discards
  obtain rfl : t = u := Host.Outcome.next.inj (ht.symm.trans hu)
  rw [hempty] at hframes
  exact absurd (congrArg List.length hframes) (by simp)

end Sys2Proof.Machine
end

section

/-! PROOFS. The events of one domain that fail once another becomes usable (R169, R216, R218): the completion count of a session whose
number lies beyond the 32 sessions is the word STATE of domain 0. -/

namespace Sys2Proof.Machine

variable {s t : State} {n : Nat}

/-! ## The events -/

/-- A late event of domain 1, SOLVED; its session number is no session's. -/
def lateEv (n : Nat) : Ev :=
  { session := 0x100E0, sseq := 0, aseq := n, req := ⟨0, false, true, false, 0, 0, 0, 0, 0, 0, 0, []⟩, dom := 1, instant := 0, earliest := 0,
    st := evSolved, descs := [], units := [], waves := [], armed := 0, started := 0, t0First := 0, t0Last := 0, nconn := 0, late := true,
    deferred := false, part := false, failing := false, committed := false, replaced := none, tab := 0, acceptJ := 0 }

/-- Such events, the latest accepted first. -/
def lateEvs : Nat → List Ev
  | 0 => []
  | n + 1 => lateEv n :: lateEvs n

theorem mem_lateEvs {e : Ev} : e ∈ lateEvs n → ∃ m < n, e = lateEv m := by
  induction n with
  | zero => exact fun h => absurd h List.not_mem_nil
  | succ n ih =>
    intro h
    obtain rfl | h := List.mem_cons.1 h
    · exact ⟨n, by omega, rfl⟩
    · obtain ⟨m, hm, rfl⟩ := ih h
      exact ⟨m, by omega, rfl⟩

theorem lateEvs_drop (n : Nat) : (lateEvs (n + 1)).filter (fun e => e.aseq != n) = lateEvs n := by
  have h : (lateEvs n).filter (fun e => e.aseq != n) = lateEvs n := List.filter_eq_self.2 fun e he => by
    obtain ⟨m, hm, rfl⟩ := mem_lateEvs he
    simp [lateEv]
    omega
  rw [lateEvs, List.filter_cons_of_neg (by simp [lateEv]), h]

/-! ## What their failure rests on -/

/-- The events wait in `t`; the journal takes no entry, domain 1 is usable and has no guard window. -/
structure Waiting (n : Nat) (t : State) : Prop where
  evs : t.evs = lateEvs n
  mute : islOn t 1 = false
  ready : domReady t 1 = true
  closed : ∀ w, w < 32 → eventWindow t 1 w = false

/-- The words that this rests on: the islands of the journal and of the TBU, and the block of domain 1. -/
def waitWord (a : Nat) : Prop := a = 0x100204 ∨ a = 0x100218 ∨ (0x401400 ≤ a ∧ a < 0x401800)

theorem domReady_congr (hw : ∀ a, waitWord a → readN t a = readN s a) (hc : t.cnt = s.cnt) : domReady t 1 = domReady s 1 := by
  have hrd {F : Fld} (hF : F.dims = [(0x400, 8)]) (hb : 0x401000 ≤ F.base ∧ F.base < 0x401400) : t.rd F [1] = s.rd F [1] := by
    unfold State.rd
    rw [hw _ (.inr (.inr (by rw [fldAddr_dom hF]; omega)))]
  have hon : islOn t 6 = islOn s 6 := islOn_congr (i := 6) (hw _ (.inr (.inl rfl)))
  unfold domReady domUsable epochNs domNs
  rw [hon, domCnt_congr hc, hrd rfl (by decide), hrd rfl (by decide), hrd rfl (by decide), hrd rfl (by decide)]

theorem eventWindow_congr (hw : ∀ a, waitWord a → readN t a = readN s a) {w : Nat} (h : w < 32) :
    eventWindow t 1 w = eventWindow s 1 w := by
  have hrd {F : Fld} (hb : F.base = 0x401100) (hF : F.dims = [(0x400, 8), (0x8, 32)]) : t.rd F [1, w] = s.rd F [1, w] := by
    have ha : fldAddr F [1, w] = 0x401500 + 8 * w := by
      simp [fldAddr, hb, hF]
      omega
    unfold State.rd
    rw [hw _ (.inr (.inr (by omega)))]
  unfold eventWindow State.flag
  rw [hrd rfl rfl, hrd rfl rfl]

theorem Waiting.transfer {m : Nat} (h : Waiting m s) (hev : t.evs = lateEvs n) (hw : ∀ a, waitWord a → readN t a = readN s a)
    (hc : t.cnt = s.cnt) : Waiting n t where
  evs := hev
  mute := (islOn_congr (i := 1) (hw _ (.inl rfl))).trans h.mute
  ready := (domReady_congr hw hc).trans h.ready
  closed w hlt := (eventWindow_congr hw hlt).trans (h.closed w hlt)

theorem Waiting.placeable (h : Waiting n t) (m : Nat) : placeable t (lateEv m) = true := by
  simp [Machine.placeable, lateEv, h.ready]

theorem Waiting.slotFrom_none (h : Waiting n t) (x : Nat) : slotFrom t 1 x = none := by
  have hslot (w k : Nat) (hw : w < 32) : slotIn t 1 w k x = none := by
    unfold slotIn
    simp [h.closed w hw]
  unfold slotFrom
  dsimp only
  rw [List.map_congr_left (g := fun _ => []) fun w hw => by
    rw [mem_span] at hw
    rw [hslot w _ (by omega), hslot w _ (by omega)]
    rfl]
  simp [minOf]

/-! ## One of them fails -/

theorem showPending_kept_low (s : State) : showPending s = { s with regs := (showPending s).regs } ∧
    ∀ a, a < 0x780000 → readN (showPending s) a = readN s a := by
  have h1 := onlyWords_wr R.RS_EVCOUNT_PENDING [] s.evs.length (onlyWords_refl s [0x780004]) (by decide)
  have h2 := onlyWords_wr R.RS_EVCOUNT_PEAK [] s.evs.length h1 (by decide)
  have hboth : onlyWords s (showPending s) [0x780004] := by
    unfold showPending
    dsimp only
    split
    · exact h2
    · exact h1
  exact ⟨hboth.1, fun a ha => hboth.2 a (by simp; omega)⟩

/-- An event leaves the pending ones. -/
def evGone (a : Nat) (s : State) : State := showPending (evDrop a (discardWaves a s))

theorem evDrop_discardWaves (a : Nat) (s : State) :
    (evDrop a (discardWaves a s)).evs = s.evs.filter (fun x => x.aseq != a) ∧ (evDrop a (discardWaves a s)).cnt = s.cnt ∧
      (evDrop a (discardWaves a s)).regs = s.regs := ⟨rfl, rfl, rfl⟩

theorem evGone_leaves (a : Nat) (s : State) : (evGone a s).evs = s.evs.filter (fun x => x.aseq != a) ∧ (evGone a s).cnt = s.cnt ∧
    ∀ b, b < 0x780000 → readN (evGone a s) b = readN s b := by
  obtain ⟨hevs, hcnt, hregs⟩ := evDrop_discardWaves a s
  obtain ⟨hframe, hlow⟩ := showPending_kept_low (evDrop a (discardWaves a s))
  unfold evGone
  exact ⟨by rw [hframe]; exact hevs, by rw [hframe]; exact hcnt, fun b hb => (hlow b hb).trans (readN_congr hregs b)⟩

/-- An event that has failed is shown and leaves the pending ones. -/
theorem closeEv_failed {e : Ev} (hp : e.part = false) (hst : e.st = evFailed) (r : Nat) (s : State) :
    closeEv e r s = { evGone e.aseq (showEv e r s) with finals := (evGone e.aseq (showEv e r s)).finals ++ [e.tab] } := by
  have hne : ¬ e.st = evExpired := by
    rw [hst]
    decide
  unfold closeEv evGone
  dsimp only
  rw [hp, if_neg Bool.false_ne_true, if_neg hne]

/-- The event without a place. -/
def failedEv (n : Nat) : Ev := { lateEv n with st := evFailed }

/-- The number of the session is that of no session: the completion counts in the word STATE of domain 0. -/
theorem lateEv_cseq : fldAddr R.JNL_SESS_CSEQ [0x100E0] = 0x401008 := rfl

theorem lateEv_session (n : Nat) : (lateEv n).session = 0x100E0 := rfl

theorem lateEv_named (n : Nat) : evOffset (lateEv n) = false := by
  show (inKind 0 == 1) = false
  decide

theorem Waiting.placement (h : Waiting n t) (m : Nat) (us : List SUnit) : placementOf t (lateEv m) us = .error rNoGuardWindow := by
  have hstart (lo : Nat) : lateStart t (lateEv m) lo = none := by
    unfold lateStart
    dsimp only
    rw [lateEv_named, if_neg Bool.false_ne_true, show (lateEv m).req.spread = true from rfl, if_pos rfl]
    exact h.slotFrom_none lo
  have hbounds : boundsOf t (lateEv m) = none := by
    unfold boundsOf
    dsimp only
    rw [show (lateEv m).late = true from rfl, if_pos rfl, if_pos rfl, hstart, Option.map_none]
  unfold placementOf
  rw [hbounds]

theorem lateEv_notBlocked (m : Nat) (t : State) : orderBlocked t (lateEv m) = false := by
  have hshare (x : Ev) : sharePort x (lateEv m) = false := by
    unfold sharePort
    rw [show portsOf (lateEv m).descs = [] from rfl]
    simp
  unfold orderBlocked earlierSharing
  simp [hshare]

/-- The completion is counted, and the event closed; its entry and its report wait. -/
theorem finish_mute (hready : jnlReady (t.inc R.JNL_SESS_CSEQ [0x100E0]) = false) (n r : Nat) :
    ∃ x, finish (lateEv n) evFailed r t = oweFinal x (closeEv (failedEv n) r (t.inc R.JNL_SESS_CSEQ [0x100E0])) := by
  have hpart : ((lateEv n).part || (decide (0 < (lateEv n).started) && (evFailed == evFailed || evFailed == evExpired))) = false := rfl
  have hplan (u : State) : planFinal (lateEv n) evFailed u = u := if_neg fun h => absurd ((lateEv_session n).symm.trans h.1) (by decide)
  unfold finish
  rw [hpart, lateEv_session, if_neg (show ¬ 0x100E0 = 0 by decide), hplan]
  dsimp only
  rw [hready, if_neg Bool.false_ne_true]
  exact ⟨_, rfl⟩

theorem oweFinal_beside (x : Nat × Compl × List Nat) (l : List Nat) (s : State) : (oweFinal x { s with finals := l }).evs = s.evs ∧
    (oweFinal x { s with finals := l }).cnt = s.cnt ∧ (oweFinal x { s with finals := l }).regs = s.regs := ⟨rfl, rfl, rfl⟩

theorem readN_cseq (t : State) : readN t 0x401008 = t.rd R.JNL_SESS_CSEQ [0x100E0] := by
  unfold State.rd
  rw [lateEv_cseq, show bitsN (readN t 0x401008) R.JNL_SESS_CSEQ.lo R.JNL_SESS_CSEQ.width = readN t 0x401008 / 2 ^ 0 % 2 ^ 32 from rfl,
    Nat.pow_zero, Nat.div_one, Nat.mod_eq_of_lt (readN_lt t _)]

theorem counted_beside {a : Nat} (ha : a ≠ 0x401008) (t : State) : readN (t.inc R.JNL_SESS_CSEQ [0x100E0]) a = readN t a :=
  readN_wr_other _ _ _ _ _ (by rwa [lateEv_cseq])

theorem counted_word (t : State) : readN (t.inc R.JNL_SESS_CSEQ [0x100E0]) 0x401008 = (readN t 0x401008 + 1) % 2 ^ 32 := by
  rw [readN_cseq, readN_cseq, rd_inc_same (by decide)]
  rfl

theorem Waiting.counted (h : Waiting n t) : Waiting n (t.inc R.JNL_SESS_CSEQ [0x100E0]) :=
  h.transfer (by rw [inc_eq, wr_evs, h.evs]) (fun a ha => counted_beside (by unfold waitWord at ha; omega) t) (by rw [inc_eq, wr_cnt])

theorem Waiting.jnlReady (h : Waiting n t) : jnlReady t = false := by
  simp [Machine.jnlReady, h.mute]

/-- Its end leaves the event's predecessors and, below the event table, all words. -/
theorem finish_leaves (h : Waiting (n + 1) t) : ∃ u, finish (lateEv n) evFailed rNoGuardWindow t = u ∧ u.evs = lateEvs n ∧ u.cnt = t.cnt ∧
    ∀ a, a < 0x780000 → readN u a = readN (t.inc R.JNL_SESS_CSEQ [0x100E0]) a := by
  have hcounted := h.counted
  obtain ⟨x, hx⟩ := finish_mute hcounted.jnlReady n rNoGuardWindow
  have hcnt : (t.inc R.JNL_SESS_CSEQ [0x100E0]).cnt = t.cnt := by rw [inc_eq, wr_cnt]
  generalize t.inc R.JNL_SESS_CSEQ [0x100E0] = v at hcounted hx hcnt ⊢
  rw [closeEv_failed (e := failedEv n) rfl rfl] at hx
  obtain ⟨hshow, hbelow⟩ := showEv_tableOnly (failedEv n) rNoGuardWindow v
  have hshown : (showEv (failedEv n) rNoGuardWindow v).evs = v.evs ∧ (showEv (failedEv n) rNoGuardWindow v).cnt = v.cnt := by
    rw [hshow]
    exact ⟨rfl, rfl⟩
  generalize showEv (failedEv n) rNoGuardWindow v = w at hx hbelow hshown
  obtain ⟨hevs, hgone, hlow⟩ := evGone_leaves (failedEv n).aseq w
  generalize evGone (failedEv n).aseq w = g at hx hevs hgone hlow
  obtain ⟨howed, hkept, hregs⟩ := oweFinal_beside x (g.finals ++ [(failedEv n).tab]) g
  generalize oweFinal x _ = u at hx howed hkept hregs
  refine ⟨u, hx, ?_, by rw [hkept, hgone, hshown.2, hcnt], fun a ha => ?_⟩
  · rw [howed, hevs, hshown.1, hcounted.evs]
    exact lateEvs_drop n
  · rw [readN_congr hregs, hlow a ha, hbelow a (by omega)]

theorem resolveLater_none (h : t.evs = lateEvs n) : resolveLater n t = t := by
  unfold resolveLater
  rw [h, List.filter_eq_nil_iff.2 fun e he => ?_]
  · rfl
  · obtain ⟨m, hm, rfl⟩ := mem_lateEvs he
    have hle : ¬ n < (lateEv m).aseq := Nat.not_lt.2 (Nat.le_of_lt hm)
    simp [hle]

/-- The event fails, and the completion counts. -/
theorem Waiting.fails (h : Waiting (n + 1) t) : Waiting n (placeEv (lateEv n) t) ∧
    readN (placeEv (lateEv n) t) 0x401008 = (readN t 0x401008 + 1) % 2 ^ 32 := by
  obtain ⟨u, hu, hevs, hcnt, hwords⟩ := finish_leaves h
  have hplace : placeEv (lateEv n) t = u := by
    unfold placeEv
    rw [lateEv_notBlocked, if_neg Bool.false_ne_true, h.placement]
    dsimp only
    rw [if_neg (by decide)]
    unfold finalise
    dsimp only
    rw [if_neg (by decide), hu]
    exact resolveLater_none hevs
  rw [hplace]
  refine ⟨h.transfer hevs (fun a ha => ?_) hcnt, (hwords _ (by decide)).trans (counted_word t)⟩
  unfold waitWord at ha
  rw [hwords a (by omega), counted_beside (by omega)]

/-! ## All of them fail -/

/-- What the placing of ready events does with one of them. -/
def placeOne (t : State) (a : Nat) : State :=
  match evFind t a with
  | some e => if placeable t e then placeEv e t else t
  | none => t

theorem placeReady_all (h : Waiting n t) (hm : modeActive (modeOf t) = true) :
    placeReady t = ((lateEvs n).map (·.aseq)).foldl placeOne t := by
  have hall : (lateEvs n).filter (placeable t) = lateEvs n := List.filter_eq_self.2 fun e he => by
    obtain ⟨m, -, rfl⟩ := mem_lateEvs he
    exact h.placeable m
  unfold placeReady
  rw [if_pos hm, h.evs, hall]
  rfl

theorem Waiting.placeOne (h : Waiting (n + 1) t) : Machine.placeOne t n = placeEv (lateEv n) t := by
  have hfind : evFind t n = some (lateEv n) := by
    unfold evFind
    rw [h.evs, lateEvs, List.find?_cons_of_pos (by simp [lateEv])]
  unfold Machine.placeOne
  rw [hfind]
  exact if_pos (h.placeable n)

/-- Every completion counts in the word STATE of domain 0. -/
theorem Waiting.all_count (h : Waiting n t) :
    readN (((lateEvs n).map (·.aseq)).foldl Machine.placeOne t) 0x401008 = (readN t 0x401008 + n) % 2 ^ 32 := by
  induction n generalizing t with
  | zero => exact (Nat.mod_eq_of_lt (readN_lt t _)).symm
  | succ n ih =>
    obtain ⟨hnext, hcount⟩ := h.fails
    rw [lateEvs, List.map_cons, List.foldl_cons, show (lateEv n).aseq = n from rfl, h.placeOne, ih hnext, hcount]
    omega

end Sys2Proof.Machine
end

section

/-! PROOFS. An estimate that locks a domain in HOLDOVER, and a state in which the events that then fail take the lock away (R169, R170,
R218). -/

namespace Sys2Proof.Machine

variable {s t : State} {d : Nat}

/-! ## The estimate -/

/-- An estimate and the clockClass are shown; the servo keeps `v`, then `v'`. -/
def estimateShown (d cls : Nat) (x : Int) (v v' : Servo) (s : State) : State :=
  servoPut (((servoPut s d v).wrS R.TBU_DOM_EST [d] x).wr R.TBU_DOM_STATE_TTCLASS [d] cls) d v'

/-- The sixteenth estimate in a row within LOCK_THR ends HOLDOVER. -/
theorem domainEstimate_locks {cls : Nat} {x : Int} (hd : d < 8) (hon : islOn s 6 = true) (hst : s.rd R.TBU_DOM_STATE_STATE [d] = 3)
    (hest : (servoGet s d).est = []) (hcls : cls ≤ s.rd R.TBU_DOM_CFG_CLASS_MAX [d])
    (hx : x.natAbs ≤ 256 * s.rd R.TBU_DOM_CFG_LOCK_THR [d]) (hgo : s.flag R.TBU_DOM_STEP_GO [d] = false) (hgood : 15 ≤ (servoGet s d).good) :
    ∃ v v', exec (.domainEstimate d x cls) s = .next (usableNow d (domSet d 2 (estimateShown d cls x v v' s))) := by
  have hfits : (decide (x.natAbs ≤ s.rd R.TBU_DOM_CFG_LOCK_THR [d] * 256) && decide (cls ≤ s.rd R.TBU_DOM_CFG_CLASS_MAX [d]) &&
      !s.flag R.TBU_DOM_STEP_GO [d]) = true := by
    simp [hcls, hgo]
    omega
  have hhead : (servoGet s d).est.headD x = x := by
    rw [hest]
    rfl
  show ∃ v v', execDomainEstimate d x cls s = _
  unfold execDomainEstimate
  rw [if_neg (by simp [hon, hst]; omega)]
  dsimp only
  rw [hhead, hfits, if_pos rfl, hst, if_neg (by omega), if_neg (by omega), if_pos (by omega)]
  exact ⟨_, _, rfl⟩

theorem estimateShown_beside (d cls : Nat) (x : Int) (v v' : Servo) (s : State) :
    (estimateShown d cls x v v' s).evs = s.evs ∧ (estimateShown d cls x v v' s).cnt = s.cnt := by
  have h (u : State) : (servoPut u d v').evs = u.evs ∧ (servoPut u d v').cnt = u.cnt := ⟨rfl, rfl⟩
  have h0 : (servoPut s d v).evs = s.evs ∧ (servoPut s d v).cnt = s.cnt := ⟨rfl, rfl⟩
  unfold estimateShown
  rw [(h _).1, (h _).2, wrS_eq, wr_evs, wr_evs, wr_cnt, wr_cnt]
  exact h0

theorem readN_servoPut (s : State) (d : Nat) (v : Servo) (a : Nat) : readN (servoPut s d v) a = readN s a := rfl

theorem estimateShown_word {a : Nat} (h1 : a ≠ 0x401008 + 0x400 * d) (h2 : a ≠ 0x40100C + 0x400 * d) (cls : Nat) (x : Int) (v v' : Servo)
    (s : State) : readN (estimateShown d cls x v v' s) a = readN s a := by
  have hclass : fldAddr R.TBU_DOM_STATE_TTCLASS [d] = 0x401008 + 0x400 * d := fldAddr_dom rfl d
  have hest : fldAddr R.TBU_DOM_EST [d] = 0x40100C + 0x400 * d := fldAddr_dom rfl d
  unfold estimateShown
  rw [readN_servoPut, readN_wr_other _ _ _ _ _ (by rwa [hclass]), wrS_eq, readN_wr_other _ _ _ _ _ (by rwa [hest]), readN_servoPut]

/-! ## The word STATE -/

theorem readN_wr_state {F : Fld} (hb : F.base = 0x401008) (hF : F.dims = [(0x400, 8)]) (d v : Nat) (s : State) :
    readN (s.wr F [d] v) (0x401008 + 0x400 * d) = setBits (readN s (0x401008 + 0x400 * d)) F.lo F.width v % 2 ^ 32 := by
  unfold State.wr
  rw [fldAddr_dom hF, hb, readN_wrWord_same]

theorem estimateShown_state (d cls : Nat) (x : Int) (v v' : Servo) (s : State) :
    readN (estimateShown d cls x v v' s) (0x401008 + 0x400 * d) = setBits (readN s (0x401008 + 0x400 * d)) 20 8 cls % 2 ^ 32 := by
  have hest : fldAddr R.TBU_DOM_EST [d] = 0x40100C + 0x400 * d := fldAddr_dom rfl d
  unfold estimateShown
  rw [readN_servoPut, readN_wr_state rfl rfl, wrS_eq, readN_wr_other _ _ _ _ _ (by rw [hest]; omega), readN_servoPut]
  rfl

theorem stateShown_word (d st : Nat) (s : State) : readN (stateShown d st s) (0x401008 + 0x400 * d) =
    setBits (setBits (readN s (0x401008 + 0x400 * d)) 30 2 st % 2 ^ 32) 0 16 0 % 2 ^ 32 := by
  unfold stateShown
  rw [readN_wr_state rfl rfl, readN_wr_state rfl rfl]
  rfl

/-! ## A change of state that no journal takes -/

theorem commit_mute (hm : islOn s 1 = false) (kind aseq session type seq : Nat) (payload : List Nat) :
    commit kind aseq session type seq payload s = s := by
  unfold commit commitV commitEntries
  rw [if_neg (by simp [jnlReady, hm])]

/-- The pending events are told nothing. -/
theorem domShow_evs (hm : islOn s 1 = false) (d : Nat) : (domShow d 2 s).evs = s.evs := by
  have hw : readN (stateShown d 2 s) 0x100204 = readN s 0x100204 := readN_stateShown (by omega) 2 s
  have h2 := stateTaken_frame d 2 s
  rw [domShow_eq, if_neg (by decide)]
  generalize stateTaken d 2 s = u at h2 ⊢
  have hmute : islOn u 1 = false := (islOn_congr (i := 1) ((readN_congr (by rw [h2]) _).trans hw)).trans hm
  rw [stateRaised, if_neg (by decide), if_neg (by decide), commit_mute hmute, ((notifyAll_sends (j := false) _ _ .refl).jnl rfl).2, h2]

/-! ## The state -/

/-- Domain 0 is in HOLDOVER, one estimate short of LOCKED, every bit of its word STATE above HO_MS set; domain 1 is LOCKED; the island of
the journal is off. -/
def almostLocked : State :=
  servoPut (wrWord (((((State.reset.wr R.PWR_MODE_CUR [] mRun).wr R.PWR_ISL_STATE [1] 2).wr R.PWR_ISL_STATE [6] 0).wr
    R.TBU_DOM_CFG_CLASS_MAX [0] 255).wr R.TBU_DOM_STATE_STATE [1] 2) 0x401008 0xFFFF0000) 0 { Servo.idle with good := 15 }

/-- As many events wait as HO_MS counts. -/
def almostLockedWaiting : State := { almostLocked with evs := lateEvs 65536 }

theorem almostLockedWaiting_beside : almostLockedWaiting.regs = almostLocked.regs ∧ almostLockedWaiting.servo = almostLocked.servo ∧
    almostLockedWaiting.cnt = almostLocked.cnt := ⟨rfl, rfl, rfl⟩

/-- But for the events, the state meets every hypothesis of the second clause of O26. -/
theorem almostLocked_hypotheses : islOn almostLocked 6 = true ∧ almostLocked.rd R.TBU_DOM_STATE_STATE [0] = 3 ∧
    (servoGet almostLocked 0).est = [] ∧ 255 ≤ almostLocked.rd R.TBU_DOM_CFG_CLASS_MAX [0] ∧
    (0 : Int).natAbs ≤ 256 * almostLocked.rd R.TBU_DOM_CFG_LOCK_THR [0] ∧ almostLocked.flag R.TBU_DOM_STEP_GO [0] = false ∧
    15 ≤ (servoGet almostLocked 0).good := by
  decide +kernel

theorem almostLocked_waiting : Waiting 0 almostLocked where
  evs := by decide +kernel
  mute := by decide +kernel
  ready := by decide +kernel
  closed := by decide +kernel

theorem almostLocked_shows : modeActive (modeOf almostLocked) = true ∧ epochNs almostLocked 0 = 0 ∧
    readN almostLocked 0x401008 = 0xFFFF0000 := by
  decide +kernel

/-! ## The lock is taken away -/

/-- The events are those of another domain. -/
theorem lateWhere_other {n : Nat} (h : s.evs = lateEvs n) : lateWhere (fun e => e.dom == 0) s = s := by
  have hnone : (lateEvs n).filter (fun e => e.dom == 0) = [] := List.filter_eq_nil_iff.2 fun e he => by
    obtain ⟨m, -, rfl⟩ := mem_lateEvs he
    simp [lateEv]
  unfold lateWhere
  rw [h, hnone]
  rfl

/-- Once domain 0 is LOCKED the events fail, and their completions carry its word STATE back to HOLDOVER. -/
theorem lateEvs_unlock {x : State} (hevs : x.evs = lateEvs 65536) (hcnt : x.cnt = almostLocked.cnt)
    (hword : ∀ a, a ≠ 0x401008 → a ≠ 0x40100C → readN x a = readN almostLocked a) (hstate : readN x 0x401008 = 0xFFFF0000) :
    (usableNow 0 (domSet 0 2 x)).rd R.TBU_DOM_STATE_STATE [0] = 3 := by
  obtain ⟨hactive, hepoch, -⟩ := almostLocked_shows
  have hrd3 : x.rd R.TBU_DOM_STATE_STATE [0] = 3 := by
    unfold State.rd
    rw [fldAddr_dom rfl, show R.TBU_DOM_STATE_STATE.base + 0x400 * 0 = 0x401008 from rfl, hstate]
    rfl
  have hmute : islOn x 1 = false := (islOn_congr (i := 1) (hword _ (by decide) (by decide))).trans almostLocked_waiting.mute
  have hshown := domShow_shown (d := 0) (by decide) 2 x
  have hevs1 : (domShow 0 2 x).evs = lateEvs 65536 := (domShow_evs hmute 0).trans hevs
  rw [domSet_usable (by omega) (by omega) (by omega)]
  generalize domShow 0 2 x = u at hshown hevs1 ⊢
  have hkept (a : Nat) (ha : ¬ trafficWord a) (hlo : a < 0x400000 ∨ 0x400014 < a) (h1 : a ≠ 0x401008) (h2 : a ≠ 0x40100C) :
      readN u a = readN almostLocked a := (hshown.word a ha hlo h1).trans (hword a h1 h2)
  have hcnt1 : u.cnt = almostLocked.cnt := hshown.cnt.trans hcnt
  have hwait : Waiting 65536 u := almostLocked_waiting.transfer hevs1 (fun a ha => by
    unfold waitWord at ha
    exact hkept a (by unfold trafficWord; omega) (by omega) (by omega) (by omega)) hcnt1
  have hmode : modeActive (modeOf u) = true := by
    have h : modeOf u = modeOf almostLocked := by
      unfold modeOf State.rd
      rw [hkept _ (not_trafficWord_of_lt (.inr (by decide))) (by decide) (by decide) (by decide)]
    rwa [h]
  have hready : domReady u 0 = true := by
    have hon : islOn u 6 = islOn almostLocked 6 := islOn_congr (i := 6) (hkept _ (not_trafficWord_of_lt (.inr (by decide))) (by decide) (by decide) (by decide))
    have hrd {F : Fld} (hF : F.dims = [(0x400, 8)]) (hb : 0x401040 ≤ F.base ∧ F.base < 0x401400) :
        u.rd F [0] = almostLocked.rd F [0] := by
      have ha : fldAddr F [0] = F.base := fldAddr_dom hF 0
      unfold State.rd
      rw [ha, hkept _ (not_trafficWord_tbu (by omega) (by omega)) (by omega) (by omega) (by omega)]
    have hep : epochNs u 0 = epochNs almostLocked 0 := by
      unfold epochNs
      rw [hrd rfl (by decide), hrd rfl (by decide), hrd rfl (by decide)]
    unfold domReady domUsable
    rw [hep, hepoch, hon, almostLocked_hypotheses.1, hshown.state (by decide)]
    simp
  have hlate : lateWhere (fun e => e.dom == 0) u = u := lateWhere_other hevs1
  have hcount := hwait.all_count
  have hlocked : readN u 0x401008 = 0xBFFF0000 := by
    have h := hshown.shown.trans (stateShown_word 0 2 x)
    rw [Nat.mul_zero, Nat.add_zero, hstate] at h
    exact h.trans (by decide)
  rw [hlocked] at hcount
  unfold usableNow
  rw [if_pos ⟨hready, hmode⟩, hlate, placeReady_all hwait hmode]
  unfold State.rd
  rw [fldAddr_dom rfl, show R.TBU_DOM_STATE_STATE.base + 0x400 * 0 = 0x401008 from rfl, hcount]
  decide

/-- Refutes O26: its second clause leaves the pending events open, and 65,536 that then fail, of a session whose completion count is the
word STATE of the domain, carry that word from LOCKED back to HOLDOVER. -/
theorem not_domainEstimates : ¬ Obligations.DomainEstimates := by
  intro h
  obtain ⟨-, hlock, -⟩ := h
  obtain ⟨hon, hst, hest, hcls, hx, hgo, hgood⟩ := almostLocked_hypotheses
  obtain ⟨hregs, hsame, hcounter⟩ := almostLockedWaiting_beside
  have hservo : servoGet almostLockedWaiting 0 = servoGet almostLocked 0 := servoGet_congr hsame 0
  rw [← islOn_congr (readN_congr hregs _)] at hon
  rw [← rd_congr hregs] at hst hcls hx
  rw [← flag_congr hregs] at hgo
  rw [← hservo] at hest hgood
  obtain ⟨t, ht, hlocked, -⟩ := hlock almostLockedWaiting 0 255 0 (by decide) hon (.inr hst) hest hcls hx hgo hgood
  obtain ⟨v, v', hrun⟩ := domainEstimate_locks (d := 0) (by decide) hon hst hest hcls hx hgo hgood
  obtain rfl : t = _ := Host.Outcome.next.inj (ht.symm.trans hrun)
  obtain ⟨hevs, hcnt⟩ := estimateShown_beside 0 255 0 v v' almostLockedWaiting
  rw [lateEvs_unlock hevs (hcnt.trans hcounter)
    (fun a h1 h2 => (estimateShown_word h1 h2 255 0 v v' almostLockedWaiting).trans (readN_congr hregs a))
    ((estimateShown_state 0 255 0 v v' almostLockedWaiting).trans (by
      rw [readN_congr hregs, almostLocked_shows.2.2]
      decide))] at hlocked
  exact absurd hlocked (by decide)

end Sys2Proof.Machine
end

section

/-! PROOFS. The refresh of the path figures (R204, R263 to R266): what each element and each path takes anew, and what the refresh of the
other paths leaves of them. -/

namespace Sys2Proof.Machine

variable {n p : Nat} {s₀ s t u : State}

/-! ## The elements of the live paths -/

/-- ε and δ of the elements of `l`, taken anew where a usable sample allows it. -/
def epsFrom (s : State) (l : List Nat) (c : Cells (Nat × Nat)) : Cells (Nat × Nat) :=
  l.foldl (fun c e => if freshSample s e then cellSet (fun _ => (0, 0)) c e (figuresNow s e) else c) c

/-- The state after the refresh of the elements of `l`. -/
def elemsRefreshed (l : List Nat) (s : State) : State := { s with calx := { s.calx with eps := epsFrom s l s.calx.eps } }

/-- What an element takes does not depend on what the elements before it took. -/
theorem refreshElems_eq (l : List Nat) (s : State) : l.foldl (fun t e => refreshElem e t) s = elemsRefreshed l s := by
  induction l generalizing s with
  | nil => rfl
  | cons e l ih =>
    rw [List.foldl_cons, ih]
    unfold refreshElem elemsRefreshed epsFrom
    rw [List.foldl_cons]
    split
    · rfl
    · rfl

theorem epsFrom_stale {e : Nat} (h : freshSample s e = false) (l : List Nat) (c : Cells (Nat × Nat)) :
    cellGet (fun _ => (0, 0)) (epsFrom s l c) e = cellGet (fun _ => (0, 0)) c e := by
  unfold epsFrom
  induction l generalizing c with
  | nil => rfl
  | cons a l ih =>
    rw [List.foldl_cons, ih]
    split
    next ha => exact cellGet_set_other _ _ _ _ _ fun he => by simp [← he, h] at ha
    next => rfl

theorem epsFrom_fresh {e : Nat} (h : freshSample s e = true) (l : List Nat) (c : Cells (Nat × Nat))
    (hc : e ∈ l ∨ cellGet (fun _ => (0, 0)) c e = figuresNow s e) :
    cellGet (fun _ => (0, 0)) (epsFrom s l c) e = figuresNow s e := by
  unfold epsFrom
  induction l generalizing c with
  | nil => simpa using hc
  | cons a l ih =>
    rw [List.foldl_cons]
    refine ih _ ?_
    by_cases ha : e = a
    · subst ha
      simp [h]
    · refine (hc.imp_left fun hm => (List.mem_cons.1 hm).resolve_left ha).imp_right fun hc => ?_
      split
      · rw [cellGet_set_other _ _ _ _ _ ha, hc]
      · exact hc

/-! ## The words of a path -/

theorem fldAddr_path {F : Fld} (hd : F.dims = [(0x20, 512), (0x10, 2)]) (n p : Nat) : fldAddr F [n, p] = F.base + 0x20 * n + 0x10 * p := by
  simp [fldAddr, hd, Nat.add_assoc]

/-- The words of RS.PATH that hold figures: all but those with VALID and CROW. -/
def figureWord (a : Nat) : Prop := 0x720000 ≤ a ∧ a < 0x724000 ∧ a % 16 ≠ 0

/-- The figure words of one path. -/
def ownFigure (n p a : Nat) : Prop := a = 0x720004 + 0x20 * n + 0x10 * p ∨ a = 0x720008 + 0x20 * n + 0x10 * p ∨
  a = 0x72000C + 0x20 * n + 0x10 * p

/-- The fields of the figures. -/
abbrev figureField (F : Fld) : Prop := F.dims = [(0x20, 512), (0x10, 2)] ∧ (F.base = 0x720004 ∨ F.base = 0x720008 ∨ F.base = 0x72000C)

theorem ownFigure_fldAddr {F : Fld} (h : figureField F) (n p : Nat) : ownFigure n p (fldAddr F [n, p]) := by
  obtain ⟨hd, hb⟩ := h
  rw [fldAddr_path hd]
  unfold ownFigure
  omega

theorem ownFigure.figureWord {a : Nat} (h : ownFigure n p a) (hn : n < 512) (hp : p < 2) : figureWord a := by
  unfold ownFigure at h
  unfold Machine.figureWord
  omega

/-- Two paths have no figure word in common. -/
theorem ownFigure_unique {a m q : Nat} (h : ownFigure n p a) (h' : ownFigure m q a) (hp : p < 2) (hq : q < 2) : n = m ∧ p = q := by
  unfold ownFigure at h h'
  omega

/-- `t` has of `s` all but the figures of paths and the instants of their refresh, where `w` names the words that stay and `c` the
paths, by their key, whose instant stays. -/
structure FiguresOnly (w c : Nat → Prop) (s t : State) : Prop where
  frame : t = { s with regs := t.regs, pathAt := t.pathAt }
  word : ∀ a, w a → readN t a = readN s a
  noted : ∀ i, c i → cellGet (fun _ => 0) t.pathAt i = cellGet (fun _ => 0) s.pathAt i

variable {w c : Nat → Prop}

theorem FiguresOnly.refl : FiguresOnly w c s s := ⟨rfl, fun _ _ => rfl, fun _ _ => rfl⟩

theorem FiguresOnly.trans (h : FiguresOnly w c s₀ s) (h' : FiguresOnly w c s t) : FiguresOnly w c s₀ t where
  frame := h'.frame.trans (by rw [h.frame])
  word a ha := (h'.word a ha).trans (h.word a ha)
  noted i hi := (h'.noted i hi).trans (h.noted i hi)

theorem FiguresOnly.foldl {α : Type} {f : State → α → State} {l : List α} (hf : ∀ x ∈ l, ∀ s, FiguresOnly w c s (f s x)) (s : State) :
    FiguresOnly w c s (l.foldl f s) := by
  induction l generalizing s with
  | nil => exact .refl
  | cons x l ih => exact (hf x List.mem_cons_self s).trans (ih (fun y hy => hf y (List.mem_cons_of_mem _ hy)) (f s x))

theorem FiguresOnly.wr {F : Fld} (hF : figureField F) (v : Nat) (hw : ∀ a, w a → ¬ ownFigure n p a) (h : FiguresOnly w c s₀ s) :
    FiguresOnly w c s₀ (s.wr F [n, p] v) :=
  h.trans ⟨rfl, fun a ha => readN_wr_other _ _ _ _ _ fun he => hw a ha (he ▸ ownFigure_fldAddr hF n p), fun _ _ => rfl⟩

theorem FiguresOnly.setAt (v : Nat) (hc : ¬ c (2 * n + p)) (h : FiguresOnly w c s₀ s) :
    FiguresOnly w c s₀ { s with pathAt := cellSet (fun _ => 0) s.pathAt (2 * n + p) v } :=
  h.trans ⟨rfl, fun _ _ => rfl, fun _ hi => cellGet_set_other _ _ _ _ _ fun he => hc (he ▸ hi)⟩

/-! ## The refresh of one path -/

/-- Figures written to a path's words, and UPD with them. -/
def figuresWritten (n p il xt ree upd : Nat) (s : State) : State :=
  (((s.wr R.RS_PATH_IL [n, p] il).wr R.RS_PATH_XT [n, p] xt).wr R.RS_PATH_REE [n, p] ree).wr R.RS_PATH_UPD [n, p] upd

/-- The instant of a path's refresh is noted: AGE counts from it. -/
def refreshNoted (n p : Nat) (s : State) : State :=
  { s with pathAt := cellSet (fun _ => 0) s.pathAt (2 * n + p) (s.time + 1) }

/-- The figures of a routed path as its refresh shows them. -/
def figuresShown (live : List Nat) (n p : Nat) (r : Route) (s : State) : State :=
  let k := s.rd R.RS_PATH_UPD [n, p] + 1
  let l := planeElems r p
  refreshNoted n p (figuresWritten n p (ilOf s p n k r) (ofS R.RS_PATH_XT.width (xtOf s live p n k l)) (reeOf s l) k s)

theorem refreshPath_routed {r : Route} (hr : liveRoute s n = some r) (hrt : r.routed = true) (live : List Nat) (p : Nat) :
    refreshPath live n p s = figuresShown live n p r s := by
  unfold refreshPath
  rw [hr]
  exact if_pos hrt

theorem refreshPath_unrouted (h : ∀ r, liveRoute s n = some r → r.routed = false) (live : List Nat) (p : Nat) :
    refreshPath live n p s = s := by
  unfold refreshPath
  split
  next r hr => exact if_neg (by simp [h r hr])
  next => rfl

theorem figuresShown_only (live : List Nat) (r : Route) (s : State) (hw : ∀ a, w a → ¬ ownFigure n p a) (hc : ¬ c (2 * n + p)) :
    FiguresOnly w c s (figuresShown live n p r s) :=
  .setAt _ hc (.wr (by decide) _ hw (.wr (by decide) _ hw (.wr (by decide) _ hw (.wr (by decide) _ hw .refl))))

theorem refreshPath_only (live : List Nat) (s : State) (hw : ∀ a, w a → ¬ ownFigure n p a) (hc : ¬ c (2 * n + p)) :
    FiguresOnly w c s (refreshPath live n p s) := by
  unfold refreshPath
  split
  next r _ =>
    split
    · exact figuresShown_only live r s hw hc
    · exact .refl
  next => exact .refl

/-- Two figures of a path lie in different words or at different bits. -/
abbrev figureApart (F G : Fld) : Prop :=
  F.dims = [(0x20, 512), (0x10, 2)] ∧ G.dims = [(0x20, 512), (0x10, 2)] ∧ G.lo + G.width ≤ 32 ∧
    (G.base ≠ F.base ∨ G.lo + G.width ≤ F.lo ∨ F.lo + F.width ≤ G.lo)

theorem rd_wr_figure {F G : Fld} (h : figureApart F G) (s : State) (n p v : Nat) : (s.wr F [n, p] v).rd G [n, p] = s.rd G [n, p] := by
  obtain ⟨hF, hG, hw, h⟩ := h
  rcases h with h | h
  · refine rd_wr_word _ _ _ _ _ _ ?_
    rw [fldAddr_path hF, fldAddr_path hG]
    omega
  · exact rd_wr_bits _ _ _ _ _ _ hw h

/-- What the refresh of path `n` in plane `p` shows in `t`, computed from `s`. -/
structure FiguresRead (live : List Nat) (n p : Nat) (r : Route) (s t : State) : Prop where
  upd : t.rd R.RS_PATH_UPD [n, p] = (s.rd R.RS_PATH_UPD [n, p] + 1) % 2 ^ R.RS_PATH_UPD.width
  il : t.rd R.RS_PATH_IL [n, p] = ilOf s p n (s.rd R.RS_PATH_UPD [n, p] + 1) r % 2 ^ R.RS_PATH_IL.width
  ree : t.rd R.RS_PATH_REE [n, p] = reeOf s (planeElems r p) % 2 ^ R.RS_PATH_REE.width
  xt : t.rd R.RS_PATH_XT [n, p] = ofS R.RS_PATH_XT.width (xtOf s live p n (s.rd R.RS_PATH_UPD [n, p] + 1) (planeElems r p))
  noted : cellGet (fun _ => 0) t.pathAt (2 * n + p) = s.time + 1

theorem figuresWritten_rd (n p il xt ree upd : Nat) (s : State) :
    (figuresWritten n p il xt ree upd s).rd R.RS_PATH_UPD [n, p] = upd % 2 ^ R.RS_PATH_UPD.width ∧
    (figuresWritten n p il xt ree upd s).rd R.RS_PATH_IL [n, p] = il % 2 ^ R.RS_PATH_IL.width ∧
    (figuresWritten n p il xt ree upd s).rd R.RS_PATH_REE [n, p] = ree % 2 ^ R.RS_PATH_REE.width ∧
    (figuresWritten n p il xt ree upd s).rd R.RS_PATH_XT [n, p] = xt % 2 ^ R.RS_PATH_XT.width := by
  unfold figuresWritten
  refine ⟨?_, ?_, ?_, ?_⟩
  · rw [rd_wr_same _ _ _ _ (by decide)]
  · rw [rd_wr_figure (by decide), rd_wr_figure (by decide), rd_wr_figure (by decide), rd_wr_same _ _ _ _ (by decide)]
  · rw [rd_wr_figure (by decide), rd_wr_same _ _ _ _ (by decide)]
  · rw [rd_wr_figure (by decide), rd_wr_figure (by decide), rd_wr_same _ _ _ _ (by decide)]

theorem refreshNoted_rd (n p : Nat) (s : State) (F : Fld) (ix : List Nat) : (refreshNoted n p s).rd F ix = s.rd F ix := rfl

theorem refreshNoted_at (n p : Nat) (s : State) : cellGet (fun _ => 0) (refreshNoted n p s).pathAt (2 * n + p) = s.time + 1 :=
  cellGet_set_same (fun _ => 0) s.pathAt (2 * n + p) (s.time + 1)

theorem figuresWritten_time (n p il xt ree upd : Nat) (s : State) : (figuresWritten n p il xt ree upd s).time = s.time := by
  unfold figuresWritten
  rw [wr_time, wr_time, wr_time, wr_time]

theorem figuresShown_read (live : List Nat) (n p : Nat) (r : Route) (s : State) : FiguresRead live n p r s (figuresShown live n p r s) := by
  unfold figuresShown
  extract_lets k l
  obtain ⟨hupd, hil, hree, hxt⟩ := figuresWritten_rd n p (ilOf s p n k r) (ofS R.RS_PATH_XT.width (xtOf s live p n k l)) (reeOf s l) k s
  rw [Nat.mod_eq_of_lt (ofS_lt _ _)] at hxt
  refine ⟨?_, ?_, ?_, ?_, ?_⟩
  · rw [refreshNoted_rd, hupd]
  · rw [refreshNoted_rd, hil]
  · rw [refreshNoted_rd, hree]
  · rw [refreshNoted_rd, hxt]
  · rw [refreshNoted_at, figuresWritten_time]

/-! ## The refresh of all paths -/

/-- The refresh of every path in both planes. -/
def refreshPaths (live : List Nat) (s : State) : State :=
  (span 0 512).foldl (fun t n => refreshPath live n 1 (refreshPath live n 0 t)) s

theorem execPathQualityRefresh_on (h : islOn s 7 = true) :
    exec .pathQualityRefresh s = .next (refreshPaths (liveElems s) (elemsRefreshed (liveElems s) s)) := by
  show execPathQualityRefresh s = _
  unfold execPathQualityRefresh
  rw [if_pos h, ← refreshElems_eq]
  rfl

/-- What the refresh of the other paths leaves: every word that is no figure, the path's own figures, and its instant. -/
abbrev OtherPaths (n p : Nat) : State → State → Prop :=
  FiguresOnly (fun a => ¬ figureWord a ∨ ownFigure n p a) (fun i => i = 2 * n + p)

theorem refreshPath_other {m q : Nat} (live : List Nat) (s : State) (hm : m < 512) (hq : q < 2) (hp : p < 2) (hne : m ≠ n ∨ q ≠ p) :
    OtherPaths n p s (refreshPath live m q s) := by
  refine refreshPath_only live s (fun a ha ho => ?_) (by omega)
  rcases ha with ha | ha
  · exact ha (ho.figureWord hm hq)
  · have := ownFigure_unique ho ha hq hp
    omega

theorem refreshPorts_other {l : List Nat} (live : List Nat) (s : State) (hl : ∀ m ∈ l, m < 512 ∧ m ≠ n) (hp : p < 2) :
    OtherPaths n p s (l.foldl (fun t m => refreshPath live m 1 (refreshPath live m 0 t)) s) :=
  .foldl (fun m hm t => (refreshPath_other live t (hl m hm).1 (by decide) hp (.inl (hl m hm).2)).trans
    (refreshPath_other live _ (hl m hm).1 (by decide) hp (.inl (hl m hm).2))) s

/-- Each path is refreshed once, between the refreshes of others. -/
theorem refreshPaths_reach (live : List Nat) (s : State) (hn : n < 512) (hp : p < 2) :
    ∃ u, OtherPaths n p s u ∧ OtherPaths n p (refreshPath live n p u) (refreshPaths live s) := by
  have hsplit : span 0 512 = span 0 n ++ n :: span (n + 1) (511 - n) := by
    rw [show (512 : Nat) = n + (511 - n + 1) by omega, span_append, Nat.zero_add]
    rfl
  have hbefore := refreshPorts_other (n := n) (l := span 0 n) live s (fun m hm => by rw [mem_span] at hm; omega) hp
  have hafter (u : State) := refreshPorts_other (n := n) (l := span (n + 1) (511 - n)) live u (fun m hm => by rw [mem_span] at hm; omega) hp
  unfold refreshPaths
  rw [hsplit, List.foldl_append, List.foldl_cons]
  generalize (span 0 n).foldl _ s = v at hbefore
  obtain rfl | rfl : p = 0 ∨ p = 1 := by omega
  · exact ⟨v, hbefore, (refreshPath_other live _ hn (by decide) hp (.inr (by decide))).trans (hafter _)⟩
  · exact ⟨_, hbefore.trans (refreshPath_other live v hn (by decide) hp (.inr (by decide))), hafter _⟩

theorem refreshPaths_frame (live : List Nat) (s : State) :
    refreshPaths live s = { s with regs := (refreshPaths live s).regs, pathAt := (refreshPaths live s).pathAt } := by
  have h : FiguresOnly (fun _ => False) (fun _ => False) s (refreshPaths live s) :=
    .foldl (fun m _ t => (refreshPath_only live t nofun nofun).trans (refreshPath_only live _ nofun nofun)) s
  exact h.frame

end Sys2Proof.Machine
end

section

/-! PROOFS. What the figures of a path are computed from (R264 to R266), and AGE of a path (R204); the three clauses about the refresh. -/

namespace Sys2Proof.Machine

variable {n p : Nat} {s t u : State}

/-! ## What the figures are computed from -/

section Congr

variable (hw : ∀ a, ¬ figureWord a → readN t a = readN s a)
include hw

theorem rd_offFigures {F : Fld} {ix : List Nat} (h : ¬ figureWord (fldAddr F ix)) : t.rd F ix = s.rd F ix := by
  unfold State.rd
  rw [hw _ h]

theorem islOn_offFigures (i : Nat) (hi : i < 32) : islOn t i = islOn s i :=
  islOn_congr (hw _ (by unfold figureWord; omega))

theorem liveRoute_offFigures (hn : n < 512) : liveRoute t n = liveRoute s n := by
  have hdesc : t.rd R.RS_CONN_DESC [n] = s.rd R.RS_CONN_DESC [n] :=
    rd_offFigures hw (by simp [fldAddr, figureWord, R.RS_CONN_DESC]; omega)
  have hpath {F : Fld} (hd : F.dims = [(0x20, 512), (0x10, 2)]) (hb : F.base = 0x720000) (q : Nat) : t.rd F [n, q] = s.rd F [n, q] :=
    rd_offFigures hw (by rw [fldAddr_path hd]; unfold figureWord; omega)
  unfold liveRoute State.flag
  rw [hdesc, hpath rfl rfl, hpath rfl rfl, hpath rfl rfl, hpath rfl rfl]

theorem ilOf_offFigures (p n k : Nat) (r : Route) : ilOf t p n k r = ilOf s p n k r := by
  have hrd {F : Fld} {ix : List Nat} (hb : 0x724000 ≤ F.base) : t.rd F ix = s.rd F ix :=
    rd_offFigures hw (by unfold fldAddr figureWord; omega)
  unfold ilOf inTap outTap
  rw [hrd (by decide), hrd (by decide), hrd (by decide), hrd (by decide), hrd (by decide)]

theorem floorOf_offFigures (e : Nat) : floorOf t e = floorOf s e := by
  unfold floorOf
  rw [rd_offFigures hw (by unfold fldAddr figureWord; simp [R.CAL_EREC_EPS0]; omega)]

variable (hc : t.calx = s.calx)
include hc

theorem figuresOf_offFigures (e : Nat) : figuresOf t e = figuresOf s e := by
  unfold figuresOf
  rw [hc, floorOf_offFigures hw]

theorem reeOf_offFigures (l : List (Nat × Nat)) : reeOf t l = reeOf s l := by
  unfold reeOf
  rw [List.map_congr_left fun x _ => by rw [figuresOf_offFigures hw hc]]

theorem xtOf_offFigures (live : List Nat) (p n k : Nat) (l : List (Nat × Nat)) : xtOf t live p n k l = xtOf s live p n k l := by
  have hleak : leakOf t live l = leakOf s live l := by
    unfold leakOf
    refine congrArg List.sum (List.map_congr_left fun x _ => ?_)
    dsimp only
    rw [figuresOf_offFigures hw hc, figuresOf_offFigures hw hc, floorOf_offFigures hw]
  unfold xtOf
  rw [hleak]

end Congr

/-! ## AGE -/

/-- AGE of a path is computed from the instant of its last refresh (R204). -/
theorem viewWord_age (hn : n < 512) (hp : p < 2) (hon : islOn s 7 = true) :
    viewWord s (fldAddr R.RS_PATH_AGE [n, p]) =
      if cellGet (fun _ => 0) s.pathAt (2 * n + p) = 0 then readN s (fldAddr R.RS_PATH_AGE [n, p])
      else setBits (readN s (fldAddr R.RS_PATH_AGE [n, p])) 0 16
        (min 65535 ((s.time + 1 - cellGet (fun _ => 0) s.pathAt (2 * n + p)) / 1000000)) := by
  have ha : fldAddr R.RS_PATH_AGE [n, p] = 0x720008 + 0x20 * n + 0x10 * p := fldAddr_path rfl n p
  generalize fldAddr R.RS_PATH_AGE [n, p] = a at ha
  have hreg : regOn s a = true := by
    unfold regOn addrIslands
    rw [if_neg (by omega), if_neg (by omega), if_neg (by omega), if_pos (by omega)]
    simp [hon]
  have hkey : (a - 0x720000) / 16 = 2 * n + p := by omega
  unfold viewWord
  rw [hreg, if_neg (by decide), if_neg (by omega), if_neg (by omega), if_neg (by omega), if_neg (by omega),
    if_neg (by rintro ⟨h | h, -⟩ <;> omega), if_neg (by omega), if_pos (by omega), hkey]

theorem age_refreshed (hn : n < 512) (hp : p < 2) (hon : islOn s 7 = true)
    (hat : cellGet (fun _ => 0) s.pathAt (2 * n + p) = s.time + 1) :
    bitsN (viewWord s (fldAddr R.RS_PATH_AGE [n, p])) 0 16 = 0 := by
  rw [viewWord_age hn hp hon, hat, if_neg (by omega), bitsN_setBits_same]
  simp

/-! ## One path -/

/-- The state after a whole refresh. -/
def qualityRefreshed (s : State) : State := refreshPaths (liveElems s) (elemsRefreshed (liveElems s) s)

theorem frame_of_eps {e : Cells (Nat × Nat)}
    (h : t = { ({ s with calx := { s.calx with eps := e } } : State) with regs := t.regs, pathAt := t.pathAt }) :
    t = { s with regs := t.regs, calx := t.calx, pathAt := t.pathAt } := by
  rw [h]

theorem qualityRefreshed_frame (s : State) : qualityRefreshed s =
    { s with regs := (qualityRefreshed s).regs, calx := (qualityRefreshed s).calx, pathAt := (qualityRefreshed s).pathAt } :=
  frame_of_eps (e := epsFrom s (liveElems s) s.calx.eps) (refreshPaths_frame _ _)

theorem qualityRefreshed_calx (s : State) : (qualityRefreshed s).calx = (elemsRefreshed (liveElems s) s).calx := by
  unfold qualityRefreshed
  rw [refreshPaths_frame]

/-- What the refresh of the paths before shows of path `n` in plane `p` and of what its figures are computed from. -/
structure Reached (n p : Nat) (s u : State) : Prop where
  word : ∀ a, (¬ figureWord a ∨ ownFigure n p a) → readN u a = readN s a
  frame : u = { elemsRefreshed (liveElems s) s with regs := u.regs, pathAt := u.pathAt }
  noted : cellGet (fun _ => 0) u.pathAt (2 * n + p) = cellGet (fun _ => 0) s.pathAt (2 * n + p)

theorem qualityRefreshed_reach (s : State) (hn : n < 512) (hp : p < 2) :
    ∃ u, Reached n p s u ∧ OtherPaths n p (refreshPath (liveElems s) n p u) (qualityRefreshed s) := by
  obtain ⟨u, hu, ht⟩ := refreshPaths_reach (liveElems s) (elemsRefreshed (liveElems s) s) hn hp
  exact ⟨u, ⟨hu.word, hu.frame, hu.noted _ rfl⟩, ht⟩

theorem Reached.offFigures (h : Reached n p s u) (a : Nat) (ha : ¬ figureWord a) : readN u a = readN s a := h.word a (.inl ha)

theorem Reached.time (h : Reached n p s u) : u.time = s.time := by
  rw [h.frame]
  rfl

theorem Reached.calx (h : Reached n p s u) : u.calx = (elemsRefreshed (liveElems s) s).calx := by rw [h.frame]

theorem FiguresOnly.rd {w c : Nat → Prop} (h : FiguresOnly w c s t) {F : Fld} {ix : List Nat} (ha : w (fldAddr F ix)) :
    t.rd F ix = s.rd F ix := by
  unfold State.rd
  rw [h.word _ ha]

/-- The refresh of the other paths leaves the figures of the path itself. -/
theorem OtherPaths.rd (h : OtherPaths n p s t) {F : Fld} (hF : figureField F) : t.rd F [n, p] = s.rd F [n, p] :=
  FiguresOnly.rd h (.inr (ownFigure_fldAddr hF n p))

theorem Reached.rd (h : Reached n p s u) {F : Fld} (hF : figureField F) : u.rd F [n, p] = s.rd F [n, p] := by
  unfold State.rd
  rw [h.word _ (.inr (ownFigure_fldAddr hF n p))]

/-- A refresh writes no word but figures. -/
theorem qualityRefreshed_offFigures (s : State) (a : Nat) (ha : ¬ figureWord a) : readN (qualityRefreshed s) a = readN s a := by
  obtain ⟨u, hu, ht⟩ := qualityRefreshed_reach (n := 0) (p := 0) s (by decide) (by decide)
  have hone : FiguresOnly (fun a => ¬ figureWord a) (fun _ => False) u (refreshPath (liveElems s) 0 0 u) :=
    refreshPath_only _ _ (fun a ha ho => ha (ho.figureWord (by decide) (by decide))) nofun
  rw [ht.word a (.inl ha), hone.word a ha, hu.word a (.inl ha)]

/-- The figures of a routed path after a refresh, computed from the words before it and from the elements after it. -/
theorem qualityRefreshed_read {r : Route} (hn : n < 512) (hp : p < 2) (hr : liveRoute s n = some r) (hrt : r.routed = true) :
    (qualityRefreshed s).rd R.RS_PATH_UPD [n, p] = (s.rd R.RS_PATH_UPD [n, p] + 1) % 2 ^ R.RS_PATH_UPD.width ∧
    (qualityRefreshed s).rd R.RS_PATH_IL [n, p] = ilOf s p n (s.rd R.RS_PATH_UPD [n, p] + 1) r % 2 ^ R.RS_PATH_IL.width ∧
    (qualityRefreshed s).rd R.RS_PATH_REE [n, p] = reeOf (qualityRefreshed s) (planeElems r p) % 2 ^ R.RS_PATH_REE.width ∧
    (qualityRefreshed s).rd R.RS_PATH_XT [n, p] = ofS R.RS_PATH_XT.width
      (xtOf (qualityRefreshed s) (liveElems s) p n (s.rd R.RS_PATH_UPD [n, p] + 1) (planeElems r p)) ∧
    cellGet (fun _ => 0) (qualityRefreshed s).pathAt (2 * n + p) = (qualityRefreshed s).time + 1 := by
  obtain ⟨u, hu, ht⟩ := qualityRefreshed_reach s hn hp
  have hread := figuresShown_read (liveElems s) n p r u
  have hword (a : Nat) (ha : ¬ figureWord a) : readN (qualityRefreshed s) a = readN u a :=
    (qualityRefreshed_offFigures s a ha).trans (hu.offFigures a ha).symm
  have hcalx : (qualityRefreshed s).calx = u.calx := (qualityRefreshed_calx s).trans hu.calx.symm
  have htime : (qualityRefreshed s).time = u.time := by rw [qualityRefreshed_frame, hu.time]
  rw [refreshPath_routed ((liveRoute_offFigures hu.offFigures hn).trans hr) hrt] at ht
  rw [OtherPaths.rd ht (by decide), OtherPaths.rd ht (by decide), OtherPaths.rd ht (by decide), OtherPaths.rd ht (by decide),
    ht.noted _ rfl, hread.upd, hread.il, hread.ree, hread.xt, hread.noted, hu.rd (by decide), ilOf_offFigures hu.offFigures,
    reeOf_offFigures hword hcalx, xtOf_offFigures hword hcalx, htime]
  exact ⟨rfl, rfl, rfl, rfl, rfl⟩

/-- The figures of a path without a route, and the instant of its refresh, stay. -/
theorem qualityRefreshed_stays (hn : n < 512) (hp : p < 2) (hr : ∀ r, liveRoute s n = some r → r.routed = false) :
    (∀ a, ownFigure n p a → readN (qualityRefreshed s) a = readN s a) ∧
    cellGet (fun _ => 0) (qualityRefreshed s).pathAt (2 * n + p) = cellGet (fun _ => 0) s.pathAt (2 * n + p) := by
  obtain ⟨u, hu, ht⟩ := qualityRefreshed_reach s hn hp
  rw [refreshPath_unrouted fun r h => hr r ((liveRoute_offFigures hu.offFigures hn).symm.trans h)] at ht
  exact ⟨fun a ha => (ht.word a (.inr ha)).trans (hu.word a (.inr ha)), (ht.noted _ rfl).trans hu.noted⟩

/-! ## The clauses -/

theorem qualityRefresh_routed (s : State) (n p : Nat) (r : Route) (hn : n < 512) (hp : p < 2) (hon : islOn s 7 = true)
    (hr : liveRoute s n = some r) (hrt : r.routed = true) :
    runs .pathQualityRefresh s fun t =>
      bitsN (viewWord t (fldAddr R.RS_PATH_AGE [n, p])) 0 16 = 0 ∧
      t.rd R.RS_PATH_UPD [n, p] = (s.rd R.RS_PATH_UPD [n, p] + 1) % 2 ^ R.RS_PATH_UPD.width ∧
      t.rd R.RS_PATH_IL [n, p] = ilOf s p n (s.rd R.RS_PATH_UPD [n, p] + 1) r % 2 ^ R.RS_PATH_IL.width ∧
      t.rd R.RS_PATH_REE [n, p] = reeOf t (planeElems r p) % 2 ^ R.RS_PATH_REE.width ∧
      t.rd R.RS_PATH_XT [n, p] = ofS R.RS_PATH_XT.width
        (xtOf t (liveElems s) p n (s.rd R.RS_PATH_UPD [n, p] + 1) (planeElems r p)) ∧
      t = { s with regs := t.regs, calx := t.calx, pathAt := t.pathAt } := by
  obtain ⟨hupd, hil, hree, hxt, hat⟩ := qualityRefreshed_read hn hp hr hrt
  have hon' : islOn (qualityRefreshed s) 7 = true := (islOn_offFigures (qualityRefreshed_offFigures s) 7 (by decide)).trans hon
  exact ⟨qualityRefreshed s, execPathQualityRefresh_on hon, age_refreshed hn hp hon' hat, hupd, hil, hree, hxt, qualityRefreshed_frame s⟩

theorem qualityRefresh_unrouted (s : State) (n p : Nat) (hn : n < 512) (hp : p < 2) (hon : islOn s 7 = true)
    (hr : ∀ r, liveRoute s n = some r → r.routed = false) :
    runs .pathQualityRefresh s fun t =>
      viewWord t (fldAddr R.RS_PATH_AGE [n, p]) = viewWord s (fldAddr R.RS_PATH_AGE [n, p]) ∧
      t.rd R.RS_PATH_UPD [n, p] = s.rd R.RS_PATH_UPD [n, p] ∧ t.rd R.RS_PATH_IL [n, p] = s.rd R.RS_PATH_IL [n, p] := by
  obtain ⟨hword, hat⟩ := qualityRefreshed_stays hn hp hr
  have hon' : islOn (qualityRefreshed s) 7 = true := (islOn_offFigures (qualityRefreshed_offFigures s) 7 (by decide)).trans hon
  have htime : (qualityRefreshed s).time = s.time := by rw [qualityRefreshed_frame]
  have hrd {F : Fld} (hF : figureField F) : (qualityRefreshed s).rd F [n, p] = s.rd F [n, p] := by
    unfold State.rd
    rw [hword _ (ownFigure_fldAddr hF n p)]
  refine ⟨qualityRefreshed s, execPathQualityRefresh_on hon, ?_, hrd (by decide), hrd (by decide)⟩
  rw [viewWord_age hn hp hon', viewWord_age hn hp hon, hat, htime, hword _ (ownFigure_fldAddr (by decide) n p)]

theorem qualityRefresh_elem (s : State) (e : Nat) (hon : islOn s 7 = true) (he : (liveElems s).contains e = true) :
    runs .pathQualityRefresh s fun t => cellGet (fun _ => (0, 0)) t.calx.eps e =
      (if freshSample s e then figuresNow s e else cellGet (fun _ => (0, 0)) s.calx.eps e) := by
  refine ⟨qualityRefreshed s, execPathQualityRefresh_on hon, ?_⟩
  dsimp only
  rw [qualityRefreshed_calx]
  split
  next h => exact epsFrom_fresh h _ _ (.inl (by simpa using he))
  next h => exact epsFrom_stale (by simpa using h) _ _

end Sys2Proof.Machine
end

section

/-! PROOFS. A repair solve ends (R200): what it notes of the solve, which connections it leaves UNROUTED, and what its journal entry and
the events that are solved again leave of that. -/

namespace Sys2Proof.Machine

variable {s₀ s t : State} {n : Nat}

/-! ## What stays of a repair solve -/

/-- RS.STATUS, RS.SOLVE_LAST and the words with UNROUTED. -/
def repairWord (a : Nat) : Prop := a = 0x700000 ∨ a = 0x700104 ∨ (0x710004 ≤ a ∧ a < 0x711004 ∧ a % 8 = 4)

/-- `t` still shows of a repair solve what `s` shows: the bits of RS.STATUS, the time of the solve, the UNROUTED connections, the waves
planned, the drives and the last ASEQ; no connection is new among those that wait. -/
structure RepairKept (s t : State) : Prop where
  status : ∀ b, b < 32 → bitN (readN s Blk.rs.base) b = true → bitN (readN t Blk.rs.base) b = true
  last : t.rd R.RS_SOLVE_LAST [] = s.rd R.RS_SOLVE_LAST []
  unrouted : ∀ m, m < 512 → s.flag R.RS_CONN_UNROUTED [m] = true → t.flag R.RS_CONN_UNROUTED [m] = true
  drv : t.drv = s.drv
  aseq : t.jnl.aseq = s.jnl.aseq
  waves : t.repairWaves = s.repairWaves
  repairs : t.repairs ⊆ s.repairs

theorem RepairKept.refl : RepairKept s s := ⟨fun _ _ h => h, rfl, fun _ _ h => h, rfl, rfl, rfl, List.Subset.refl _⟩

theorem RepairKept.trans (h : RepairKept s₀ s) (h' : RepairKept s t) : RepairKept s₀ t where
  status b hb hs := h'.status b hb (h.status b hb hs)
  last := h'.last.trans h.last
  unrouted m hm hs := h'.unrouted m hm (h.unrouted m hm hs)
  drv := h'.drv.trans h.drv
  aseq := h'.aseq.trans h.aseq
  waves := h'.waves.trans h.waves
  repairs := List.Subset.trans h'.repairs h.repairs

theorem RepairKept.ite {c : Prop} [Decidable c] (h : RepairKept s₀ s) (h' : RepairKept s₀ t) : RepairKept s₀ (if c then s else t) := by
  split <;> assumption

theorem RepairKept.foldl {α : Type} {f : State → α → State} {l : List α} (hf : ∀ x ∈ l, ∀ s, RepairKept s (f s x)) (s : State) :
    RepairKept s (l.foldl f s) := by
  induction l generalizing s with
  | nil => exact .refl
  | cons x l ih => exact (hf x List.mem_cons_self s).trans (ih (fun y hy => hf y (List.mem_cons_of_mem _ hy)) (f s x))

theorem fldAddr_conn {F : Fld} (hd : F.dims = [(0x8, 512)]) (m : Nat) : fldAddr F [m] = F.base + 0x8 * m := by
  simp [fldAddr, hd]

theorem repairWord_unrouted {m : Nat} (hm : m < 512) : repairWord (fldAddr R.RS_CONN_UNROUTED [m]) := by
  rw [fldAddr_conn rfl]
  simp only [repairWord, R.RS_CONN_UNROUTED]
  omega

/-- The same words, drives, journal position and waves. -/
theorem RepairKept.of_words (hw : ∀ a, repairWord a → readN t a = readN s a) (hd : t.drv = s.drv) (hq : t.jnl.aseq = s.jnl.aseq)
    (hv : t.repairWaves = s.repairWaves) (hr : t.repairs ⊆ s.repairs) : RepairKept s t where
  status b _ hs := by
    rw [hw Blk.rs.base (.inl rfl)]
    exact hs
  last := by
    unfold State.rd
    rw [hw (fldAddr R.RS_SOLVE_LAST []) (.inr (.inl rfl))]
  unrouted m hm hs := by
    unfold State.flag State.rd at *
    rw [hw _ (repairWord_unrouted hm)]
    exact hs
  drv := hd
  aseq := hq
  waves := hv
  repairs := hr

/-! ## Words -/

theorem wrWord_repairKept {a : Nat} (v : Nat) (ha : ¬ repairWord a) (h : RepairKept s₀ s) : RepairKept s₀ (wrWord s a v) :=
  h.trans (.of_words (fun _ hb => readN_wrWord_other _ _ _ _ fun he => ha (he ▸ hb)) rfl rfl rfl (List.Subset.refl _))

theorem wr_repairKept {F : Fld} {ix : List Nat} (v : Nat) (ha : ¬ repairWord (fldAddr F ix)) (h : RepairKept s₀ s) :
    RepairKept s₀ (s.wr F ix v) := wrWord_repairKept _ ha h

/-- A flag of a connection beside UNROUTED. -/
abbrev connFlag (F : Fld) : Prop := F.dims = [(0x8, 512)] ∧ F.base = 0x710004 ∧ (F.lo + F.width ≤ 30 ∨ 31 ≤ F.lo)

theorem fldAddr_connFlag {F : Fld} (hd : F.dims = [(0x8, 512)]) (hb : F.base = 0x710004) (m : Nat) :
    fldAddr F [m] ≠ Blk.rs.base ∧ fldAddr F [m] ≠ fldAddr R.RS_SOLVE_LAST [] := by
  have hlast : fldAddr R.RS_SOLVE_LAST [] = 0x700104 := rfl
  rw [fldAddr_conn hd, hlast, Blk.base]
  omega

/-- A word of a connection's flags written, UNROUTED of no connection cleared. -/
theorem RepairKept.wr_conn {F : Fld} (hd : F.dims = [(0x8, 512)]) (hb : F.base = 0x710004) {m v : Nat}
    (hu : ∀ i, i < 512 → s.flag R.RS_CONN_UNROUTED [i] = true → (s.wr F [m] v).flag R.RS_CONN_UNROUTED [i] = true)
    (h : RepairKept s₀ s) : RepairKept s₀ (s.wr F [m] v) := by
  obtain ⟨hst, hla⟩ := fldAddr_connFlag hd hb m
  refine h.trans ⟨fun b _ hs => ?_, ?_, hu, rfl, rfl, rfl, List.Subset.refl _⟩
  · rw [readN_wr_other _ _ _ _ _ (Ne.symm hst)]
    exact hs
  · exact rd_wr_word _ _ _ _ _ _ (Ne.symm hla)

theorem wr_connFlag_repairKept {F : Fld} (hF : connFlag F) (m v : Nat) (h : RepairKept s₀ s) : RepairKept s₀ (s.wr F [m] v) := by
  obtain ⟨hd, hb, hbits⟩ := hF
  refine h.wr_conn hd hb fun i _ hs => ?_
  unfold State.flag at *
  rw [rd_wr_bits _ _ R.RS_CONN_UNROUTED _ _ _ (by decide) (by simp only [R.RS_CONN_UNROUTED]; omega)]
  exact hs

theorem wr_unrouted_flag (s : State) (m : Nat) : (s.wr R.RS_CONN_UNROUTED [m] 1).flag R.RS_CONN_UNROUTED [m] = true := by
  unfold State.flag
  rw [rd_wr_same _ _ _ _ (by decide)]
  rfl

theorem wr_unrouted_repairKept (m : Nat) (h : RepairKept s₀ s) : RepairKept s₀ (s.wr R.RS_CONN_UNROUTED [m] 1) := by
  refine h.wr_conn rfl rfl fun i _ hs => ?_
  by_cases hi : i = m
  · rw [hi]
    exact wr_unrouted_flag s m
  · unfold State.flag at *
    rw [rd_wr_word _ _ _ _ _ _ (by rw [fldAddr_conn rfl, fldAddr_conn rfl]; omega)]
    exact hs

/-! ## A bit of RS.STATUS -/

theorem rsStatus_word (bit : Nat) (s : State) : readN (rsStatus bit s) Blk.rs.base = setBits (readN s Blk.rs.base) bit 1 1 % 2 ^ 32 := by
  show readN (raise .rs bit Cause.none s) Blk.rs.base = _
  rw [(raise_snapOnly .rs bit Cause.none s).2 _ (by decide), record_status]

theorem rsStatus_sets {bit : Nat} (hb : bit < 32) (s : State) : bitN (readN (rsStatus bit s) Blk.rs.base) bit = true := by
  rw [rsStatus_word, bitN_eq, Nat.testBit_mod_two_pow, setBits_testBit]
  simp [hb]

theorem rsStatus_repairKept (bit : Nat) (h : RepairKept s₀ s) : RepairKept s₀ (rsStatus bit s) := by
  have hf : rsStatus bit s = { s with regs := (rsStatus bit s).regs, pic := (rsStatus bit s).pic } := raise_frame .rs bit Cause.none s
  have hword {a : Nat} (hlo : 0x700014 < a) (hhi : a < 0x4500000) : readN (rsStatus bit s) a = readN s a :=
    readN_raise (b := .rs) hhi (.inr hlo) bit Cause.none s
  refine h.trans ⟨fun b hb hs => ?_, ?_, fun m hm hs => ?_, ?_, ?_, ?_, ?_⟩
  case refine_1 =>
    rw [bitN_eq] at hs
    rw [rsStatus_word, bitN_eq, Nat.testBit_mod_two_pow, setBits_testBit, hs]
    simp only [hb, decide_true, Bool.true_and]
    split
    next hbit =>
      rw [show b - bit = 0 by omega]
      rfl
    next => rfl
  case refine_2 =>
    unfold State.rd
    rw [hword (by decide) (by decide)]
  case refine_3 =>
    have ha := fldAddr_conn (F := R.RS_CONN_UNROUTED) rfl m
    unfold State.flag State.rd at *
    rw [hword (by rw [ha]; simp only [R.RS_CONN_UNROUTED]; omega) (by rw [ha]; simp only [R.RS_CONN_UNROUTED]; omega)]
    exact hs
  case refine_7 =>
    rw [hf]
    exact List.Subset.refl _
  all_goals rw [hf]

/-! ## Journal entries and events -/

theorem commit_repairKept (kind aseq session type seq : Nat) (payload : List Nat) (h : RepairKept s₀ s) :
    RepairKept s₀ (commit kind aseq session type seq payload s) := by
  have hs : Sends false true s (commit kind aseq session type seq payload s) := commit_sends _ _ _ _ _ _ .refl
  have hw : WaveKept s (commit kind aseq session type seq payload s) := commit_waveKept _ _ _ _ _ _ .refl
  refine h.trans (.of_words (fun a ha => hs.word a ?_) hs.drv hw.aseq ?_ ?_)
  · unfold repairWord at ha
    unfold trafficWord
    omega
  · rw [hs.frame]
  · rw [hs.frame]
    exact List.Subset.refl _

theorem showEv_repairKept (e : Ev) (reason : Nat) (h : RepairKept s₀ s) : RepairKept s₀ (showEv e reason s) := by
  obtain ⟨hf, hb⟩ := showEv_tableOnly e reason s
  refine h.trans (.of_words (fun a ha => hb a ?_) ?_ ?_ ?_ ?_)
  · unfold repairWord at ha
    omega
  · rw [hf]
  · rw [hf]
  · rw [hf]
  · rw [hf]
    exact List.Subset.refl _

theorem evSet_repairKept (e : Ev) (h : RepairKept s₀ s) : RepairKept s₀ (evSet e s) :=
  h.trans (.of_words (fun _ _ => rfl) rfl rfl rfl (List.Subset.refl _))

theorem evGoto_repairKept (e : Ev) (h : RepairKept s₀ s) : RepairKept s₀ (evGoto e s) :=
  showEv_repairKept _ _ (evSet_repairKept _ (commit_repairKept _ _ _ _ _ _ h))

theorem keepAndResolve_repairKept (s : State) : RepairKept s (keepAndResolve s) :=
  .foldl (fun _ _ _ => evGoto_repairKept _ .refl) s

/-! ## A connection left without a path -/

theorem setRepairs_nil_repairKept (s : State) : RepairKept s (setRepairs [] s) :=
  .of_words (fun _ _ => rfl) rfl rfl rfl (List.nil_subset _)

theorem dropRepair_repairKept (m : Nat) (r : Option Route) (h : RepairKept s₀ s) : RepairKept s₀ (dropRepair m r s) :=
  h.trans (.of_words (fun _ _ => rfl) rfl rfl rfl fun _ hx => (List.mem_filter.1 hx).1)

theorem showFlags_repairKept (o : Nat) (h : RepairKept s₀ s) : RepairKept s₀ (showFlags o s) :=
  wr_connFlag_repairKept (by decide) _ _ (wr_connFlag_repairKept (by decide) _ _ h)

theorem RepairKept.setVoaOut {v : Cells Nat} (h : RepairKept s₀ s) : RepairKept s₀ { s with voaOut := v } :=
  h.trans (.of_words (fun _ _ => rfl) rfl rfl rfl (List.Subset.refl _))

theorem voaCommand_repairKept {l : Nat} (v : Nat) (h : RepairKept s₀ s) : RepairKept s₀ (voaCommand l v s) :=
  (wr_repairKept v (F := R.LT_LOOP_UCMD) (ix := [l]) (by rw [fldAddr_loop rfl]; simp only [repairWord, R.LT_LOOP_UCMD]; omega) h).setVoaOut

theorem blockVoa_repairKept (l : Nat) (h : RepairKept s₀ s) : RepairKept s₀ (blockVoa l s) := by
  have hloop {F : Fld} (hd : F.dims = [(0x40, 35840)]) (hb : F.base = 0x1000000) : ¬ repairWord (fldAddr F [l]) := by
    rw [fldAddr_loop hd, hb]
    unfold repairWord
    omega
  exact .ite h (voaCommand_repairKept 0 (wr_repairKept _ (hloop rfl rfl) (wr_repairKept _ (hloop rfl rfl) h)))

/-- A connection put without a path is UNROUTED, and whatever else its records take leaves that. -/
theorem putConn_unrouted (m d : Nat) (s : State) :
    ∃ u, RepairKept s u ∧ RepairKept (u.wr R.RS_CONN_UNROUTED [m] 1) (putConn m (some ⟨d, false, 0, 0⟩) s) := by
  have hdesc : ¬ repairWord (fldAddr R.RS_CONN_DESC [m]) := by
    rw [fldAddr_conn rfl]
    simp only [repairWord, R.RS_CONN_DESC]
    omega
  have hpath {F : Fld} (hd : F.dims = [(0x20, 512), (0x10, 2)]) (hb : F.base = 0x720000) (q : Nat) : ¬ repairWord (fldAddr F [m, q]) := by
    rw [fldAddr_path hd]
    unfold repairWord
    omega
  refine ⟨(dropRepair m (some ⟨d, false, 0, 0⟩) s).wr R.RS_CONN_DESC [m] d, wr_repairKept _ hdesc (dropRepair_repairKept _ _ .refl), ?_⟩
  exact showFlags_repairKept _ (wr_repairKept _ (hpath rfl rfl _) (wr_repairKept _ (hpath rfl rfl _)
    (wr_repairKept _ (hpath rfl rfl _) (wr_repairKept _ (hpath rfl rfl _) .refl))))

/-- What follows the records of a connection that is left without a route. -/
theorem leaveUnrouted_after (wait : List Nat) (d : Nat) (s : State) :
    ∃ u, RepairKept (putConn (dOut d) (some ⟨d, false, 0, 0⟩) s) u ∧ leaveUnrouted wait d s = rsStatus 2 u := by
  refine ⟨_, ?_, rfl⟩
  have h3 : RepairKept (putConn (dOut d) (some ⟨d, false, 0, 0⟩) s) ((blockVoa (voaLoop 1 (dOut d)) (blockVoa (voaLoop 0 (dOut d))
      (putConn (dOut d) (some ⟨d, false, 0, 0⟩) s))).wr R.RS_CONN_REPAIR_WAIT [dOut d] (b2n (wait.contains (dOut d)))) :=
    wr_connFlag_repairKept (by decide) _ _ (blockVoa_repairKept _ (blockVoa_repairKept _ .refl))
  exact .ite (rsStatus_repairKept _ h3) h3

theorem leaveUnrouted_repairKept (wait : List Nat) (d : Nat) (s : State) : RepairKept s (leaveUnrouted wait d s) := by
  obtain ⟨u, hu, hput⟩ := putConn_unrouted (dOut d) d s
  obtain ⟨v, hv, heq⟩ := leaveUnrouted_after wait d s
  rw [heq]
  exact rsStatus_repairKept _ ((wr_unrouted_repairKept _ hu).trans (hput.trans hv))

theorem leaveUnrouted_flag (wait : List Nat) (d : Nat) (s : State) : (leaveUnrouted wait d s).flag R.RS_CONN_UNROUTED [dOut d] = true := by
  obtain ⟨u, -, hput⟩ := putConn_unrouted (dOut d) d s
  obtain ⟨v, hv, heq⟩ := leaveUnrouted_after wait d s
  rw [heq]
  exact (rsStatus_repairKept 2 (hput.trans hv)).unrouted _ (bitsN_lt d 0 9) (wr_unrouted_flag u _)

theorem leaveUnrouted_status (wait : List Nat) (d : Nat) (s : State) :
    bitN (readN (leaveUnrouted wait d s) Blk.rs.base) 2 = true := by
  obtain ⟨v, -, heq⟩ := leaveUnrouted_after wait d s
  rw [heq]
  exact rsStatus_sets (by decide) v

/-- The connections of `l`, each left without a route. -/
def leaveAll (wait l : List Nat) (s : State) : State := l.foldl (fun t d => leaveUnrouted wait d t) s

theorem leaveAll_repairKept (wait l : List Nat) (s : State) : RepairKept s (leaveAll wait l s) :=
  .foldl (fun d _ t => leaveUnrouted_repairKept wait d t) s

theorem leaveAll_flag (wait : List Nat) {l : List Nat} {d : Nat} (hd : d ∈ l) (s : State) :
    (leaveAll wait l s).flag R.RS_CONN_UNROUTED [dOut d] = true := by
  induction l generalizing s with
  | nil => exact absurd hd List.not_mem_nil
  | cons a l ih =>
    rcases List.mem_cons.1 hd with rfl | hd
    · exact (leaveAll_repairKept wait l _).unrouted _ (bitsN_lt d 0 9) (leaveUnrouted_flag wait d s)
    · exact ih hd _

theorem leaveAll_status (wait : List Nat) {l : List Nat} (hl : l ≠ []) (s : State) :
    bitN (readN (leaveAll wait l s) Blk.rs.base) 2 = true := by
  cases l with
  | nil => exact absurd rfl hl
  | cons a l => exact (leaveAll_repairKept wait l _).status 2 (by decide) (leaveUnrouted_status wait a s)

/-! ## The solve is noted -/

theorem noteSolve_repairKept (tenths bound : Nat) (s : State) :
    RepairKept (s.wr R.RS_SOLVE_LAST [] (min 65535 tenths)) (noteSolve tenths bound s) := by
  have hmax : ¬ repairWord (fldAddr R.RS_SOLVE_MAX []) := by
    show ¬ repairWord 0x700108
    unfold repairWord
    omega
  unfold noteSolve
  extract_lets s1 s2
  have h2 : RepairKept s1 s2 := .ite (wr_repairKept _ hmax .refl) .refl
  exact .ite (rsStatus_repairKept 5 h2) h2

/-- The time of the solve, as its word of 16 bits shows it. -/
theorem noteSolve_last (tenths bound : Nat) (s : State) : (noteSolve tenths bound s).rd R.RS_SOLVE_LAST [] = min 65535 tenths := by
  rw [(noteSolve_repairKept tenths bound s).last, rd_wr_same _ _ _ _ (by decide)]
  exact Nat.mod_eq_of_lt (by simp only [R.RS_SOLVE_LAST]; omega)

end Sys2Proof.Machine
end

section

/-! PROOFS. The routing that a repair solve takes (R200, R201): a repair that routes nothing is always one, and what the solve shows of the
best. -/

namespace Sys2Proof.Machine

variable {s t : State} {n : Nat} {cands : List Cand} {c : Cand}

/-! ## The solve -/

/-- A solve that ended is noted with the repairs it was for. -/
def solveEnded (n : Nat) (s : State) : State :=
  rsStatus 3 (noteSolve n (min 2800 (400 + 60 * ((repairList s).length - 1))) s)

/-- The outputs whose connection waits for a window under the routing taken. -/
def waitingOuts (s : State) (c : Cand) : List Nat := (repairWavesOf s (armedRoute s) (repairList s) c).2.2

/-- The connections that the routing taken leaves without a path. -/
def leftUnrouted (s : State) (c : Cand) : List Nat :=
  (repairList s).filter fun d => (choiceFor c.named (dOut d)).isNone || (waitingOuts s c).contains (dOut d)

/-- The connections left without a path are marked, and journaled where there are any. -/
def leftNoted (n : Nat) (s : State) (c : Cand) : State :=
  let s1 := leaveAll (waitingOuts s c) (leftUnrouted s c) (setRepairs [] (solveEnded n s))
  if (leftUnrouted s c).isEmpty then s1 else commit 0x0C 0 0 0 0 (((leftUnrouted s c).map (beBytes 4)).flatten) s1

/-- The connections that wait for a later repair. -/
def laterRepairs (s : State) (c : Cand) : List (Nat × Nat) :=
  plannedRepairs ((repairWavesOf s (armedRoute s) (repairList s) c).2.1.filter fun u =>
    (u.chgs.head?.map fun x => !(waitingOuts s c).contains x.out).getD true)

/-- Waves are planned, and other repairs wait. -/
def wavesPlanned (later : List (Nat × Nat)) (waves : List (Nat × List SUnit)) (s : State) : State :=
  setRepairs later { s with repairWaves := s.repairWaves ++ waves, solving := none }

/-- The waves of the routing taken are planned. -/
def repairPlanned (n : Nat) (s : State) (c : Cand) : State :=
  wavesPlanned (laterRepairs s c) (repairWavesOf s (armedRoute s) (repairList s) c).1 (leftNoted n s c)

/-- The routing of rank 1 among those that may be taken. -/
abbrev bestRepair (s : State) (cands : List Cand) : Option Cand :=
  lowest (repairKey s (armedRoute s) (repairList s)) ((⟨[], []⟩ :: cands).filter (repairOk s (armedRoute s) (repairList s)))

theorem execRepairSolve_best (n : Nat) (hon : islOn s 7 = true) (hm : modeActive (modeOf s) = true) (hne : repairList s ≠ [])
    (hc : bestRepair (requeueRepairs [] s) cands = some c) :
    exec (.repairSolve cands n) s = .next (keepAndResolve (repairPlanned n (requeueRepairs [] s) c)) := by
  have hgo : ¬ (!islOn s 7 || (repairList s).isEmpty || !modeActive (modeOf s)) = true := by
    simp [hon, hm, hne]
  show execRepairSolve cands n s = _
  unfold execRepairSolve
  rw [if_neg hgo]
  dsimp only
  rw [show lowest _ _ = some c from hc]
  rfl

/-! ## What the solve shows -/

theorem solveEnded_kept (n : Nat) (s : State) : RepairKept (s.wr R.RS_SOLVE_LAST [] (min 65535 n)) (solveEnded n s) :=
  rsStatus_repairKept 3 (noteSolve_repairKept n _ s)

theorem leftNoted_kept (n : Nat) (s : State) (c : Cand) :
    RepairKept (leaveAll (waitingOuts s c) (leftUnrouted s c) (setRepairs [] (solveEnded n s))) (leftNoted n s c) :=
  .ite .refl (commit_repairKept _ _ _ _ _ _ .refl)

/-- From the mark of the solve to the connections left. -/
theorem leftNoted_ended (n : Nat) (s : State) (c : Cand) : RepairKept (setRepairs [] (solveEnded n s)) (leftNoted n s c) :=
  (leaveAll_repairKept _ _ _).trans (leftNoted_kept n s c)

/-- The outcome `t` of a repair solve that took 0.1 µs × `n` and chose the routing `c` in `s`. -/
structure RepairSolved (n : Nat) (s : State) (c : Cand) (t : State) : Prop where
  ended : bitN (readN t Blk.rs.base) 3 = true
  left : leftUnrouted s c ≠ [] → bitN (readN t Blk.rs.base) 2 = true
  unrouted : ∀ d ∈ leftUnrouted s c, t.flag R.RS_CONN_UNROUTED [dOut d] = true
  last : t.rd R.RS_SOLVE_LAST [] = min 65535 n
  waves : t.repairWaves = s.repairWaves ++ (repairWavesOf s (armedRoute s) (repairList s) c).1
  repairs : t.repairs ⊆ laterRepairs s c
  drv : t.drv = s.drv
  aseq : t.jnl.aseq = s.jnl.aseq

theorem RepairSolved.kept {u : State} (h : RepairSolved n s c t) (hu : RepairKept t u) : RepairSolved n s c u where
  ended := hu.status 3 (by decide) h.ended
  left hl := hu.status 2 (by decide) (h.left hl)
  unrouted d hd := hu.unrouted _ (bitsN_lt d 0 9) (h.unrouted d hd)
  last := hu.last.trans h.last
  waves := hu.waves.trans h.waves
  repairs := List.Subset.trans hu.repairs h.repairs
  drv := hu.drv.trans h.drv
  aseq := hu.aseq.trans h.aseq

theorem wavesPlanned_leaves (later : List (Nat × Nat)) (waves : List (Nat × List SUnit)) (s : State) :
    (wavesPlanned later waves s).regs = s.regs ∧ (wavesPlanned later waves s).drv = s.drv ∧ (wavesPlanned later waves s).jnl = s.jnl :=
  ⟨rfl, rfl, rfl⟩

theorem wavesPlanned_plans (later : List (Nat × Nat)) (waves : List (Nat × List SUnit)) (s : State) :
    (wavesPlanned later waves s).repairs = later ∧ (wavesPlanned later waves s).repairWaves = s.repairWaves ++ waves := ⟨rfl, rfl⟩

theorem repairPlanned_solved (n : Nat) (s : State) (c : Cand) : RepairSolved n s c (repairPlanned n s c) := by
  obtain ⟨hregs, hdrv, hjnl⟩ := wavesPlanned_leaves (laterRepairs s c)
    (repairWavesOf s (armedRoute s) (repairList s) c).1 (leftNoted n s c)
  obtain ⟨hrepairs, hwaves⟩ := wavesPlanned_plans (laterRepairs s c)
    (repairWavesOf s (armedRoute s) (repairList s) c).1 (leftNoted n s c)
  have hsolve := solveEnded_kept n s
  have hkept := (setRepairs_nil_repairKept (solveEnded n s)).trans (leftNoted_ended n s c)
  have hleft := leftNoted_kept n s c
  unfold repairPlanned
  refine ⟨?_, fun hl => ?_, fun d hd => ?_, ?_, ?_, ?_, ?_, ?_⟩
  · rw [readN_congr hregs]
    exact hkept.status 3 (by decide) (rsStatus_sets (by decide) _)
  · rw [readN_congr hregs]
    exact hleft.status 2 (by decide) (leaveAll_status _ hl _)
  · rw [flag_congr hregs]
    exact hleft.unrouted _ (bitsN_lt d 0 9) (leaveAll_flag _ hd _)
  · rw [rd_congr hregs, hkept.last, solveEnded, (rsStatus_repairKept 3 .refl).last, noteSolve_last]
  · rw [hwaves, hkept.waves, hsolve.waves, wr_repairWaves]
  · rw [hrepairs]
    exact List.Subset.refl _
  · rw [hdrv, hkept.drv, hsolve.drv, wr_drv]
  · rw [hjnl, hkept.aseq, hsolve.aseq, wr_jnl]

/-- A repair solve takes the best routing and shows it. -/
theorem repairSolve_solved (n : Nat) (hon : islOn s 7 = true) (hm : modeActive (modeOf s) = true) (hne : repairList s ≠ [])
    (hc : bestRepair (requeueRepairs [] s) cands = some c) :
    runs (.repairSolve cands n) s (RepairSolved n (requeueRepairs [] s) c) :=
  ⟨_, execRepairSolve_best n hon hm hne hc, (repairPlanned_solved n _ c).kept (keepAndResolve_repairKept _)⟩

/-! ## The repair that routes nothing -/

theorem fwdPath_length (crow k i l : Nat) : (fwdPath crow k i l).1.length = k := by
  induction k generalizing i l with
  | zero => rfl
  | succ k ih =>
    unfold fwdPath
    dsimp only
    rw [List.length_cons, ih]

theorem bwdPath_length (crow k i l : Nat) (acc : List (Nat × Nat × Nat)) : (bwdPath crow k i l acc).1.length = k + acc.length := by
  induction k generalizing i l acc with
  | zero => exact (Nat.zero_add _).symm
  | succ k ih =>
    unfold bwdPath
    dsimp only
    rw [ih, List.length_cons]
    omega

theorem pathElemsFrom_length (plane i : Nat) (l : List (Nat × Nat × Nat)) : (pathElemsFrom plane i l).length = 2 * l.length := by
  induction l generalizing i with
  | nil => rfl
  | cons x l ih =>
    unfold pathElemsFrom
    rw [List.length_append, ih, List.length_cons]
    simp only [nodeElems, List.length_cons, List.length_nil]
    omega

/-- A path has two elements in each of 17 stages (R38). -/
theorem pathElems_length (plane inp out crow : Nat) : (pathElems plane inp out crow).length = 34 := by
  unfold pathElems pathNodes
  dsimp only
  rw [pathElemsFrom_length, List.length_append, List.length_cons, fwdPath_length, bwdPath_length]
  rfl

theorem optElems_length_le (r : Option Route) : (optElems r).length ≤ 68 := by
  unfold optElems routeElems
  split
  · split
    · rw [List.length_append, pathElems_length, pathElems_length]
    · exact Nat.zero_le _
  · exact Nat.zero_le _

/-- The change of a connection that is left without a path. -/
def unroutedChg (f : Nat → Option Route) (d : Nat) : Chg := ⟨dOut d, f (dOut d), some ⟨d, false, 0, 0⟩, false⟩

theorem unroutedChg_elems (f : Nat → Option Route) (d : Nat) : optElems (unroutedChg f d).new = [] := rfl

/-- Its unit parks at most the elements of the path it had. -/
theorem unitSize_unrouted (f : Nat → Option Route) (i d : Nat) : unitSize ⟨i, [unroutedChg f d]⟩ ≤ 8192 := by
  have hm : movesOf [unroutedChg f d] = (optElems (f (dOut d))).map fun p => (p.1, 0) := by
    have hnew : optElems (some ⟨d, false, 0, 0⟩) = [] := rfl
    simp [movesOf, unroutedChg, hnew]
  show (movesOf [unroutedChg f d]).length ≤ 8192
  rw [hm, List.length_map]
  exact (optElems_length_le _).trans (by decide)

/-- The units of the repair that routes nothing. -/
theorem mem_repairUnits_none {f : Nat → Option Route} {ds : List Nat} {u : SUnit} (h : u ∈ repairUnits f ds ⟨[], []⟩) :
    ∃ i, ∃ d ∈ ds, u = ⟨i, [unroutedChg f d]⟩ := by
  unfold repairUnits at h
  rw [← List.map_uncurry_zip_eq_zipWith] at h
  obtain ⟨⟨i, d⟩, hmem, rfl⟩ := List.mem_map.1 h
  exact ⟨i, d, (List.of_mem_zip hmem).2, rfl⟩

theorem mem_repairChgs_none {f : Nat → Option Route} {ds : List Nat} {x : Chg}
    (h : x ∈ ((repairUnits f ds ⟨[], []⟩).map (·.chgs)).flatten) : ∃ d ∈ ds, x = unroutedChg f d := by
  obtain ⟨l, hl, hx⟩ := List.mem_flatten.1 h
  obtain ⟨u, hu, rfl⟩ := List.mem_map.1 hl
  obtain ⟨i, d, hd, rfl⟩ := mem_repairUnits_none hu
  exact ⟨d, hd, List.mem_singleton.1 hx⟩

/-- Without a path there are no elements on the new paths. -/
theorem pathsWhere_unrouted {f : Nat → Option Route} {l : List Chg} (h : ∀ x ∈ l, ∃ d, x = unroutedChg f d) (moved : Bool) :
    ∀ a ∈ pathsWhere moved l, a.2 = [] := by
  intro a ha
  unfold pathsWhere at ha
  obtain ⟨m, hm, ha⟩ := List.mem_flatten.1 ha
  obtain ⟨x, hx, rfl⟩ := List.mem_map.1 hm
  obtain ⟨d, rfl⟩ := h x hx
  obtain ⟨p, -, rfl⟩ := List.mem_map.1 ha
  rfl

theorem disjointPaths_empty {l : List (Nat × List Nat)} (h : ∀ a ∈ l, a.2 = []) : disjointPaths l = true := by
  induction l with
  | nil => rfl
  | cons a l ih =>
    unfold disjointPaths
    rw [h a List.mem_cons_self, ih fun b hb => h b (List.mem_cons_of_mem _ hb)]
    simp

theorem pathsOk_unrouted {f : Nat → Option Route} {l : List Chg} (h : ∀ x ∈ l, ∃ d, x = unroutedChg f d) : pathsOk f l = true := by
  have hnew := pathsWhere_unrouted h true
  unfold pathsOk newPaths
  dsimp only
  rw [disjointPaths_empty hnew, Bool.true_and, List.all_eq_true]
  intro a ha
  rw [hnew a ha]
  simp

/-- A repair that routes nothing may always be taken. -/
theorem repairOk_none (s : State) (f : Nat → Option Route) (ds : List Nat) : repairOk s f ds ⟨[], []⟩ = true := by
  have hchg : ∀ x ∈ ((repairUnits f ds ⟨[], []⟩).map (·.chgs)).flatten, ∃ d ∈ ds, x = unroutedChg f d :=
    fun _ => mem_repairChgs_none
  have hsize : ∀ u ∈ repairUnits f ds ⟨[], []⟩, unitSize u ≤ 8192 := fun u hu => by
    obtain ⟨i, d, -, rfl⟩ := mem_repairUnits_none hu
    exact unitSize_unrouted f i d
  unfold repairOk
  generalize ((repairUnits f ds ⟨[], []⟩).map (·.chgs)).flatten = l at hchg
  have hrows : rowsOk l = true := by
    refine List.all_eq_true.2 fun x hx => ?_
    obtain ⟨d, -, rfl⟩ := hchg x hx
    rfl
  have hfail : usesFailed s l = false := by
    refine List.any_eq_false.2 fun x hx => ?_
    obtain ⟨d, -, rfl⟩ := hchg x hx
    simp [unroutedChg_elems]
  have hby : (l.filter fun x => !(ds.map dOut).contains x.out) = [] := by
    refine List.filter_eq_nil_iff.2 fun x hx => ?_
    obtain ⟨d, hd, rfl⟩ := hchg x hx
    simp only [unroutedChg, List.contains_iff_mem.2 (List.mem_map_of_mem hd), Bool.not_true, Bool.false_eq_true, not_false_eq_true]
  dsimp only
  rw [hrows, hfail, hby, pathsOk_unrouted fun x hx => (hchg x hx).imp fun d h => h.2]
  simpa using hsize

/-- It is the only one without candidates. -/
theorem bestRepair_none (s : State) : bestRepair s [] = some ⟨[], []⟩ := by
  unfold bestRepair
  rw [List.filter_cons_of_pos (repairOk_none s _ _)]
  rfl

/-- It plans nothing. -/
theorem repairWavesOf_none (s : State) (f : Nat → Option Route) (ds : List Nat) : repairWavesOf s f ds ⟨[], []⟩ = ([], [], []) := by
  have hnone : (repairUnits f ds ⟨[], []⟩).filter isRouted = [] := by
    refine List.filter_eq_nil_iff.2 fun u hu => ?_
    obtain ⟨i, d, -, rfl⟩ := mem_repairUnits_none hu
    exact Bool.false_ne_true
  unfold repairWavesOf
  rw [hnone]
  rfl

theorem leftUnrouted_none (s : State) : leftUnrouted s ⟨[], []⟩ = repairList s := List.filter_eq_self.2 fun _ _ => rfl

theorem laterRepairs_none (s : State) : laterRepairs s ⟨[], []⟩ = [] := by
  unfold laterRepairs
  rw [repairWavesOf_none]
  rfl

/-! ## The clauses -/

theorem repairSolve_findsNone (s : State) (n : Nat) (hon : islOn s 7 = true) (hm : modeActive (modeOf s) = true)
    (hne : repairList s ≠ []) (hne' : repairList (requeueRepairs [] s) ≠ []) :
    runs (.repairSolve [] n) s fun t =>
      t.repairs = [] ∧ t.repairWaves = [] ∧ bitN (readN t Blk.rs.base) 2 = true ∧
      (repairList (requeueRepairs [] s)).all (fun d => t.flag R.RS_CONN_UNROUTED [dOut d]) = true ∧ t.drv = s.drv ∧
      t.jnl.aseq = s.jnl.aseq := by
  obtain ⟨t, ht, h⟩ := repairSolve_solved n hon hm hne (bestRepair_none _)
  have hleft := leftUnrouted_none (requeueRepairs [] s)
  have hrep := h.repairs
  have hwaves := h.waves
  rw [laterRepairs_none] at hrep
  rw [repairWavesOf_none] at hwaves
  exact ⟨t, ht, List.subset_nil.1 hrep, hwaves, h.left (hleft ▸ hne'),
    List.all_eq_true.2 fun d hd => h.unrouted d (hleft ▸ hd), h.drv, h.aseq⟩

/-- Nothing planned, nothing to put back. -/
theorem requeueRepairs_nil (h : s.repairWaves = []) : requeueRepairs [] s = s := by
  have hw : waitingRepairs s [] = s.repairs := by
    unfold waitingRepairs
    rw [h]
    exact List.append_nil _
  have hset : setRepairs s.repairs s = s := by
    unfold setRepairs
    simp
  unfold requeueRepairs
  rw [hw, hset, ← h]

theorem repairSolve_findsBest (s : State) (n : Nat) (cands : List Cand) (c : Cand) (hon : islOn s 7 = true)
    (hm : modeActive (modeOf s) = true) (hw : s.repairWaves = []) (hne : repairList s ≠ [])
    (hc : bestRepair s cands = some c) :
    runs (.repairSolve cands n) s fun t =>
      t.repairWaves = (repairWavesOf s (armedRoute s) (repairList s) c).1 ∧ bitN (readN t Blk.rs.base) 3 = true ∧
      t.rd R.RS_SOLVE_LAST [] = min 65535 n ∧
      (repairList s).all (fun d => ((choiceFor c.named (dOut d)).isSome &&
        !(repairWavesOf s (armedRoute s) (repairList s) c).2.2.contains (dOut d)) || t.flag R.RS_CONN_UNROUTED [dOut d]) = true ∧
      t.drv = s.drv ∧ t.jnl.aseq = s.jnl.aseq := by
  obtain ⟨t, ht, h⟩ := repairSolve_solved n hon hm hne (by rw [requeueRepairs_nil hw]; exact hc)
  rw [requeueRepairs_nil hw] at h
  have hwaves := h.waves
  rw [hw, List.nil_append] at hwaves
  refine ⟨t, ht, hwaves, h.ended, h.last, List.all_eq_true.2 fun d hd => ?_, h.drv, h.aseq⟩
  by_cases hd' : d ∈ leftUnrouted s c
  · rw [h.unrouted d hd', Bool.or_true]
  · have hrouted : ¬ ((choiceFor c.named (dOut d)).isNone || (waitingOuts s c).contains (dOut d)) = true := fun hx =>
      hd' (List.mem_filter.2 ⟨hd, hx⟩)
    rw [Bool.or_eq_true, not_or, Bool.not_eq_true, Bool.not_eq_true] at hrouted
    obtain ⟨hnamed, hwait⟩ := hrouted
    unfold waitingOuts at hwait
    rw [hwait, ← Option.not_isNone, hnamed]
    rfl

end Sys2Proof.Machine
end

section

/-! PROOFS. Re-optimisation (R202, R206, R242): the event that it submits is accepted, and none before its gap has passed; the statement
about repairs, re-optimisation and the refresh of path figures. -/

namespace Sys2Proof.Machine

variable {s t : State} {n : Nat}

/-! ## Acceptance -/

/-- An event that passes validation finds a journal that takes entries (R213). -/
theorem validateEvent_jnlReady {session arrival : Nat} {r : EvReq} {v : Nat × Nat × List Nat}
    (h : validateEvent session arrival r s = .ok v) : jnlReady s = true := by
  by_contra hj
  rw [Bool.not_eq_true] at hj
  unfold validateEvent at h
  rw [hj] at h
  extract_lets f ds d early doms at h
  cases hname : resolveName s r.instant early with
  | error x =>
    rw [hname] at h
    split_ifs at h
  | ok x =>
    rw [hname] at h
    split_ifs at h
    contradiction

/-- The new event stands alone in `t`, accepted; the journal has its entry and its ASEQ, and drives, plans and time stay. -/
structure AcceptedAlone (session sseq : Nat) (r : EvReq) (t0 : Nat) (s t : State) : Prop where
  events : (t.evs.map fun e => (e.session, e.sseq, e.aseq, e.st, e.instant, e.req.descs)) =
    [(session, sseq, s.jnl.aseq + 1, evAccepted, t0, r.descs)]
  aseq : t.jnl.aseq = s.jnl.aseq + 1
  jseq : s.jnl.last < t.jnl.last
  drv : t.drv = s.drv
  plan : t.plan = s.plan
  time : t.time = s.time

/-- The choice of a table entry leaves events, journal, drives, plans and time. -/
theorem allocTab_leaves (s : State) : (allocTab s).2 = { s with finals := (allocTab s).2.finals, shown := (allocTab s).2.shown } := by
  unfold allocTab
  split
  · rfl
  · split <;> rfl

/-- The next ASEQ is taken. -/
def aseqTaken (s : State) : State := { s with jnl := { s.jnl with aseq := s.jnl.aseq + 1 } }

theorem aseqTaken_jnlReady (s : State) : jnlReady (aseqTaken s) = jnlReady s := rfl

/-- The record of an acceptance is committed under the ASEQ taken. -/
def acceptJournaled (session sseq : Nat) (r : EvReq) (s : State) : State :=
  commit 0x01 (s.jnl.aseq + 1) session 0x05 sseq (evBytes r ++ []) (aseqTaken s)

/-- What the record of an acceptance leaves, where no event is pending. -/
structure AcceptEntry (s t : State) : Prop where
  evs : t.evs = []
  aseq : t.jnl.aseq = s.jnl.aseq + 1
  jseq : s.jnl.last < t.jnl.last
  drv : t.drv = s.drv
  plan : t.plan = s.plan
  time : t.time = s.time

theorem AcceptEntry.wr (h : AcceptEntry s t) (F : Fld) (ix : List Nat) (v : Nat) : AcceptEntry s (t.wr F ix v) where
  evs := (wr_evs _ _ _ _).trans h.evs
  aseq := by rw [wr_jnl, h.aseq]
  jseq := by rw [wr_jnl]; exact h.jseq
  drv := (wr_drv _ _ _ _).trans h.drv
  plan := (wr_plan _ _ _ _).trans h.plan
  time := (wr_time _ _ _ _).trans h.time

theorem acceptJournaled_entry (session sseq : Nat) (r : EvReq) (hev : s.evs = []) (hj : jnlReady s = true) :
    AcceptEntry s (acceptJournaled session sseq r s) := by
  have hsent : Sends false true (aseqTaken s) (acceptJournaled session sseq r s) := commit_sends _ _ _ _ _ _ .refl
  have hkept : WaveKept (aseqTaken s) (acceptJournaled session sseq r s) := commit_waveKept _ _ _ _ _ _ .refl
  have hlast : Journals (aseqTaken s) (acceptJournaled session sseq r s) :=
    commit_journals _ _ _ _ _ _ ((aseqTaken_jnlReady s).trans hj)
  generalize acceptJournaled session sseq r s = u at hsent hkept hlast
  refine ⟨?_, hkept.aseq, hlast.jseq, hsent.drv, ?_, ?_⟩
  · exact List.length_eq_zero_iff.1 (hsent.pending.trans (congrArg List.length hev))
  · rw [hsent.frame]
    rfl
  · rw [hsent.frame]
    rfl

/-- An event that passes validation, with no other pending, is accepted. -/
theorem acceptEvent_alone (session sseq : Nat) (r : EvReq) (v : Nat × Nat × List Nat) (hev : s.evs = []) (hj : jnlReady s = true) :
    AcceptedAlone session sseq r v.1 s (acceptEvent true true session sseq r v [] s) := by
  have hentry := (acceptJournaled_entry session sseq r hev hj).wr R.JNL_ASEQ [] (s.jnl.aseq + 1)
  unfold acceptJournaled aseqTaken commit at hentry
  unfold acceptEvent
  extract_lets a jn s0 s1 tab e w s2
  have he : (e.session, e.sseq, e.aseq, e.st, e.instant, e.req.descs) = (session, sseq, s.jnl.aseq + 1, evAccepted, v.1, r.descs) := rfl
  have halloc : tab = allocTab s1 := rfl
  have hs1 : AcceptEntry s s1 := hentry
  clear_value e tab s1
  have htab : tab.2 = { s1 with finals := tab.2.finals, shown := tab.2.shown } := by
    rw [halloc]
    exact allocTab_leaves s1
  have hs2 : s2 = { s1 with evs := s1.evs ++ [e], finals := tab.2.finals, shown := tab.2.shown } := by
    show ({ tab.2 with evs := tab.2.evs ++ [e] } : State) = _
    rw [htab]
  clear_value s2
  obtain ⟨hshow, -⟩ := showEv_tableOnly e 0 s2
  generalize showEv e 0 s2 = x at hshow
  obtain ⟨hpend, -⟩ := showPending_kept_low x
  generalize showPending x = y at hpend
  rw [hpend, hshow, hs2]
  refine ⟨?_, hs1.aseq, hs1.jseq, hs1.drv, hs1.plan, hs1.time⟩
  show (s1.evs ++ [e]).map _ = _
  rw [hs1.evs]
  exact congrArg (fun p => [p]) he

/-! ## Re-optimisation -/

/-- The acceptance of a re-optimisation event is counted, and its gap begins. -/
def reoptCounted (s : State) : State := { s with plan := { s.plan with reopts := s.plan.reopts + 1, reoptAt := some s.time } }

theorem reoptCounted_leaves (s : State) : (reoptCounted s).evs = s.evs ∧ (reoptCounted s).jnl = s.jnl ∧ (reoptCounted s).drv = s.drv :=
  ⟨rfl, rfl, rfl⟩

theorem reoptCounted_plan (s : State) : (reoptCounted s).plan.reopts = s.plan.reopts + 1 ∧ (reoptCounted s).plan.reoptAt = some s.time :=
  ⟨rfl, rfl⟩

theorem execReoptimisation_accepts {x : Nat} {v : Nat × Nat × List Nat} (hf : reoptFree s = true) (hw : reoptWanted s n = true)
    (hx : reoptInstant s (s.rd R.RS_CONN_DESC [n]) = some x)
    (hv : validateEvent 0 s.time (reoptReq s (s.rd R.RS_CONN_DESC [n]) x) s = .ok v) :
    exec (.reoptimisation n) s = .next (reoptCounted (acceptEvent true true 0 (reoptSseq s)
      (reoptReq s (s.rd R.RS_CONN_DESC [n]) x) v [] s)) := by
  show execReoptimisation n s = _
  unfold execReoptimisation
  rw [hf, hw, if_neg (by decide)]
  generalize acceptEvent true true 0 (reoptSseq s) = accept
  dsimp only
  rw [hx]
  dsimp only
  rw [hv]
  rfl

theorem reoptimisation_submits (s : State) (n t0 early x : Nat) (ds : List Nat) (hf : reoptFree s = true) (hw : reoptWanted s n = true)
    (hev : s.evs = []) (hx : reoptInstant s (s.rd R.RS_CONN_DESC [n]) = some x)
    (hv : validateEvent 0 s.time (reoptReq s (s.rd R.RS_CONN_DESC [n]) x) s = .ok (t0, early, ds)) :
    runs (.reoptimisation n) s fun t =>
      (t.evs.map fun e => (e.session, e.sseq, e.aseq, e.st, e.instant, e.req.descs)) =
        [(0, 2 * 2 ^ 30 + (s.plan.reopts + 1) % 2 ^ 24, s.jnl.aseq + 1, evAccepted, t0, [s.rd R.RS_CONN_DESC [n]])] ∧
      t.plan.reopts = s.plan.reopts + 1 ∧ t.plan.reoptAt = some s.time ∧
      t.jnl.aseq = s.jnl.aseq + 1 ∧ s.jnl.last < t.jnl.last ∧ t.drv = s.drv := by
  have h := acceptEvent_alone 0 (reoptSseq s) (reoptReq s (s.rd R.RS_CONN_DESC [n]) x) (t0, early, ds) hev (validateEvent_jnlReady hv)
  refine ⟨_, execReoptimisation_accepts hf hw hx hv, ?_⟩
  obtain ⟨hevs, hjnl, hdrv⟩ := reoptCounted_leaves (acceptEvent true true 0 (reoptSseq s) (reoptReq s (s.rd R.RS_CONN_DESC [n]) x)
    (t0, early, ds) [] s)
  obtain ⟨hcount, hat⟩ := reoptCounted_plan (acceptEvent true true 0 (reoptSseq s) (reoptReq s (s.rd R.RS_CONN_DESC [n]) x)
    (t0, early, ds) [] s)
  rw [hevs, hjnl, hdrv, hcount, hat, h.plan, h.time]
  exact ⟨h.events, rfl, rfl, h.aseq, h.jseq, h.drv⟩

/-- Before its gap has passed re-optimisation submits nothing (R206). -/
theorem reoptimisation_waits (s : State) (n : Nat) (h : reoptDue s = false) : runs (.reoptimisation n) s fun t => t = s := by
  have hfree : reoptFree s = false := by
    unfold reoptFree
    simp [h]
  refine ⟨s, ?_, rfl⟩
  show execReoptimisation n s = _
  unfold execReoptimisation
  rw [hfree, if_pos (by rfl)]

/-! ## The statement -/

/-- Settles O33: the best routing of a repair, the event of re-optimisation, and the refresh of elements and paths, clause by clause. -/
theorem repairsAndRefresh : Obligations.RepairsAndRefresh := by
  refine ⟨?none, ?best, ?submits, reoptimisation_waits, ?routed, ?unrouted, ?elem⟩
  case none =>
    intro s n hon hm hne hne'
    exact repairSolve_findsNone s n hon hm hne hne'
  case best =>
    intro s n cands c hon hm _ hw hne hc
    exact repairSolve_findsBest s n cands c hon hm hw hne hc
  case submits =>
    intro s n t0 early x ds hf hw hev hx hv
    exact reoptimisation_submits s n t0 early x ds hf hw hev hx hv
  case routed =>
    intro s n p r hn hp hon hr hrt
    exact qualityRefresh_routed s n p r hn hp hon hr hrt
  case unrouted =>
    intro s n p hn hp hon h
    refine qualityRefresh_unrouted s n p hn hp hon fun r hr => ?_
    rw [hr] at h
    exact h
  case elem =>
    intro s e hon he
    exact qualityRefresh_elem s e hon he

end Sys2Proof.Machine
end
